-- ==== Sys2Proof/Word.lean ====
section
/-! DEFINITION. The word types of the head, and sparse tables keyed by a number. -/

namespace Sys2Proof

/-- A 64-bit register or memory word. -/
abbrev Word := BitVec 64

/-- A byte. -/
abbrev Byte := BitVec 8

/-- A 64-byte job descriptor, byte 0 in the low bits (R94). -/
abbrev Desc := BitVec 512

/-- A sparse table: entries in strictly rising order of their number. -/
abbrev SMap (α : Type) := List (Nat × α)

end Sys2Proof
end

