-- ==== Sys2Proof/Syntax.lean ====
section
/-! DEFINITION. The commands of the head (spec/opcode_table.json), with their operands. A Mequesko instruction names the
thread that executes it and carries the fields of its instruction word (R72); an event of a unit, a link or a pin carries
what it brings (assumption log 11). -/

namespace Sys2Proof

/-- Which requester a register access comes from: the service host through BAR0, or a core's thread (R438, R389). -/
inductive Port where
  | host
  | core (n : Nat)
  deriving DecidableEq, Repr

/-- What a received frame carries above Ethernet and MACsec (R135). -/
inductive FrameKind where
  /-- EAPOL. -/
  | eapol
  /-- ARP, neighbour discovery, ICMP, ICMPv6 or LLDP. -/
  | firmware
  /-- An IP packet: whether IPv6, its destination address as a number, protocol and destination port; an IPv4 fragment, with options,
  an IPv6 extension header, a checksum that fails, URG set. -/
  | ip (v6 : Bool) (dst proto dport : Nat) (frag opts ext badSum urg : Bool)
  deriving DecidableEq, Repr

/-- A received Ethernet frame (R131 to R135): length with FCS, FCS result, number of tags and the VLAN of its tag, PAUSE, priority
flow control (the priorities named and a pause time for each), destination address, broadcast or solicited-node, what its SecTAG
says (SCI, AN, PN recovered), content and the frame's bytes without FCS. -/
structure RxFrame where
  len : Nat
  fcsOk : Bool
  tags : Nat
  vlan : Nat
  pause : Bool
  pfc : Option (Nat × List Nat)
  dst : Nat
  group : Bool
  sec : Option (Nat × Nat × Nat)
  kind : FrameKind
  data : List Byte
  deriving DecidableEq, Repr

/-- What a SYN offers (R136): MSS (0 where absent), window, shift of window scaling, timestamps, SACK and ECN. -/
structure TcpOpts where
  mss : Nat
  wnd : Nat
  wscale : Option Nat
  ts : Bool
  sack : Bool
  ecn : Bool
  deriving DecidableEq, Repr

/-- A SYN: its 4-tuple and what it offers. -/
structure SynSeg where
  tuple : Nat
  opts : TcpOpts
  deriving DecidableEq, Repr

/-- What an acknowledgement says (R136): the position of the device's stream it acknowledges, the window field, the timestamp and
its echo, the SACK blocks as positions, and ECN echo. -/
structure TcpAck where
  upTo : Nat
  wnd : Nat
  ts : Option (Nat × Nat)
  sack : List (Nat × Nat)
  ece : Bool
  deriving DecidableEq, Repr

/-- What the header of an H2CData PDU names: command identifier, transfer tag, LAST_PDU. -/
structure H2cTag where
  cid : Nat
  tag : Nat
  last : Bool
  deriving DecidableEq, Repr

/-- What the sleds report of a page that an engine copies: nothing, that it cannot be corrected, or that its program failed. -/
inductive PageFault where
  | none | read | program
  deriving DecidableEq, Repr

/-- What a media operation finds: the pages or headers that cannot be corrected, as a bit map, and the most bits corrected in each. -/
structure MediaBits where
  bad : Nat
  bits : List Nat
  deriving DecidableEq, Repr

/-- A RoCEv2 packet received (R333, R340): opcode, PSN, AckReq, ICRC result, RETH address, rkey and DMA length of a first
packet, immediate data, payload. -/
structure RocePkt where
  opc : Nat
  psn : Nat
  ackReq : Bool
  icrcOk : Bool
  vaddr : Nat
  rkey : Nat
  dmaLen : Nat
  imm : Nat
  data : List Byte
  deriving DecidableEq, Repr

/-- What an acknowledgement packet says (R338, R340). -/
inductive AckKind where
  | ack
  /-- RNR NAK with its timer field. -/
  | rnr (timer : Nat)
  | seqErr | access | invalid | operational
  deriving DecidableEq, Repr

/-- An acknowledgement packet that arrives: whether its ICRC is right (R333), and what it says. -/
structure AckPkt where
  icrcOk : Bool
  kind : AckKind
  deriving DecidableEq, Repr

/-- The 64-byte command of an NML CMD frame (R297). -/
structure NmlCmd where
  opc : Nat
  slc : Bool
  susp : Bool
  die : Nat
  sub : Nat
  eu : Nat
  page : Nat
  count : Nat
  epoch : Nat
  half : Nat
  deriving DecidableEq, Repr

/-- A sequenced frame received from a sled (R292, R293): results of the HCHK, length and FCRC checks, FSEQ, TAG, OFFSET,
LAST and payload. -/
structure NmlRx where
  hchkOk : Bool
  lenOk : Bool
  fcrcOk : Bool
  fseq : Nat
  tag : Nat
  off : Nat
  last : Bool
  data : List Byte
  deriving DecidableEq, Repr

/-- An error the endpoint reports through AER (R453): a link-layer error, a poisoned TLP, an Unsupported Request, a fatal
protocol error, or an uncorrectable error that a device read of BAR4 met. -/
inductive TlpErr where
  | correctable | poisoned | unsupported | fatal | internal
  deriving DecidableEq, Repr

/-- What the service host changes of MSI-X (R436, R450): MSI-X Enable, Bus Master Enable, the mask bit of a vector. -/
inductive MsixOp where
  | enable (on : Bool)
  | busMaster (on : Bool)
  | mask (vector : Nat) (on : Bool)
  deriving DecidableEq, Repr

/-- What keeper firmware reports of the lifecycle (R23): ready, ACTIVATE, a takeover, a handover begun, every group out,
every group taken, a handover abandoned. -/
inductive LifeCmd where
  | ready | activate | takeover | handover | allOut | allTaken | abort
  deriving DecidableEq, Repr

/-- The commands of the block: one constructor per row of spec/opcode_table.json. -/
inductive Instr where
  /-- ADD (R76): Instruction: rd = rs1 + rs2 modulo 2^64. -/
  | add (t : BitVec 8) (rd : BitVec 5) (rs1 : BitVec 5) (rs2 : BitVec 5)
  /-- SUB (R76): Instruction: rd = rs1 - rs2 modulo 2^64. -/
  | sub (t : BitVec 8) (rd : BitVec 5) (rs1 : BitVec 5) (rs2 : BitVec 5)
  /-- AND (R76): Instruction: bitwise AND of rs1 and rs2. -/
  | and (t : BitVec 8) (rd : BitVec 5) (rs1 : BitVec 5) (rs2 : BitVec 5)
  /-- OR (R76): Instruction: bitwise OR of rs1 and rs2. -/
  | or (t : BitVec 8) (rd : BitVec 5) (rs1 : BitVec 5) (rs2 : BitVec 5)
  /-- XOR (R76): Instruction: bitwise XOR of rs1 and rs2. -/
  | xor (t : BitVec 8) (rd : BitVec 5) (rs1 : BitVec 5) (rs2 : BitVec 5)
  /-- ANDN (R76): Instruction: rs1 AND NOT rs2. -/
  | andn (t : BitVec 8) (rd : BitVec 5) (rs1 : BitVec 5) (rs2 : BitVec 5)
  /-- SLL (R76): Instruction: shift left logical by rs2[5:0]. -/
  | sll (t : BitVec 8) (rd : BitVec 5) (rs1 : BitVec 5) (rs2 : BitVec 5)
  /-- SRL (R76): Instruction: shift right with zero fill. -/
  | srl (t : BitVec 8) (rd : BitVec 5) (rs1 : BitVec 5) (rs2 : BitVec 5)
  /-- SRA (R76): Instruction: shift right with sign fill. -/
  | sra (t : BitVec 8) (rd : BitVec 5) (rs1 : BitVec 5) (rs2 : BitVec 5)
  /-- ROTR (R76): Instruction: rotate rs1 right by rs2[5:0]. -/
  | rotr (t : BitVec 8) (rd : BitVec 5) (rs1 : BitVec 5) (rs2 : BitVec 5)
  /-- SLT (R76): Instruction: signed less-than compare. -/
  | slt (t : BitVec 8) (rd : BitVec 5) (rs1 : BitVec 5) (rs2 : BitVec 5)
  /-- SLTU (R76): Instruction: unsigned less-than compare. -/
  | sltu (t : BitVec 8) (rd : BitVec 5) (rs1 : BitVec 5) (rs2 : BitVec 5)
  /-- MIN (R76): Instruction: signed minimum. -/
  | min (t : BitVec 8) (rd : BitVec 5) (rs1 : BitVec 5) (rs2 : BitVec 5)
  /-- MAX (R76): Instruction: signed maximum. -/
  | max (t : BitVec 8) (rd : BitVec 5) (rs1 : BitVec 5) (rs2 : BitVec 5)
  /-- MINU (R76): Instruction: unsigned minimum. -/
  | minu (t : BitVec 8) (rd : BitVec 5) (rs1 : BitVec 5) (rs2 : BitVec 5)
  /-- MAXU (R76): Instruction: unsigned maximum. -/
  | maxu (t : BitVec 8) (rd : BitVec 5) (rs1 : BitVec 5) (rs2 : BitVec 5)
  /-- SER_B (R78): Instruction: 8-bit serial comparison of rs1 and rs2. -/
  | serB (t : BitVec 8) (rd : BitVec 5) (rs1 : BitVec 5) (rs2 : BitVec 5)
  /-- SER_H (R78): Instruction: 16-bit serial comparison. -/
  | serH (t : BitVec 8) (rd : BitVec 5) (rs1 : BitVec 5) (rs2 : BitVec 5)
  /-- SER_P (R78): Instruction: 24-bit serial comparison. -/
  | serP (t : BitVec 8) (rd : BitVec 5) (rs1 : BitVec 5) (rs2 : BitVec 5)
  /-- SER_W (R78): Instruction: 32-bit serial comparison. -/
  | serW (t : BitVec 8) (rd : BitVec 5) (rs1 : BitVec 5) (rs2 : BitVec 5)
  /-- MUL (R76): Instruction: low 64 bits of the product. -/
  | mul (t : BitVec 8) (rd : BitVec 5) (rs1 : BitVec 5) (rs2 : BitVec 5)
  /-- MULH (R76): Instruction: high 64 bits of the signed product. -/
  | mulh (t : BitVec 8) (rd : BitVec 5) (rs1 : BitVec 5) (rs2 : BitVec 5)
  /-- MULHU (R76): Instruction: high 64 bits of the unsigned product. -/
  | mulhu (t : BitVec 8) (rd : BitVec 5) (rs1 : BitVec 5) (rs2 : BitVec 5)
  /-- DIV (R77): Instruction: signed division with defined divide-by-zero and overflow results. -/
  | div (t : BitVec 8) (rd : BitVec 5) (rs1 : BitVec 5) (rs2 : BitVec 5)
  /-- DIVU (R77): Instruction: unsigned division. -/
  | divu (t : BitVec 8) (rd : BitVec 5) (rs1 : BitVec 5) (rs2 : BitVec 5)
  /-- REM (R77): Instruction: signed remainder. -/
  | rem (t : BitVec 8) (rd : BitVec 5) (rs1 : BitVec 5) (rs2 : BitVec 5)
  /-- REMU (R77): Instruction: unsigned remainder. -/
  | remu (t : BitVec 8) (rd : BitVec 5) (rs1 : BitVec 5) (rs2 : BitVec 5)
  /-- CLZ (R76): Instruction: count leading zero bits. -/
  | clz (t : BitVec 8) (rd : BitVec 5) (rs1 : BitVec 5)
  /-- CTZ (R76): Instruction: count trailing zero bits. -/
  | ctz (t : BitVec 8) (rd : BitVec 5) (rs1 : BitVec 5)
  /-- POPC (R76): Instruction: count set bits. -/
  | popc (t : BitVec 8) (rd : BitVec 5) (rs1 : BitVec 5)
  /-- BSWAP (R76): Instruction: reverse the 8 bytes of rs1. -/
  | bswap (t : BitVec 8) (rd : BitVec 5) (rs1 : BitVec 5)
  /-- ADDI (R79): Instruction: add sign-extended immediate. -/
  | addi (t : BitVec 8) (rd : BitVec 5) (rs1 : BitVec 5) (imm : BitVec 16)
  /-- ANDI (R79): Instruction: AND with zero-extended immediate. -/
  | andi (t : BitVec 8) (rd : BitVec 5) (rs1 : BitVec 5) (imm : BitVec 16)
  /-- ORI (R79): Instruction: OR with zero-extended immediate. -/
  | ori (t : BitVec 8) (rd : BitVec 5) (rs1 : BitVec 5) (imm : BitVec 16)
  /-- XORI (R79): Instruction: XOR with zero-extended immediate. -/
  | xori (t : BitVec 8) (rd : BitVec 5) (rs1 : BitVec 5) (imm : BitVec 16)
  /-- SLTI (R79): Instruction: signed compare with immediate. -/
  | slti (t : BitVec 8) (rd : BitVec 5) (rs1 : BitVec 5) (imm : BitVec 16)
  /-- SLTIU (R79): Instruction: unsigned compare with immediate. -/
  | sltiu (t : BitVec 8) (rd : BitVec 5) (rs1 : BitVec 5) (imm : BitVec 16)
  /-- SLLI (R79): Instruction: shift left by immediate. -/
  | slli (t : BitVec 8) (rd : BitVec 5) (rs1 : BitVec 5) (sh : BitVec 6)
  /-- SRLI (R79): Instruction: logical right shift by immediate. -/
  | srli (t : BitVec 8) (rd : BitVec 5) (rs1 : BitVec 5) (sh : BitVec 6)
  /-- SRAI (R79): Instruction: arithmetic right shift by immediate. -/
  | srai (t : BitVec 8) (rd : BitVec 5) (rs1 : BitVec 5) (sh : BitVec 6)
  /-- LUI (R79): Instruction: load sign-extended immediate shifted left 16. -/
  | lui (t : BitVec 8) (rd : BitVec 5) (imm : BitVec 16)
  /-- SHI (R79): Instruction: shift rs1 left 16 and insert immediate. -/
  | shi (t : BitVec 8) (rd : BitVec 5) (rs1 : BitVec 5) (imm : BitVec 16)
  /-- LD_B (R80): Instruction: load 1 byte sign-extended. -/
  | ldB (t : BitVec 8) (rd : BitVec 5) (rs1 : BitVec 5) (disp : BitVec 16)
  /-- LD_BU (R80): Instruction: load 1 byte zero-extended. -/
  | ldBu (t : BitVec 8) (rd : BitVec 5) (rs1 : BitVec 5) (disp : BitVec 16)
  /-- LD_H (R80): Instruction: load 2 bytes sign-extended. -/
  | ldH (t : BitVec 8) (rd : BitVec 5) (rs1 : BitVec 5) (disp : BitVec 16)
  /-- LD_HU (R80): Instruction: load 2 bytes zero-extended. -/
  | ldHu (t : BitVec 8) (rd : BitVec 5) (rs1 : BitVec 5) (disp : BitVec 16)
  /-- LD_W (R80): Instruction: load 4 bytes sign-extended. -/
  | ldW (t : BitVec 8) (rd : BitVec 5) (rs1 : BitVec 5) (disp : BitVec 16)
  /-- LD_WU (R80): Instruction: load 4 bytes zero-extended. -/
  | ldWu (t : BitVec 8) (rd : BitVec 5) (rs1 : BitVec 5) (disp : BitVec 16)
  /-- LD_D (R80): Instruction: load 8 bytes. -/
  | ldD (t : BitVec 8) (rd : BitVec 5) (rs1 : BitVec 5) (disp : BitVec 16)
  /-- ST_B (R80): Instruction: store the low byte. -/
  | stB (t : BitVec 8) (rs : BitVec 5) (rs1 : BitVec 5) (disp : BitVec 16)
  /-- ST_H (R80): Instruction: store the low 2 bytes. -/
  | stH (t : BitVec 8) (rs : BitVec 5) (rs1 : BitVec 5) (disp : BitVec 16)
  /-- ST_W (R80): Instruction: store the low 4 bytes. -/
  | stW (t : BitVec 8) (rs : BitVec 5) (rs1 : BitVec 5) (disp : BitVec 16)
  /-- ST_D (R80): Instruction: store 8 bytes. -/
  | stD (t : BitVec 8) (rs : BitVec 5) (rs1 : BitVec 5) (disp : BitVec 16)
  /-- AMO_ADD (R81): Atomic add at memory, returning the old value. -/
  | amoAdd (t : BitVec 8) (wide : Bool) (rd : BitVec 5) (rs1 : BitVec 5) (rs2 : BitVec 5)
  /-- AMO_SWAP (R81): Atomic swap. -/
  | amoSwap (t : BitVec 8) (wide : Bool) (rd : BitVec 5) (rs1 : BitVec 5) (rs2 : BitVec 5)
  /-- AMO_CAS (R81): Atomic compare-and-swap against the entry value of rd. -/
  | amoCas (t : BitVec 8) (wide : Bool) (rd : BitVec 5) (rs1 : BitVec 5) (rs2 : BitVec 5)
  /-- AMO_AND (R81): Atomic AND. -/
  | amoAnd (t : BitVec 8) (wide : Bool) (rd : BitVec 5) (rs1 : BitVec 5) (rs2 : BitVec 5)
  /-- AMO_OR (R81): Atomic OR. -/
  | amoOr (t : BitVec 8) (wide : Bool) (rd : BitVec 5) (rs1 : BitVec 5) (rs2 : BitVec 5)
  /-- AMO_MAXU (R81): Atomic unsigned maximum. -/
  | amoMaxu (t : BitVec 8) (wide : Bool) (rd : BitVec 5) (rs1 : BitVec 5) (rs2 : BitVec 5)
  /-- AMO_MINU (R81): Atomic unsigned minimum. -/
  | amoMinu (t : BitVec 8) (wide : Bool) (rd : BitVec 5) (rs1 : BitVec 5) (rs2 : BitVec 5)
  /-- BEQ (R82): Branch if equal. -/
  | beq (t : BitVec 8) (ra : BitVec 5) (rb : BitVec 5) (off : BitVec 16)
  /-- BNE (R82): Branch if not equal. -/
  | bne (t : BitVec 8) (ra : BitVec 5) (rb : BitVec 5) (off : BitVec 16)
  /-- BLT (R82): Branch if signed less. -/
  | blt (t : BitVec 8) (ra : BitVec 5) (rb : BitVec 5) (off : BitVec 16)
  /-- BGE (R82): Branch if signed greater or equal. -/
  | bge (t : BitVec 8) (ra : BitVec 5) (rb : BitVec 5) (off : BitVec 16)
  /-- BLTU (R82): Branch if unsigned less. -/
  | bltu (t : BitVec 8) (ra : BitVec 5) (rb : BitVec 5) (off : BitVec 16)
  /-- BGEU (R82): Branch if unsigned greater or equal. -/
  | bgeu (t : BitVec 8) (ra : BitVec 5) (rb : BitVec 5) (off : BitVec 16)
  /-- JAL (R82): Jump PC-relative and link. -/
  | jal (t : BitVec 8) (rd : BitVec 5) (off : BitVec 21)
  /-- JALR (R82): Jump to register plus immediate and link. -/
  | jalr (t : BitVec 8) (rd : BitVec 5) (rs1 : BitVec 5) (imm : BitVec 16)
  /-- J (R83): Issue a job descriptor from eight registers to a unit ring and return a ticket. -/
  | j (t : BitVec 8) (rd : BitVec 5) (rs1 : BitVec 5) (cls : BitVec 5) (inst : BitVec 7)
  /-- Q_PUSH (R85): Enqueue a work item on a hardware queue. -/
  | qPush (t : BitVec 8) (inherit : Bool) (rd : BitVec 5) (rs1 : BitVec 5) (rs2 : BitVec 5)
  /-- Q_TAKE (R86): Keeper takes the head item of a keeper queue. -/
  | qTake (t : BitVec 8) (rd : BitVec 5) (rs1 : BitVec 5)
  /-- Q_FREE (R86): Keeper releases an item slot that no one can still reach. -/
  | qFree (t : BitVec 8) (rd : BitVec 5) (rs1 : BitVec 5)
  /-- Q_FWD (R60): Drain tickets, move the current item to another queue and end the handler. -/
  | qFwd (t : BitVec 8) (rd : BitVec 5) (rs1 : BitVec 5)
  /-- Q_BIND (R56): Keeper binds a queue with a binding word. -/
  | qBind (t : BitVec 8) (rd : BitVec 5) (rs1 : BitVec 5) (rs2 : BitVec 5)
  /-- Q_STAT (R85): Return a queue's item count, state and running flag. -/
  | qStat (t : BitVec 8) (rd : BitVec 5) (rs1 : BitVec 5)
  /-- STG_ALLOC (R87): Allocate a staging buffer first fit and return its handle. -/
  | stgAlloc (t : BitVec 8) (rd : BitVec 5) (rs1 : BitVec 5)
  /-- STG_FREE (R87): Free a staging buffer by current handle and advance its GEN. -/
  | stgFree (t : BitVec 8) (rd : BitVec 5) (rs1 : BitVec 5)
  /-- SRCH_FIND (R88): Search a bank with a 160-bit key and set the thread's iterator. -/
  | srchFind (t : BitVec 8) (bank : BitVec 1) (rd : BitVec 5) (rs1 : BitVec 5)
  /-- SRCH_NEXT (R89): Continue the thread's search iterator. -/
  | srchNext (t : BitVec 8) (rd : BitVec 5)
  /-- SRCH_WR (R88): Write a search entry and its shadow. -/
  | srchWr (t : BitVec 8) (bank : BitVec 1) (rd : BitVec 5) (rs1 : BitVec 5) (rs2 : BitVec 5)
  /-- SRCH_CLR (R88): Invalidate a search entry. -/
  | srchClr (t : BitVec 8) (rd : BitVec 5) (rs2 : BitVec 5)
  /-- SRCH_RD (R88): Keeper reads a search entry into registers. -/
  | srchRd (t : BitVec 8) (rd : BitVec 5) (rs2 : BitVec 5)
  /-- WKT_ADM (R112): Submit an admission request, new or CHILD, to the Wicket. -/
  | wktAdm (t : BitVec 8) (rd : BitVec 5) (rs1 : BitVec 5) (rs2 : BitVec 5)
  /-- WKT_SLK (R123): Return the current item's remaining slack. -/
  | wktSlk (t : BitVec 8) (rd : BitVec 5)
  /-- WKT_FIN (R121): End the current item's promise with a cause. -/
  | wktFin (t : BitVec 8) (rd : BitVec 5) (rs1 : BitVec 5)
  /-- WKT_HZN (R90): Keeper raises a horizon's BOOKED time. -/
  | wktHzn (t : BitVec 8) (rd : BitVec 5) (rs1 : BitVec 5) (rs2 : BitVec 5)
  /-- CSR_R (R38): Read a control register. -/
  | csrR (t : BitVec 8) (rd : BitVec 5) (csr : BitVec 12)
  /-- CSR_W (R38): Write a control register. -/
  | csrW (t : BitVec 8) (rs1 : BitVec 5) (csr : BitVec 12)
  /-- ERET (R41): Return from exception, restoring privilege and clearing EXC. -/
  | eret (t : BitVec 8)
  /-- SYSC (R91): Take the SYSCALL exception. -/
  | sysc (t : BitVec 8) (imm : BitVec 12)
  /-- BRK (R91): Take the BREAK exception. -/
  | brk (t : BitVec 8) (imm : BitVec 12)
  /-- FENCE (R47): Wait until earlier loads returned and stores reached memory. -/
  | fence (t : BitVec 8)
  /-- DINV (R52): Invalidate one data-cache line. -/
  | dinv (t : BitVec 8) (rs1 : BitVec 5)
  /-- DINV_ALL (R52): Invalidate the whole data cache and set D_INVD. -/
  | dinvAll (t : BitVec 8)
  /-- IINV_ALL (R51): Invalidate the whole instruction cache and set I_INVD. -/
  | iinvAll (t : BitVec 8)
  /-- START (R93): Keeper starts a FREE keeper-marked thread. -/
  | start (t : BitVec 8) (rd : BitVec 5) (rs1 : BitVec 5) (imm : BitVec 12)
  /-- WAIT (R92): Wait for a completion, timeout, wake or watchdog. -/
  | wait (t : BitVec 8) (rd : BitVec 5) (rs1 : BitVec 5)
  /-- WAIT_T (R65): Wait for and consume a ticket's completion. -/
  | waitT (t : BitVec 8) (rd : BitVec 5) (rs1 : BitVec 5)
  /-- POLL_T (R91): Test whether a live ticket has its completion. -/
  | pollT (t : BitVec 8) (rd : BitVec 5) (rs1 : BitVec 5)
  /-- DONE (R60): Drain tickets, release the item slot and free the thread. -/
  | done (t : BitVec 8)
  /-- J_RING_RESUME (R62): A J stalled on a full ring issues when an entry frees. -/
  | jRingResume (t : BitVec 8)
  /-- JOB_COMPLETION (R66): A unit's completion record reaches the thread's ticket table. -/
  | jobCompletion (k : Nat)
  /-- WAIT_TIMEOUT (R92): A WAIT's timeout expires and the thread resumes. -/
  | waitTimeout (t : BitVec 8)
  /-- WATCHDOG (R61): Handler budget reaches 0 and the thread takes WATCHDOG. -/
  | watchdog (t : BitVec 8)
  /-- DISPATCH (R58): A cluster dispatcher starts a handler on a FREE thread for a candidate item. -/
  | dispatch (cl : Nat) (thr : Nat)
  /-- MQ_WAKE_WRITE (R68): Writing MQ_WAKE completes the named threads' WAIT. -/
  | mqWakeWrite (cl : Nat) (value : Nat)
  /-- MQ_RUN_WRITE (R37): Writing CORE_EN stops or restarts the threads of a core. -/
  | mqRunWrite (cl : Nat) (value : Nat)
  /-- MQ_CACHE_CTL_WRITE (R51): Cache enable write, refused with EN_ERR unless invalidated. -/
  | mqCacheCtlWrite (cl : Nat) (value : Nat)
  /-- MQ_POOL_REARM (R53): REARM sets MIN of MQ_POOL_FREE to the current FREE. -/
  | mqPoolRearm
  /-- LOAD_START (R405): LOAD copies the NEXT bank to the Code region and starts the keepers. -/
  | loadStart
  /-- CAPSULE_ADMISSION (R107): Wicket takes a receive record, checks it and admits or refuses the command. -/
  | capsuleAdmission
  /-- PROMISE_EXPIRY (R125): A LIVE deadline passes; cause attributed and counted, thread woken. -/
  | promiseExpiry (k : Nat)
  /-- LEDGER_REPORT (R116): A unit reports a REPORTED horizon to the Wicket. -/
  | ledgerReport (h : Nat) (time : Nat)
  /-- HORIZON_REFRESH (R117): Every 100 ms stale horizon times are rewritten to now. -/
  | horizonRefresh
  /-- WKT_CTL_WRITE (R374): Admission control write; ADMIT_EN ignored while bank 0 uninitialised. -/
  | wktCtlWrite (v : Nat)
  /-- WKT_CLASS_STORE (R120): Store to a class entry re-evaluates VALID. -/
  | wktClassStore (c : Nat) (w : Nat) (v : Nat)
  /-- WKT_TENANT_STORE (R119): Writing a tenant RATE or BURST refills its bucket. -/
  | wktTenantStore (n : Nat) (w : Nat) (v : Nat)
  /-- FE_PORTMODE_WRITE (R130): Set quad port modes; unmatched 800G half sets MODE_ERR. -/
  | fePortmodeWrite (v : Nat)
  /-- FE_CTL_WRITE (R168): Enable quads and acceptance; QUAD_EN refused until bases written. -/
  | feCtlWrite (v : Nat)
  /-- FE_MSA_KEY_WRITE (R170): Writing SAK or SALT clears the SA's VALID. -/
  | feMsaKeyWrite (e : Nat) (w : Nat) (v : Nat)
  /-- FE_LINK_CHANGE (R130): A front-end port link goes up or down. -/
  | feLinkChange (port : Nat) (up : Bool)
  /-- FE_FRAME_RX (R131): A received Ethernet frame is checked, MACsec-verified and classified or dropped. -/
  | feFrameRx (port : Nat) (f : RxFrame)
  /-- CTX_FETCH_COMPLETE (R145): A connection context arrives on chip and held segments resume. -/
  | ctxFetchComplete (c : Nat)
  /-- SYN_RX (R143): A SYN to a listener allocates a connection or is answered with RST. -/
  | synRx (quad : Nat) (ipif : Nat) (lport : Nat) (syn : SynSeg)
  /-- SYNACK_ACK_RX (R143): ACK of the SYN-ACK moves the connection to AWAIT_IC. -/
  | synackAckRx (c : Nat) (bytes : Nat)
  /-- SYNACK_RETRY_TIMEOUT (R143): Three unanswered SYN-ACKs release the index. -/
  | synackRetryTimeout (c : Nat)
  /-- ICREQ_RX (R139): ICReq answered with ICResp or the connection is terminated. -/
  | icreqRx (c : Nat) (bytes : Nat) (type : Nat) (pfv : Nat) (hpda : Nat) (hd : Bool) (dd : Bool)
  /-- IC_TIMEOUT (R143): IC_MS passes in AWAIT_IC; C2HTermReq and FIN. -/
  | icTimeout (c : Nat)
  /-- CONNECT_CAPSULE_RX (R143): Fabrics Connect capsule enqueued on CONNECT_Q without a promise. -/
  | connectCapsuleRx (c : Nat) (bytes : Nat) (plen : Nat) (sqe : BitVec 512) (data : List Byte) (hd : Nat) (dd : Nat)
  /-- CAPSULE_CMD_RX (R147): Complete capsule on a READY connection passes ingress checks and is posted. -/
  | capsuleCmdRx (c : Nat) (bytes : Nat) (plen : Nat) (sqe : BitVec 512) (data : List Byte) (hd : Nat) (dd : Nat)
  /-- H2CDATA_RX (R160): H2CData PDU checked against its window, digests and protection. -/
  | h2cdataRx (c : Nat) (bytes : Nat) (tag : H2cTag) (off : Nat) (data : List Byte) (hd : Nat) (dd : Nat)
  /-- H2CTERMREQ_RX (R140): Host termination request closes the connection. -/
  | h2ctermreqRx (c : Nat) (bytes : Nat) (len : Nat)
  /-- RST_RX (R143): TCP RST received; connection goes CLOSING. -/
  | rstRx (c : Nat) (bytes : Nat)
  /-- TCP_ACK_RX (R167): Host TCP acknowledgement; RESPOND completes at its last byte. -/
  | tcpAckRx (c : Nat) (bytes : Nat) (a : TcpAck)
  /-- TCP_RTO_EXPIRY (R137): Retransmission timer fires; resend or reset after RETRIES. -/
  | tcpRtoExpiry (c : Nat)
  /-- XFER_TIMEOUT (R162): R2T window not complete within XFER_MS; SOLICIT completes TIMEOUT. -/
  | xferTimeout (c : Nat) (tag : Nat)
  /-- CLOSING_DONE (R143): TCP close completes or 1 s passes; index entry removed. -/
  | closingDone (c : Nat)
  /-- FE_RESPOND (R167): Send read data and CapsuleResp. -/
  | feRespond (inst : Nat) (cl : Nat)
  /-- FE_SOLICIT (R167): Open a window and send the ready-to-transfer PDU. -/
  | feSolicit (inst : Nat) (cl : Nat)
  /-- FE_REFUSE (R164): Complete a command with the refusal status. -/
  | feRefuse (inst : Nat) (cl : Nat)
  /-- FE_AEN (R167): Complete the oldest outstanding Asynchronous Event Request. -/
  | feAen (inst : Nat) (cl : Nat)
  /-- FE_BIND (R166): CONN_CTL BIND stores tenant, queue and NVMe queue. -/
  | feBind (inst : Nat) (cl : Nat)
  /-- FE_SET_MSS (R166): CONN_CTL SET_MSS updates the connection MSS. -/
  | feSetMss (inst : Nat) (cl : Nat)
  /-- FE_TERMINATE (R143): CONN_CTL TERMINATE sends C2HTermReq and FIN. -/
  | feTerminate (inst : Nat) (cl : Nat)
  /-- FE_RAW_TX (R167): Send one raw frame on a port. -/
  | feRawTx (inst : Nat) (cl : Nat)
  /-- FE_RAW_RX (R167): Post a buffer for the next raw frame to firmware. -/
  | feRawRx (inst : Nat) (cl : Nat)
  /-- JOURNAL_APPEND (R175): Append a record to the own ring and mirror it to the partner. -/
  | journalAppend (cl : Nat)
  /-- JOURNAL_RETIRE_MARK (R177): Set RETIRED on a record in the ring and mirror. -/
  | journalRetireMark (cl : Nat)
  /-- JRN_CTL_WRITE (R185): Journal control write, including the single-head rule. -/
  | jrnCtlWrite (v : Nat)
  /-- JRN_START_WRITE (R194): Set HEAD and TAIL of an empty ring while EN is 0. -/
  | jrnStartWrite (v : Nat)
  /-- PFAIL_FALL (R426): PFAIL_N detected low; VAULTING and flush or record only. -/
  | pfailFall
  /-- VAULT_APPEND_TIMEOUT (R190): Started appends unacknowledged after 100 µs complete MEDIA_TIMEOUT. -/
  | vaultAppendTimeout
  /-- VAULT_FLUSH_COMPLETE (R190): All areas done; logbook commit and DOWN. -/
  | vaultFlushComplete (bad : List (Nat × Nat))
  /-- DG_START_JOB (R198): Digest START opens a message in a slot. -/
  | dgStartJob (inst : Nat) (cl : Nat)
  /-- DG_UPDATE (R198): Digest UPDATE processes more message bytes. -/
  | dgUpdate (inst : Nat) (cl : Nat)
  /-- DG_FINAL (R198): Digest FINAL pads and finishes the message. -/
  | dgFinal (inst : Nat) (cl : Nat)
  /-- DG_ONESHOT (R198): Digest of a whole message in one job. -/
  | dgOneshot (inst : Nat) (cl : Nat)
  /-- DG_KEYLOAD (R199): Load or clear the HMAC key states of a slot. -/
  | dgKeyload (inst : Nat) (cl : Nat)
  /-- DG_CTL_WRITE (R203): Register port control; PORT_EN change may set ORDER_ERR. -/
  | dgCtlWrite (lane : Nat) (v : Nat)
  /-- DG_PORT_START (R204): DG_CMD START begins a port message. -/
  | dgPortStart (lane : Nat)
  /-- DG_PORT_FIN0 (R204): DG_CMD FIN0 finishes the port message with no more bytes. -/
  | dgPortFin0 (lane : Nat)
  /-- DG_DATA_WRITE (R204): Append 8 bytes to the port message. -/
  | dgDataWrite (lane : Nat) (v : Nat)
  /-- DG_LAST_WRITE (R204): Append final n bytes and finish the port message. -/
  | dgLastWrite (lane : Nat) (n : Nat) (v : Nat)
  /-- DG_RESULT_READ (R205): Read of a port result register, ordered after earlier writes. -/
  | dgResultRead (lane : Nat) (k : Nat)
  /-- DDX_LOOKUP (R209): Look up a fingerprint. -/
  | ddxLookup (cl : Nat)
  /-- DDX_LOOKUP_REF (R209): Look up and take a reference. -/
  | ddxLookupRef (cl : Nat)
  /-- DDX_REF (R209): Take a reference if EXPECT matches. -/
  | ddxRef (cl : Nat)
  /-- DDX_INSERT (R211): Insert an entry, evicting or failing NO_SPACE. -/
  | ddxInsert (cl : Nat)
  /-- DDX_UNREF (R209): Drop a reference, freeing at 0. -/
  | ddxUnref (cl : Nat)
  /-- DDX_REPOINT (R209): Replace an entry's location if EXPECT matches. -/
  | ddxRepoint (cl : Nat)
  /-- DDX_INIT (R215): INIT write starts clearing every index entry. -/
  | ddxInit
  /-- DDX_INIT_DONE (R215): Index clear completes and INIT_DONE sets. -/
  | ddxInitDone
  /-- DDX_AGE_TICK (R212): NOW advances by one every PERIOD_MS. -/
  | ddxAgeTick
  /-- DDX_SWEEP_VISIT (R212): Age sweep reads a bucket and rewrites old AGE values. -/
  | ddxSweepVisit
  /-- OX_COMPRESS (R216): Compress one grain into cells, raw or zero. -/
  | oxCompress (inst : Nat) (cl : Nat)
  /-- OX_DECOMPRESS (R218): Decompress a grain and check its CRC. -/
  | oxDecompress (inst : Nat) (cl : Nat)
  /-- XTS_ENCRYPT (R221): Encrypt one data unit with the location tweak. -/
  | xtsEncrypt (inst : Nat) (cl : Nat)
  /-- XTS_DECRYPT (R221): Decrypt one data unit with the location tweak. -/
  | xtsDecrypt (inst : Nat) (cl : Nat)
  /-- RDN_ENCODE (R102): Compute parity positions of a stripe. -/
  | rdnEncode (inst : Nat) (cl : Nat)
  /-- RDN_DECODE (R102): Reconstruct missing positions or complete LOST. -/
  | rdnDecode (inst : Nat) (cl : Nat)
  /-- RDN_VERIFY (R102): Recompute parity and compare. -/
  | rdnVerify (inst : Nat) (cl : Nat)
  /-- MAP_GET (R242): Return map entries of a view. -/
  | mapGet (cl : Nat)
  /-- MAP_SET (R243): Write a live map entry and return the old one. -/
  | mapSet (cl : Nat)
  /-- MAP_SETIF (R243): Write a live entry only if it matches EXPECT and is not SHARED. -/
  | mapSetif (cl : Nat)
  /-- MAP_CLEAN (R245): Clean one level 0 live line. -/
  | mapClean (cl : Nat)
  /-- MAP_INVAL (R245): Drop one level 0 line. -/
  | mapInval (cl : Nat)
  /-- MAP_CLEAN_SW (R245): Clean a line by set and way. -/
  | mapCleanSw (cl : Nat)
  /-- MAP_INVAL_SW (R245): Drop a line by set and way. -/
  | mapInvalSw (cl : Nat)
  /-- MAP_RANGE_CLEAN (R246): Background clean of every line in an LBA range. -/
  | mapRangeClean (cl : Nat)
  /-- MAP_RANGE_INVAL (R246): Background invalidate of every line in an LBA range. -/
  | mapRangeInval (cl : Nat)
  /-- MAP_SNAP (R247): Create a frozen view of a volume. -/
  | mapSnap (cl : Nat)
  /-- MAP_CLONE (R248): Create a base view and a clone volume. -/
  | mapClone (cl : Nat)
  /-- MAP_SNAP_DEL (R249): Delete a frozen view or a volume and release nodes. -/
  | mapSnapDel (cl : Nat)
  /-- MAP_NODE_READ_COMPLETE (R236): A filling line's node read completes, installs or is discarded. -/
  | mapNodeReadComplete (n : Nat) (bad : Nat)
  /-- MAP_COMMIT_PERIOD (R238): Commit period passes with dirty lines waiting; a commit starts. -/
  | mapCommitPeriod
  /-- MAP_COMMIT_COMPLETE (R239): A commit's final sync completes and lines become clean. -/
  | mapCommitComplete
  /-- MAP_WM_TIMEOUT (R241): Watermark wait exceeds WM_MS; WARN raised. -/
  | mapWmTimeout
  /-- MAP_INVALL (R235): Start invalidation of every set with EN 0. -/
  | mapInvall
  /-- MAP_INVALL_DONE (R235): Invalidation completes and INVD sets. -/
  | mapInvallDone
  /-- MAP_MOUNT (R252): Start mounting from MAP_ANCHOR. -/
  | mapMount
  /-- MAP_FORMAT (R252): Create an empty view region. -/
  | mapFormat
  /-- MAP_MOUNT_DONE (R252): Mount or format completes, MOUNTED or MOUNT_ERR. -/
  | mapMountDone
  /-- MAP_COMMIT_REQUEST (R238): MAP_CTL COMMIT write starts a commit. -/
  | mapCommitRequest
  /-- MAP_CLEANALL (R246): Background clean of every dirty line. -/
  | mapCleanall
  /-- MAP_CTL_EN_WRITE (R235): Map enable write, refused with EN_ERR unless INVD. -/
  | mapCtlEnWrite (en : Bool)
  /-- MAP_VQ_KEY_WRITE (R228): Select a view record; FOUND and data updated. -/
  | mapVqKeyWrite (v : Nat)
  /-- SEG_OPEN (R265): Open a segment, allocating a band if needed. -/
  | segOpen (cl : Nat)
  /-- SEG_APPEND (R261): Place a grain's cells and descriptor in the open segment. -/
  | segAppend (cl : Nat)
  /-- SEG_SEAL (R262): Close the current stripe and end the segment. -/
  | segSeal (cl : Nat)
  /-- SEG_SYNC (R262): Close the stripe and complete when earlier stripes are durable. -/
  | segSync (cl : Nat)
  /-- SEG_READ (R268): Read a grain's cells directly, by suspend or by reconstruction. -/
  | segRead (cl : Nat) (bad : Nat)
  /-- SEG_RELEASE (R267): Release a segment's slot and its band when empty. -/
  | segRelease (cl : Nat)
  /-- STRIPE_PROGRAM_COMPLETE (R262): A stripe's page programs end; durability and syncs resolve. -/
  | stripeProgramComplete (stream : Nat) (bad : Nat)
  /-- SEG_REPORT_RETRY (R284): A held segment report is retried. -/
  | segReportRetry
  /-- SEG_CENSUS (R271): Start the census of band headers. -/
  | segCensus
  /-- SEG_CENSUS_DONE (R271): Census completes and CENSUS_DONE sets. -/
  | segCensusDone
  /-- SEG_LANE_WRITE (R274): Declare lanes failed; positions on them become FAILED. -/
  | segLaneWrite (v : Nat)
  /-- SEG_RBLD_ADD_WRITE (R274): Fail one position of a band. -/
  | segRbldAddWrite (v : Nat)
  /-- REBUILD_POSITION_START (R276): Rebuild engine takes a FAILED position and a replacement. -/
  | rebuildPositionStart
  /-- REBUILD_POSITION_DONE (R275): Every live slot rebuilt and synced; position OK. -/
  | rebuildPositionDone (k : Nat)
  /-- RESHAPE_START (R287): Start reshaping a pool from SEG_RSHP_AT. -/
  | reshapeStart
  /-- RESHAPE_ABORT (R287): Abandon copies in flight. -/
  | reshapeAbort
  /-- RESHAPE_MOVE_DONE (R287): A MOVING position's copy completes and switches. -/
  | reshapeMoveDone (bad : PageFault)
  /-- NML_CTL_WRITE (R291): Enable or squelch NML lanes. -/
  | nmlCtlWrite (v : Nat)
  /-- NML_TRAIN_EXIT (R290): Training exit condition met; INIT begins. -/
  | nmlTrainExit (lane : Nat)
  /-- NML_TRAIN_TIMEOUT (R291): Training fails three times; lane FAULT. -/
  | nmlTrainTimeout (lane : Nat)
  /-- NML_HELLO_RX (R291): HELLO received; lane UP or MISWIRE fault. -/
  | nmlHelloRx (lane : Nat) (port : Nat) (ro : Bool)
  /-- NML_HELLO_TIMER (R291): Periodic HELLO transmission. -/
  | nmlHelloTimer (lane : Nat)
  /-- NML_RETRAIN_TIMEOUT (R291): RETRAIN_MS outside UP; lane DOWN or FAULT. -/
  | nmlRetrainTimeout (lane : Nat)
  /-- NML_FEC_LOCK_LOSS (R291): FEC lock lost in UP; lane retrains. -/
  | nmlFecLockLoss (lane : Nat)
  /-- NML_IDLE_TIMEOUT (R291): No frame for 1 ms in UP; lane retrains. -/
  | nmlIdleTimeout (lane : Nat)
  /-- NML_REPLAY_TIMER (R294): Held frames resent after REPLAY_US without progress. -/
  | nmlReplayTimer (lane : Nat)
  /-- NML_ACK_RX (R294): ACK frees held frames. -/
  | nmlAckRx (lane : Nat) (next : Nat)
  /-- NML_NAK_RX (R294): NAK triggers resend of held frames. -/
  | nmlNakRx (lane : Nat) (next : Nat)
  /-- NML_ACK_TIMER (R294): Receiver sends ACK within 2 µs of delivery. -/
  | nmlAckTimer (lane : Nat)
  /-- NML_CREDIT_RX (R295): CREDIT frame sets or returns command and data credits. -/
  | nmlCreditRx (lane : Nat) (cmd : Nat) (data : Nat) (absolute : Bool)
  /-- NML_RDATA_RX (R296): Read data frame placed in the job buffer. -/
  | nmlRdataRx (lane : Nat) (f : NmlRx)
  /-- NML_RSP_RX (R298): Sled response completes an NML command with mapped status. -/
  | nmlRspRx (lane : Nat) (f : NmlRx)
  /-- NML_CMD_TIMEOUT (R311): Command exceeds NML_TMO and completes MEDIA_TIMEOUT. -/
  | nmlCmdTimeout (lane : Nat) (tag : Nat)
  /-- NML_JOB_READ (R105): NML job reading pages. -/
  | nmlJobRead (inst : Nat) (cl : Nat)
  /-- NML_JOB_PROGRAM (R105): NML job programming pages of an own die. -/
  | nmlJobProgram (inst : Nat) (cl : Nat)
  /-- NML_JOB_ERASE (R105): NML job erasing an erase unit. -/
  | nmlJobErase (inst : Nat) (cl : Nat)
  /-- NML_JOB_SUSPEND (R105): NML job suspending a die operation. -/
  | nmlJobSuspend (inst : Nat) (cl : Nat)
  /-- NML_JOB_RESUME (R105): NML job resuming a suspended operation. -/
  | nmlJobResume (inst : Nat) (cl : Nat)
  /-- NML_JOB_HDR_READ (R105): NML job reading page headers. -/
  | nmlJobHdrRead (inst : Nat) (cl : Nat)
  /-- NML_JOB_GEOMETRY (R105): NML job reading the sled geometry. -/
  | nmlJobGeometry (inst : Nat) (cl : Nat)
  /-- NML_JOB_HEALTH (R105): NML job reading health data. -/
  | nmlJobHealth (inst : Nat) (cl : Nat)
  /-- NML_JOB_LEASE_STATUS (R306): Lease STATUS job. -/
  | nmlJobLeaseStatus (inst : Nat) (cl : Nat)
  /-- NML_JOB_LEASE_ACQUIRE (R306): Lease ACQUIRE job. -/
  | nmlJobLeaseAcquire (inst : Nat) (cl : Nat)
  /-- NML_JOB_LEASE_TAKEOVER (R306): Lease TAKEOVER job. -/
  | nmlJobLeaseTakeover (inst : Nat) (cl : Nat)
  /-- NML_JOB_LEASE_GRANT (R306): Lease GRANT job. -/
  | nmlJobLeaseGrant (inst : Nat) (cl : Nat)
  /-- NML_JOB_LEASE_RELEASE (R306): Lease RELEASE job. -/
  | nmlJobLeaseRelease (inst : Nat) (cl : Nat)
  /-- SLED_READ (R299): Sled reads pages, suspending the die if allowed. -/
  | sledRead (lane : Nat) (port : Nat) (tag : Nat) (c : NmlCmd)
  /-- SLED_PROGRAM (R300): Sled programs pages in ascending order. -/
  | sledProgram (lane : Nat) (port : Nat) (tag : Nat) (c : NmlCmd)
  /-- SLED_WDATA_RX (R296): Sled receives a page of PROGRAM data. -/
  | sledWdataRx (lane : Nat) (port : Nat) (tag : Nat) (off : Nat) (data : List Byte)
  /-- SLED_ERASE (R299): Sled erases and verifies an erase unit. -/
  | sledErase (lane : Nat) (port : Nat) (tag : Nat) (c : NmlCmd)
  /-- SLED_SUSPEND (R299): Sled suspends the die's program or erase. -/
  | sledSuspend (lane : Nat) (port : Nat) (tag : Nat) (c : NmlCmd)
  /-- SLED_RESUME (R299): Sled resumes a suspended operation. -/
  | sledResume (lane : Nat) (port : Nat) (tag : Nat) (c : NmlCmd)
  /-- SLED_HDR_READ (R302): Sled returns header-read records. -/
  | sledHdrRead (lane : Nat) (port : Nat) (tag : Nat) (c : NmlCmd)
  /-- SLED_GEOMETRY (R303): Sled returns its geometry record. -/
  | sledGeometry (lane : Nat) (port : Nat) (tag : Nat) (c : NmlCmd)
  /-- SLED_HEALTH (R304): Sled returns health summary or erase-unit records. -/
  | sledHealth (lane : Nat) (port : Nat) (tag : Nat) (c : NmlCmd)
  /-- SLED_LEASE_STATUS (R306): Sled reports lease state. -/
  | sledLeaseStatus (lane : Nat) (port : Nat) (tag : Nat) (c : NmlCmd)
  /-- SLED_LEASE_ACQUIRE (R306): Sled grants ownership of a half at an epoch. -/
  | sledLeaseAcquire (lane : Nat) (port : Nat) (tag : Nat) (c : NmlCmd)
  /-- SLED_LEASE_TAKEOVER (R306): Sled transfers a half and fences the other port. -/
  | sledLeaseTakeover (lane : Nat) (port : Nat) (tag : Nat) (c : NmlCmd)
  /-- SLED_LEASE_GRANT (R306): Sled hands a half to the other port. -/
  | sledLeaseGrant (lane : Nat) (port : Nat) (tag : Nat) (c : NmlCmd)
  /-- SLED_LEASE_RELEASE (R306): Sled clears ownership of a half. -/
  | sledLeaseRelease (lane : Nat) (port : Nat) (tag : Nat) (c : NmlCmd)
  /-- SLED_OP_COMPLETE (R299): A die's read, program or erase ends and the RSP is sent. -/
  | sledOpComplete (lane : Nat) (die : Nat) (failAt : Nat) (bits : MediaBits)
  /-- SLED_AUTO_RESUME (R299): Suspended operation resumed 10 ms after SUSPEND without RESUME. -/
  | sledAutoResume (lane : Nat) (die : Nat)
  /-- SLED_SUSP_READ_RESUME (R301): Operation suspended by a read resumes after 2 ms. -/
  | sledSuspReadResume (lane : Nat) (die : Nat)
  /-- MUL_LOAD (R313): Start filling the erase-unit table. -/
  | mulLoad
  /-- MUL_LOAD_DONE (R313): Erase-unit table filled; LOADED sets. -/
  | mulLoadDone
  /-- MULE_ERASE_START (R315): Mule sends ERASE for a DIRTY unit. -/
  | muleEraseStart (lane : Nat) (die : Nat) (unit : Nat) (bad : Bool)
  /-- MULE_MOVE (R317): Relocate a segment's live grains to stream 2. -/
  | muleMove (cl : Nat) (bad : Nat)
  /-- MULE_JLOAD (R320): Copy a journal record from ring or mirror to staging. -/
  | muleJload (cl : Nat)
  /-- GOAT_PATROL_STEP (R324): Goat patrols the next page or stripe at its rate. -/
  | goatPatrolStep (bad : Nat) (bits : List Nat)
  /-- GOAT_SCAN (R326): Header-scan erase units and write grain records. -/
  | goatScan (cl : Nat) (bad : List (Nat × Nat))
  /-- GOAT_CHECK (R326): Verify one segment now. -/
  | goatCheck (cl : Nat) (bad : Nat) (bits : List Nat)
  /-- TRN_QP_INIT (R335): STATE write moves a queue pair to INIT. -/
  | trnQpInit (qp : Nat)
  /-- TRN_QP_RTR (R335): STATE write moves a queue pair to RTR. -/
  | trnQpRtr (qp : Nat)
  /-- TRN_QP_RTS (R335): STATE write moves a queue pair to RTS. -/
  | trnQpRts (qp : Nat)
  /-- TRN_QP_ERROR_WRITE (R335): STATE write moves a queue pair to ERROR and flushes it. -/
  | trnQpErrorWrite (qp : Nat)
  /-- TRN_QP_RESET (R335): STATE write returns an ERROR queue pair to RESET. -/
  | trnQpReset (qp : Nat)
  /-- TRN_WRITE (R337): Send an RDMA WRITE message. -/
  | trnWrite (cl : Nat)
  /-- TRN_WRITE_IMM (R337): Send an RDMA WRITE with immediate. -/
  | trnWriteImm (cl : Nat)
  /-- TRN_SEND (R337): Send a SEND message with peer header. -/
  | trnSend (cl : Nat)
  /-- TRN_LATCH (R352): Arm a Latch chain on a queue pair. -/
  | trnLatch (cl : Nat)
  /-- TRN_ACK_TIMEOUT (R337): Local ACK timeout resends or exhausts and errors the queue pair. -/
  | trnAckTimeout (qp : Nat)
  /-- TRN_RX_ACK (R338): ACK or NAK received completes or resends jobs. -/
  | trnRxAck (qp : Nat) (psn : Nat) (k : AckPkt)
  /-- TRN_RNR_WAIT_EXPIRY (R338): RNR timer ends and the requester resends. -/
  | trnRnrWaitExpiry (qp : Nat)
  /-- TRN_RX_WRITE_PKT (R340): RDMA WRITE packet classified expected, ahead or duplicate and placed. -/
  | trnRxWritePkt (qp : Nat) (p : RocePkt)
  /-- TRN_RX_SEND_PKT (R344): SEND packet placed, delivered as an item or answered from cache. -/
  | trnRxSendPkt (qp : Nat) (p : RocePkt)
  /-- HEARTBEAT_RX (R355): Heartbeat recorded; partner-late cancelled. -/
  | heartbeatRx (seq : Nat) (st : Nat)
  /-- BAND_RX (R355): Partner band record written into the band table. -/
  | bandRx (n : Nat) (rec : List Byte)
  /-- TRN_RESP_ACK_TIMER (R340): Responder ACK sent 2 µs after an unacknowledged packet. -/
  | trnRespAckTimer (qp : Nat)
  /-- TRN_STALL_RETRY (R346): Held packet retries allocation or is RNR NAKed after STALL_US. -/
  | trnStallRetry (qp : Nat)
  /-- TRN_LINK_DOWN_TIMEOUT (R335): Path link down for LINK_MS moves queue pairs to ERROR. -/
  | trnLinkDownTimeout (path : Nat)
  /-- TRN_QUAD_LINK_CHANGE (R332): A Transom quad link goes up or down. -/
  | trnQuadLinkChange (quad : Nat) (up : Bool)
  /-- TRN_MR_REGISTER (R351): Register a memory region and return its rkey. -/
  | trnMrRegister
  /-- TRN_MR_REVOKE (R350): Revoke a region's rkey. -/
  | trnMrRevoke
  /-- TRN_REVOKE_TIMEOUT (R350): REVOKE_MS passes; queue pairs with validated messages go to ERROR. -/
  | trnRevokeTimeout (e : Nat)
  /-- LATCH_EXPIRY (R353): An armed chain's EXPIRE_US passes; reported REFUSED. -/
  | latchExpiry (id : Nat)
  /-- TRN_LATCH_CANCEL_WRITE (R353): Cancel an armed chain. -/
  | trnLatchCancelWrite (id : Nat)
  /-- TRN_CFG_WRITE (R334): Transport configuration; PEER_QPS resets STALL_US defaults. -/
  | trnCfgWrite (v : Nat)
  /-- HEARTBEAT_SEND (R25): Heartbeat sent every 100 µs on two queue pairs. -/
  | heartbeatSend
  /-- LIVENESS_KICK (R26): TRN_LIVE KICK renews liveness for 1 ms. -/
  | livenessKick
  /-- LIVENESS_EXPIRY (R26): Liveness lapses and heartbeats stop. -/
  | livenessExpiry
  /-- PARTNER_LATE (R27): 1 ms without heartbeat: WARN and writes to own groups closed. -/
  | partnerLate
  /-- PARTNER_LOSS (R27): 2 ms without heartbeat: FAULT and failover. -/
  | partnerLoss
  /-- SRCH_SCRUB_VISIT (R371): Scrubber compares an entry with its shadow and repairs. -/
  | srchScrubVisit
  /-- SRCH_INIT0 (R373): Clear bank 0 and its shadows. -/
  | srchInit0
  /-- SRCH_INIT1 (R373): Clear bank 1 and its shadows. -/
  | srchInit1
  /-- SRCH_RESTORE1 (R373): Load bank 1 from its shadows. -/
  | srchRestore1
  /-- SRCH_INIT_DONE (R373): INIT or RESTORE completes and INIT_DONE sets. -/
  | srchInitDone
  /-- ARB_DECISION (R376): Arbiter grants at a free grant or break point by stamp and force. -/
  | arbDecision (ac : Nat) (inst : Nat)
  /-- ARB_FORCE (R380): Foreground wait counter reaches WAIT_LIMIT; requester forced. -/
  | arbForce (ac : Nat) (inst : Nat)
  /-- ARB_BACKOFF_EXPIRY (R381): Background back-off ends; request re-enters with a new stamp. -/
  | arbBackoffExpiry (ac : Nat) (inst : Nat) (num : Nat)
  /-- VLT_AES_ENC (R391): Vault AES block encryption. -/
  | vltAesEnc (p : Nat)
  /-- VLT_AES_DEC (R391): Vault AES block decryption. -/
  | vltAesDec (p : Nat)
  /-- VLT_KEY_GEN (R391): Generate a key into a VK slot. -/
  | vltKeyGen (p : Nat)
  /-- VLT_UNWRAP (R394): Unwrap a key into a slot after the KW check. -/
  | vltUnwrap (p : Nat)
  /-- VLT_WRAP (R391): Wrap an exportable key. -/
  | vltWrap (p : Nat)
  /-- VLT_IMPORT (R395): ECDH-derived unwrap of a delivered key. -/
  | vltImport (p : Nat)
  /-- VLT_SEAL (R395): Seal a key under the device seal key. -/
  | vltSeal (p : Nat)
  /-- VLT_UNSEAL (R394): Unseal a blob into a slot. -/
  | vltUnseal (p : Nat)
  /-- VLT_XTS_LOAD (R396): Unwrap a 512-bit key into an XTS media slot. -/
  | vltXtsLoad (p : Nat)
  /-- VLT_XTS_CLEAR (R220): Clear an XTS slot after its started jobs end. -/
  | vltXtsClear (p : Nat)
  /-- VLT_KEY_CLEAR (R397): Clear a VK slot. -/
  | vltKeyClear (p : Nat)
  /-- VLT_VERIFY_SIG (R391): Verify an ECDSA signature. -/
  | vltVerifySig (p : Nat)
  /-- VLT_ATTEST (R398): Produce a signed attestation report. -/
  | vltAttest (p : Nat)
  /-- VLT_GET_CERT (R391): Return serial, identity key and certificate. -/
  | vltGetCert (p : Nat)
  /-- VLT_DEBUG_CHAL (R399): Issue a debug challenge. -/
  | vltDebugChal (p : Nat)
  /-- VLT_DEBUG_OPEN (R400): Accept a debug token, clear keys and open a level. -/
  | vltDebugOpen (p : Nat)
  /-- VLT_SVN_COMMIT (R407): Raise the SVN floor and fail now-unbootable banks. -/
  | vltSvnCommit (p : Nat) (fuseOk : Bool)
  /-- VLT_MEDIA_COMMIT (R407): Raise MEDIA_GEN and fail now-unbootable banks. -/
  | vltMediaCommit (p : Nat) (fuseOk : Bool)
  /-- VLT_OTP_PROGRAM (R387): Program an OTP field in BOOT. -/
  | vltOtpProgram (p : Nat) (fuseOk : Bool)
  /-- VLT_ZEROIZE (R397): Clear every key slot. -/
  | vltZeroize (p : Nat)
  /-- VLT_CMD_COMPLETE (R389): A Vault command ends, writes output and sets DONE. -/
  | vltCmdComplete (p : Nat)
  /-- VLT_DONE_CLEAR (R389): Clearing DONE clears the port's output window. -/
  | vltDoneClear (p : Nat)
  /-- VLT_RNG_READ (R385): Read returns 64 new random bits. -/
  | vltRngRead
  /-- HCH_OPEN (R403): Open a Hatch bank for download. -/
  | hchOpen (b : Nat)
  /-- HCH_CLOSE (R403): Close a bank to writes; in BOOT the head goes VERIFY. -/
  | hchClose (b : Nat)
  /-- HCH_DISCARD (R403): Zero a bank and make it EMPTY. -/
  | hchDiscard (b : Nat)
  /-- HCH_VERIFY_START (R404): Vault begins verifying a CLOSED bank when none is verifying. -/
  | hchVerifyStart (b : Nat)
  /-- HCH_VERIFY_DONE (R404): Verification ends VERIFIED or FAILED with REASON. -/
  | hchVerifyDone (b : Nat)
  /-- HCH_NEXT_WRITE (R403): Name the VERIFIED bank to copy at the next start. -/
  | hchNextWrite (v : Nat)
  /-- BAR2_WRITE (R462): Host write into a Hatch bank; clears the block's map bit. -/
  | bar2Write (off : Nat) (data : List Byte)
  /-- COLD_RESET_RELEASE (R413): Head reset released in COLD; device time and boot ROM start. -/
  | coldResetRelease (id : Nat) (otpOk : Bool)
  /-- ROOT_PLL_LOCK (R414): ROOT PLL locks; device time switches to FAB edges. -/
  | rootPllLock
  /-- BOOT_ENTRY (R23): HBM trained and mailbox open; the head enters BOOT. -/
  | bootEntry
  /-- REF_CLOCK_LOSS (R414): Reference or lock lost; clocks stop and cold reset CLOCK. -/
  | refClockLoss
  /-- PCIE_REF_LOSS (R488): PCIe reference lost; link down. -/
  | pcieRefLoss
  /-- PCIE_REF_RESTORE (R488): PCIe reference back for 1 µs; PCIE_REF_OK sets. -/
  | pcieRefRestore
  /-- RTC_STOP (R488): No RTC tick for 1 ms; calendar invalid. -/
  | rtcStop
  /-- RTC_TICK (R441): RTC tick advances calendar time and applies LOG_CAL_SET. -/
  | rtcTick
  /-- PWR_MODE_RUN (R417): MODE RUN write wakes a domain from OFF. -/
  | pwrModeRun (d : Nat)
  /-- PWR_MODE_DOZE (R416): MODE DOZE write allows idle DOZE. -/
  | pwrModeDoze (d : Nat)
  /-- PWR_MODE_RETAIN (R416): MODE RETAIN write allows idle RETAIN. -/
  | pwrModeRetain (d : Nat)
  /-- PWR_MODE_OFF (R417): MODE OFF write powers off a domain if allowed. -/
  | pwrModeOff (d : Nat)
  /-- DOMAIN_DOZE_IDLE (R416): Unit idle for DOZE_NS enters DOZE. -/
  | domainDozeIdle (d : Nat)
  /-- DOMAIN_RETAIN_IDLE (R416): Unit idle for RETAIN_US enters RETAIN. -/
  | domainRetainIdle (d : Nat)
  /-- DOMAIN_WAKE_COMPLETE (R419): Exit sequence ends; shutters open and domain RUN. -/
  | domainWakeComplete (d : Nat)
  /-- PG_LOW (R421): A supply-good input low for 1 µs; cold reset RAIL. -/
  | pgLow (k : Nat)
  /-- CORE_WARN_ASSERT (R424): Supply warning asserts; episode starts. -/
  | coreWarnAssert (sram : Bool) (mv : Nat)
  /-- CORE_WARN_RELEASE (R425): Warning releases; episode recorded and BRACE left. -/
  | coreWarnRelease (sram : Bool) (mv : Nat) (low : Nat)
  /-- CORE_RESET_LEVEL (R423): Supply below reset level; cold reset CORE_UV. -/
  | coreResetLevel (sram : Bool) (mv : Nat)
  /-- PWR_AVS_WRITE (R422): Set the core voltage set point. -/
  | pwrAvsWrite (v : Nat)
  /-- VID_STEP (R422): VID moves one code every STEP_US. -/
  | vidStep
  /-- THERM_SAMPLE (R427): Sensors read every 50 µs; warning, guard, trip acted on. -/
  | thermSample (tj : Int) (sensor : Nat)
  /-- THERM_SHUTDOWN (R427): TJ reaches 165 °C; cold reset THERMAL by AON logic. -/
  | thermShutdown (tj : Int)
  /-- HEAD_RST_PIN (R428): HEAD_RST_N low for 10 µs causes cold reset PIN. -/
  | headRstPin
  /-- PWR_RST_COLD (R428): Keyed COLD write causes cold reset COMMAND. -/
  | pwrRstCold (key : Nat)
  /-- PWR_RST_WARM (R429): Keyed WARM write starts a warm reset or is refused. -/
  | pwrRstWarm (key : Nat)
  /-- WARM_RESET_COMPLETE (R429): Warm reset scope applied; LOAD or BOOT. -/
  | warmResetComplete
  /-- PWR_VMIN_REARM (R425): REARM sets PWR_VMIN to 1,023. -/
  | pwrVminRearm
  /-- EVT_RAISE_WRITE (R433): Raise a SOFT source. -/
  | evtRaiseWrite (v : Nat)
  /-- EVT_COALESCE_TIMEOUT (R436): COAL_NS passes and the vector is signalled. -/
  | evtCoalesceTimeout (vec : Nat)
  /-- EVENT_ITEM_RETRY (R435): Held event item retried every 1 µs. -/
  | eventItemRetry (src : Nat)
  /-- EVT_SRC_WRITE (R434): Routing write; clearing MASK delivers a pending occurrence. -/
  | evtSrcWrite (src : Nat) (v : Nat)
  /-- EVT_CTR_CLR_WRITE (R439): Clear a counter into EVT_CTR_OLD. -/
  | evtCtrClrWrite (v : Nat)
  /-- COUNTER_LOW_READ (R438): 32-bit low read of a counter latches its high half. -/
  | counterLowRead (req : Port) (off : Nat)
  /-- LOG_POST_WRITE (R443): Post a firmware code to the logbook. -/
  | logPostWrite (v : Nat)
  /-- LOG_COMMIT_TIMER (R448): Dirty record committed after 1 s since its last commit. -/
  | logCommitTimer (k : Nat)
  /-- LOG_CAL_SET_WRITE (R441): Set calendar time at the next tick. -/
  | logCalSetWrite (v : Nat)
  /-- LOG_SEL_WRITE (R444): Select a record and snapshot it into LOG_REC. -/
  | logSelWrite (req : Port) (v : Nat)
  /-- LOG_RATE_WRITE (R446): Write a rate-table entry and refill its bucket. -/
  | logRateWrite (e : Nat) (v : Nat)
  /-- MBX_H2D_TAIL_WRITE (R454): Host advances the H2D tail; device reads new packets. -/
  | mbxH2dTailWrite (v : Nat) (data : List Byte)
  /-- MBX_WRAP (R456): WRAP header moves HEAD to offset 0. -/
  | mbxWrap
  /-- MBX_PING (R457): Echo the arguments. -/
  | mbxPing
  /-- MBX_STATUS (R457): Return the 64-byte status payload. -/
  | mbxStatus
  /-- MBX_DOWNLOAD (R462): Check a Hatch block's CRC and set its map bit. -/
  | mbxDownload
  /-- MBX_LOG_READ (R457): Return logbook records. -/
  | mbxLogRead
  /-- MBX_ATTEST (R457): Return an attestation report through Vault port H. -/
  | mbxAttest
  /-- MBX_CERT (R457): Return the certificate through Vault port H. -/
  | mbxCert
  /-- MBX_ACTIVATE (R460): Firmware command to activate the head. -/
  | mbxActivate
  /-- MBX_RELEASE (R460): Firmware command to hand groups to the partner. -/
  | mbxRelease
  /-- MBX_UPDATE (R460): Firmware command to start a live update. -/
  | mbxUpdate
  /-- MBX_FW (R460): Firmware-defined command delivered as a keeper item. -/
  | mbxFw
  /-- MBX_EXTENT_TIMEOUT (R456): Tail does not cover a packet within 1 ms; LENGTH response. -/
  | mbxExtentTimeout
  /-- MBX_HOLD_RETRY (R460): Held firmware packet retried every 1 µs. -/
  | mbxHoldRetry
  /-- MBX_RESET_WRITE (R463): Reset the mailbox rings and clear EN. -/
  | mbxResetWrite
  /-- MBX_D2H_HEAD_WRITE (R461): Host frees D2H space; waiting SENDs proceed. -/
  | mbxD2hHeadWrite (v : Nat)
  /-- MBX_SEND (R461): Firmware writes a packet to the D2H ring and raises SOFT0. -/
  | mbxSend (cl : Nat)
  /-- PCIE_RESET (R430): PERST, hot reset, link down or FLR resets the endpoint only. -/
  | pcieReset (speed : Nat) (width : Nat)
  /-- PCIE_TLP_ERROR (R453): Erroneous TLP received and reported through AER. -/
  | pcieTlpError (e : TlpErr) (bar : Nat) (off : Nat)
  /-- I2C_WRITE (R464): I2C write sets the register pointer. -/
  | i2cWrite (data : List Byte)
  /-- I2C_READ_BYTE (R464): I2C read returns a byte and advances the pointer. -/
  | i2cReadByte
  /-- I2C_SCL_TIMEOUT (R464): SCL low 35 ms; target releases SDA and resets. -/
  | i2cSclTimeout
  /-- REGISTER_WRITE (R11): Write to a register with no behaviour of its own, including RWL locking. -/
  | registerWrite (req : Port) (off : Nat) (size : Nat) (v : Nat)
  /-- UNDEFINED_ENCODING (R71): A fetched word with an unassigned opcode, function or a non-zero reserved field takes ILLEGAL. -/
  | undefinedEncoding (t : BitVec 8) (w : BitVec 32)
  /-- LIFECYCLE_COMMAND (R23): Keeper firmware reports ready, activates, begins or ends a handover, moving the head between LOAD, STANDBY, ACTIVE and HANDOVER. -/
  | lifecycleCommand (c : LifeCmd)
  /-- VDD_AON_POWER_ON (R428): VDD_AON rises and its internal power-on reset makes a cold reset with cause POWER_ON. -/
  | vddAonPowerOn (vbat : Bool)
  /-- VDD_AON_LOSS (R486): VDD_AON or VDD_IO falls below its threshold, squelching every SerDes and leaving the RTC on VBAT_RTC alone. -/
  | vddAonLoss (vbat : Bool)
  /-- SUPPLY_GOOD_HIGH (R421): The last supply-good input rises, letting a head held in COLD proceed to BOOT. -/
  | supplyGoodHigh
  /-- NML_SIGNAL_DETECT (R291): Signal from the sled is detected on an enabled lane in DOWN and training begins. -/
  | nmlSignalDetect (lane : Nat)
  /-- REF_PPM_WINDOW (R477): Each 125 ms window updates CLK_REF_PPM and sets REF_PPM_ERR with a REF_PPM event when the reference is outside 500 ppm. -/
  | refPpmWindow (ppm : Int)
  /-- AVS_SETTLE (R422): SETTLE_US after the last VID code, the monitor thresholds switch to the new set point. -/
  | avsSettle
  /-- LOG_COMMIT_DONE (R448): A 10 µs logbook commit ends, is read back, and the next dirty record's commit may start or LOG_NVM_ERR is raised. -/
  | logCommitDone (ok : Bool)
  /-- REBUILD_STRIPE (R278): The rebuild engine, paced to SEG_RBLD_CTL RATE, starts the reads, decode and program of the next stripe of a position. -/
  | rebuildStripe (k : Nat) (bad : Nat) (progBad : Bool)
  /-- MSIX_UNMASK (R436): The service host enables MSI-X or Bus Master, or clears a vector mask, and held vector signals are sent. -/
  | msixUnmask (k : MsixOp)
  deriving DecidableEq, Repr

end Sys2Proof
end

