-- ==== Sys2Proof/Decode.lean ====
section
/-! DEFINITION. The Mequesko instruction word: its encoder and decoder (R71, R72, R75), and the host's `decodeTableWord`.
spec/opcode_table.json gives no row any bits, so no word spells a command. -/

namespace Sys2Proof

/-- The command that a word spells by the table's bits: the table gives none. -/
def decodeTableWord (_nbits _w : Nat) : Option Instr := none

/-! Formats of R72. -/

def encA (major : Nat) (rd rs1 rs2 : BitVec 5) (func : Nat) : BitVec 32 :=
  BitVec.ofNat 6 major ++ rd ++ rs1 ++ rs2 ++ BitVec.ofNat 11 func

def encI (major : Nat) (rd rs1 : BitVec 5) (imm : BitVec 16) : BitVec 32 :=
  BitVec.ofNat 6 major ++ rd ++ rs1 ++ imm

def encB2 (major : Nat) (rd : BitVec 5) (off : BitVec 21) : BitVec 32 :=
  BitVec.ofNat 6 major ++ rd ++ off

def encJ (rd rs1 cls : BitVec 5) (inst : BitVec 7) : BitVec 32 :=
  BitVec.ofNat 6 0x28 ++ rd ++ rs1 ++ cls ++ inst ++ (0 : BitVec 4)

def encQ (major : Nat) (rd rs1 rs2 : BitVec 5) (op mod : Nat) : BitVec 32 :=
  BitVec.ofNat 6 major ++ rd ++ rs1 ++ rs2 ++ BitVec.ofNat 7 op ++ BitVec.ofNat 4 mod

def encS (op : Nat) (rd rs1 : BitVec 5) (imm : BitVec 12) : BitVec 32 :=
  BitVec.ofNat 6 0x3F ++ rd ++ rs1 ++ BitVec.ofNat 4 op ++ imm

def amoFunc (op : Nat) (wide : Bool) : Nat := if wide then 16 + op else op

def bitNat (b : Bool) : Nat := if b then 1 else 0

/-- The instruction word of a Mequesko instruction; none for the other commands. -/
def encodeMeq (i : Instr) : Option (BitVec 32) :=
  match i with
  | .add _ rd a b => some (encA 0x01 rd a b 0x000)
  | .sub _ rd a b => some (encA 0x01 rd a b 0x001)
  | .and _ rd a b => some (encA 0x01 rd a b 0x002)
  | .or _ rd a b => some (encA 0x01 rd a b 0x003)
  | .xor _ rd a b => some (encA 0x01 rd a b 0x004)
  | .andn _ rd a b => some (encA 0x01 rd a b 0x005)
  | .sll _ rd a b => some (encA 0x01 rd a b 0x008)
  | .srl _ rd a b => some (encA 0x01 rd a b 0x009)
  | .sra _ rd a b => some (encA 0x01 rd a b 0x00A)
  | .rotr _ rd a b => some (encA 0x01 rd a b 0x00B)
  | .slt _ rd a b => some (encA 0x01 rd a b 0x010)
  | .sltu _ rd a b => some (encA 0x01 rd a b 0x011)
  | .min _ rd a b => some (encA 0x01 rd a b 0x012)
  | .max _ rd a b => some (encA 0x01 rd a b 0x013)
  | .minu _ rd a b => some (encA 0x01 rd a b 0x014)
  | .maxu _ rd a b => some (encA 0x01 rd a b 0x015)
  | .serB _ rd a b => some (encA 0x01 rd a b 0x018)
  | .serH _ rd a b => some (encA 0x01 rd a b 0x019)
  | .serP _ rd a b => some (encA 0x01 rd a b 0x01A)
  | .serW _ rd a b => some (encA 0x01 rd a b 0x01B)
  | .mul _ rd a b => some (encA 0x01 rd a b 0x020)
  | .mulh _ rd a b => some (encA 0x01 rd a b 0x021)
  | .mulhu _ rd a b => some (encA 0x01 rd a b 0x022)
  | .div _ rd a b => some (encA 0x01 rd a b 0x028)
  | .divu _ rd a b => some (encA 0x01 rd a b 0x029)
  | .rem _ rd a b => some (encA 0x01 rd a b 0x02A)
  | .remu _ rd a b => some (encA 0x01 rd a b 0x02B)
  | .clz _ rd a => some (encA 0x01 rd a 0 0x030)
  | .ctz _ rd a => some (encA 0x01 rd a 0 0x031)
  | .popc _ rd a => some (encA 0x01 rd a 0 0x032)
  | .bswap _ rd a => some (encA 0x01 rd a 0 0x033)
  | .addi _ rd a imm => some (encI 0x02 rd a imm)
  | .andi _ rd a imm => some (encI 0x03 rd a imm)
  | .ori _ rd a imm => some (encI 0x04 rd a imm)
  | .xori _ rd a imm => some (encI 0x05 rd a imm)
  | .slti _ rd a imm => some (encI 0x06 rd a imm)
  | .sltiu _ rd a imm => some (encI 0x07 rd a imm)
  | .slli _ rd a sh => some (encI 0x08 rd a (sh.setWidth 16))
  | .srli _ rd a sh => some (encI 0x09 rd a (sh.setWidth 16))
  | .srai _ rd a sh => some (encI 0x0A rd a (sh.setWidth 16))
  | .lui _ rd imm => some (encI 0x0B rd 0 imm)
  | .shi _ rd a imm => some (encI 0x0C rd a imm)
  | .ldB _ rd a d => some (encI 0x10 rd a d)
  | .ldBu _ rd a d => some (encI 0x11 rd a d)
  | .ldH _ rd a d => some (encI 0x12 rd a d)
  | .ldHu _ rd a d => some (encI 0x13 rd a d)
  | .ldW _ rd a d => some (encI 0x14 rd a d)
  | .ldWu _ rd a d => some (encI 0x15 rd a d)
  | .ldD _ rd a d => some (encI 0x16 rd a d)
  | .stB _ r a d => some (encI 0x18 r a d)
  | .stH _ r a d => some (encI 0x19 r a d)
  | .stW _ r a d => some (encI 0x1A r a d)
  | .stD _ r a d => some (encI 0x1B r a d)
  | .amoAdd _ w rd a b => some (encA 0x1C rd a b (amoFunc 0 w))
  | .amoSwap _ w rd a b => some (encA 0x1C rd a b (amoFunc 1 w))
  | .amoCas _ w rd a b => some (encA 0x1C rd a b (amoFunc 2 w))
  | .amoAnd _ w rd a b => some (encA 0x1C rd a b (amoFunc 3 w))
  | .amoOr _ w rd a b => some (encA 0x1C rd a b (amoFunc 4 w))
  | .amoMaxu _ w rd a b => some (encA 0x1C rd a b (amoFunc 5 w))
  | .amoMinu _ w rd a b => some (encA 0x1C rd a b (amoFunc 6 w))
  | .beq _ a b off => some (encI 0x20 a b off)
  | .bne _ a b off => some (encI 0x21 a b off)
  | .blt _ a b off => some (encI 0x22 a b off)
  | .bge _ a b off => some (encI 0x23 a b off)
  | .bltu _ a b off => some (encI 0x24 a b off)
  | .bgeu _ a b off => some (encI 0x25 a b off)
  | .jal _ rd off => some (encB2 0x26 rd off)
  | .jalr _ rd a imm => some (encI 0x27 rd a imm)
  | .j _ rd a cls inst => some (encJ rd a cls inst)
  | .qPush _ inh rd a b => some (encQ 0x30 rd a b 0x00 (bitNat inh))
  | .qTake _ rd a => some (encQ 0x30 rd a 0 0x01 0)
  | .qFree _ rd a => some (encQ 0x30 rd a 0 0x02 0)
  | .qFwd _ rd a => some (encQ 0x30 rd a 0 0x03 0)
  | .qBind _ rd a b => some (encQ 0x30 rd a b 0x04 0)
  | .qStat _ rd a => some (encQ 0x30 rd a 0 0x05 0)
  | .stgAlloc _ rd a => some (encQ 0x30 rd a 0 0x08 0)
  | .stgFree _ rd a => some (encQ 0x30 rd a 0 0x09 0)
  | .srchFind _ bk rd a => some (encQ 0x31 rd a 0 0x00 bk.toNat)
  | .srchNext _ rd => some (encQ 0x31 rd 0 0 0x01 0)
  | .srchWr _ bk rd a b => some (encQ 0x31 rd a b 0x02 bk.toNat)
  | .srchClr _ rd b => some (encQ 0x31 rd 0 b 0x03 0)
  | .srchRd _ rd b => some (encQ 0x31 rd 0 b 0x04 0)
  | .wktAdm _ rd a b => some (encQ 0x32 rd a b 0x00 0)
  | .wktSlk _ rd => some (encQ 0x32 rd 0 0 0x01 0)
  | .wktFin _ rd a => some (encQ 0x32 rd a 0 0x02 0)
  | .wktHzn _ rd a b => some (encQ 0x32 rd a b 0x03 0)
  | .csrR _ rd c => some (encS 0x0 rd 0 c)
  | .csrW _ a c => some (encS 0x1 0 a c)
  | .eret _ => some (encS 0x2 0 0 0)
  | .sysc _ imm => some (encS 0x3 0 0 imm)
  | .brk _ imm => some (encS 0x4 0 0 imm)
  | .fence _ => some (encS 0x5 0 0 0)
  | .dinv _ a => some (encS 0x6 0 a 0)
  | .dinvAll _ => some (encS 0x7 0 0 0)
  | .iinvAll _ => some (encS 0x8 0 0 0)
  | .start _ rd a imm => some (encS 0x9 rd a imm)
  | .wait _ rd a => some (encS 0xA rd a 0)
  | .waitT _ rd a => some (encS 0xB rd a 0)
  | .pollT _ rd a => some (encS 0xC rd a 0)
  | .done _ => some (encS 0xD 0 0 0)
  | _ => none

/-! Fields of a word. -/

def fMajor (w : BitVec 32) : Nat := (w.extractLsb' 26 6).toNat
def fRd (w : BitVec 32) : BitVec 5 := w.extractLsb' 21 5
def fRs1 (w : BitVec 32) : BitVec 5 := w.extractLsb' 16 5
def fRs2 (w : BitVec 32) : BitVec 5 := w.extractLsb' 11 5
def fFunc (w : BitVec 32) : Nat := (w.extractLsb' 0 11).toNat
def fImm16 (w : BitVec 32) : BitVec 16 := w.extractLsb' 0 16
def fOff21 (w : BitVec 32) : BitVec 21 := w.extractLsb' 0 21
def fCls (w : BitVec 32) : BitVec 5 := w.extractLsb' 11 5
def fInst (w : BitVec 32) : BitVec 7 := w.extractLsb' 4 7
def fQop (w : BitVec 32) : Nat := (w.extractLsb' 4 7).toNat
def fMod (w : BitVec 32) : Nat := (w.extractLsb' 0 4).toNat
def fSop (w : BitVec 32) : Nat := (w.extractLsb' 12 4).toNat
def fImm12 (w : BitVec 32) : BitVec 12 := w.extractLsb' 0 12

/-- Some instruction if its reserved fields are 0 (R71). -/
def whenZero (ok : Bool) (i : Instr) : Option Instr := if ok then some i else none

/-- Major 0x01 (R76). -/
def decodeAlu (t : BitVec 8) (w : BitVec 32) : Option Instr :=
  let rd := fRd w
  let a := fRs1 w
  let b := fRs2 w
  match fFunc w with
  | 0x000 => some (.add t rd a b)
  | 0x001 => some (.sub t rd a b)
  | 0x002 => some (.and t rd a b)
  | 0x003 => some (.or t rd a b)
  | 0x004 => some (.xor t rd a b)
  | 0x005 => some (.andn t rd a b)
  | 0x008 => some (.sll t rd a b)
  | 0x009 => some (.srl t rd a b)
  | 0x00A => some (.sra t rd a b)
  | 0x00B => some (.rotr t rd a b)
  | 0x010 => some (.slt t rd a b)
  | 0x011 => some (.sltu t rd a b)
  | 0x012 => some (.min t rd a b)
  | 0x013 => some (.max t rd a b)
  | 0x014 => some (.minu t rd a b)
  | 0x015 => some (.maxu t rd a b)
  | 0x018 => some (.serB t rd a b)
  | 0x019 => some (.serH t rd a b)
  | 0x01A => some (.serP t rd a b)
  | 0x01B => some (.serW t rd a b)
  | 0x020 => some (.mul t rd a b)
  | 0x021 => some (.mulh t rd a b)
  | 0x022 => some (.mulhu t rd a b)
  | 0x028 => some (.div t rd a b)
  | 0x029 => some (.divu t rd a b)
  | 0x02A => some (.rem t rd a b)
  | 0x02B => some (.remu t rd a b)
  | 0x030 => whenZero (b == 0) (.clz t rd a)
  | 0x031 => whenZero (b == 0) (.ctz t rd a)
  | 0x032 => whenZero (b == 0) (.popc t rd a)
  | 0x033 => whenZero (b == 0) (.bswap t rd a)
  | _ => none

/-- Major 0x1C (R81). -/
def decodeAmo (t : BitVec 8) (w : BitVec 32) : Option Instr :=
  let rd := fRd w
  let a := fRs1 w
  let b := fRs2 w
  match fFunc w with
  | 0x00 => some (.amoAdd t false rd a b)
  | 0x01 => some (.amoSwap t false rd a b)
  | 0x02 => some (.amoCas t false rd a b)
  | 0x03 => some (.amoAnd t false rd a b)
  | 0x04 => some (.amoOr t false rd a b)
  | 0x05 => some (.amoMaxu t false rd a b)
  | 0x06 => some (.amoMinu t false rd a b)
  | 0x10 => some (.amoAdd t true rd a b)
  | 0x11 => some (.amoSwap t true rd a b)
  | 0x12 => some (.amoCas t true rd a b)
  | 0x13 => some (.amoAnd t true rd a b)
  | 0x14 => some (.amoOr t true rd a b)
  | 0x15 => some (.amoMaxu t true rd a b)
  | 0x16 => some (.amoMinu t true rd a b)
  | _ => none

/-- Major 0x30 (R85). -/
def decodeQueue (t : BitVec 8) (w : BitVec 32) : Option Instr :=
  let rd := fRd w
  let a := fRs1 w
  let b := fRs2 w
  let m := fMod w
  let two := b == 0 && m == 0
  match fQop w with
  | 0x00 => if m = 0 then some (.qPush t false rd a b) else if m = 1 then some (.qPush t true rd a b) else none
  | 0x01 => whenZero two (.qTake t rd a)
  | 0x02 => whenZero two (.qFree t rd a)
  | 0x03 => whenZero two (.qFwd t rd a)
  | 0x04 => whenZero (m == 0) (.qBind t rd a b)
  | 0x05 => whenZero two (.qStat t rd a)
  | 0x08 => whenZero two (.stgAlloc t rd a)
  | 0x09 => whenZero two (.stgFree t rd a)
  | _ => none

/-- Major 0x31 (R88). -/
def decodeSearch (t : BitVec 8) (w : BitVec 32) : Option Instr :=
  let rd := fRd w
  let a := fRs1 w
  let b := fRs2 w
  let m := fMod w
  match fQop w with
  | 0x00 => whenZero (b == 0 && decide (m < 2)) (.srchFind t (BitVec.ofNat 1 m) rd a)
  | 0x01 => whenZero (a == 0 && b == 0 && m == 0) (.srchNext t rd)
  | 0x02 => whenZero (decide (m < 2)) (.srchWr t (BitVec.ofNat 1 m) rd a b)
  | 0x03 => whenZero (a == 0 && m == 0) (.srchClr t rd b)
  | 0x04 => whenZero (a == 0 && m == 0) (.srchRd t rd b)
  | _ => none

/-- Major 0x32 (R90). -/
def decodeWicket (t : BitVec 8) (w : BitVec 32) : Option Instr :=
  let rd := fRd w
  let a := fRs1 w
  let b := fRs2 w
  let m := fMod w
  match fQop w with
  | 0x00 => whenZero (m == 0) (.wktAdm t rd a b)
  | 0x01 => whenZero (a == 0 && b == 0 && m == 0) (.wktSlk t rd)
  | 0x02 => whenZero (b == 0 && m == 0) (.wktFin t rd a)
  | 0x03 => whenZero (m == 0) (.wktHzn t rd a b)
  | _ => none

/-- Major 0x3F (R91). -/
def decodeSystem (t : BitVec 8) (w : BitVec 32) : Option Instr :=
  let rd := fRd w
  let a := fRs1 w
  let imm := fImm12 w
  let bare := rd == 0 && a == 0 && imm == 0
  match fSop w with
  | 0x0 => whenZero (a == 0) (.csrR t rd imm)
  | 0x1 => whenZero (rd == 0) (.csrW t a imm)
  | 0x2 => whenZero bare (.eret t)
  | 0x3 => whenZero (rd == 0 && a == 0) (.sysc t imm)
  | 0x4 => whenZero (rd == 0 && a == 0) (.brk t imm)
  | 0x5 => whenZero bare (.fence t)
  | 0x6 => whenZero (rd == 0 && imm == 0) (.dinv t a)
  | 0x7 => whenZero bare (.dinvAll t)
  | 0x8 => whenZero bare (.iinvAll t)
  | 0x9 => some (.start t rd a imm)
  | 0xA => whenZero (imm == 0) (.wait t rd a)
  | 0xB => whenZero (imm == 0) (.waitT t rd a)
  | 0xC => whenZero (imm == 0) (.pollT t rd a)
  | 0xD => whenZero bare (.done t)
  | _ => none

/-- The instruction of thread `t` that a word spells; none where the word takes ILLEGAL as an encoding (R71, R75). -/
def decodeMeq (t : BitVec 8) (w : BitVec 32) : Option Instr :=
  let rd := fRd w
  let a := fRs1 w
  let imm := fImm16 w
  let sh : BitVec 6 := w.extractLsb' 0 6
  let shOk := w.extractLsb' 6 10 == 0
  match fMajor w with
  | 0x01 => decodeAlu t w
  | 0x02 => some (.addi t rd a imm)
  | 0x03 => some (.andi t rd a imm)
  | 0x04 => some (.ori t rd a imm)
  | 0x05 => some (.xori t rd a imm)
  | 0x06 => some (.slti t rd a imm)
  | 0x07 => some (.sltiu t rd a imm)
  | 0x08 => whenZero shOk (.slli t rd a sh)
  | 0x09 => whenZero shOk (.srli t rd a sh)
  | 0x0A => whenZero shOk (.srai t rd a sh)
  | 0x0B => whenZero (a == 0) (.lui t rd imm)
  | 0x0C => some (.shi t rd a imm)
  | 0x10 => some (.ldB t rd a imm)
  | 0x11 => some (.ldBu t rd a imm)
  | 0x12 => some (.ldH t rd a imm)
  | 0x13 => some (.ldHu t rd a imm)
  | 0x14 => some (.ldW t rd a imm)
  | 0x15 => some (.ldWu t rd a imm)
  | 0x16 => some (.ldD t rd a imm)
  | 0x18 => some (.stB t rd a imm)
  | 0x19 => some (.stH t rd a imm)
  | 0x1A => some (.stW t rd a imm)
  | 0x1B => some (.stD t rd a imm)
  | 0x1C => decodeAmo t w
  | 0x20 => some (.beq t rd a imm)
  | 0x21 => some (.bne t rd a imm)
  | 0x22 => some (.blt t rd a imm)
  | 0x23 => some (.bge t rd a imm)
  | 0x24 => some (.bltu t rd a imm)
  | 0x25 => some (.bgeu t rd a imm)
  | 0x26 => some (.jal t rd (fOff21 w))
  | 0x27 => some (.jalr t rd a imm)
  | 0x28 => whenZero (fMod w == 0) (.j t rd a (fCls w) (fInst w))
  | 0x30 => decodeQueue t w
  | 0x31 => decodeSearch t w
  | 0x32 => decodeWicket t w
  | 0x3F => decodeSystem t w
  | _ => none

end Sys2Proof
end

