-- ==== Sys2Proof/Machine/Bits.lean ====
section
/-! DEFINITION. Plain helpers: bit fields of numbers, little-endian bytes, sparse tables, serial arithmetic (R12). -/

namespace Sys2Proof.Machine

/-- Bits [lo + w - 1 : lo] of a number. -/
def bitsOf (v lo w : Nat) : Nat := (v >>> lo) % 2 ^ w

/-- One bit of a number. -/
def bitOf (v i : Nat) : Bool := v.testBit i

/-- `v` with bits [lo + w - 1 : lo] replaced by those of `x`. -/
def setBitsOf (v lo w x : Nat) : Nat :=
  v % 2 ^ lo + (x % 2 ^ w) * 2 ^ lo + (v >>> (lo + w)) * 2 ^ (lo + w)

/-- 1 for true. -/
def b2n (b : Bool) : Nat := if b then 1 else 0

/-- Bits of `v` outside `mask`. -/
def maskOff (v mask : Nat) : Nat := v ^^^ (v &&& mask)

/-- Little-endian number of a list of bytes (R10). -/
def leNat : List Byte → Nat
  | [] => 0
  | b :: bs => b.toNat + 256 * leNat bs

/-- The low `n` bytes of a number, little-endian (R10). -/
def leBytes : Nat → Nat → List Byte
  | 0, _ => []
  | n + 1, v => BitVec.ofNat 8 v :: leBytes n (v / 256)

/-- Big-endian number of a list of bytes, for the standard protocols and the digests. -/
def beNat (l : List Byte) : Nat := leNat l.reverse

/-- The low `n` bytes of a number, big-endian. -/
def beBytes (n v : Nat) : List Byte := (leBytes n v).reverse

/-- Sign extension of the low `w` bits to an integer. -/
def sextInt (w v : Nat) : Int :=
  if v % 2 ^ w < 2 ^ (w - 1) then (v % 2 ^ w : Nat) else ((v % 2 ^ w : Nat) : Int) - (2 ^ w : Nat)

/-- Sign extension of the low `w` bits to 64 bits. -/
def sext64 (w v : Nat) : Word := BitVec.ofInt 64 (sextInt w v)

/-- Serial arithmetic of R12: `a` is later than `b` in width `n`. -/
def laterThan (n a b : Nat) : Bool :=
  let d := (a % 2 ^ n + 2 ^ n - b % 2 ^ n) % 2 ^ n
  decide (1 ≤ d ∧ d ≤ 2 ^ (n - 1) - 1)

/-- Rounded-up division. -/
def ceilDiv (a b : Nat) : Nat := (a + b - 1) / b

/-- floor(log2 u) + 1, and 0 for 0. -/
def bitLen (u : Nat) : Nat := if u = 0 then 0 else u.log2 + 1

/-- The numbers from `a` up, `n` of them. -/
def rangeFrom (a n : Nat) : List Nat := (List.range n).map (a + ·)

/-! Sparse tables. -/

/-- The entry with a number. -/
def SMap.find {α : Type} : SMap α → Nat → Option α
  | [], _ => none
  | (j, x) :: m, k => if j = k then some x else SMap.find m k

/-- The entry with a number, or the default. -/
def SMap.findD {α : Type} (m : SMap α) (k : Nat) (d : α) : α := (SMap.find m k).getD d

/-- Is there an entry with that number? -/
def SMap.has {α : Type} (m : SMap α) (k : Nat) : Bool := (SMap.find m k).isSome

/-- Set an entry. -/
def SMap.put {α : Type} : SMap α → Nat → α → SMap α
  | [], k, v => [(k, v)]
  | (j, x) :: m, k, v =>
    if j = k then (k, v) :: m else if k < j then (k, v) :: (j, x) :: m else (j, x) :: SMap.put m k v

/-- Remove an entry. -/
def SMap.del {α : Type} : SMap α → Nat → SMap α
  | [], _ => []
  | (j, x) :: m, k => if j = k then SMap.del m k else (j, x) :: SMap.del m k

/-- Set an entry of a table whose unlisted entries read as `d`: an entry equal to `d` is not listed. -/
def SMap.putD {α : Type} [DecidableEq α] (m : SMap α) (k : Nat) (v d : α) : SMap α :=
  if v = d then SMap.del m k else SMap.put m k v

/-- Change an entry of a table with a default. -/
def SMap.upd {α : Type} [DecidableEq α] (m : SMap α) (k : Nat) (d : α) (f : α → α) : SMap α :=
  SMap.putD m k (f (SMap.findD m k d)) d

/-- Change an entry if there is one. -/
def SMap.modify {α : Type} (m : SMap α) (k : Nat) (f : α → α) : SMap α :=
  match SMap.find m k with
  | some x => SMap.put m k (f x)
  | none => m

/-- The numbers listed. -/
def SMap.keys {α : Type} (m : SMap α) : List Nat := m.map Prod.fst

/-- The entries listed. -/
def SMap.vals {α : Type} (m : SMap α) : List α := m.map Prod.snd

/-- Remove the first occurrence of a number. -/
def removeNat (l : List Nat) (k : Nat) : List Nat := l.erase k

/-- Add a number to the end of a list that has no repeats. -/
def addNat (l : List Nat) (k : Nat) : List Nat := if l.contains k then l else l ++ [k]

/-- Replace the element at a position. -/
def setAt {α : Type} : List α → Nat → α → List α
  | [], _, _ => []
  | _ :: l, 0, v => v :: l
  | x :: l, n + 1, v => x :: setAt l n v

/-- Remove the element at a position. -/
def delAt {α : Type} : List α → Nat → List α
  | [], _ => []
  | _ :: l, 0 => l
  | x :: l, n + 1 => x :: delAt l n

/-- The element of a list least by a key, the first of equals. -/
def minBy {α : Type} (key : α → Nat) : List α → Option α
  | [] => none
  | x :: l =>
    match minBy key l with
    | none => some x
    | some y => if key y < key x then some y else some x

/-- Fold a state over a list. -/
def foldSt {σ α : Type} (f : α → σ → σ) : List α → σ → σ
  | [], s => s
  | x :: l, s => foldSt f l (f x s)

end Sys2Proof.Machine
end

