-- ==== Sys2Proof/Machine/Crc.lean ====
section
/-! DEFINITION. The check codes: CRC-32C and the CRC-64 of the NVM Command Set, both reflected with all-ones start and final
inversion. -/

namespace Sys2Proof.Machine

/-- One bit of a reflected CRC: `poly` is the reversed polynomial. -/
def crcBit (poly c : Nat) : Nat := if c % 2 = 1 then (c / 2) ^^^ poly else c / 2

/-- One byte of a reflected CRC. -/
def crcByte (poly c : Nat) (b : Byte) : Nat :=
  let p := crcBit poly
  p (p (p (p (p (p (p (p (c ^^^ b.toNat))))))))

/-- A reflected CRC of width `w` over bytes. -/
def crcOf (poly w : Nat) (l : List Byte) : Nat := (l.foldl (crcByte poly) (2 ^ w - 1)) ^^^ (2 ^ w - 1)

/-- CRC-32C (Castagnoli). -/
def crc32c (l : List Byte) : Nat := crcOf 0x82F63B78 32 l

/-- CRC-64 of the NVM Command Set. -/
def crc64 (l : List Byte) : Nat := crcOf 0x9A6C9329AC4BC9B5 64 l

end Sys2Proof.Machine
end

