-- ==== Sys2Proof/Config.lean ====
section
/-! DEFINITION. What the manual leaves open: constants without a body, of which nothing can be proved
(assumption log 4). Each is applied to the model's counter of open choices or to the operands it depends on. -/

namespace Sys2Proof.Config

/-- A number the manual leaves open; the argument is the model's counter `State.freeCtr`. -/
opaque freeNat : Nat → Nat

/-- A truth value the manual leaves open; the argument is `State.freeCtr`. -/
opaque freeBool : Nat → Bool

/-- The output of the random source of R385: the n-th 64-bit word drawn. -/
opaque random : Nat → BitVec 64

/-- The block an Ox compressor chooses at a level for a grain (R216 fixes the format, not the encoder's choice). -/
opaque oxEncode : Nat → List Byte → List Byte

/-- The derivation of the identity private key from DEVICE_SECRET (R387 does not give it). -/
opaque identityScalar : List Byte → Nat

/-- What an OTP_PROGRAM field byte names (R391 does not number the fields of R387): 1 to 3 KEYHASH1 to KEYHASH3 with their
attributes, 4 to 7 the attributes of key slots 0 to 3, 8 IMAGE_KEK1, 9 OWNER_LOCK; any other value names no field. -/
opaque otpField : Nat → Nat

/-- The hash of a connection's 4-tuple that selects its bucket (R143; the manual does not give it). -/
opaque connHash : Nat → Nat

/-- Whether a header read of the census comes back UNCORRECTABLE (R271, R302), for a page of a lane. -/
opaque headerBad : Nat → Nat → Bool

end Sys2Proof.Config
end

