-- ==== Sys2Proof/Machine/Regs.lean ====
section
/-! DEFINITION. The registers of BAR0 (R467), written out from the register tables of every chapter of spec/:
one named field per table row, and one descriptor per 64-bit word (array bounds, the masks of R11, the reset value). -/

namespace Sys2Proof.Machine

/-- A field of a register: BAR0 byte offset, distance between array elements, lowest bit, width. -/
structure Fld where
  off : Nat
  stride : Nat
  lo : Nat
  width : Nat
  deriving DecidableEq, Repr

/-- A register of BAR0 or an array of them: first offset, two array counts and strides, the bits of each type of R11
(`rw` holds RW, RWL and RWS bits), whether it is a counter of R437, and the value the table gives for reset. -/
structure RegDesc where
  off : Nat
  n1 : Nat
  s1 : Nat
  n2 : Nat
  s2 : Nat
  rw : Nat
  w1c : Nat
  wo : Nat
  rwl : Nat
  rws : Nat
  ctr : Bool
  rst : Nat
  deriving DecidableEq, Repr

namespace F

def GLB_CAPS_VARIANT : Fld := ⟨0x8, 0x0, 0, 8⟩
def GLB_CAPS_HBM_GIB : Fld := ⟨0x8, 0x0, 8, 8⟩
def GLB_CAPS_MAPC_GIB : Fld := ⟨0x8, 0x0, 16, 8⟩
def GLB_CAPS_STEP : Fld := ⟨0x8, 0x0, 24, 4⟩
def GLB_UNITS_OX_MASK : Fld := ⟨0x10, 0x0, 0, 16⟩
def GLB_UNITS_DG_MASK : Fld := ⟨0x10, 0x0, 16, 16⟩
def GLB_UNITS_MO_MASK : Fld := ⟨0x10, 0x0, 32, 8⟩
def GLB_UNITS_FE_MASK : Fld := ⟨0x10, 0x0, 40, 4⟩
def GLB_UNITS_TQ_MASK : Fld := ⟨0x10, 0x0, 44, 4⟩
def GLB_UNITS_HBM_MASK : Fld := ⟨0x10, 0x0, 48, 4⟩
def GLB_UNITS_DDX : Fld := ⟨0x10, 0x0, 52, 1⟩
def GLB_UNITS_REPL : Fld := ⟨0x10, 0x0, 53, 1⟩
def MQ_ID_CLUSTER : Fld := ⟨0x1000000, 0x20000, 0, 3⟩
def MQ_ID_CORE_MASK : Fld := ⟨0x1000000, 0x20000, 8, 8⟩
def MQ_ID_ARCH : Fld := ⟨0x1000000, 0x20000, 16, 8⟩
def MQ_RUN_CORE_EN : Fld := ⟨0x1000008, 0x20000, 0, 8⟩
def MQ_KEEPER_KMASK : Fld := ⟨0x1000010, 0x20000, 0, 32⟩
def MQ_ENTRY_BASE_ADDR : Fld := ⟨0x1000018, 0x20000, 6, 42⟩
def MQ_CODE_BASE_ADDR : Fld := ⟨0x1000020, 0x20000, 0, 64⟩
def MQ_CODE_LIMIT_ADDR : Fld := ⟨0x1000028, 0x20000, 0, 64⟩
def MQ_CACHE_CTL_I_EN : Fld := ⟨0x1000030, 0x20000, 0, 8⟩
def MQ_CACHE_CTL_D_EN : Fld := ⟨0x1000030, 0x20000, 8, 8⟩
def MQ_CACHE_CTL_I_INVD : Fld := ⟨0x1000030, 0x20000, 16, 8⟩
def MQ_CACHE_CTL_D_INVD : Fld := ⟨0x1000030, 0x20000, 24, 8⟩
def MQ_CACHE_CTL_EN_ERR : Fld := ⟨0x1000030, 0x20000, 32, 1⟩
def MQ_IDLE_IDLE_MODE : Fld := ⟨0x1000038, 0x20000, 0, 2⟩
def MQ_IDLE_RETAIN_EN : Fld := ⟨0x1000038, 0x20000, 2, 1⟩
def MQ_WAKE_THREAD : Fld := ⟨0x1000040, 0x20000, 0, 32⟩
def MQ_BUDGET_UNITS : Fld := ⟨0x1000048, 0x20000, 0, 24⟩
def MQ_KPR_BASE_ADDR : Fld := ⟨0x1000050, 0x20000, 21, 27⟩
def MQ_KPR_LIMIT_ADDR : Fld := ⟨0x1000058, 0x20000, 21, 27⟩
def MQ_THR_STATE0_STATE : Fld := ⟨0x1000060, 0x20000, 0, 64⟩
def MQ_THR_STATE1_STATE : Fld := ⟨0x1000068, 0x20000, 0, 64⟩
def MQ_PWR_STATE_CORE_DOZE : Fld := ⟨0x1000070, 0x20000, 0, 8⟩
def MQ_PWR_STATE_RETAIN : Fld := ⟨0x1000070, 0x20000, 8, 1⟩
def MQ_DISPATCHED_COUNT : Fld := ⟨0x1000078, 0x20000, 0, 48⟩
def MQ_DISPATCHED_SAT : Fld := ⟨0x1000078, 0x20000, 63, 1⟩
def MQ_RING_STALL_COUNT : Fld := ⟨0x1000080, 0x20000, 0, 48⟩
def MQ_RING_STALL_SAT : Fld := ⟨0x1000080, 0x20000, 63, 1⟩
def MQ_ECC_FIX_COUNT : Fld := ⟨0x1000088, 0x20000, 0, 48⟩
def MQ_ECC_FIX_SAT : Fld := ⟨0x1000088, 0x20000, 63, 1⟩
def MQ_ORPHAN_COUNT : Fld := ⟨0x1000090, 0x20000, 0, 48⟩
def MQ_ORPHAN_SAT : Fld := ⟨0x1000090, 0x20000, 63, 1⟩
def MQ_QTAB_BASE_ADDR : Fld := ⟨0x101F000, 0x0, 25, 23⟩
def MQ_POOL_FREE_FREE : Fld := ⟨0x101F008, 0x0, 0, 19⟩
def MQ_POOL_FREE_MIN : Fld := ⟨0x101F008, 0x0, 32, 19⟩
def MQ_POOL_FREE_REARM : Fld := ⟨0x101F008, 0x0, 63, 1⟩
def WKT_CTL_ADMIT_EN : Fld := ⟨0x2000000, 0x0, 0, 1⟩
def WKT_CTL_CAP_CLOSED : Fld := ⟨0x2000000, 0x0, 1, 1⟩
def WKT_CTL_SUSP_EN : Fld := ⟨0x2000000, 0x0, 2, 1⟩
def WKT_CTL_RECON_EN : Fld := ⟨0x2000000, 0x0, 3, 1⟩
def WKT_STATUS_LIFECYCLE : Fld := ⟨0x2000008, 0x0, 0, 4⟩
def WKT_STATUS_BRACE : Fld := ⟨0x2000008, 0x0, 4, 1⟩
def WKT_STATUS_THERMAL : Fld := ⟨0x2000008, 0x0, 5, 1⟩
def WKT_STATUS_PARTNER_LATE : Fld := ⟨0x2000008, 0x0, 6, 1⟩
def WKT_STATUS_JOURNAL_BP : Fld := ⟨0x2000008, 0x0, 7, 1⟩
def WKT_STATUS_POOL_EMPTY : Fld := ⟨0x2000008, 0x0, 8, 1⟩
def WKT_HINT_STATE_NS : Fld := ⟨0x2000010, 0x0, 0, 32⟩
def WKT_HINT_MIN_NS : Fld := ⟨0x2000010, 0x0, 32, 32⟩
def WKT_CRD_LIM0 : Fld := ⟨0x2000018, 0x0, 0, 16⟩
def WKT_CRD_LIM1 : Fld := ⟨0x2000018, 0x0, 16, 16⟩
def WKT_CRD_LIM2 : Fld := ⟨0x2000018, 0x0, 32, 16⟩
def WKT_FWD_RESERVE_NS : Fld := ⟨0x2000020, 0x0, 0, 32⟩
def WKT_MEDIA_TREAD : Fld := ⟨0x2000028, 0x0, 0, 16⟩
def WKT_MEDIA_TPROG : Fld := ⟨0x2000028, 0x0, 16, 16⟩
def WKT_MEDIA_TERASE : Fld := ⟨0x2000028, 0x0, 32, 16⟩
def WKT_MEDIA_TSUSP : Fld := ⟨0x2000028, 0x0, 48, 16⟩
def WKT_RDPOL_DIRECT_OK : Fld := ⟨0x2000030, 0x0, 0, 16⟩
def WKT_RDPOL_TDECODE : Fld := ⟨0x2000030, 0x0, 16, 16⟩
def WKT_RDPOL_SUSP_MAX : Fld := ⟨0x2000030, 0x0, 32, 4⟩
def WKT_ADMITTED_CTR : Fld := ⟨0x2000100, 0x0, 0, 48⟩
def WKT_REFUSED_CTR : Fld := ⟨0x2000108, 0x0, 0, 48⟩
def WKT_KEPT_CTR : Fld := ⟨0x2000110, 0x0, 0, 48⟩
def WKT_PAUSES_CTR : Fld := ⟨0x2000118, 0x0, 0, 48⟩
def WKT_BRK_CTR : Fld := ⟨0x2000120, 0x8, 0, 48⟩
def WKT_HZN_CLAMP_CTR : Fld := ⟨0x2000148, 0x0, 0, 48⟩
def WKT_REF_REASON_CTR : Fld := ⟨0x2000200, 0x8, 0, 48⟩
def WKT_GRP_STATE : Fld := ⟨0x2010000, 0x8, 0, 2⟩
def WKT_VOLGRP_GROUP : Fld := ⟨0x2020000, 0x8, 0, 7⟩
def WKT_HCOST_PS64 : Fld := ⟨0x2030000, 0x8, 0, 24⟩
def WKT_HCOST_FIXED_NS : Fld := ⟨0x2030000, 0x8, 24, 16⟩
def WKT_CLASS_BOUND_NS : Fld := ⟨0x2040000, 0x40, 0, 32⟩
def WKT_CLASS_FIXED_NS : Fld := ⟨0x2040000, 0x40, 32, 32⟩
def WKT_CLASS_FE_RX : Fld := ⟨0x2040008, 0x40, 0, 1⟩
def WKT_CLASS_FE_TX : Fld := ⟨0x2040008, 0x40, 1, 1⟩
def WKT_CLASS_TRN_TX : Fld := ⟨0x2040008, 0x40, 2, 1⟩
def WKT_CLASS_TRN_RX : Fld := ⟨0x2040008, 0x40, 3, 1⟩
def WKT_CLASS_OX : Fld := ⟨0x2040008, 0x40, 4, 1⟩
def WKT_CLASS_DG : Fld := ⟨0x2040008, 0x40, 5, 1⟩
def WKT_CLASS_XTS : Fld := ⟨0x2040008, 0x40, 6, 1⟩
def WKT_CLASS_RDN : Fld := ⟨0x2040008, 0x40, 7, 1⟩
def WKT_CLASS_MAP : Fld := ⟨0x2040008, 0x40, 8, 1⟩
def WKT_CLASS_SEG : Fld := ⟨0x2040008, 0x40, 9, 1⟩
def WKT_CLASS_DDX : Fld := ⟨0x2040008, 0x40, 10, 1⟩
def WKT_CLASS_JRNL : Fld := ⟨0x2040008, 0x40, 11, 1⟩
def WKT_CLASS_FOOTPRINT : Fld := ⟨0x2040008, 0x40, 0, 12⟩
def WKT_CLASS_MAX_INFLIGHT : Fld := ⟨0x2040010, 0x40, 0, 18⟩
def WKT_CLASS_INFLIGHT : Fld := ⟨0x2040010, 0x40, 32, 32⟩
def WKT_CLASS_ADMITTED : Fld := ⟨0x2040018, 0x40, 0, 64⟩
def WKT_CLASS_REFUSED : Fld := ⟨0x2040020, 0x40, 0, 64⟩
def WKT_CLASS_KEPT : Fld := ⟨0x2040028, 0x40, 0, 64⟩
def WKT_CLASS_BROKEN : Fld := ⟨0x2040030, 0x40, 0, 64⟩
def WKT_CLASS_VALID : Fld := ⟨0x2040038, 0x40, 0, 1⟩
def WKT_CLASS_FLAGS : Fld := ⟨0x2040038, 0x40, 0, 1⟩
def WKT_HZN_REPORTED : Fld := ⟨0x2080000, 0x8, 0, 32⟩
def WKT_HZN_BOOKED : Fld := ⟨0x2080000, 0x8, 32, 32⟩
def WKT_TENANT_CMD_RATE : Fld := ⟨0x2100000, 0x40, 0, 32⟩
def WKT_TENANT_CMD_BURST : Fld := ⟨0x2100000, 0x40, 32, 24⟩
def WKT_TENANT_GRAIN_RATE : Fld := ⟨0x2100008, 0x40, 0, 32⟩
def WKT_TENANT_GRAIN_BURST : Fld := ⟨0x2100008, 0x40, 32, 24⟩
def WKT_TENANT_CLASSES : Fld := ⟨0x2100010, 0x40, 0, 12⟩
def WKT_TENANT_ENABLE : Fld := ⟨0x2100010, 0x40, 16, 1⟩
def WKT_TENANT_NO_WRITE : Fld := ⟨0x2100010, 0x40, 17, 1⟩
def WKT_TENANT_FLAGS : Fld := ⟨0x2100010, 0x40, 16, 2⟩
def WKT_TENANT_CMD_TOKENS : Fld := ⟨0x2100010, 0x40, 32, 32⟩
def WKT_TENANT_GRAIN_TOKENS : Fld := ⟨0x2100018, 0x40, 0, 32⟩
def WKT_TENANT_ADMITTED : Fld := ⟨0x2100020, 0x40, 0, 64⟩
def WKT_TENANT_REFUSED : Fld := ⟨0x2100028, 0x40, 0, 64⟩
def WKT_TENANT_BROKEN : Fld := ⟨0x2100030, 0x40, 0, 64⟩
def WKT_PRM_TIME : Fld := ⟨0x2200000, 0x8, 0, 32⟩
def WKT_PRM_STATE : Fld := ⟨0x2200000, 0x8, 32, 3⟩
def WKT_PRM_CAUSE : Fld := ⟨0x2200000, 0x8, 35, 4⟩
def WKT_PRM_CLASS : Fld := ⟨0x2200000, 0x8, 39, 4⟩
def WKT_PRM_TENANT : Fld := ⟨0x2200000, 0x8, 43, 12⟩
def FE_CTL_QUAD_EN : Fld := ⟨0x2400000, 0x0, 0, 4⟩
def FE_CTL_ACCEPT_EN : Fld := ⟨0x2400000, 0x0, 4, 1⟩
def FE_STATUS_MODE_ERR : Fld := ⟨0x2400008, 0x0, 0, 2⟩
def FE_PORTMODE_MODE : Fld := ⟨0x2400010, 0x0, 0, 16⟩
def FE_PORTMODE_MEDIA : Fld := ⟨0x2400010, 0x0, 16, 4⟩
def FE_LINK_PORT : Fld := ⟨0x2400018, 0x0, 0, 64⟩
def FE_NVME_HDGST_ALLOW : Fld := ⟨0x2400020, 0x0, 0, 1⟩
def FE_NVME_DDGST_ALLOW : Fld := ⟨0x2400020, 0x0, 1, 1⟩
def FE_NVME_CONNECT_Q : Fld := ⟨0x2400020, 0x0, 4, 20⟩
def FE_TCP_RTO_MIN : Fld := ⟨0x2400028, 0x0, 0, 16⟩
def FE_TCP_RTO_MAX : Fld := ⟨0x2400028, 0x0, 16, 16⟩
def FE_TCP_RETRIES : Fld := ⟨0x2400028, 0x0, 32, 4⟩
def FE_TCP_CC : Fld := ⟨0x2400028, 0x0, 36, 1⟩
def FE_TCP_RWIN : Fld := ⟨0x2400028, 0x0, 40, 16⟩
def FE_TIMERS_XFER_MS : Fld := ⟨0x2400030, 0x0, 0, 16⟩
def FE_TIMERS_IC_MS : Fld := ⟨0x2400030, 0x0, 16, 16⟩
def FE_CTX_BASE_ADDR : Fld := ⟨0x2400038, 0x0, 32, 16⟩
def FE_CIDX_BASE_ADDR : Fld := ⟨0x2400040, 0x0, 26, 22⟩
def FE_IFW_BASE_ADDR : Fld := ⟨0x2400048, 0x0, 20, 28⟩
def FE_CONNS_OPEN : Fld := ⟨0x2400050, 0x0, 0, 21⟩
def FE_CONNS_CACHED : Fld := ⟨0x2400050, 0x0, 32, 13⟩
def FE_FRAME_DROP_CTR : Fld := ⟨0x2400100, 0x40, 0, 48⟩
def FE_MACSEC_DROP_CTR : Fld := ⟨0x2400108, 0x40, 0, 48⟩
def FE_IP_DROP_CTR : Fld := ⟨0x2400110, 0x40, 0, 48⟩
def FE_CTX_MISS_CTR : Fld := ⟨0x2400118, 0x40, 0, 48⟩
def FE_MISS_DROP_CTR : Fld := ⟨0x2400120, 0x40, 0, 48⟩
def FE_TERM_CTR : Fld := ⟨0x2400128, 0x40, 0, 48⟩
def FE_INGRESS_FAIL_CTR : Fld := ⟨0x2400130, 0x40, 0, 48⟩
def FE_SYN_REFUSED_CTR : Fld := ⟨0x2400138, 0x40, 0, 48⟩
def FE_MAC_ADDR : Fld := ⟨0x2400200, 0x8, 0, 48⟩
def FE_MAC_PFC_EN : Fld := ⟨0x2400200, 0x8, 48, 8⟩
def FE_IPIF_ADDR0 : Fld := ⟨0x2410000, 0x20, 0, 64⟩
def FE_IPIF_ADDR1 : Fld := ⟨0x2410008, 0x20, 0, 64⟩
def FE_IPIF_PREFIX : Fld := ⟨0x2410010, 0x20, 0, 8⟩
def FE_IPIF_PORT : Fld := ⟨0x2410010, 0x20, 8, 4⟩
def FE_IPIF_VLAN : Fld := ⟨0x2410010, 0x20, 16, 12⟩
def FE_IPIF_TAGGED : Fld := ⟨0x2410010, 0x20, 28, 1⟩
def FE_IPIF_PRIO : Fld := ⟨0x2410010, 0x20, 29, 3⟩
def FE_IPIF_VALID : Fld := ⟨0x2410010, 0x20, 32, 1⟩
def FE_IPIF_IPV6 : Fld := ⟨0x2410010, 0x20, 33, 1⟩
def FE_IPIF_MACSEC_REQ : Fld := ⟨0x2410010, 0x20, 34, 1⟩
def FE_IPIF_FLAGS : Fld := ⟨0x2410010, 0x20, 32, 3⟩
def FE_IPIF_DSCP : Fld := ⟨0x2410010, 0x20, 40, 6⟩
def FE_IPIF_MTU : Fld := ⟨0x2410010, 0x20, 48, 16⟩
def FE_LISTEN_TCP_PORT : Fld := ⟨0x2411000, 0x8, 0, 16⟩
def FE_LISTEN_IPIF : Fld := ⟨0x2411000, 0x8, 16, 6⟩
def FE_LISTEN_VALID : Fld := ⟨0x2411000, 0x8, 22, 1⟩
def FE_NS_SIZE : Fld := ⟨0x2420000, 0x8, 0, 37⟩
def FE_NS_FORMAT : Fld := ⟨0x2420000, 0x8, 37, 2⟩
def FE_NS_ACTIVE : Fld := ⟨0x2420000, 0x8, 39, 1⟩
def FE_NS_APPTAG : Fld := ⟨0x2420000, 0x8, 40, 16⟩
def FE_MSA_PORT : Fld := ⟨0x2440000, 0x80, 0, 4⟩
def FE_MSA_VALID : Fld := ⟨0x2440000, 0x80, 8, 1⟩
def FE_MSA_TX : Fld := ⟨0x2440000, 0x80, 9, 1⟩
def FE_MSA_XPN : Fld := ⟨0x2440000, 0x80, 10, 1⟩
def FE_MSA_SELECTED : Fld := ⟨0x2440000, 0x80, 11, 1⟩
def FE_MSA_AN : Fld := ⟨0x2440000, 0x80, 12, 2⟩
def FE_MSA_CTL : Fld := ⟨0x2440000, 0x80, 8, 6⟩
def FE_MSA_SCI : Fld := ⟨0x2440008, 0x80, 0, 64⟩
def FE_MSA_NEXT_PN : Fld := ⟨0x2440010, 0x80, 0, 64⟩
def FE_MSA_PN_WARN : Fld := ⟨0x2440018, 0x80, 0, 64⟩
def FE_MSA_REPLAY_WIN : Fld := ⟨0x2440020, 0x80, 0, 30⟩
def FE_MSA_SSCI : Fld := ⟨0x2440020, 0x80, 32, 32⟩
def FE_MSA_SALT0 : Fld := ⟨0x2440028, 0x80, 0, 64⟩
def FE_MSA_SALT1 : Fld := ⟨0x2440030, 0x80, 0, 32⟩
def FE_MSA_SAK0 : Fld := ⟨0x2440040, 0x80, 0, 64⟩
def FE_MSA_SAK1 : Fld := ⟨0x2440048, 0x80, 0, 64⟩
def FE_MSA_SAK2 : Fld := ⟨0x2440050, 0x80, 0, 64⟩
def FE_MSA_SAK3 : Fld := ⟨0x2440058, 0x80, 0, 64⟩
def JRN_CTL_EN : Fld := ⟨0x2900000, 0x0, 0, 1⟩
def JRN_CTL_SINGLE : Fld := ⟨0x2900000, 0x0, 1, 1⟩
def JRN_CTL_ACTIVE_QP : Fld := ⟨0x2900000, 0x0, 2, 1⟩
def JRN_CTL_QP0 : Fld := ⟨0x2900000, 0x0, 8, 12⟩
def JRN_CTL_QP1 : Fld := ⟨0x2900000, 0x0, 20, 12⟩
def JRN_CTL_VAULT_MIN : Fld := ⟨0x2900000, 0x0, 32, 3⟩
def JRN_BASE_ADDR : Fld := ⟨0x2900008, 0x0, 30, 18⟩
def JRN_MBASE_ADDR : Fld := ⟨0x2900010, 0x0, 30, 18⟩
def JRN_RKEY_RKEY : Fld := ⟨0x2900018, 0x0, 0, 32⟩
def JRN_START_JOFF : Fld := ⟨0x2900020, 0x0, 6, 58⟩
def JRN_HEAD_JOFF : Fld := ⟨0x2900028, 0x0, 0, 64⟩
def JRN_TAIL_JOFF : Fld := ⟨0x2900030, 0x0, 0, 64⟩
def JRN_MHEAD_JOFF : Fld := ⟨0x2900038, 0x0, 0, 64⟩
def JRN_MTAIL_JOFF : Fld := ⟨0x2900040, 0x0, 0, 64⟩
def JRN_USE_DIRTY_KIB : Fld := ⟨0x2900048, 0x0, 0, 24⟩
def JRN_USE_META_KIB : Fld := ⟨0x2900048, 0x0, 24, 24⟩
def JRN_LIMIT_DIRTY_LIMIT : Fld := ⟨0x2900050, 0x0, 0, 10⟩
def JRN_LIMIT_META_LIMIT : Fld := ⟨0x2900050, 0x0, 16, 10⟩
def JRN_LIMIT_SPAN_LIMIT : Fld := ⟨0x2900050, 0x0, 32, 10⟩
def JRN_LIMIT_BP : Fld := ⟨0x2900050, 0x0, 48, 1⟩
def JRN_LIMIT_BP_CAUSE : Fld := ⟨0x2900050, 0x0, 49, 4⟩
def JRN_VGEN_VGEN : Fld := ⟨0x2900058, 0x0, 0, 32⟩
def JRN_VGEOM_PPE : Fld := ⟨0x2900060, 0x0, 0, 16⟩
def JRN_VGEOM_NEU : Fld := ⟨0x2900060, 0x0, 16, 4⟩
def JRN_VAULT_SLED : Fld := ⟨0x2900068, 0x8, 0, 6⟩
def JRN_VAULT_ARMED : Fld := ⟨0x2900068, 0x8, 6, 1⟩
def JRN_VAULT_FAIL : Fld := ⟨0x2900068, 0x8, 7, 1⟩
def JRN_VAULT_STATE : Fld := ⟨0x2900068, 0x8, 8, 3⟩
def JRN_VAULT_PAGES : Fld := ⟨0x2900068, 0x8, 16, 16⟩
def JRN_APPENDS_CTR : Fld := ⟨0x2900100, 0x0, 0, 48⟩
def JRN_RETIRES_CTR : Fld := ⟨0x2900108, 0x0, 0, 48⟩
def JRN_BP_CTR : Fld := ⟨0x2900110, 0x0, 0, 48⟩
def JRN_NO_SPACE_CTR : Fld := ⟨0x2900118, 0x0, 0, 48⟩
def DG_CTL_PORT_EN : Fld := ⟨0x2E00000, 0x1000, 0, 1⟩
def DG_CTL_COMPAT : Fld := ⟨0x2E00000, 0x1000, 1, 1⟩
def DG_CTL_ALG : Fld := ⟨0x2E00000, 0x1000, 2, 3⟩
def DG_CTL_KEYED : Fld := ⟨0x2E00000, 0x1000, 5, 1⟩
def DG_STATUS_PSTATE : Fld := ⟨0x2E00008, 0x1000, 0, 2⟩
def DG_STATUS_RESULT_VALID : Fld := ⟨0x2E00008, 0x1000, 2, 1⟩
def DG_STATUS_EARLY_RD : Fld := ⟨0x2E00008, 0x1000, 3, 1⟩
def DG_STATUS_ORDER_ERR : Fld := ⟨0x2E00008, 0x1000, 4, 1⟩
def DG_STATUS_KEY_VALID : Fld := ⟨0x2E00008, 0x1000, 5, 1⟩
def DG_CMD_START : Fld := ⟨0x2E00010, 0x1000, 0, 1⟩
def DG_CMD_FIN0 : Fld := ⟨0x2E00010, 0x1000, 1, 1⟩
def DG_DATA_DATA : Fld := ⟨0x2E00018, 0x1000, 0, 64⟩
def DG_MSGLEN_BYTES : Fld := ⟨0x2E00020, 0x1000, 0, 64⟩
def DG_SLOTS_SLOT : Fld := ⟨0x2E00028, 0x1000, 0, 64⟩
def DG_LAST_DATA : Fld := ⟨0x2E00040, 0x1000, 0, 64⟩
def DG_RESULT0_BYTES : Fld := ⟨0x2E00080, 0x1000, 0, 64⟩
def DG_BYTES_CTR : Fld := ⟨0x2E00100, 0x1000, 0, 48⟩
def DG_JOBS_CTR : Fld := ⟨0x2E00108, 0x1000, 0, 48⟩
def DG_PARTIAL_CTR : Fld := ⟨0x2E00110, 0x1000, 0, 48⟩
def DDX_CTL_EN : Fld := ⟨0x3F00000, 0x0, 0, 1⟩
def DDX_CTL_VERIFY : Fld := ⟨0x3F00000, 0x0, 1, 1⟩
def DDX_CTL_INIT : Fld := ⟨0x3F00000, 0x0, 2, 1⟩
def DDX_CTL_INIT_DONE : Fld := ⟨0x3F00000, 0x0, 3, 1⟩
def DDX_CTL_SWEEP_EN : Fld := ⟨0x3F00000, 0x0, 4, 1⟩
def DDX_BASE_ADDR : Fld := ⟨0x3F00008, 0x0, 30, 18⟩
def DDX_AGE_NOW : Fld := ⟨0x3F00010, 0x0, 0, 16⟩
def DDX_AGE_PERIOD_MS : Fld := ⟨0x3F00010, 0x0, 16, 16⟩
def DDX_OCC_VALID : Fld := ⟨0x3F00018, 0x0, 0, 30⟩
def DDX_OCC_SWEEP_AT : Fld := ⟨0x3F00018, 0x0, 32, 27⟩
def DDX_LOOKUP_CTR : Fld := ⟨0x3F00100, 0x0, 0, 48⟩
def DDX_HIT_CTR : Fld := ⟨0x3F00108, 0x0, 0, 48⟩
def DDX_INSERT_CTR : Fld := ⟨0x3F00110, 0x0, 0, 48⟩
def DDX_EVICT_CTR : Fld := ⟨0x3F00118, 0x0, 0, 48⟩
def DDX_FULL_CTR : Fld := ⟨0x3F00120, 0x0, 0, 48⟩
def DDX_PINNED_CTR : Fld := ⟨0x3F00128, 0x0, 0, 48⟩
def DDX_FREED_CTR : Fld := ⟨0x3F00130, 0x0, 0, 48⟩
def DDX_NOMATCH_CTR : Fld := ⟨0x3F00138, 0x0, 0, 48⟩
def OX_STATUS_BUSY : Fld := ⟨0x2C00000, 0x1000, 0, 1⟩
def OX_STATUS_QUEUED : Fld := ⟨0x2C00000, 0x1000, 8, 12⟩
def OX_COMPRESS_CTR : Fld := ⟨0x2C00100, 0x1000, 0, 48⟩
def OX_CELLS_CTR : Fld := ⟨0x2C00108, 0x1000, 0, 48⟩
def OX_RAW_CTR : Fld := ⟨0x2C00110, 0x1000, 0, 48⟩
def OX_ZERO_CTR : Fld := ⟨0x2C00118, 0x1000, 0, 48⟩
def OX_DECOMPRESS_CTR : Fld := ⟨0x2C00120, 0x1000, 0, 48⟩
def OX_CHECK_FAIL_CTR : Fld := ⟨0x2C00128, 0x1000, 0, 48⟩
def XTS_KEYSTAT_LOADED : Fld := ⟨0x3000000, 0x0, 0, 64⟩
def XTS_KEYBUSY_BUSY : Fld := ⟨0x3000008, 0x0, 0, 64⟩
def XTS_ENC_BYTES_CTR : Fld := ⟨0x3001000, 0x100, 0, 48⟩
def XTS_DEC_BYTES_CTR : Fld := ⟨0x3001008, 0x100, 0, 48⟩
def XTS_JOBS_CTR : Fld := ⟨0x3001010, 0x100, 0, 48⟩
def XTS_NOKEY_CTR : Fld := ⟨0x3001018, 0x100, 0, 48⟩
def MAP_CTL_EN : Fld := ⟨0x3200000, 0x0, 0, 1⟩
def MAP_CTL_INVALL : Fld := ⟨0x3200000, 0x0, 1, 1⟩
def MAP_CTL_INVD : Fld := ⟨0x3200000, 0x0, 2, 1⟩
def MAP_CTL_MOUNT : Fld := ⟨0x3200000, 0x0, 3, 1⟩
def MAP_CTL_FORMAT : Fld := ⟨0x3200000, 0x0, 4, 1⟩
def MAP_CTL_MOUNTED : Fld := ⟨0x3200000, 0x0, 5, 1⟩
def MAP_CTL_COMMIT : Fld := ⟨0x3200000, 0x0, 6, 1⟩
def MAP_CTL_CLEANALL : Fld := ⟨0x3200000, 0x0, 7, 1⟩
def MAP_CTL_KEYSLOT : Fld := ⟨0x3200000, 0x0, 8, 6⟩
def MAP_STATUS_BG_BUSY : Fld := ⟨0x3200008, 0x0, 0, 1⟩
def MAP_STATUS_BG_QUEUED : Fld := ⟨0x3200008, 0x0, 1, 5⟩
def MAP_STATUS_COMMIT_BUSY : Fld := ⟨0x3200008, 0x0, 6, 1⟩
def MAP_STATUS_COMMIT_ERR : Fld := ⟨0x3200008, 0x0, 7, 1⟩
def MAP_STATUS_EN_ERR : Fld := ⟨0x3200008, 0x0, 8, 1⟩
def MAP_STATUS_MOUNT_ERR : Fld := ⟨0x3200008, 0x0, 9, 1⟩
def MAP_STATUS_VB_USED : Fld := ⟨0x3200008, 0x0, 10, 10⟩
def MAP_STATUS_VB_DIRTY : Fld := ⟨0x3200008, 0x0, 20, 10⟩
def MAP_BASE_ADDR : Fld := ⟨0x3200010, 0x0, 30, 18⟩
def MAP_HDR_BASE_ADDR : Fld := ⟨0x3200018, 0x0, 26, 22⟩
def MAP_VIEW_BASE_ADDR : Fld := ⟨0x3200020, 0x0, 26, 22⟩
def MAP_SETS_SETS : Fld := ⟨0x3200028, 0x0, 0, 22⟩
def MAP_SEQ_ADDR_ADDR : Fld := ⟨0x3200030, 0x0, 3, 45⟩
def MAP_WM_ADDR_ADDR : Fld := ⟨0x3200038, 0x0, 3, 45⟩
def MAP_COMMIT_LOC : Fld := ⟨0x3200040, 0x0, 0, 64⟩
def MAP_COMMIT_SEQ_C : Fld := ⟨0x3200048, 0x0, 0, 64⟩
def MAP_ANCHOR_LOC : Fld := ⟨0x3200050, 0x0, 0, 64⟩
def MAP_COMMIT_CFG_PERIOD_US : Fld := ⟨0x3200058, 0x0, 0, 16⟩
def MAP_COMMIT_CFG_VB_HI : Fld := ⟨0x3200058, 0x0, 16, 9⟩
def MAP_COMMIT_CFG_WM_MS : Fld := ⟨0x3200058, 0x0, 32, 16⟩
def MAP_RELQ_QUEUE : Fld := ⟨0x3200060, 0x0, 0, 20⟩
def MAP_RELQ_VALID : Fld := ⟨0x3200060, 0x0, 20, 1⟩
def MAP_VQ_KEY_VOL : Fld := ⟨0x3200068, 0x0, 0, 14⟩
def MAP_VQ_KEY_VIEW : Fld := ⟨0x3200068, 0x0, 16, 16⟩
def MAP_VQ_KEY_FOUND : Fld := ⟨0x3200068, 0x0, 32, 1⟩
def MAP_VQ_DATA0_BYTES : Fld := ⟨0x3200070, 0x8, 0, 64⟩
def MAP_HIT_CTR : Fld := ⟨0x3200100, 0x0, 0, 48⟩
def MAP_MISS_CTR : Fld := ⟨0x3200108, 0x0, 0, 48⟩
def MAP_VB_HIT_CTR : Fld := ⟨0x3200110, 0x0, 0, 48⟩
def MAP_POISON_CTR : Fld := ⟨0x3200118, 0x0, 0, 48⟩
def MAP_EVICT_WAIT_CTR : Fld := ⟨0x3200120, 0x0, 0, 48⟩
def MAP_COW_CTR : Fld := ⟨0x3200128, 0x0, 0, 48⟩
def MAP_COMMITS_CTR : Fld := ⟨0x3200130, 0x0, 0, 48⟩
def MAP_NODES_WRITTEN_CTR : Fld := ⟨0x3200138, 0x0, 0, 48⟩
def MAP_RELEASED_CTR : Fld := ⟨0x3200140, 0x0, 0, 48⟩
def SEG_CTL_EN : Fld := ⟨0x3400000, 0x0, 0, 1⟩
def SEG_CTL_CENSUS : Fld := ⟨0x3400000, 0x0, 1, 1⟩
def SEG_CTL_CENSUS_DONE : Fld := ⟨0x3400000, 0x0, 2, 1⟩
def SEG_STATUS_CENSUS_BUSY : Fld := ⟨0x3400008, 0x0, 0, 1⟩
def SEG_STATUS_LOST_FULL : Fld := ⟨0x3400008, 0x0, 1, 1⟩
def SEG_STATUS_BAND_FULL : Fld := ⟨0x3400008, 0x0, 2, 1⟩
def SEG_BAND_BASE_ADDR : Fld := ⟨0x3400010, 0x0, 31, 17⟩
def SEG_LAYOUT_BASE_ADDR : Fld := ⟨0x3400018, 0x0, 23, 25⟩
def SEG_LOST_BASE_ADDR : Fld := ⟨0x3400020, 0x0, 20, 28⟩
def SEG_BUF_BASE_ADDR : Fld := ⟨0x3400028, 0x0, 25, 23⟩
def SEG_EPOCH_EPOCH : Fld := ⟨0x3400030, 0x0, 0, 16⟩
def SEG_BIRTH_NEXT : Fld := ⟨0x3400038, 0x0, 0, 40⟩
def SEG_LANE_FAILED : Fld := ⟨0x3400040, 0x0, 0, 64⟩
def SEG_RPTQ_QUEUE : Fld := ⟨0x3400048, 0x0, 0, 20⟩
def SEG_RPTQ_VALID : Fld := ⟨0x3400048, 0x0, 20, 1⟩
def SEG_RBLD_CTL_EN : Fld := ⟨0x3400050, 0x0, 0, 1⟩
def SEG_RBLD_CTL_PAUSE : Fld := ⟨0x3400050, 0x0, 1, 1⟩
def SEG_RBLD_CTL_RATE : Fld := ⟨0x3400050, 0x0, 16, 16⟩
def SEG_RBLD_CTL_DEPTH : Fld := ⟨0x3400050, 0x0, 32, 13⟩
def SEG_RBLD_STATUS_STATE : Fld := ⟨0x3400058, 0x0, 0, 2⟩
def SEG_RBLD_STATUS_QUEUED : Fld := ⟨0x3400058, 0x0, 8, 24⟩
def SEG_RBLD_STATUS_INFLIGHT : Fld := ⟨0x3400058, 0x0, 32, 13⟩
def SEG_RBLD_ADD_BAND : Fld := ⟨0x3400060, 0x0, 0, 23⟩
def SEG_RBLD_ADD_HEAD : Fld := ⟨0x3400060, 0x0, 23, 1⟩
def SEG_RBLD_ADD_POS : Fld := ⟨0x3400060, 0x0, 24, 5⟩
def SEG_RSHP_CTL_POOL : Fld := ⟨0x3400068, 0x0, 0, 4⟩
def SEG_RSHP_CTL_START : Fld := ⟨0x3400068, 0x0, 4, 1⟩
def SEG_RSHP_CTL_ABORT : Fld := ⟨0x3400068, 0x0, 5, 1⟩
def SEG_RSHP_CTL_BUSY : Fld := ⟨0x3400068, 0x0, 6, 1⟩
def SEG_RSHP_CTL_CKPT : Fld := ⟨0x3400068, 0x0, 16, 16⟩
def SEG_RSHP_AT_BOUNDARY : Fld := ⟨0x3400070, 0x0, 0, 23⟩
def SEG_STREAM_SEGMENT : Fld := ⟨0x3400080, 0x8, 0, 32⟩
def SEG_STREAM_PAGE : Fld := ⟨0x3400080, 0x8, 32, 10⟩
def SEG_STREAM_CELL : Fld := ⟨0x3400080, 0x8, 42, 8⟩
def SEG_STREAM_NDESC : Fld := ⟨0x3400080, 0x8, 50, 5⟩
def SEG_STREAM_INFLIGHT : Fld := ⟨0x3400080, 0x8, 55, 7⟩
def SEG_APPENDS_CTR : Fld := ⟨0x3400100, 0x0, 0, 48⟩
def SEG_STRIPES_CTR : Fld := ⟨0x3400108, 0x0, 0, 48⟩
def SEG_PAD_PAGES_CTR : Fld := ⟨0x3400110, 0x0, 0, 48⟩
def SEG_RECON_CTR : Fld := ⟨0x3400118, 0x0, 0, 48⟩
def SEG_SUSPECT_CTR : Fld := ⟨0x3400120, 0x0, 0, 48⟩
def SEG_TAG_FAIL_CTR : Fld := ⟨0x3400128, 0x0, 0, 48⟩
def SEG_LOST_STRIPES_CTR : Fld := ⟨0x3400130, 0x0, 0, 48⟩
def SEG_RBLD_BYTES_CTR : Fld := ⟨0x3400138, 0x0, 0, 48⟩
def SEG_MOVES_CTR : Fld := ⟨0x3400140, 0x0, 0, 48⟩
def SEG_ROW_BAD_CTR : Fld := ⟨0x3400148, 0x0, 0, 48⟩
def SEG_BAND_FULL_CTR : Fld := ⟨0x3400150, 0x0, 0, 48⟩
def RDN_STATUS_BUSY : Fld := ⟨0x3600000, 0x1000, 0, 1⟩
def RDN_STATUS_QUEUED : Fld := ⟨0x3600000, 0x1000, 8, 12⟩
def RDN_ENC_BYTES_CTR : Fld := ⟨0x3600100, 0x1000, 0, 48⟩
def RDN_DEC_BYTES_CTR : Fld := ⟨0x3600108, 0x1000, 0, 48⟩
def RDN_VERIFY_CTR : Fld := ⟨0x3600110, 0x1000, 0, 48⟩
def RDN_VERIFY_FAIL_CTR : Fld := ⟨0x3600118, 0x1000, 0, 48⟩
def RDN_LOST_CTR : Fld := ⟨0x3600120, 0x1000, 0, 48⟩
def NML_CTL_LANE_EN : Fld := ⟨0x3800000, 0x0, 0, 64⟩
def NML_CFG_ACK_FRAMES : Fld := ⟨0x3800008, 0x0, 0, 8⟩
def NML_CFG_REPLAY_MAX : Fld := ⟨0x3800008, 0x0, 8, 8⟩
def NML_CFG_REPLAY_US : Fld := ⟨0x3800008, 0x0, 16, 16⟩
def NML_CFG_RETRAIN_MS : Fld := ⟨0x3800008, 0x0, 32, 16⟩
def NML_TMO_T_SHORT : Fld := ⟨0x3800010, 0x0, 0, 16⟩
def NML_TMO_T_READ : Fld := ⟨0x3800010, 0x0, 16, 16⟩
def NML_TMO_T_PROG : Fld := ⟨0x3800010, 0x0, 32, 16⟩
def NML_TMO_T_ERASE : Fld := ⟨0x3800010, 0x0, 48, 16⟩
def NML_EPOCH_EPOCH : Fld := ⟨0x3800018, 0x0, 0, 16⟩
def NML_LINK_STATE : Fld := ⟨0x3801000, 0x8, 0, 3⟩
def NML_LINK_MISWIRE : Fld := ⟨0x3801000, 0x8, 3, 1⟩
def NML_LINK_SLED_RO : Fld := ⟨0x3801000, 0x8, 4, 1⟩
def NML_LINK_CMD_CREDITS : Fld := ⟨0x3801000, 0x8, 8, 11⟩
def NML_LINK_OUTSTANDING : Fld := ⟨0x3801000, 0x8, 19, 11⟩
def NML_LINK_HELD : Fld := ⟨0x3801000, 0x8, 30, 7⟩
def NML_LINK_DATA_CREDITS : Fld := ⟨0x3801000, 0x8, 37, 8⟩
def NML_FRAMES_TX_CTR : Fld := ⟨0x3802000, 0x40, 0, 48⟩
def NML_FRAMES_RX_CTR : Fld := ⟨0x3802008, 0x40, 0, 48⟩
def NML_CRC_ERR_CTR : Fld := ⟨0x3802010, 0x40, 0, 48⟩
def NML_LEN_ERR_CTR : Fld := ⟨0x3802018, 0x40, 0, 48⟩
def NML_REPLAYS_CTR : Fld := ⟨0x3802020, 0x40, 0, 48⟩
def NML_RETRAINS_CTR : Fld := ⟨0x3802028, 0x40, 0, 48⟩
def NML_TIMEOUTS_CTR : Fld := ⟨0x3802030, 0x40, 0, 48⟩
def NML_PROTO_ERR_CTR : Fld := ⟨0x3802038, 0x40, 0, 48⟩
def MUL_CTL_EN : Fld := ⟨0x3480000, 0x0, 0, 1⟩
def MUL_CTL_ERASE_EN : Fld := ⟨0x3480000, 0x0, 1, 1⟩
def MUL_CTL_LOAD : Fld := ⟨0x3480000, 0x0, 2, 1⟩
def MUL_CTL_LOADED : Fld := ⟨0x3480000, 0x0, 3, 1⟩
def MUL_EUT_BASE_ADDR : Fld := ⟨0x3480008, 0x0, 31, 17⟩
def MUL_GEOM_STRIDE : Fld := ⟨0x3480010, 0x0, 0, 16⟩
def MUL_GEOM_HOST_RESERVE : Fld := ⟨0x3480010, 0x0, 16, 16⟩
def MUL_STATUS_DIRTY : Fld := ⟨0x3480018, 0x0, 0, 28⟩
def MUL_STATUS_ERASING : Fld := ⟨0x3480018, 0x0, 28, 12⟩
def MUL_STATUS_FENCE_WAIT : Fld := ⟨0x3480018, 0x0, 40, 1⟩
def MUL_STATUS_MOVING : Fld := ⟨0x3480018, 0x0, 41, 1⟩
def MUL_LANE_FREE : Fld := ⟨0x3481000, 0x8, 0, 24⟩
def MUL_LANE_RETIRED : Fld := ⟨0x3481000, 0x8, 24, 16⟩
def MUL_LANE_SPARE : Fld := ⟨0x3481000, 0x8, 40, 16⟩
def MUL_LANE_READONLY : Fld := ⟨0x3481000, 0x8, 56, 1⟩
def MUL_LANE_NOHOST : Fld := ⟨0x3481000, 0x8, 57, 1⟩
def MUL_MOVED_CTR : Fld := ⟨0x3480100, 0x0, 0, 48⟩
def MUL_MOVED_CELLS_CTR : Fld := ⟨0x3480108, 0x0, 0, 48⟩
def MUL_HELD_CTR : Fld := ⟨0x3480110, 0x0, 0, 48⟩
def MUL_DEAD_COPIES_CTR : Fld := ⟨0x3480118, 0x0, 0, 48⟩
def MUL_ERASES_CTR : Fld := ⟨0x3480120, 0x0, 0, 48⟩
def MUL_ERASE_FAIL_CTR : Fld := ⟨0x3480128, 0x0, 0, 48⟩
def MUL_RETIRED_CTR : Fld := ⟨0x3480130, 0x0, 0, 48⟩
def MUL_FENCE_HOLDS_CTR : Fld := ⟨0x3480138, 0x0, 0, 48⟩
def GT_CTL_EN : Fld := ⟨0x34C0000, 0x0, 0, 1⟩
def GT_CTL_LEVEL : Fld := ⟨0x34C0000, 0x0, 1, 2⟩
def GT_CTL_RATE : Fld := ⟨0x34C0000, 0x0, 16, 16⟩
def GT_CTL_ECC_HI : Fld := ⟨0x34C0000, 0x0, 32, 8⟩
def GT_RPTQ_QUEUE : Fld := ⟨0x34C0008, 0x0, 0, 20⟩
def GT_RPTQ_VALID : Fld := ⟨0x34C0008, 0x0, 20, 1⟩
def GT_KEYTAB_BASE_ADDR : Fld := ⟨0x34C0010, 0x0, 23, 25⟩
def GT_POS_BAND : Fld := ⟨0x34C0018, 0x0, 0, 23⟩
def GT_POS_SLOT : Fld := ⟨0x34C0018, 0x0, 23, 8⟩
def GT_POS_PASSES : Fld := ⟨0x34C0018, 0x0, 32, 32⟩
def GT_PAGES_CTR : Fld := ⟨0x34C0100, 0x0, 0, 48⟩
def GT_ECC_HIGH_CTR : Fld := ⟨0x34C0108, 0x0, 0, 48⟩
def GT_REPAIRED_CTR : Fld := ⟨0x34C0110, 0x0, 0, 48⟩
def GT_PARITY_CTR : Fld := ⟨0x34C0118, 0x0, 0, 48⟩
def GT_CRC_CTR : Fld := ⟨0x34C0120, 0x0, 0, 48⟩
def GT_ERASED_CTR : Fld := ⟨0x34C0128, 0x0, 0, 48⟩
def TRN_CTL_QUAD_EN : Fld := ⟨0x2800000, 0x0, 0, 4⟩
def TRN_CTL_EN : Fld := ⟨0x2800000, 0x0, 4, 1⟩
def TRN_CFG_PEER_QPS : Fld := ⟨0x2800008, 0x0, 0, 13⟩
def TRN_CFG_PRIO : Fld := ⟨0x2800008, 0x0, 13, 3⟩
def TRN_CFG_ACK_PKTS : Fld := ⟨0x2800008, 0x0, 16, 8⟩
def TRN_CFG_LINK_MS : Fld := ⟨0x2800008, 0x0, 24, 8⟩
def TRN_CFG_QUAR_US : Fld := ⟨0x2800008, 0x0, 32, 16⟩
def TRN_CFG_REVOKE_MS : Fld := ⟨0x2800008, 0x0, 48, 16⟩
def TRN_STATUS_PARTNER_LATE : Fld := ⟨0x2800010, 0x0, 0, 1⟩
def TRN_STATUS_PARTNER_LOSS : Fld := ⟨0x2800010, 0x0, 1, 1⟩
def TRN_STATUS_MSYNC : Fld := ⟨0x2800010, 0x0, 2, 1⟩
def TRN_STATUS_QP_ERR_W : Fld := ⟨0x2800010, 0x0, 3, 1⟩
def TRN_STATUS_PARTNER_STATE : Fld := ⟨0x2800010, 0x0, 4, 4⟩
def TRN_STATUS_QUAD_UP : Fld := ⟨0x2800010, 0x0, 8, 4⟩
def TRN_LIVE_KICK : Fld := ⟨0x2800018, 0x0, 0, 1⟩
def TRN_HB_QPA : Fld := ⟨0x2800020, 0x0, 0, 12⟩
def TRN_HB_QPB : Fld := ⟨0x2800020, 0x0, 12, 12⟩
def TRN_HB_EN : Fld := ⟨0x2800020, 0x0, 24, 1⟩
def TRN_HB_SEQ_SEQ : Fld := ⟨0x2800028, 0x0, 0, 64⟩
def TRN_HB_RXTIME_TIME : Fld := ⟨0x2800030, 0x0, 0, 64⟩
def TRN_KEYTAG_KEYTAG : Fld := ⟨0x2800038, 0x0, 0, 12⟩
def TRN_RPTQ_QUEUE : Fld := ⟨0x2800040, 0x0, 0, 20⟩
def TRN_RPTQ_VALID : Fld := ⟨0x2800040, 0x0, 20, 1⟩
def TRN_BANDQP_QP : Fld := ⟨0x2800048, 0x0, 0, 12⟩
def TRN_MR_CMD_OP : Fld := ⟨0x2800050, 0x0, 0, 2⟩
def TRN_MR_CMD_BUSY : Fld := ⟨0x2800050, 0x0, 2, 1⟩
def TRN_MR_CMD_ERR : Fld := ⟨0x2800050, 0x0, 3, 1⟩
def TRN_MR_ARG0_BASE : Fld := ⟨0x2800058, 0x0, 0, 48⟩
def TRN_MR_ARG1_LENGTH : Fld := ⟨0x2800060, 0x0, 0, 40⟩
def TRN_MR_ARG1_ODP : Fld := ⟨0x2800060, 0x0, 40, 1⟩
def TRN_MR_ARG2_SCOPE_QP : Fld := ⟨0x2800068, 0x0, 0, 12⟩
def TRN_MR_ARG2_ANY_PEER : Fld := ⟨0x2800068, 0x0, 12, 1⟩
def TRN_MR_RESULT_RKEY : Fld := ⟨0x2800070, 0x0, 0, 32⟩
def TRN_LATCH_CANCEL_CHAIN : Fld := ⟨0x2800078, 0x0, 0, 16⟩
def TRN_MAC_ADDR : Fld := ⟨0x2800080, 0x8, 0, 48⟩
def TRN_TX_PKTS_CTR : Fld := ⟨0x2800100, 0x0, 0, 48⟩
def TRN_RX_PKTS_CTR : Fld := ⟨0x2800108, 0x0, 0, 48⟩
def TRN_RETX_CTR : Fld := ⟨0x2800110, 0x0, 0, 48⟩
def TRN_DUP_WRITE_CTR : Fld := ⟨0x2800118, 0x0, 0, 48⟩
def TRN_DUP_SEND_CTR : Fld := ⟨0x2800120, 0x0, 0, 48⟩
def TRN_SEQ_NAK_CTR : Fld := ⟨0x2800128, 0x0, 0, 48⟩
def TRN_RNR_CTR : Fld := ⟨0x2800130, 0x0, 0, 48⟩
def TRN_STALL_CTR : Fld := ⟨0x2800138, 0x0, 0, 48⟩
def TRN_ACCESS_NAK_CTR : Fld := ⟨0x2800140, 0x0, 0, 48⟩
def TRN_QP_ERR_CTR : Fld := ⟨0x2800148, 0x0, 0, 48⟩
def TRN_LATCH_FIRED_CTR : Fld := ⟨0x2800150, 0x0, 0, 48⟩
def TRN_ICRC_DROP_CTR : Fld := ⟨0x2800158, 0x0, 0, 48⟩
def TRN_QP_STATE : Fld := ⟨0x2810000, 0x40, 0, 3⟩
def TRN_QP_FE : Fld := ⟨0x2810000, 0x40, 12, 1⟩
def TRN_QP_PATH : Fld := ⟨0x2810000, 0x40, 8, 5⟩
def TRN_QP_MTU : Fld := ⟨0x2810000, 0x40, 16, 2⟩
def TRN_QP_TIMEOUT : Fld := ⟨0x2810000, 0x40, 24, 5⟩
def TRN_QP_RETRY : Fld := ⟨0x2810000, 0x40, 29, 3⟩
def TRN_QP_TORETRY : Fld := ⟨0x2810000, 0x40, 24, 8⟩
def TRN_QP_RNR_RETRY : Fld := ⟨0x2810000, 0x40, 32, 3⟩
def TRN_QP_RNR_TIMER : Fld := ⟨0x2810000, 0x40, 35, 5⟩
def TRN_QP_RNR : Fld := ⟨0x2810000, 0x40, 32, 8⟩
def TRN_QP_STALL_US : Fld := ⟨0x2810000, 0x40, 40, 8⟩
def TRN_QP_MAX_UNACK : Fld := ⟨0x2810000, 0x40, 48, 16⟩
def TRN_QP_DQPN : Fld := ⟨0x2810008, 0x40, 0, 32⟩
def TRN_QP_SPSN : Fld := ⟨0x2810008, 0x40, 32, 32⟩
def TRN_QP_EPSN : Fld := ⟨0x2810010, 0x40, 0, 32⟩
def TRN_QP_RQUEUE : Fld := ⟨0x2810010, 0x40, 32, 32⟩
def TRN_QP_RATE : Fld := ⟨0x2810018, 0x40, 0, 32⟩
def TRN_QP_IPIF : Fld := ⟨0x2810018, 0x40, 32, 8⟩
def TRN_QP_DADDR0 : Fld := ⟨0x2810020, 0x40, 0, 64⟩
def TRN_QP_DADDR1 : Fld := ⟨0x2810028, 0x40, 0, 64⟩
def TRN_QP_DMAC : Fld := ⟨0x2810030, 0x40, 0, 48⟩
def TRN_QP_UDP_SRC : Fld := ⟨0x2810030, 0x40, 48, 16⟩
def TRN_QP_UNACK : Fld := ⟨0x2810038, 0x40, 0, 32⟩
def TRN_QP_MSN : Fld := ⟨0x2810038, 0x40, 32, 32⟩
def TRN_MR_BASE : Fld := ⟨0x2880000, 0x20, 0, 64⟩
def TRN_MR_LENGTH : Fld := ⟨0x2880008, 0x20, 0, 40⟩
def TRN_MR_ODP : Fld := ⟨0x2880008, 0x20, 40, 1⟩
def TRN_MR_ANY_PEER : Fld := ⟨0x2880008, 0x20, 41, 1⟩
def TRN_MR_FLAGS : Fld := ⟨0x2880008, 0x20, 40, 2⟩
def TRN_MR_SCOPE_QP : Fld := ⟨0x2880008, 0x20, 48, 16⟩
def TRN_MR_RKEY : Fld := ⟨0x2880010, 0x20, 0, 32⟩
def TRN_MR_STATE : Fld := ⟨0x2880010, 0x20, 32, 2⟩
def TRN_MR_INFLIGHT : Fld := ⟨0x2880018, 0x20, 0, 32⟩
def TRN_MR_FREED : Fld := ⟨0x2880018, 0x20, 32, 32⟩
def SRCH_CTL_INIT0 : Fld := ⟨0x3C00000, 0x0, 0, 1⟩
def SRCH_CTL_INIT1 : Fld := ⟨0x3C00000, 0x0, 1, 1⟩
def SRCH_CTL_RESTORE1 : Fld := ⟨0x3C00000, 0x0, 2, 1⟩
def SRCH_CTL_HWR1 : Fld := ⟨0x3C00000, 0x0, 3, 1⟩
def SRCH_CTL_SCRUB_EN : Fld := ⟨0x3C00000, 0x0, 4, 1⟩
def SRCH_STATUS_INIT_DONE0 : Fld := ⟨0x3C00008, 0x0, 0, 1⟩
def SRCH_STATUS_INIT_DONE1 : Fld := ⟨0x3C00008, 0x0, 1, 1⟩
def SRCH_STATUS_BUSY : Fld := ⟨0x3C00008, 0x0, 2, 1⟩
def SRCH_STATUS_RESTORE_LOST : Fld := ⟨0x3C00008, 0x0, 16, 16⟩
def SRCH_STATUS_USED0 : Fld := ⟨0x3C00008, 0x0, 32, 16⟩
def SRCH_STATUS_USED1 : Fld := ⟨0x3C00008, 0x0, 48, 16⟩
def SRCH_SHADOW_BASE_ADDR : Fld := ⟨0x3C00010, 0x0, 22, 26⟩
def SRCH_SCRUB_PERIOD_MS : Fld := ⟨0x3C00018, 0x0, 0, 16⟩
def SRCH_SCRUB_AT : Fld := ⟨0x3C00018, 0x0, 32, 15⟩
def SRCH_SCRUB_AT_BANK : Fld := ⟨0x3C00018, 0x0, 47, 1⟩
def SRCH_FAULT_INDEX : Fld := ⟨0x3C00020, 0x0, 0, 15⟩
def SRCH_FAULT_VALID : Fld := ⟨0x3C00020, 0x0, 16, 1⟩
def SRCH_FINDS_CTR : Fld := ⟨0x3C00100, 0x0, 0, 48⟩
def SRCH_NEXTS_CTR : Fld := ⟨0x3C00108, 0x0, 0, 48⟩
def SRCH_WRITES_CTR : Fld := ⟨0x3C00110, 0x0, 0, 48⟩
def SRCH_REPAIRS_CTR : Fld := ⟨0x3C00118, 0x0, 0, 48⟩
def SRCH_SHADOW_FIX_CTR : Fld := ⟨0x3C00120, 0x0, 0, 48⟩
def SRCH_DOUBLE_CTR : Fld := ⟨0x3C00128, 0x0, 0, 48⟩
def ARB_CTL_HINT_EN : Fld := ⟨0x3E00000, 0x0, 0, 1⟩
def ARB_HINT_BASE_ADDR : Fld := ⟨0x3E00008, 0x0, 17, 31⟩
def ARB_CFG_WAIT_LIMIT : Fld := ⟨0x3E00100, 0x40, 0, 24⟩
def ARB_CFG_BG_LOSSES : Fld := ⟨0x3E00100, 0x40, 24, 8⟩
def ARB_CFG_PARK_EN : Fld := ⟨0x3E00100, 0x40, 32, 1⟩
def ARB_CFG_HINT : Fld := ⟨0x3E00100, 0x40, 33, 1⟩
def ARB_BACKOFF_BO_MIN : Fld := ⟨0x3E00108, 0x40, 0, 24⟩
def ARB_BACKOFF_BO_MAX : Fld := ⟨0x3E00108, 0x40, 24, 24⟩
def ARB_GRANTS_CTR : Fld := ⟨0x3E00110, 0x40, 0, 48⟩
def ARB_PREEMPT_CTR : Fld := ⟨0x3E00118, 0x40, 0, 48⟩
def ARB_FORCED_CTR : Fld := ⟨0x3E00120, 0x40, 0, 48⟩
def ARB_BACKOFF_CTR : Fld := ⟨0x3E00128, 0x40, 0, 48⟩
def ARB_HINTS_CTR : Fld := ⟨0x3E00130, 0x40, 0, 48⟩
def VLT_STATUS_READY : Fld := ⟨0x600000, 0x0, 0, 1⟩
def VLT_STATUS_RNG_OK : Fld := ⟨0x600000, 0x0, 1, 1⟩
def VLT_STATUS_DEBUG : Fld := ⟨0x600000, 0x0, 2, 2⟩
def VLT_STATUS_OTP_ERR : Fld := ⟨0x600000, 0x0, 4, 1⟩
def VLT_STATUS_ZEROIZED : Fld := ⟨0x600000, 0x0, 5, 1⟩
def VLT_STATUS_VERIFYING : Fld := ⟨0x600000, 0x0, 6, 1⟩
def VLT_CMD_OP : Fld := ⟨0x600008, 0x0, 0, 8⟩
def VLT_CMD_SLOT_A : Fld := ⟨0x600008, 0x0, 8, 8⟩
def VLT_CMD_SLOT_B : Fld := ⟨0x600008, 0x0, 16, 8⟩
def VLT_CMD_ATTR : Fld := ⟨0x600008, 0x0, 24, 8⟩
def VLT_CMD_IN_LEN : Fld := ⟨0x600008, 0x0, 32, 11⟩
def VLT_CMD_STATUS_BUSY : Fld := ⟨0x600010, 0x0, 0, 1⟩
def VLT_CMD_STATUS_DONE : Fld := ⟨0x600010, 0x0, 1, 1⟩
def VLT_CMD_STATUS_RESULT : Fld := ⟨0x600010, 0x0, 8, 8⟩
def VLT_CMD_STATUS_OUT_LEN : Fld := ⟨0x600010, 0x0, 16, 11⟩
def VLT_CMD_STATUS_IGNORED : Fld := ⟨0x600010, 0x0, 27, 1⟩
def VLT_RNG_VALUE : Fld := ⟨0x600018, 0x0, 0, 64⟩
def VLT_KEYS_LOADED : Fld := ⟨0x600020, 0x0, 0, 16⟩
def VLT_OTP_SVN : Fld := ⟨0x600028, 0x0, 0, 8⟩
def VLT_OTP_MEDIA_GEN : Fld := ⟨0x600028, 0x0, 8, 5⟩
def VLT_OTP_OWNER_LOCK : Fld := ⟨0x600028, 0x0, 13, 1⟩
def VLT_OTP_PLAIN_OK : Fld := ⟨0x600028, 0x0, 14, 1⟩
def VLT_OTP_KEK1 : Fld := ⟨0x600028, 0x0, 15, 1⟩
def VLT_OTP_PROGRAMMED : Fld := ⟨0x600028, 0x0, 16, 4⟩
def VLT_OTP_ATTRS : Fld := ⟨0x600028, 0x0, 20, 12⟩
def VLT_SERIAL0_SERIAL : Fld := ⟨0x600030, 0x0, 0, 64⟩
def VLT_SERIAL1_SERIAL : Fld := ⟨0x600038, 0x0, 0, 64⟩
def VLT_IN_BYTES : Fld := ⟨0x601000, 0x8, 0, 64⟩
def VLT_OUT_BYTES : Fld := ⟨0x602000, 0x8, 0, 64⟩
def HCH_CMD_OP : Fld := ⟨0x100000, 0x0, 0, 2⟩
def HCH_CMD_BANK : Fld := ⟨0x100000, 0x0, 4, 1⟩
def HCH_NEXT_BANK : Fld := ⟨0x100008, 0x0, 0, 1⟩
def HCH_NEXT_VALID : Fld := ⟨0x100008, 0x0, 1, 1⟩
def HCH_STATUS_CMD_ERR : Fld := ⟨0x100010, 0x0, 0, 1⟩
def HCH_STATUS_WR_DROP : Fld := ⟨0x100010, 0x0, 1, 1⟩
def HCH_STATUS_LOADED_BANK : Fld := ⟨0x100010, 0x0, 2, 1⟩
def HCH_STATUS_LOADED_VALID : Fld := ⟨0x100010, 0x0, 3, 1⟩
def HCH_BASE_ADDR : Fld := ⟨0x100018, 0x0, 28, 20⟩
def HCH_BSTATE_STATE : Fld := ⟨0x100040, 0x40, 0, 3⟩
def HCH_BSTATE_REASON : Fld := ⟨0x100040, 0x40, 4, 4⟩
def HCH_BSTATE_BLOCKS : Fld := ⟨0x100040, 0x40, 8, 12⟩
def HCH_BSTATE_DONE : Fld := ⟨0x100040, 0x40, 20, 12⟩
def HCH_INFO_SVN : Fld := ⟨0x100048, 0x40, 0, 8⟩
def HCH_INFO_MEDIA_WRITE : Fld := ⟨0x100048, 0x40, 8, 8⟩
def HCH_INFO_SETTINGS_FMT : Fld := ⟨0x100048, 0x40, 16, 16⟩
def HCH_INFO_PEER_VMIN : Fld := ⟨0x100048, 0x40, 32, 16⟩
def HCH_INFO_PEER_VMAX : Fld := ⟨0x100048, 0x40, 48, 16⟩
def HCH_MEDIA_MEDIA_READ : Fld := ⟨0x100050, 0x40, 0, 32⟩
def HCH_MEDIA_VARIANTS : Fld := ⟨0x100050, 0x40, 32, 3⟩
def HCH_MEDIA_SIGNER : Fld := ⟨0x100050, 0x40, 40, 2⟩
def HCH_MEDIA_KEYSRC : Fld := ⟨0x100050, 0x40, 42, 2⟩
def HCH_BUILD_BUILD : Fld := ⟨0x100058, 0x40, 0, 64⟩
def HCH_LEN_IMAGE_LEN : Fld := ⟨0x100060, 0x40, 0, 28⟩
def HCH_MAP_BLOCKS : Fld := ⟨0x101000, 0x100, 0, 64⟩
def CLK_STATUS_ROOT_LOCK : Fld := ⟨0x200000, 0x0, 0, 1⟩
def CLK_STATUS_REF_OK : Fld := ⟨0x200000, 0x0, 1, 1⟩
def CLK_STATUS_PCIE_REF_OK : Fld := ⟨0x200000, 0x0, 2, 1⟩
def CLK_STATUS_RTC_OK : Fld := ⟨0x200000, 0x0, 3, 1⟩
def CLK_STATUS_REF_PPM_ERR : Fld := ⟨0x200000, 0x0, 4, 1⟩
def CLK_TIME_NS : Fld := ⟨0x200008, 0x0, 0, 64⟩
def CLK_REF_PPM_PPM : Fld := ⟨0x200010, 0x0, 0, 16⟩
def CLK_DIV_ROOT_MUL : Fld := ⟨0x200018, 0x0, 0, 8⟩
def CLK_DIV_CORE : Fld := ⟨0x200018, 0x0, 8, 8⟩
def CLK_DIV_HBM : Fld := ⟨0x200018, 0x0, 16, 8⟩
def CLK_DIV_ENG : Fld := ⟨0x200018, 0x0, 24, 8⟩
def CLK_DIV_FAB : Fld := ⟨0x200018, 0x0, 32, 8⟩
def CLK_DIV_PER : Fld := ⟨0x200018, 0x0, 40, 8⟩
def PWR_IDLE_DOZE_NS : Fld := ⟨0x300000, 0x0, 0, 16⟩
def PWR_IDLE_RETAIN_US : Fld := ⟨0x300000, 0x0, 16, 16⟩
def PWR_VMON_CORE_WARN : Fld := ⟨0x300008, 0x0, 0, 1⟩
def PWR_VMON_SRAM_WARN : Fld := ⟨0x300008, 0x0, 1, 1⟩
def PWR_VMON_PG : Fld := ⟨0x300008, 0x0, 2, 5⟩
def PWR_VMON_PFAIL_N : Fld := ⟨0x300008, 0x0, 7, 1⟩
def PWR_VMON_PFAIL_SEEN : Fld := ⟨0x300008, 0x0, 8, 1⟩
def PWR_AVS_SET_MV : Fld := ⟨0x300010, 0x0, 0, 10⟩
def PWR_AVS_CUR_MV : Fld := ⟨0x300010, 0x0, 16, 10⟩
def PWR_AVS_FUSE_MV : Fld := ⟨0x300010, 0x0, 32, 10⟩
def PWR_AVS_STEP_US : Fld := ⟨0x300010, 0x0, 42, 6⟩
def PWR_AVS_SETTLE_US : Fld := ⟨0x300010, 0x0, 48, 16⟩
def PWR_BRACE_LAST_NS : Fld := ⟨0x300018, 0x0, 0, 32⟩
def PWR_BRACE_MAX_NS : Fld := ⟨0x300018, 0x0, 32, 32⟩
def PWR_VMIN_MV : Fld := ⟨0x300020, 0x0, 0, 10⟩
def PWR_VMIN_REARM : Fld := ⟨0x300020, 0x0, 63, 1⟩
def PWR_THERM_TJ : Fld := ⟨0x300028, 0x0, 0, 11⟩
def PWR_THERM_HOT_SENSOR : Fld := ⟨0x300028, 0x0, 11, 5⟩
def PWR_THERM_WARN_C : Fld := ⟨0x300028, 0x0, 16, 8⟩
def PWR_THERM_WARN : Fld := ⟨0x300028, 0x0, 24, 1⟩
def PWR_THERM_GUARD : Fld := ⟨0x300028, 0x0, 25, 1⟩
def PWR_THERM_TRIP : Fld := ⟨0x300028, 0x0, 26, 1⟩
def PWR_RST_COLD : Fld := ⟨0x300030, 0x0, 0, 1⟩
def PWR_RST_WARM : Fld := ⟨0x300030, 0x0, 1, 1⟩
def PWR_RST_KEY : Fld := ⟨0x300030, 0x0, 8, 8⟩
def PWR_RST_CAUSE_CAUSE : Fld := ⟨0x300038, 0x0, 0, 4⟩
def PWR_RST_CAUSE_WARM_SINCE : Fld := ⟨0x300038, 0x0, 4, 1⟩
def PWR_BRACE_EPISODES_CTR : Fld := ⟨0x300100, 0x0, 0, 48⟩
def PWR_BRACE_LONG_CTR : Fld := ⟨0x300108, 0x0, 0, 48⟩
def PWR_GUARD_EPISODES_CTR : Fld := ⟨0x300110, 0x0, 0, 48⟩
def PWR_WARM_RESETS_CTR : Fld := ⟨0x300118, 0x0, 0, 48⟩
def PWR_RST_REFUSED_CTR : Fld := ⟨0x300120, 0x0, 0, 48⟩
def PWR_DOM_MODE : Fld := ⟨0x301000, 0x8, 0, 2⟩
def PWR_DOM_STATE : Fld := ⟨0x301000, 0x8, 4, 3⟩
def PWR_DOM_PRESENT : Fld := ⟨0x301000, 0x8, 8, 1⟩
def PWR_DOM_REQ_ERR : Fld := ⟨0x301000, 0x8, 9, 1⟩
def PWR_DOM_ALLOWED : Fld := ⟨0x301000, 0x8, 10, 4⟩
def PWR_DOM_WAKES : Fld := ⟨0x301000, 0x8, 16, 32⟩
def EVT_CTL_EN : Fld := ⟨0x400000, 0x0, 0, 1⟩
def EVT_STATUS_HELD : Fld := ⟨0x400008, 0x0, 0, 10⟩
def EVT_STATUS_CLR_ERR : Fld := ⟨0x400008, 0x0, 10, 1⟩
def EVT_STATUS_RAISE_ERR : Fld := ⟨0x400008, 0x0, 11, 1⟩
def EVT_RAISE_SOURCE : Fld := ⟨0x400010, 0x0, 0, 9⟩
def EVT_RAISE_VALUE : Fld := ⟨0x400010, 0x0, 32, 32⟩
def EVT_CTR_CLR_OFFSET : Fld := ⟨0x400018, 0x0, 3, 23⟩
def EVT_CTR_OLD_COUNT : Fld := ⟨0x400020, 0x0, 0, 48⟩
def EVT_CTR_OLD_SAT : Fld := ⟨0x400020, 0x0, 63, 1⟩
def EVT_QUEUE_QUEUE : Fld := ⟨0x400100, 0x8, 0, 20⟩
def EVT_QUEUE_VALID : Fld := ⟨0x400100, 0x8, 20, 1⟩
def EVT_PEND_PEND : Fld := ⟨0x400200, 0x8, 0, 64⟩
def EVT_OCCURRED_CTR : Fld := ⟨0x400300, 0x0, 0, 48⟩
def EVT_MSI_CTR : Fld := ⟨0x400308, 0x0, 0, 48⟩
def EVT_ITEMS_CTR : Fld := ⟨0x400310, 0x0, 0, 48⟩
def EVT_FOLDED_CTR : Fld := ⟨0x400318, 0x0, 0, 48⟩
def EVT_SRC_VECTOR : Fld := ⟨0x401000, 0x8, 0, 9⟩
def EVT_SRC_MSI_EN : Fld := ⟨0x401000, 0x8, 9, 1⟩
def EVT_SRC_Q_EN : Fld := ⟨0x401000, 0x8, 10, 1⟩
def EVT_SRC_QSEL : Fld := ⟨0x401000, 0x8, 11, 4⟩
def EVT_SRC_MASK : Fld := ⟨0x401000, 0x8, 15, 1⟩
def EVT_SRC_LOG_NOTE : Fld := ⟨0x401000, 0x8, 16, 1⟩
def EVT_SRC_SEV : Fld := ⟨0x401000, 0x8, 17, 2⟩
def EVT_SRC_LISTED : Fld := ⟨0x401000, 0x8, 19, 1⟩
def EVT_SRC_PENDING : Fld := ⟨0x401000, 0x8, 20, 1⟩
def EVT_VEC_COAL_CNT : Fld := ⟨0x402000, 0x8, 0, 8⟩
def EVT_VEC_COAL_NS : Fld := ⟨0x402000, 0x8, 8, 24⟩
def LOG_CFG_FULL_MODE : Fld := ⟨0x500000, 0x0, 0, 1⟩
def LOG_RATE_LOCK_LOCK : Fld := ⟨0x500008, 0x0, 0, 1⟩
def LOG_STATUS_USED : Fld := ⟨0x500010, 0x0, 0, 13⟩
def LOG_STATUS_DIRTY : Fld := ⟨0x500010, 0x0, 13, 9⟩
def LOG_STATUS_COMMITTING : Fld := ⟨0x500010, 0x0, 22, 1⟩
def LOG_STATUS_POST_ERR : Fld := ⟨0x500010, 0x0, 23, 1⟩
def LOG_STATUS_NVM_ERR : Fld := ⟨0x500010, 0x0, 24, 1⟩
def LOG_BOOTS_BOOTS : Fld := ⟨0x500018, 0x0, 0, 32⟩
def LOG_POST_CODE : Fld := ⟨0x500020, 0x0, 0, 16⟩
def LOG_POST_SEV : Fld := ⟨0x500020, 0x0, 16, 2⟩
def LOG_POST_VALUE : Fld := ⟨0x500020, 0x0, 32, 32⟩
def LOG_CAL_TIME : Fld := ⟨0x500028, 0x0, 0, 64⟩
def LOG_CAL_SET_TIME : Fld := ⟨0x500030, 0x0, 0, 64⟩
def LOG_CAL_STATUS_VALID : Fld := ⟨0x500038, 0x0, 0, 1⟩
def LOG_SEL_INDEX : Fld := ⟨0x500040, 0x0, 0, 12⟩
def LOG_SEL_READY : Fld := ⟨0x500040, 0x0, 12, 1⟩
def LOG_REC0_BYTES : Fld := ⟨0x500100, 0x8, 0, 64⟩
def LOG_OVERFLOW_CTR : Fld := ⟨0x500200, 0x0, 0, 48⟩
def LOG_EVICTED_CTR : Fld := ⟨0x500208, 0x0, 0, 48⟩
def LOG_RATE_RATE : Fld := ⟨0x501000, 0x8, 0, 16⟩
def LOG_RATE_BURST : Fld := ⟨0x501000, 0x8, 16, 16⟩
def LOG_RATE_SHIFT : Fld := ⟨0x501000, 0x8, 32, 6⟩
def GLB_ID_DEVICE : Fld := ⟨0x0, 0x0, 0, 16⟩
def GLB_ID_VENDOR : Fld := ⟨0x0, 0x0, 16, 16⟩
def GLB_ID_REV : Fld := ⟨0x0, 0x0, 32, 8⟩
def GLB_STATE_STATE : Fld := ⟨0x18, 0x0, 0, 4⟩
def GLB_STATE_HEAD_ID : Fld := ⟨0x18, 0x0, 4, 1⟩
def GLB_STATE_FAULT : Fld := ⟨0x18, 0x0, 5, 1⟩
def GLB_PCIE_SPEED : Fld := ⟨0x20, 0x0, 0, 3⟩
def GLB_PCIE_WIDTH : Fld := ⟨0x20, 0x0, 3, 5⟩
def GLB_PCIE_LINK_UP : Fld := ⟨0x20, 0x0, 8, 1⟩
def GLB_SCRATCH0_DATA : Fld := ⟨0x28, 0x0, 0, 64⟩
def GLB_SCRATCH1_DATA : Fld := ⟨0x30, 0x0, 0, 64⟩
def GLB_FWSTATE_CODE : Fld := ⟨0x38, 0x0, 0, 32⟩
def MBX_CTL_EN : Fld := ⟨0x700000, 0x0, 0, 1⟩
def MBX_CTL_RESET : Fld := ⟨0x700000, 0x0, 1, 1⟩
def MBX_STATUS_HDR_ERR : Fld := ⟨0x700008, 0x0, 0, 1⟩
def MBX_STATUS_LEN_ERR : Fld := ⟨0x700008, 0x0, 1, 1⟩
def MBX_STATUS_HELD : Fld := ⟨0x700008, 0x0, 2, 1⟩
def MBX_STATUS_D2H_FULL : Fld := ⟨0x700008, 0x0, 3, 1⟩
def MBX_H2D_HEAD_POS : Fld := ⟨0x700010, 0x0, 6, 14⟩
def MBX_H2D_TAIL_POS : Fld := ⟨0x700018, 0x0, 6, 14⟩
def MBX_D2H_HEAD_POS : Fld := ⟨0x700020, 0x0, 6, 14⟩
def MBX_D2H_TAIL_POS : Fld := ⟨0x700028, 0x0, 6, 14⟩
def MBX_FWQ_QUEUE : Fld := ⟨0x700030, 0x0, 0, 20⟩
def MBX_FWQ_VALID : Fld := ⟨0x700030, 0x0, 20, 1⟩
def MBX_RX_CTR : Fld := ⟨0x700100, 0x0, 0, 48⟩
def MBX_TX_CTR : Fld := ⟨0x700108, 0x0, 0, 48⟩
def MBX_REJECT_CTR : Fld := ⟨0x700110, 0x0, 0, 48⟩
def MBX_DROPPED_CTR : Fld := ⟨0x700118, 0x0, 0, 48⟩

end F

/-- The GLB registers. -/
def regDescsGLB : List RegDesc :=
  [⟨0x8, 1, 0x8, 1, 0x8, 0x0, 0x0, 0x0, 0x0, 0x0, false, 0x0⟩,  -- GLB_CAPS
   ⟨0x10, 1, 0x8, 1, 0x8, 0x0, 0x0, 0x0, 0x0, 0x0, false, 0x0⟩,  -- GLB_UNITS
   ⟨0x0, 1, 0x8, 1, 0x8, 0x0, 0x0, 0x0, 0x0, 0x0, false, 0x0⟩,  -- GLB_ID
   ⟨0x18, 1, 0x8, 1, 0x8, 0x0, 0x0, 0x0, 0x0, 0x0, false, 0x0⟩,  -- GLB_STATE
   ⟨0x20, 1, 0x8, 1, 0x8, 0x0, 0x0, 0x0, 0x0, 0x0, false, 0x0⟩,  -- GLB_PCIE
   ⟨0x28, 1, 0x8, 1, 0x8, 0xFFFFFFFFFFFFFFFF, 0x0, 0x0, 0x0, 0xFFFFFFFFFFFFFFFF, false, 0x0⟩,  -- GLB_SCRATCH0
   ⟨0x30, 1, 0x8, 1, 0x8, 0xFFFFFFFFFFFFFFFF, 0x0, 0x0, 0x0, 0xFFFFFFFFFFFFFFFF, false, 0x0⟩,  -- GLB_SCRATCH1
   ⟨0x38, 1, 0x8, 1, 0x8, 0xFFFFFFFF, 0x0, 0x0, 0x0, 0xFFFFFFFF, false, 0x0⟩]  -- GLB_FWSTATE

/-- The MQ registers. -/
def regDescsMQ : List RegDesc :=
  [⟨0x1000000, 8, 0x20000, 1, 0x8, 0x0, 0x0, 0x0, 0x0, 0x0, false, 0x1FF00⟩,  -- MQ_ID
   ⟨0x1000008, 8, 0x20000, 1, 0x8, 0xFF, 0x0, 0x0, 0x0, 0x0, false, 0x0⟩,  -- MQ_RUN
   ⟨0x1000010, 8, 0x20000, 1, 0x8, 0xFFFFFFFF, 0x0, 0x0, 0x0, 0x0, false, 0x1⟩,  -- MQ_KEEPER
   ⟨0x1000018, 8, 0x20000, 1, 0x8, 0xFFFFFFFFFFC0, 0x0, 0x0, 0x0, 0x0, false, 0x0⟩,  -- MQ_ENTRY_BASE
   ⟨0x1000020, 8, 0x20000, 1, 0x8, 0x0, 0x0, 0x0, 0x0, 0x0, false, 0x0⟩,  -- MQ_CODE_BASE
   ⟨0x1000028, 8, 0x20000, 1, 0x8, 0x0, 0x0, 0x0, 0x0, 0x0, false, 0x0⟩,  -- MQ_CODE_LIMIT
   ⟨0x1000030, 8, 0x20000, 1, 0x8, 0xFFFF, 0x100000000, 0x0, 0x0, 0x0, false, 0x0⟩,  -- MQ_CACHE_CTL
   ⟨0x1000038, 8, 0x20000, 1, 0x8, 0x7, 0x0, 0x0, 0x0, 0x0, false, 0x0⟩,  -- MQ_IDLE
   ⟨0x1000040, 8, 0x20000, 1, 0x8, 0x0, 0x0, 0xFFFFFFFF, 0x0, 0x0, false, 0x0⟩,  -- MQ_WAKE
   ⟨0x1000048, 8, 0x20000, 1, 0x8, 0xFFFFFF, 0x0, 0x0, 0x0, 0x0, false, 0x800⟩,  -- MQ_BUDGET
   ⟨0x1000050, 8, 0x20000, 1, 0x8, 0xFFFFFFE00000, 0x0, 0x0, 0x0, 0x0, false, 0x0⟩,  -- MQ_KPR_BASE
   ⟨0x1000058, 8, 0x20000, 1, 0x8, 0xFFFFFFE00000, 0x0, 0x0, 0x0, 0x0, false, 0x0⟩,  -- MQ_KPR_LIMIT
   ⟨0x1000060, 8, 0x20000, 1, 0x8, 0x0, 0x0, 0x0, 0x0, 0x0, false, 0x0⟩,  -- MQ_THR_STATE0
   ⟨0x1000068, 8, 0x20000, 1, 0x8, 0x0, 0x0, 0x0, 0x0, 0x0, false, 0x0⟩,  -- MQ_THR_STATE1
   ⟨0x1000070, 8, 0x20000, 1, 0x8, 0x0, 0x0, 0x0, 0x0, 0x0, false, 0x0⟩,  -- MQ_PWR_STATE
   ⟨0x1000078, 8, 0x20000, 1, 0x8, 0x0, 0x0, 0x0, 0x0, 0x0, true, 0x0⟩,  -- MQ_DISPATCHED
   ⟨0x1000080, 8, 0x20000, 1, 0x8, 0x0, 0x0, 0x0, 0x0, 0x0, true, 0x0⟩,  -- MQ_RING_STALL
   ⟨0x1000088, 8, 0x20000, 1, 0x8, 0x0, 0x0, 0x0, 0x0, 0x0, true, 0x0⟩,  -- MQ_ECC_FIX
   ⟨0x1000090, 8, 0x20000, 1, 0x8, 0x0, 0x0, 0x0, 0x0, 0x0, true, 0x0⟩,  -- MQ_ORPHAN
   ⟨0x101F000, 1, 0x8, 1, 0x8, 0xFFFFFE000000, 0x0, 0x0, 0xFFFFFE000000, 0x0, false, 0x0⟩,  -- MQ_QTAB_BASE
   ⟨0x101F008, 1, 0x8, 1, 0x8, 0x0, 0x0, 0x8000000000000000, 0x0, 0x0, false, 0x4000000040000⟩]  -- MQ_POOL_FREE

/-- The WKT registers. -/
def regDescsWKT : List RegDesc :=
  [⟨0x2000000, 1, 0x8, 1, 0x8, 0xF, 0x0, 0x0, 0x0, 0x0, false, 0xC⟩,  -- WKT_CTL
   ⟨0x2000008, 1, 0x8, 1, 0x8, 0x0, 0x0, 0x0, 0x0, 0x0, false, 0x0⟩,  -- WKT_STATUS
   ⟨0x2000010, 1, 0x8, 1, 0x8, 0xFFFFFFFFFFFFFFFF, 0x0, 0x0, 0x0, 0x0, false, 0x2710000F4240⟩,  -- WKT_HINT
   ⟨0x2000018, 1, 0x8, 1, 0x8, 0xFFFFFFFFFFFF, 0x0, 0x0, 0x0, 0x0, false, 0x138807D003E8⟩,  -- WKT_CRD
   ⟨0x2000020, 1, 0x8, 1, 0x8, 0xFFFFFFFF, 0x0, 0x0, 0x0, 0x0, false, 0x4E20⟩,  -- WKT_FWD
   ⟨0x2000028, 1, 0x8, 1, 0x8, 0xFFFFFFFFFFFFFFFF, 0x0, 0x0, 0x0, 0x0, false, 0x14271007D00032⟩,  -- WKT_MEDIA
   ⟨0x2000030, 1, 0x8, 1, 0x8, 0xFFFFFFFFF, 0x0, 0x0, 0x0, 0x0, false, 0x407D0003C⟩,  -- WKT_RDPOL
   ⟨0x2000100, 1, 0x8, 1, 0x8, 0x0, 0x0, 0x0, 0x0, 0x0, true, 0x0⟩,  -- WKT_ADMITTED
   ⟨0x2000108, 1, 0x8, 1, 0x8, 0x0, 0x0, 0x0, 0x0, 0x0, true, 0x0⟩,  -- WKT_REFUSED
   ⟨0x2000110, 1, 0x8, 1, 0x8, 0x0, 0x0, 0x0, 0x0, 0x0, true, 0x0⟩,  -- WKT_KEPT
   ⟨0x2000118, 1, 0x8, 1, 0x8, 0x0, 0x0, 0x0, 0x0, 0x0, true, 0x0⟩,  -- WKT_PAUSES
   ⟨0x2000120, 5, 0x8, 1, 0x8, 0x0, 0x0, 0x0, 0x0, 0x0, true, 0x0⟩,  -- WKT_BRK
   ⟨0x2000148, 1, 0x8, 1, 0x8, 0x0, 0x0, 0x0, 0x0, 0x0, true, 0x0⟩,  -- WKT_HZN_CLAMP
   ⟨0x2000208, 17, 0x8, 1, 0x8, 0x0, 0x0, 0x0, 0x0, 0x0, true, 0x0⟩,  -- WKT_REF_REASON
   ⟨0x2010000, 128, 0x8, 1, 0x8, 0x3, 0x0, 0x0, 0x0, 0x0, false, 0x3⟩,  -- WKT_GRP
   ⟨0x2020000, 2048, 0x8, 1, 0x8, 0x7F7F7F7F7F7F7F7F, 0x0, 0x0, 0x0, 0x0, false, 0x0⟩,  -- WKT_VOLGRP
   ⟨0x2030000, 72, 0x8, 1, 0x8, 0xFFFFFFFFFF, 0x0, 0x0, 0x0, 0x0, false, 0x0⟩,  -- WKT_HCOST
   ⟨0x2040000, 16, 0x40, 1, 0x8, 0xFFFFFFFFFFFFFFFF, 0x0, 0x0, 0x0, 0x0, false, 0x0⟩,  -- WKT_CLASS_W0
   ⟨0x2040008, 16, 0x40, 1, 0x8, 0xFFF, 0x0, 0x0, 0x0, 0x0, false, 0x0⟩,  -- WKT_CLASS_W1
   ⟨0x2040010, 16, 0x40, 1, 0x8, 0x3FFFF, 0x0, 0x0, 0x0, 0x0, false, 0x0⟩,  -- WKT_CLASS_W2
   ⟨0x2040018, 16, 0x40, 1, 0x8, 0x0, 0x0, 0x0, 0x0, 0x0, true, 0x0⟩,  -- WKT_CLASS_W3
   ⟨0x2040020, 16, 0x40, 1, 0x8, 0x0, 0x0, 0x0, 0x0, 0x0, true, 0x0⟩,  -- WKT_CLASS_W4
   ⟨0x2040028, 16, 0x40, 1, 0x8, 0x0, 0x0, 0x0, 0x0, 0x0, true, 0x0⟩,  -- WKT_CLASS_W5
   ⟨0x2040030, 16, 0x40, 1, 0x8, 0x0, 0x0, 0x0, 0x0, 0x0, true, 0x0⟩,  -- WKT_CLASS_W6
   ⟨0x2040038, 16, 0x40, 1, 0x8, 0x0, 0x0, 0x0, 0x0, 0x0, false, 0x0⟩,  -- WKT_CLASS_W7
   ⟨0x2080000, 8264, 0x8, 1, 0x8, 0x0, 0x0, 0x0, 0x0, 0x0, false, 0x0⟩,  -- WKT_HZN
   ⟨0x2100000, 4096, 0x40, 1, 0x8, 0xFFFFFFFFFFFFFF, 0x0, 0x0, 0x0, 0x0, false, 0x0⟩,  -- WKT_TENANT_W0
   ⟨0x2100008, 4096, 0x40, 1, 0x8, 0xFFFFFFFFFFFFFF, 0x0, 0x0, 0x0, 0x0, false, 0x0⟩,  -- WKT_TENANT_W1
   ⟨0x2100010, 4096, 0x40, 1, 0x8, 0x30FFF, 0x0, 0x0, 0x0, 0x0, false, 0x0⟩,  -- WKT_TENANT_W2
   ⟨0x2100018, 4096, 0x40, 1, 0x8, 0x0, 0x0, 0x0, 0x0, 0x0, false, 0x0⟩,  -- WKT_TENANT_W3
   ⟨0x2100020, 4096, 0x40, 1, 0x8, 0x0, 0x0, 0x0, 0x0, 0x0, true, 0x0⟩,  -- WKT_TENANT_W4
   ⟨0x2100028, 4096, 0x40, 1, 0x8, 0x0, 0x0, 0x0, 0x0, 0x0, true, 0x0⟩,  -- WKT_TENANT_W5
   ⟨0x2100030, 4096, 0x40, 1, 0x8, 0x0, 0x0, 0x0, 0x0, 0x0, true, 0x0⟩,  -- WKT_TENANT_W6
   ⟨0x2100038, 4096, 0x40, 1, 0x8, 0x0, 0x0, 0x0, 0x0, 0x0, false, 0x0⟩,  -- WKT_TENANT_W7
   ⟨0x2200000, 262144, 0x8, 1, 0x8, 0x0, 0x0, 0x0, 0x0, 0x0, false, 0x0⟩]  -- WKT_PRM

/-- The FE registers. -/
def regDescsFE : List RegDesc :=
  [⟨0x2400000, 1, 0x8, 1, 0x8, 0x1F, 0x0, 0x0, 0x0, 0x0, false, 0x0⟩,  -- FE_CTL
   ⟨0x2400008, 1, 0x8, 1, 0x8, 0x0, 0x3, 0x0, 0x0, 0x0, false, 0x0⟩,  -- FE_STATUS
   ⟨0x2400010, 1, 0x8, 1, 0x8, 0xFFFFF, 0x0, 0x0, 0x0, 0x0, false, 0x0⟩,  -- FE_PORTMODE
   ⟨0x2400018, 1, 0x8, 1, 0x8, 0x0, 0x0, 0x0, 0x0, 0x0, false, 0x0⟩,  -- FE_LINK
   ⟨0x2400020, 1, 0x8, 1, 0x8, 0xFFFFF3, 0x0, 0x0, 0x0, 0x0, false, 0x3⟩,  -- FE_NVME
   ⟨0x2400028, 1, 0x8, 1, 0x8, 0xFFFF1FFFFFFFFF, 0x0, 0x0, 0x0, 0x0, false, 0x401803E803E8⟩,  -- FE_TCP
   ⟨0x2400030, 1, 0x8, 1, 0x8, 0xFFFFFFFF, 0x0, 0x0, 0x0, 0x0, false, 0x3E807D0⟩,  -- FE_TIMERS
   ⟨0x2400038, 1, 0x8, 1, 0x8, 0xFFFF00000000, 0x0, 0x0, 0xFFFF00000000, 0x0, false, 0x0⟩,  -- FE_CTX_BASE
   ⟨0x2400040, 1, 0x8, 1, 0x8, 0xFFFFFC000000, 0x0, 0x0, 0xFFFFFC000000, 0x0, false, 0x0⟩,  -- FE_CIDX_BASE
   ⟨0x2400048, 1, 0x8, 1, 0x8, 0xFFFFFFF00000, 0x0, 0x0, 0xFFFFFFF00000, 0x0, false, 0x0⟩,  -- FE_IFW_BASE
   ⟨0x2400050, 1, 0x8, 1, 0x8, 0x0, 0x0, 0x0, 0x0, 0x0, false, 0x0⟩,  -- FE_CONNS
   ⟨0x2400100, 4, 0x40, 1, 0x8, 0x0, 0x0, 0x0, 0x0, 0x0, true, 0x0⟩,  -- FE_FRAME_DROP
   ⟨0x2400108, 4, 0x40, 1, 0x8, 0x0, 0x0, 0x0, 0x0, 0x0, true, 0x0⟩,  -- FE_MACSEC_DROP
   ⟨0x2400110, 4, 0x40, 1, 0x8, 0x0, 0x0, 0x0, 0x0, 0x0, true, 0x0⟩,  -- FE_IP_DROP
   ⟨0x2400118, 4, 0x40, 1, 0x8, 0x0, 0x0, 0x0, 0x0, 0x0, true, 0x0⟩,  -- FE_CTX_MISS
   ⟨0x2400120, 4, 0x40, 1, 0x8, 0x0, 0x0, 0x0, 0x0, 0x0, true, 0x0⟩,  -- FE_MISS_DROP
   ⟨0x2400128, 4, 0x40, 1, 0x8, 0x0, 0x0, 0x0, 0x0, 0x0, true, 0x0⟩,  -- FE_TERM
   ⟨0x2400130, 4, 0x40, 1, 0x8, 0x0, 0x0, 0x0, 0x0, 0x0, true, 0x0⟩,  -- FE_INGRESS_FAIL
   ⟨0x2400138, 4, 0x40, 1, 0x8, 0x0, 0x0, 0x0, 0x0, 0x0, true, 0x0⟩,  -- FE_SYN_REFUSED
   ⟨0x2400200, 16, 0x8, 1, 0x8, 0xFFFFFFFFFFFFFF, 0x0, 0x0, 0x0, 0x0, false, 0x0⟩,  -- FE_MAC
   ⟨0x2410000, 64, 0x20, 1, 0x8, 0xFFFFFFFFFFFFFFFF, 0x0, 0x0, 0x0, 0x0, false, 0x0⟩,  -- FE_IPIF_W0
   ⟨0x2410008, 64, 0x20, 1, 0x8, 0xFFFFFFFFFFFFFFFF, 0x0, 0x0, 0x0, 0x0, false, 0x0⟩,  -- FE_IPIF_W1
   ⟨0x2410010, 64, 0x20, 1, 0x8, 0xFFFF3F07FFFF0FFF, 0x0, 0x0, 0x0, 0x0, false, 0x5DC000000000000⟩,  -- FE_IPIF_W2
   ⟨0x2410018, 64, 0x20, 1, 0x8, 0x0, 0x0, 0x0, 0x0, 0x0, false, 0x0⟩,  -- FE_IPIF_W3
   ⟨0x2411000, 64, 0x8, 1, 0x8, 0x7FFFFF, 0x0, 0x0, 0x0, 0x0, false, 0x0⟩,  -- FE_LISTEN
   ⟨0x2420000, 16384, 0x8, 1, 0x8, 0xFFFFFFFFFFFFFF, 0x0, 0x0, 0x0, 0x0, false, 0x0⟩,  -- FE_NS
   ⟨0x2440000, 1024, 0x80, 1, 0x8, 0x3F0F, 0x0, 0x0, 0x0, 0x0, false, 0x0⟩,  -- FE_MSA_W0
   ⟨0x2440008, 1024, 0x80, 1, 0x8, 0xFFFFFFFFFFFFFFFF, 0x0, 0x0, 0x0, 0x0, false, 0x0⟩,  -- FE_MSA_W1
   ⟨0x2440010, 1024, 0x80, 1, 0x8, 0xFFFFFFFFFFFFFFFF, 0x0, 0x0, 0x0, 0x0, false, 0x0⟩,  -- FE_MSA_W2
   ⟨0x2440018, 1024, 0x80, 1, 0x8, 0xFFFFFFFFFFFFFFFF, 0x0, 0x0, 0x0, 0x0, false, 0x0⟩,  -- FE_MSA_W3
   ⟨0x2440020, 1024, 0x80, 1, 0x8, 0xFFFFFFFF3FFFFFFF, 0x0, 0x0, 0x0, 0x0, false, 0x0⟩,  -- FE_MSA_W4
   ⟨0x2440028, 1024, 0x80, 1, 0x8, 0x0, 0x0, 0xFFFFFFFFFFFFFFFF, 0x0, 0x0, false, 0x0⟩,  -- FE_MSA_W5
   ⟨0x2440030, 1024, 0x80, 1, 0x8, 0x0, 0x0, 0xFFFFFFFF, 0x0, 0x0, false, 0x0⟩,  -- FE_MSA_W6
   ⟨0x2440038, 1024, 0x80, 1, 0x8, 0x0, 0x0, 0x0, 0x0, 0x0, false, 0x0⟩,  -- FE_MSA_W7
   ⟨0x2440040, 1024, 0x80, 1, 0x8, 0x0, 0x0, 0xFFFFFFFFFFFFFFFF, 0x0, 0x0, false, 0x0⟩,  -- FE_MSA_W8
   ⟨0x2440048, 1024, 0x80, 1, 0x8, 0x0, 0x0, 0xFFFFFFFFFFFFFFFF, 0x0, 0x0, false, 0x0⟩,  -- FE_MSA_W9
   ⟨0x2440050, 1024, 0x80, 1, 0x8, 0x0, 0x0, 0xFFFFFFFFFFFFFFFF, 0x0, 0x0, false, 0x0⟩,  -- FE_MSA_W10
   ⟨0x2440058, 1024, 0x80, 1, 0x8, 0x0, 0x0, 0xFFFFFFFFFFFFFFFF, 0x0, 0x0, false, 0x0⟩,  -- FE_MSA_W11
   ⟨0x2440060, 1024, 0x80, 1, 0x8, 0x0, 0x0, 0x0, 0x0, 0x0, false, 0x0⟩,  -- FE_MSA_W12
   ⟨0x2440068, 1024, 0x80, 1, 0x8, 0x0, 0x0, 0x0, 0x0, 0x0, false, 0x0⟩,  -- FE_MSA_W13
   ⟨0x2440070, 1024, 0x80, 1, 0x8, 0x0, 0x0, 0x0, 0x0, 0x0, false, 0x0⟩,  -- FE_MSA_W14
   ⟨0x2440078, 1024, 0x80, 1, 0x8, 0x0, 0x0, 0x0, 0x0, 0x0, false, 0x0⟩]  -- FE_MSA_W15

/-- The JRN registers. -/
def regDescsJRN : List RegDesc :=
  [⟨0x2900000, 1, 0x8, 1, 0x8, 0x7FFFFFF03, 0x0, 0x0, 0x0, 0x0, false, 0x300100000⟩,  -- JRN_CTL
   ⟨0x2900008, 1, 0x8, 1, 0x8, 0xFFFFC0000000, 0x0, 0x0, 0xFFFFC0000000, 0x0, false, 0x0⟩,  -- JRN_BASE
   ⟨0x2900010, 1, 0x8, 1, 0x8, 0xFFFFC0000000, 0x0, 0x0, 0xFFFFC0000000, 0x0, false, 0x0⟩,  -- JRN_MBASE
   ⟨0x2900018, 1, 0x8, 1, 0x8, 0xFFFFFFFF, 0x0, 0x0, 0x0, 0x0, false, 0x0⟩,  -- JRN_RKEY
   ⟨0x2900020, 1, 0x8, 1, 0x8, 0xFFFFFFFFFFFFFFC0, 0x0, 0x0, 0x0, 0x0, false, 0x0⟩,  -- JRN_START
   ⟨0x2900028, 1, 0x8, 1, 0x8, 0x0, 0x0, 0x0, 0x0, 0x0, false, 0x0⟩,  -- JRN_HEAD
   ⟨0x2900030, 1, 0x8, 1, 0x8, 0x0, 0x0, 0x0, 0x0, 0x0, false, 0x0⟩,  -- JRN_TAIL
   ⟨0x2900038, 1, 0x8, 1, 0x8, 0x0, 0x0, 0x0, 0x0, 0x0, false, 0x0⟩,  -- JRN_MHEAD
   ⟨0x2900040, 1, 0x8, 1, 0x8, 0x0, 0x0, 0x0, 0x0, 0x0, false, 0x0⟩,  -- JRN_MTAIL
   ⟨0x2900048, 1, 0x8, 1, 0x8, 0x0, 0x0, 0x0, 0x0, 0x0, false, 0x0⟩,  -- JRN_USE
   ⟨0x2900050, 1, 0x8, 1, 0x8, 0x3FF03FF03FF, 0x0, 0x0, 0x0, 0x0, false, 0x3C0002000E0⟩,  -- JRN_LIMIT
   ⟨0x2900058, 1, 0x8, 1, 0x8, 0xFFFFFFFF, 0x0, 0x0, 0x0, 0x0, false, 0x0⟩,  -- JRN_VGEN
   ⟨0x2900060, 1, 0x8, 1, 0x8, 0xFFFFF, 0x0, 0x0, 0x0, 0x0, false, 0x0⟩,  -- JRN_VGEOM
   ⟨0x2900068, 4, 0x8, 1, 0x8, 0x7F, 0x80, 0x0, 0x0, 0x0, false, 0x0⟩,  -- JRN_VAULT
   ⟨0x2900100, 1, 0x8, 1, 0x8, 0x0, 0x0, 0x0, 0x0, 0x0, true, 0x0⟩,  -- JRN_APPENDS
   ⟨0x2900108, 1, 0x8, 1, 0x8, 0x0, 0x0, 0x0, 0x0, 0x0, true, 0x0⟩,  -- JRN_RETIRES
   ⟨0x2900110, 1, 0x8, 1, 0x8, 0x0, 0x0, 0x0, 0x0, 0x0, true, 0x0⟩,  -- JRN_BP
   ⟨0x2900118, 1, 0x8, 1, 0x8, 0x0, 0x0, 0x0, 0x0, 0x0, true, 0x0⟩]  -- JRN_NO_SPACE

/-- The DG registers. -/
def regDescsDG : List RegDesc :=
  [⟨0x2E00000, 16, 0x1000, 1, 0x8, 0x3F, 0x0, 0x0, 0x0, 0x0, false, 0x4⟩,  -- DG_CTL
   ⟨0x2E00008, 16, 0x1000, 1, 0x8, 0x0, 0x18, 0x0, 0x0, 0x0, false, 0x0⟩,  -- DG_STATUS
   ⟨0x2E00010, 16, 0x1000, 1, 0x8, 0x0, 0x0, 0x3, 0x0, 0x0, false, 0x0⟩,  -- DG_CMD
   ⟨0x2E00018, 16, 0x1000, 1, 0x8, 0x0, 0x0, 0xFFFFFFFFFFFFFFFF, 0x0, 0x0, false, 0x0⟩,  -- DG_DATA
   ⟨0x2E00020, 16, 0x1000, 1, 0x8, 0x0, 0x0, 0x0, 0x0, 0x0, false, 0x0⟩,  -- DG_MSGLEN
   ⟨0x2E00028, 16, 0x1000, 1, 0x8, 0x0, 0x0, 0x0, 0x0, 0x0, false, 0x0⟩,  -- DG_SLOTS
   ⟨0x2E00040, 16, 0x1000, 8, 0x8, 0x0, 0x0, 0xFFFFFFFFFFFFFFFF, 0x0, 0x0, false, 0x0⟩,  -- DG_LAST
   ⟨0x2E00080, 16, 0x1000, 8, 0x8, 0x0, 0x0, 0x0, 0x0, 0x0, false, 0x0⟩,  -- DG_RESULT0
   ⟨0x2E00100, 16, 0x1000, 1, 0x8, 0x0, 0x0, 0x0, 0x0, 0x0, true, 0x0⟩,  -- DG_BYTES
   ⟨0x2E00108, 16, 0x1000, 1, 0x8, 0x0, 0x0, 0x0, 0x0, 0x0, true, 0x0⟩,  -- DG_JOBS
   ⟨0x2E00110, 16, 0x1000, 1, 0x8, 0x0, 0x0, 0x0, 0x0, 0x0, true, 0x0⟩]  -- DG_PARTIAL

/-- The DDX registers. -/
def regDescsDDX : List RegDesc :=
  [⟨0x3F00000, 1, 0x8, 1, 0x8, 0x13, 0x0, 0x4, 0x0, 0x0, false, 0x10⟩,  -- DDX_CTL
   ⟨0x3F00008, 1, 0x8, 1, 0x8, 0xFFFFC0000000, 0x0, 0x0, 0xFFFFC0000000, 0x0, false, 0x0⟩,  -- DDX_BASE
   ⟨0x3F00010, 1, 0x8, 1, 0x8, 0xFFFF0000, 0x0, 0x0, 0x0, 0x0, false, 0x3E80000⟩,  -- DDX_AGE
   ⟨0x3F00018, 1, 0x8, 1, 0x8, 0x0, 0x0, 0x0, 0x0, 0x0, false, 0x0⟩,  -- DDX_OCC
   ⟨0x3F00100, 1, 0x8, 1, 0x8, 0x0, 0x0, 0x0, 0x0, 0x0, true, 0x0⟩,  -- DDX_LOOKUP
   ⟨0x3F00108, 1, 0x8, 1, 0x8, 0x0, 0x0, 0x0, 0x0, 0x0, true, 0x0⟩,  -- DDX_HIT
   ⟨0x3F00110, 1, 0x8, 1, 0x8, 0x0, 0x0, 0x0, 0x0, 0x0, true, 0x0⟩,  -- DDX_INSERT
   ⟨0x3F00118, 1, 0x8, 1, 0x8, 0x0, 0x0, 0x0, 0x0, 0x0, true, 0x0⟩,  -- DDX_EVICT
   ⟨0x3F00120, 1, 0x8, 1, 0x8, 0x0, 0x0, 0x0, 0x0, 0x0, true, 0x0⟩,  -- DDX_FULL
   ⟨0x3F00128, 1, 0x8, 1, 0x8, 0x0, 0x0, 0x0, 0x0, 0x0, true, 0x0⟩,  -- DDX_PINNED
   ⟨0x3F00130, 1, 0x8, 1, 0x8, 0x0, 0x0, 0x0, 0x0, 0x0, true, 0x0⟩,  -- DDX_FREED
   ⟨0x3F00138, 1, 0x8, 1, 0x8, 0x0, 0x0, 0x0, 0x0, 0x0, true, 0x0⟩]  -- DDX_NOMATCH

/-- The OX registers. -/
def regDescsOX : List RegDesc :=
  [⟨0x2C00000, 16, 0x1000, 1, 0x8, 0x0, 0x0, 0x0, 0x0, 0x0, false, 0x0⟩,  -- OX_STATUS
   ⟨0x2C00100, 16, 0x1000, 1, 0x8, 0x0, 0x0, 0x0, 0x0, 0x0, true, 0x0⟩,  -- OX_COMPRESS
   ⟨0x2C00108, 16, 0x1000, 1, 0x8, 0x0, 0x0, 0x0, 0x0, 0x0, true, 0x0⟩,  -- OX_CELLS
   ⟨0x2C00110, 16, 0x1000, 1, 0x8, 0x0, 0x0, 0x0, 0x0, 0x0, true, 0x0⟩,  -- OX_RAW
   ⟨0x2C00118, 16, 0x1000, 1, 0x8, 0x0, 0x0, 0x0, 0x0, 0x0, true, 0x0⟩,  -- OX_ZERO
   ⟨0x2C00120, 16, 0x1000, 1, 0x8, 0x0, 0x0, 0x0, 0x0, 0x0, true, 0x0⟩,  -- OX_DECOMPRESS
   ⟨0x2C00128, 16, 0x1000, 1, 0x8, 0x0, 0x0, 0x0, 0x0, 0x0, true, 0x0⟩]  -- OX_CHECK_FAIL

/-- The XTS registers. -/
def regDescsXTS : List RegDesc :=
  [⟨0x3000000, 1, 0x8, 1, 0x8, 0x0, 0x0, 0x0, 0x0, 0x0, false, 0x0⟩,  -- XTS_KEYSTAT
   ⟨0x3000008, 1, 0x8, 1, 0x8, 0x0, 0x0, 0x0, 0x0, 0x0, false, 0x0⟩,  -- XTS_KEYBUSY
   ⟨0x3001000, 16, 0x100, 1, 0x8, 0x0, 0x0, 0x0, 0x0, 0x0, true, 0x0⟩,  -- XTS_ENC_BYTES
   ⟨0x3001008, 16, 0x100, 1, 0x8, 0x0, 0x0, 0x0, 0x0, 0x0, true, 0x0⟩,  -- XTS_DEC_BYTES
   ⟨0x3001010, 16, 0x100, 1, 0x8, 0x0, 0x0, 0x0, 0x0, 0x0, true, 0x0⟩,  -- XTS_JOBS
   ⟨0x3001018, 16, 0x100, 1, 0x8, 0x0, 0x0, 0x0, 0x0, 0x0, true, 0x0⟩]  -- XTS_NOKEY

/-- The MAP registers. -/
def regDescsMAP : List RegDesc :=
  [⟨0x3200000, 1, 0x8, 1, 0x8, 0x3F01, 0x0, 0xDA, 0x0, 0x0, false, 0x0⟩,  -- MAP_CTL
   ⟨0x3200008, 1, 0x8, 1, 0x8, 0x0, 0x380, 0x0, 0x0, 0x0, false, 0x0⟩,  -- MAP_STATUS
   ⟨0x3200010, 1, 0x8, 1, 0x8, 0xFFFFC0000000, 0x0, 0x0, 0xFFFFC0000000, 0x0, false, 0x0⟩,  -- MAP_BASE
   ⟨0x3200018, 1, 0x8, 1, 0x8, 0xFFFFFC000000, 0x0, 0x0, 0xFFFFFC000000, 0x0, false, 0x0⟩,  -- MAP_HDR_BASE
   ⟨0x3200020, 1, 0x8, 1, 0x8, 0xFFFFFC000000, 0x0, 0x0, 0xFFFFFC000000, 0x0, false, 0x0⟩,  -- MAP_VIEW_BASE
   ⟨0x3200028, 1, 0x8, 1, 0x8, 0x0, 0x0, 0x0, 0x0, 0x0, false, 0x0⟩,  -- MAP_SETS
   ⟨0x3200030, 1, 0x8, 1, 0x8, 0xFFFFFFFFFFF8, 0x0, 0x0, 0x0, 0x0, false, 0x0⟩,  -- MAP_SEQ_ADDR
   ⟨0x3200038, 1, 0x8, 1, 0x8, 0xFFFFFFFFFFF8, 0x0, 0x0, 0x0, 0x0, false, 0x0⟩,  -- MAP_WM_ADDR
   ⟨0x3200040, 1, 0x8, 1, 0x8, 0x0, 0x0, 0x0, 0x0, 0x0, false, 0x0⟩,  -- MAP_COMMIT
   ⟨0x3200048, 1, 0x8, 1, 0x8, 0x0, 0x0, 0x0, 0x0, 0x0, false, 0x0⟩,  -- MAP_COMMIT_SEQ
   ⟨0x3200050, 1, 0x8, 1, 0x8, 0xFFFFFFFFFFFFFFFF, 0x0, 0x0, 0x0, 0x0, false, 0x0⟩,  -- MAP_ANCHOR
   ⟨0x3200058, 1, 0x8, 1, 0x8, 0xFFFF01FFFFFF, 0x0, 0x0, 0x0, 0x0, false, 0x6401001388⟩,  -- MAP_COMMIT_CFG
   ⟨0x3200060, 1, 0x8, 1, 0x8, 0x1FFFFF, 0x0, 0x0, 0x0, 0x0, false, 0x0⟩,  -- MAP_RELQ
   ⟨0x3200068, 1, 0x8, 1, 0x8, 0xFFFF3FFF, 0x0, 0x0, 0x0, 0x0, false, 0x0⟩,  -- MAP_VQ_KEY
   ⟨0x3200070, 4, 0x8, 1, 0x8, 0x0, 0x0, 0x0, 0x0, 0x0, false, 0x0⟩,  -- MAP_VQ_DATA0
   ⟨0x3200100, 1, 0x8, 1, 0x8, 0x0, 0x0, 0x0, 0x0, 0x0, true, 0x0⟩,  -- MAP_HIT
   ⟨0x3200108, 1, 0x8, 1, 0x8, 0x0, 0x0, 0x0, 0x0, 0x0, true, 0x0⟩,  -- MAP_MISS
   ⟨0x3200110, 1, 0x8, 1, 0x8, 0x0, 0x0, 0x0, 0x0, 0x0, true, 0x0⟩,  -- MAP_VB_HIT
   ⟨0x3200118, 1, 0x8, 1, 0x8, 0x0, 0x0, 0x0, 0x0, 0x0, true, 0x0⟩,  -- MAP_POISON
   ⟨0x3200120, 1, 0x8, 1, 0x8, 0x0, 0x0, 0x0, 0x0, 0x0, true, 0x0⟩,  -- MAP_EVICT_WAIT
   ⟨0x3200128, 1, 0x8, 1, 0x8, 0x0, 0x0, 0x0, 0x0, 0x0, true, 0x0⟩,  -- MAP_COW
   ⟨0x3200130, 1, 0x8, 1, 0x8, 0x0, 0x0, 0x0, 0x0, 0x0, true, 0x0⟩,  -- MAP_COMMITS
   ⟨0x3200138, 1, 0x8, 1, 0x8, 0x0, 0x0, 0x0, 0x0, 0x0, true, 0x0⟩,  -- MAP_NODES_WRITTEN
   ⟨0x3200140, 1, 0x8, 1, 0x8, 0x0, 0x0, 0x0, 0x0, 0x0, true, 0x0⟩]  -- MAP_RELEASED

/-- The SEG registers. -/
def regDescsSEG : List RegDesc :=
  [⟨0x3400000, 1, 0x8, 1, 0x8, 0x1, 0x0, 0x2, 0x0, 0x0, false, 0x0⟩,  -- SEG_CTL
   ⟨0x3400008, 1, 0x8, 1, 0x8, 0x0, 0x6, 0x0, 0x0, 0x0, false, 0x0⟩,  -- SEG_STATUS
   ⟨0x3400010, 1, 0x8, 1, 0x8, 0xFFFF80000000, 0x0, 0x0, 0xFFFF80000000, 0x0, false, 0x0⟩,  -- SEG_BAND_BASE
   ⟨0x3400018, 1, 0x8, 1, 0x8, 0xFFFFFF800000, 0x0, 0x0, 0xFFFFFF800000, 0x0, false, 0x0⟩,  -- SEG_LAYOUT_BASE
   ⟨0x3400020, 1, 0x8, 1, 0x8, 0xFFFFFFF00000, 0x0, 0x0, 0xFFFFFFF00000, 0x0, false, 0x0⟩,  -- SEG_LOST_BASE
   ⟨0x3400028, 1, 0x8, 1, 0x8, 0xFFFFFE000000, 0x0, 0x0, 0xFFFFFE000000, 0x0, false, 0x0⟩,  -- SEG_BUF_BASE
   ⟨0x3400030, 1, 0x8, 1, 0x8, 0xFFFF, 0x0, 0x0, 0x0, 0x0, false, 0x0⟩,  -- SEG_EPOCH
   ⟨0x3400038, 1, 0x8, 1, 0x8, 0x0, 0x0, 0x0, 0x0, 0x0, false, 0x0⟩,  -- SEG_BIRTH
   ⟨0x3400040, 1, 0x8, 1, 0x8, 0xFFFFFFFFFFFFFFFF, 0x0, 0x0, 0x0, 0x0, false, 0x0⟩,  -- SEG_LANE
   ⟨0x3400048, 1, 0x8, 1, 0x8, 0x1FFFFF, 0x0, 0x0, 0x0, 0x0, false, 0x0⟩,  -- SEG_RPTQ
   ⟨0x3400050, 1, 0x8, 1, 0x8, 0x1FFFFFFF0003, 0x0, 0x0, 0x0, 0x0, false, 0x100000C80001⟩,  -- SEG_RBLD_CTL
   ⟨0x3400058, 1, 0x8, 1, 0x8, 0x0, 0x0, 0x0, 0x0, 0x0, false, 0x0⟩,  -- SEG_RBLD_STATUS
   ⟨0x3400060, 1, 0x8, 1, 0x8, 0x0, 0x0, 0x1FFFFFFF, 0x0, 0x0, false, 0x0⟩,  -- SEG_RBLD_ADD
   ⟨0x3400068, 1, 0x8, 1, 0x8, 0xFFFF000F, 0x0, 0x30, 0x0, 0x0, false, 0x10000000⟩,  -- SEG_RSHP_CTL
   ⟨0x3400070, 1, 0x8, 1, 0x8, 0x7FFFFF, 0x0, 0x0, 0x0, 0x0, false, 0x0⟩,  -- SEG_RSHP_AT
   ⟨0x3400080, 5, 0x8, 1, 0x8, 0x0, 0x0, 0x0, 0x0, 0x0, false, 0x0⟩,  -- SEG_STREAM
   ⟨0x3400100, 1, 0x8, 1, 0x8, 0x0, 0x0, 0x0, 0x0, 0x0, true, 0x0⟩,  -- SEG_APPENDS
   ⟨0x3400108, 1, 0x8, 1, 0x8, 0x0, 0x0, 0x0, 0x0, 0x0, true, 0x0⟩,  -- SEG_STRIPES
   ⟨0x3400110, 1, 0x8, 1, 0x8, 0x0, 0x0, 0x0, 0x0, 0x0, true, 0x0⟩,  -- SEG_PAD_PAGES
   ⟨0x3400118, 1, 0x8, 1, 0x8, 0x0, 0x0, 0x0, 0x0, 0x0, true, 0x0⟩,  -- SEG_RECON
   ⟨0x3400120, 1, 0x8, 1, 0x8, 0x0, 0x0, 0x0, 0x0, 0x0, true, 0x0⟩,  -- SEG_SUSPECT
   ⟨0x3400128, 1, 0x8, 1, 0x8, 0x0, 0x0, 0x0, 0x0, 0x0, true, 0x0⟩,  -- SEG_TAG_FAIL
   ⟨0x3400130, 1, 0x8, 1, 0x8, 0x0, 0x0, 0x0, 0x0, 0x0, true, 0x0⟩,  -- SEG_LOST_STRIPES
   ⟨0x3400138, 1, 0x8, 1, 0x8, 0x0, 0x0, 0x0, 0x0, 0x0, true, 0x0⟩,  -- SEG_RBLD_BYTES
   ⟨0x3400140, 1, 0x8, 1, 0x8, 0x0, 0x0, 0x0, 0x0, 0x0, true, 0x0⟩,  -- SEG_MOVES
   ⟨0x3400148, 1, 0x8, 1, 0x8, 0x0, 0x0, 0x0, 0x0, 0x0, true, 0x0⟩,  -- SEG_ROW_BAD
   ⟨0x3400150, 1, 0x8, 1, 0x8, 0x0, 0x0, 0x0, 0x0, 0x0, true, 0x0⟩]  -- SEG_BAND_FULL

/-- The RDN registers. -/
def regDescsRDN : List RegDesc :=
  [⟨0x3600000, 4, 0x1000, 1, 0x8, 0x0, 0x0, 0x0, 0x0, 0x0, false, 0x0⟩,  -- RDN_STATUS
   ⟨0x3600100, 4, 0x1000, 1, 0x8, 0x0, 0x0, 0x0, 0x0, 0x0, true, 0x0⟩,  -- RDN_ENC_BYTES
   ⟨0x3600108, 4, 0x1000, 1, 0x8, 0x0, 0x0, 0x0, 0x0, 0x0, true, 0x0⟩,  -- RDN_DEC_BYTES
   ⟨0x3600110, 4, 0x1000, 1, 0x8, 0x0, 0x0, 0x0, 0x0, 0x0, true, 0x0⟩,  -- RDN_VERIFY
   ⟨0x3600118, 4, 0x1000, 1, 0x8, 0x0, 0x0, 0x0, 0x0, 0x0, true, 0x0⟩,  -- RDN_VERIFY_FAIL
   ⟨0x3600120, 4, 0x1000, 1, 0x8, 0x0, 0x0, 0x0, 0x0, 0x0, true, 0x0⟩]  -- RDN_LOST

/-- The NML registers. -/
def regDescsNML : List RegDesc :=
  [⟨0x3800000, 1, 0x8, 1, 0x8, 0xFFFFFFFFFFFFFFFF, 0x0, 0x0, 0x0, 0x0, false, 0x0⟩,  -- NML_CTL
   ⟨0x3800008, 1, 0x8, 1, 0x8, 0xFFFFFFFFFFFF, 0x0, 0x0, 0x0, 0x0, false, 0x3200140810⟩,  -- NML_CFG
   ⟨0x3800010, 1, 0x8, 1, 0x8, 0xFFFFFFFFFFFFFFFF, 0x0, 0x0, 0x0, 0x0, false, 0x64003200140005⟩,  -- NML_TMO
   ⟨0x3800018, 1, 0x8, 1, 0x8, 0xFFFF, 0x0, 0x0, 0x0, 0x0, false, 0x0⟩,  -- NML_EPOCH
   ⟨0x3801000, 64, 0x8, 1, 0x8, 0x0, 0x0, 0x0, 0x0, 0x0, false, 0x0⟩,  -- NML_LINK
   ⟨0x3802000, 64, 0x40, 1, 0x8, 0x0, 0x0, 0x0, 0x0, 0x0, true, 0x0⟩,  -- NML_FRAMES_TX
   ⟨0x3802008, 64, 0x40, 1, 0x8, 0x0, 0x0, 0x0, 0x0, 0x0, true, 0x0⟩,  -- NML_FRAMES_RX
   ⟨0x3802010, 64, 0x40, 1, 0x8, 0x0, 0x0, 0x0, 0x0, 0x0, true, 0x0⟩,  -- NML_CRC_ERR
   ⟨0x3802018, 64, 0x40, 1, 0x8, 0x0, 0x0, 0x0, 0x0, 0x0, true, 0x0⟩,  -- NML_LEN_ERR
   ⟨0x3802020, 64, 0x40, 1, 0x8, 0x0, 0x0, 0x0, 0x0, 0x0, true, 0x0⟩,  -- NML_REPLAYS
   ⟨0x3802028, 64, 0x40, 1, 0x8, 0x0, 0x0, 0x0, 0x0, 0x0, true, 0x0⟩,  -- NML_RETRAINS
   ⟨0x3802030, 64, 0x40, 1, 0x8, 0x0, 0x0, 0x0, 0x0, 0x0, true, 0x0⟩,  -- NML_TIMEOUTS
   ⟨0x3802038, 64, 0x40, 1, 0x8, 0x0, 0x0, 0x0, 0x0, 0x0, true, 0x0⟩]  -- NML_PROTO_ERR

/-- The MUL registers. -/
def regDescsMUL : List RegDesc :=
  [⟨0x3480000, 1, 0x8, 1, 0x8, 0x3, 0x0, 0x4, 0x0, 0x0, false, 0x2⟩,  -- MUL_CTL
   ⟨0x3480008, 1, 0x8, 1, 0x8, 0xFFFF80000000, 0x0, 0x0, 0xFFFF80000000, 0x0, false, 0x0⟩,  -- MUL_EUT_BASE
   ⟨0x3480010, 1, 0x8, 1, 0x8, 0xFFFFFFFF, 0x0, 0x0, 0x0, 0x0, false, 0x1000000⟩,  -- MUL_GEOM
   ⟨0x3480018, 1, 0x8, 1, 0x8, 0x0, 0x0, 0x0, 0x0, 0x0, false, 0x0⟩,  -- MUL_STATUS
   ⟨0x3481000, 64, 0x8, 1, 0x8, 0xFFFF0000000000, 0x0, 0x0, 0x0, 0x0, false, 0x0⟩,  -- MUL_LANE
   ⟨0x3480100, 1, 0x8, 1, 0x8, 0x0, 0x0, 0x0, 0x0, 0x0, true, 0x0⟩,  -- MUL_MOVED
   ⟨0x3480108, 1, 0x8, 1, 0x8, 0x0, 0x0, 0x0, 0x0, 0x0, true, 0x0⟩,  -- MUL_MOVED_CELLS
   ⟨0x3480110, 1, 0x8, 1, 0x8, 0x0, 0x0, 0x0, 0x0, 0x0, true, 0x0⟩,  -- MUL_HELD
   ⟨0x3480118, 1, 0x8, 1, 0x8, 0x0, 0x0, 0x0, 0x0, 0x0, true, 0x0⟩,  -- MUL_DEAD_COPIES
   ⟨0x3480120, 1, 0x8, 1, 0x8, 0x0, 0x0, 0x0, 0x0, 0x0, true, 0x0⟩,  -- MUL_ERASES
   ⟨0x3480128, 1, 0x8, 1, 0x8, 0x0, 0x0, 0x0, 0x0, 0x0, true, 0x0⟩,  -- MUL_ERASE_FAIL
   ⟨0x3480130, 1, 0x8, 1, 0x8, 0x0, 0x0, 0x0, 0x0, 0x0, true, 0x0⟩,  -- MUL_RETIRED
   ⟨0x3480138, 1, 0x8, 1, 0x8, 0x0, 0x0, 0x0, 0x0, 0x0, true, 0x0⟩]  -- MUL_FENCE_HOLDS

/-- The GT registers. -/
def regDescsGT : List RegDesc :=
  [⟨0x34C0000, 1, 0x8, 1, 0x8, 0xFFFFFF0007, 0x0, 0x0, 0x0, 0x0, false, 0x3001900000⟩,  -- GT_CTL
   ⟨0x34C0008, 1, 0x8, 1, 0x8, 0x1FFFFF, 0x0, 0x0, 0x0, 0x0, false, 0x0⟩,  -- GT_RPTQ
   ⟨0x34C0010, 1, 0x8, 1, 0x8, 0xFFFFFF800000, 0x0, 0x0, 0xFFFFFF800000, 0x0, false, 0x0⟩,  -- GT_KEYTAB_BASE
   ⟨0x34C0018, 1, 0x8, 1, 0x8, 0x0, 0x0, 0x0, 0x0, 0x0, false, 0x0⟩,  -- GT_POS
   ⟨0x34C0100, 1, 0x8, 1, 0x8, 0x0, 0x0, 0x0, 0x0, 0x0, true, 0x0⟩,  -- GT_PAGES
   ⟨0x34C0108, 1, 0x8, 1, 0x8, 0x0, 0x0, 0x0, 0x0, 0x0, true, 0x0⟩,  -- GT_ECC_HIGH
   ⟨0x34C0110, 1, 0x8, 1, 0x8, 0x0, 0x0, 0x0, 0x0, 0x0, true, 0x0⟩,  -- GT_REPAIRED
   ⟨0x34C0118, 1, 0x8, 1, 0x8, 0x0, 0x0, 0x0, 0x0, 0x0, true, 0x0⟩,  -- GT_PARITY
   ⟨0x34C0120, 1, 0x8, 1, 0x8, 0x0, 0x0, 0x0, 0x0, 0x0, true, 0x0⟩,  -- GT_CRC
   ⟨0x34C0128, 1, 0x8, 1, 0x8, 0x0, 0x0, 0x0, 0x0, 0x0, true, 0x0⟩]  -- GT_ERASED

/-- The TRN registers. -/
def regDescsTRN : List RegDesc :=
  [⟨0x2800000, 1, 0x8, 1, 0x8, 0x1F, 0x0, 0x0, 0x0, 0x0, false, 0x0⟩,  -- TRN_CTL
   ⟨0x2800008, 1, 0x8, 1, 0x8, 0xFFFFFFFFFFFFFFFF, 0x0, 0x0, 0x0, 0x0, false, 0xA271002106040⟩,  -- TRN_CFG
   ⟨0x2800010, 1, 0x8, 1, 0x8, 0x0, 0x8, 0x0, 0x0, 0x0, false, 0x0⟩,  -- TRN_STATUS
   ⟨0x2800018, 1, 0x8, 1, 0x8, 0x0, 0x0, 0x1, 0x0, 0x0, false, 0x0⟩,  -- TRN_LIVE
   ⟨0x2800020, 1, 0x8, 1, 0x8, 0x1FFFFFF, 0x0, 0x0, 0x0, 0x0, false, 0x1000⟩,  -- TRN_HB
   ⟨0x2800028, 1, 0x8, 1, 0x8, 0x0, 0x0, 0x0, 0x0, 0x0, false, 0x0⟩,  -- TRN_HB_SEQ
   ⟨0x2800030, 1, 0x8, 1, 0x8, 0x0, 0x0, 0x0, 0x0, 0x0, false, 0x0⟩,  -- TRN_HB_RXTIME
   ⟨0x2800038, 1, 0x8, 1, 0x8, 0x0, 0x0, 0x0, 0x0, 0x0, false, 0x0⟩,  -- TRN_KEYTAG
   ⟨0x2800040, 1, 0x8, 1, 0x8, 0x1FFFFF, 0x0, 0x0, 0x0, 0x0, false, 0x0⟩,  -- TRN_RPTQ
   ⟨0x2800048, 1, 0x8, 1, 0x8, 0xFFF, 0x0, 0x0, 0x0, 0x0, false, 0x2⟩,  -- TRN_BANDQP
   ⟨0x2800050, 1, 0x8, 1, 0x8, 0x0, 0x8, 0x3, 0x0, 0x0, false, 0x0⟩,  -- TRN_MR_CMD
   ⟨0x2800058, 1, 0x8, 1, 0x8, 0xFFFFFFFFFFFF, 0x0, 0x0, 0x0, 0x0, false, 0x0⟩,  -- TRN_MR_ARG0
   ⟨0x2800060, 1, 0x8, 1, 0x8, 0x1FFFFFFFFFF, 0x0, 0x0, 0x0, 0x0, false, 0x0⟩,  -- TRN_MR_ARG1
   ⟨0x2800068, 1, 0x8, 1, 0x8, 0x1FFF, 0x0, 0x0, 0x0, 0x0, false, 0x0⟩,  -- TRN_MR_ARG2
   ⟨0x2800070, 1, 0x8, 1, 0x8, 0x0, 0x0, 0x0, 0x0, 0x0, false, 0x0⟩,  -- TRN_MR_RESULT
   ⟨0x2800078, 1, 0x8, 1, 0x8, 0x0, 0x0, 0xFFFF, 0x0, 0x0, false, 0x0⟩,  -- TRN_LATCH_CANCEL
   ⟨0x2800080, 4, 0x8, 1, 0x8, 0xFFFFFFFFFFFF, 0x0, 0x0, 0x0, 0x0, false, 0x0⟩,  -- TRN_MAC
   ⟨0x2800100, 1, 0x8, 1, 0x8, 0x0, 0x0, 0x0, 0x0, 0x0, true, 0x0⟩,  -- TRN_TX_PKTS
   ⟨0x2800108, 1, 0x8, 1, 0x8, 0x0, 0x0, 0x0, 0x0, 0x0, true, 0x0⟩,  -- TRN_RX_PKTS
   ⟨0x2800110, 1, 0x8, 1, 0x8, 0x0, 0x0, 0x0, 0x0, 0x0, true, 0x0⟩,  -- TRN_RETX
   ⟨0x2800118, 1, 0x8, 1, 0x8, 0x0, 0x0, 0x0, 0x0, 0x0, true, 0x0⟩,  -- TRN_DUP_WRITE
   ⟨0x2800120, 1, 0x8, 1, 0x8, 0x0, 0x0, 0x0, 0x0, 0x0, true, 0x0⟩,  -- TRN_DUP_SEND
   ⟨0x2800128, 1, 0x8, 1, 0x8, 0x0, 0x0, 0x0, 0x0, 0x0, true, 0x0⟩,  -- TRN_SEQ_NAK
   ⟨0x2800130, 1, 0x8, 1, 0x8, 0x0, 0x0, 0x0, 0x0, 0x0, true, 0x0⟩,  -- TRN_RNR
   ⟨0x2800138, 1, 0x8, 1, 0x8, 0x0, 0x0, 0x0, 0x0, 0x0, true, 0x0⟩,  -- TRN_STALL
   ⟨0x2800140, 1, 0x8, 1, 0x8, 0x0, 0x0, 0x0, 0x0, 0x0, true, 0x0⟩,  -- TRN_ACCESS_NAK
   ⟨0x2800148, 1, 0x8, 1, 0x8, 0x0, 0x0, 0x0, 0x0, 0x0, true, 0x0⟩,  -- TRN_QP_ERR
   ⟨0x2800150, 1, 0x8, 1, 0x8, 0x0, 0x0, 0x0, 0x0, 0x0, true, 0x0⟩,  -- TRN_LATCH_FIRED
   ⟨0x2800158, 1, 0x8, 1, 0x8, 0x0, 0x0, 0x0, 0x0, 0x0, true, 0x0⟩,  -- TRN_ICRC_DROP
   ⟨0x2810000, 4096, 0x40, 1, 0x8, 0xFFFFFFFFFF031F07, 0x0, 0x0, 0x0, 0x0, false, 0x2000002FE3020000⟩,  -- TRN_QP_W0
   ⟨0x2810008, 4096, 0x40, 1, 0x8, 0xFFFFFF00FFFFFF, 0x0, 0x0, 0x0, 0x0, false, 0x0⟩,  -- TRN_QP_W1
   ⟨0x2810010, 4096, 0x40, 1, 0x8, 0xFFFFF00FFFFFF, 0x0, 0x0, 0x0, 0x0, false, 0x0⟩,  -- TRN_QP_W2
   ⟨0x2810018, 4096, 0x40, 1, 0x8, 0x3FFFFFFFFF, 0x0, 0x0, 0x0, 0x0, false, 0x0⟩,  -- TRN_QP_W3
   ⟨0x2810020, 4096, 0x40, 1, 0x8, 0xFFFFFFFFFFFFFFFF, 0x0, 0x0, 0x0, 0x0, false, 0x0⟩,  -- TRN_QP_W4
   ⟨0x2810028, 4096, 0x40, 1, 0x8, 0xFFFFFFFFFFFFFFFF, 0x0, 0x0, 0x0, 0x0, false, 0x0⟩,  -- TRN_QP_W5
   ⟨0x2810030, 4096, 0x40, 1, 0x8, 0xFFFFFFFFFFFFFFFF, 0x0, 0x0, 0x0, 0x0, false, 0xC000000000000000⟩,  -- TRN_QP_W6
   ⟨0x2810038, 4096, 0x40, 1, 0x8, 0x0, 0x0, 0x0, 0x0, 0x0, false, 0x0⟩,  -- TRN_QP_W7
   ⟨0x2880000, 4096, 0x20, 1, 0x8, 0x0, 0x0, 0x0, 0x0, 0x0, false, 0x0⟩,  -- TRN_MR_W0
   ⟨0x2880008, 4096, 0x20, 1, 0x8, 0x0, 0x0, 0x0, 0x0, 0x0, false, 0x0⟩,  -- TRN_MR_W1
   ⟨0x2880010, 4096, 0x20, 1, 0x8, 0x0, 0x0, 0x0, 0x0, 0x0, false, 0x0⟩,  -- TRN_MR_W2
   ⟨0x2880018, 4096, 0x20, 1, 0x8, 0x0, 0x0, 0x0, 0x0, 0x0, false, 0x0⟩]  -- TRN_MR_W3

/-- The SRCH registers. -/
def regDescsSRCH : List RegDesc :=
  [⟨0x3C00000, 1, 0x8, 1, 0x8, 0x18, 0x0, 0x7, 0x0, 0x0, false, 0x10⟩,  -- SRCH_CTL
   ⟨0x3C00008, 1, 0x8, 1, 0x8, 0x0, 0x0, 0x0, 0x0, 0x0, false, 0x0⟩,  -- SRCH_STATUS
   ⟨0x3C00010, 1, 0x8, 1, 0x8, 0xFFFFFFC00000, 0x0, 0x0, 0xFFFFFFC00000, 0x0, false, 0x0⟩,  -- SRCH_SHADOW_BASE
   ⟨0x3C00018, 1, 0x8, 1, 0x8, 0xFFFF, 0x0, 0x0, 0x0, 0x0, false, 0x64⟩,  -- SRCH_SCRUB
   ⟨0x3C00020, 1, 0x8, 1, 0x8, 0x0, 0x10000, 0x0, 0x0, 0x0, false, 0x0⟩,  -- SRCH_FAULT
   ⟨0x3C00100, 1, 0x8, 1, 0x8, 0x0, 0x0, 0x0, 0x0, 0x0, true, 0x0⟩,  -- SRCH_FINDS
   ⟨0x3C00108, 1, 0x8, 1, 0x8, 0x0, 0x0, 0x0, 0x0, 0x0, true, 0x0⟩,  -- SRCH_NEXTS
   ⟨0x3C00110, 1, 0x8, 1, 0x8, 0x0, 0x0, 0x0, 0x0, 0x0, true, 0x0⟩,  -- SRCH_WRITES
   ⟨0x3C00118, 1, 0x8, 1, 0x8, 0x0, 0x0, 0x0, 0x0, 0x0, true, 0x0⟩,  -- SRCH_REPAIRS
   ⟨0x3C00120, 1, 0x8, 1, 0x8, 0x0, 0x0, 0x0, 0x0, 0x0, true, 0x0⟩,  -- SRCH_SHADOW_FIX
   ⟨0x3C00128, 1, 0x8, 1, 0x8, 0x0, 0x0, 0x0, 0x0, 0x0, true, 0x0⟩]  -- SRCH_DOUBLE

/-- The ARB registers. -/
def regDescsARB : List RegDesc :=
  [⟨0x3E00000, 1, 0x8, 1, 0x8, 0x1, 0x0, 0x0, 0x0, 0x0, false, 0x0⟩,  -- ARB_CTL
   ⟨0x3E00008, 1, 0x8, 1, 0x8, 0xFFFFFFFE0000, 0x0, 0x0, 0xFFFFFFFE0000, 0x0, false, 0x0⟩,  -- ARB_HINT_BASE
   ⟨0x3E00100, 10, 0x40, 1, 0x8, 0x1FFFFFFFF, 0x0, 0x0, 0x0, 0x0, false, 0x140000000⟩,  -- ARB_CFG
   ⟨0x3E00108, 10, 0x40, 1, 0x8, 0xFFFFFFFFFFFF, 0x0, 0x0, 0x0, 0x0, false, 0x3E8000003E8⟩,  -- ARB_BACKOFF
   ⟨0x3E00110, 10, 0x40, 1, 0x8, 0x0, 0x0, 0x0, 0x0, 0x0, true, 0x0⟩,  -- ARB_GRANTS
   ⟨0x3E00118, 10, 0x40, 1, 0x8, 0x0, 0x0, 0x0, 0x0, 0x0, true, 0x0⟩,  -- ARB_PREEMPT
   ⟨0x3E00120, 10, 0x40, 1, 0x8, 0x0, 0x0, 0x0, 0x0, 0x0, true, 0x0⟩,  -- ARB_FORCED
   ⟨0x3E00128, 10, 0x40, 1, 0x8, 0x0, 0x0, 0x0, 0x0, 0x0, true, 0x0⟩,  -- ARB_BACKOFF
   ⟨0x3E00130, 10, 0x40, 1, 0x8, 0x0, 0x0, 0x0, 0x0, 0x0, true, 0x0⟩]  -- ARB_HINTS

/-- The VLT registers. -/
def regDescsVLT : List RegDesc :=
  [⟨0x600000, 1, 0x8, 1, 0x8, 0x0, 0x0, 0x0, 0x0, 0x0, false, 0x0⟩,  -- VLT_STATUS
   ⟨0x600008, 1, 0x8, 1, 0x8, 0x0, 0x0, 0x7FFFFFFFFFF, 0x0, 0x0, false, 0x0⟩,  -- VLT_CMD
   ⟨0x600010, 1, 0x8, 1, 0x8, 0x0, 0x8000002, 0x0, 0x0, 0x0, false, 0x0⟩,  -- VLT_CMD_STATUS
   ⟨0x600018, 1, 0x8, 1, 0x8, 0x0, 0x0, 0x0, 0x0, 0x0, false, 0x0⟩,  -- VLT_RNG
   ⟨0x600020, 1, 0x8, 1, 0x8, 0x0, 0x0, 0x0, 0x0, 0x0, false, 0x0⟩,  -- VLT_KEYS
   ⟨0x600028, 1, 0x8, 1, 0x8, 0x0, 0x0, 0x0, 0x0, 0x0, false, 0x0⟩,  -- VLT_OTP
   ⟨0x600030, 1, 0x8, 1, 0x8, 0x0, 0x0, 0x0, 0x0, 0x0, false, 0x0⟩,  -- VLT_SERIAL0
   ⟨0x600038, 1, 0x8, 1, 0x8, 0x0, 0x0, 0x0, 0x0, 0x0, false, 0x0⟩,  -- VLT_SERIAL1
   ⟨0x601000, 128, 0x8, 1, 0x8, 0xFFFFFFFFFFFFFFFF, 0x0, 0x0, 0x0, 0x0, false, 0x0⟩,  -- VLT_IN
   ⟨0x602000, 128, 0x8, 1, 0x8, 0x0, 0x0, 0x0, 0x0, 0x0, false, 0x0⟩]  -- VLT_OUT

/-- The HCH registers. -/
def regDescsHCH : List RegDesc :=
  [⟨0x100000, 1, 0x8, 1, 0x8, 0x0, 0x0, 0x13, 0x0, 0x0, false, 0x0⟩,  -- HCH_CMD
   ⟨0x100008, 1, 0x8, 1, 0x8, 0x1, 0x0, 0x0, 0x0, 0x0, false, 0x0⟩,  -- HCH_NEXT
   ⟨0x100010, 1, 0x8, 1, 0x8, 0x0, 0x3, 0x0, 0x0, 0x0, false, 0x0⟩,  -- HCH_STATUS
   ⟨0x100018, 1, 0x8, 1, 0x8, 0x0, 0x0, 0x0, 0x0, 0x0, false, 0x0⟩,  -- HCH_BASE
   ⟨0x100040, 2, 0x40, 1, 0x8, 0x0, 0x0, 0x0, 0x0, 0x0, false, 0x0⟩,  -- HCH_BSTATE
   ⟨0x100048, 2, 0x40, 1, 0x8, 0x0, 0x0, 0x0, 0x0, 0x0, false, 0x0⟩,  -- HCH_INFO
   ⟨0x100050, 2, 0x40, 1, 0x8, 0x0, 0x0, 0x0, 0x0, 0x0, false, 0x0⟩,  -- HCH_MEDIA
   ⟨0x100058, 2, 0x40, 1, 0x8, 0x0, 0x0, 0x0, 0x0, 0x0, false, 0x0⟩,  -- HCH_BUILD
   ⟨0x100060, 2, 0x40, 1, 0x8, 0x0, 0x0, 0x0, 0x0, 0x0, false, 0x0⟩,  -- HCH_LEN
   ⟨0x101000, 2, 0x100, 32, 0x8, 0x0, 0x0, 0x0, 0x0, 0x0, false, 0x0⟩]  -- HCH_MAP

/-- The CLK registers. -/
def regDescsCLK : List RegDesc :=
  [⟨0x200000, 1, 0x8, 1, 0x8, 0x0, 0x10, 0x0, 0x0, 0x0, false, 0x0⟩,  -- CLK_STATUS
   ⟨0x200008, 1, 0x8, 1, 0x8, 0x0, 0x0, 0x0, 0x0, 0x0, false, 0x0⟩,  -- CLK_TIME
   ⟨0x200010, 1, 0x8, 1, 0x8, 0x0, 0x0, 0x0, 0x0, 0x0, false, 0x0⟩,  -- CLK_REF_PPM
   ⟨0x200018, 1, 0x8, 1, 0x8, 0x0, 0x0, 0x0, 0x0, 0x0, false, 0x140A08030540⟩]  -- CLK_DIV

/-- The PWR registers. -/
def regDescsPWR : List RegDesc :=
  [⟨0x300000, 1, 0x8, 1, 0x8, 0xFFFFFFFF, 0x0, 0x0, 0x0, 0xFFFFFFFF, false, 0x6403E8⟩,  -- PWR_IDLE
   ⟨0x300008, 1, 0x8, 1, 0x8, 0x0, 0x0, 0x0, 0x0, 0x0, false, 0x80⟩,  -- PWR_VMON
   ⟨0x300010, 1, 0x8, 1, 0x8, 0xFFFFFC00000003FF, 0x0, 0x0, 0x0, 0xFFFFFC00000003FF, false, 0x64280002EE02EE⟩,  -- PWR_AVS
   ⟨0x300018, 1, 0x8, 1, 0x8, 0x0, 0x0, 0x0, 0x0, 0x0, false, 0x0⟩,  -- PWR_BRACE
   ⟨0x300020, 1, 0x8, 1, 0x8, 0x0, 0x0, 0x8000000000000000, 0x0, 0x0, false, 0x3FF⟩,  -- PWR_VMIN
   ⟨0x300028, 1, 0x8, 1, 0x8, 0xFF0000, 0x0, 0x0, 0x0, 0xFF0000, false, 0x8C0000⟩,  -- PWR_THERM
   ⟨0x300030, 1, 0x8, 1, 0x8, 0x0, 0x0, 0xFF03, 0x0, 0x0, false, 0x0⟩,  -- PWR_RST
   ⟨0x300038, 1, 0x8, 1, 0x8, 0x0, 0x0, 0x0, 0x0, 0x0, false, 0x0⟩,  -- PWR_RST_CAUSE
   ⟨0x300100, 1, 0x8, 1, 0x8, 0x0, 0x0, 0x0, 0x0, 0x0, true, 0x0⟩,  -- PWR_BRACE_EPISODES
   ⟨0x300108, 1, 0x8, 1, 0x8, 0x0, 0x0, 0x0, 0x0, 0x0, true, 0x0⟩,  -- PWR_BRACE_LONG
   ⟨0x300110, 1, 0x8, 1, 0x8, 0x0, 0x0, 0x0, 0x0, 0x0, true, 0x0⟩,  -- PWR_GUARD_EPISODES
   ⟨0x300118, 1, 0x8, 1, 0x8, 0x0, 0x0, 0x0, 0x0, 0x0, true, 0x0⟩,  -- PWR_WARM_RESETS
   ⟨0x300120, 1, 0x8, 1, 0x8, 0x0, 0x0, 0x0, 0x0, 0x0, true, 0x0⟩,  -- PWR_RST_REFUSED
   ⟨0x301000, 64, 0x8, 1, 0x8, 0x3, 0x200, 0x0, 0x0, 0x3, false, 0x0⟩]  -- PWR_DOM

/-- The EVT registers. -/
def regDescsEVT : List RegDesc :=
  [⟨0x400000, 1, 0x8, 1, 0x8, 0x1, 0x0, 0x0, 0x0, 0x0, false, 0x0⟩,  -- EVT_CTL
   ⟨0x400008, 1, 0x8, 1, 0x8, 0x0, 0xC00, 0x0, 0x0, 0x0, false, 0x0⟩,  -- EVT_STATUS
   ⟨0x400010, 1, 0x8, 1, 0x8, 0x0, 0x0, 0xFFFFFFFF000001FF, 0x0, 0x0, false, 0x0⟩,  -- EVT_RAISE
   ⟨0x400018, 1, 0x8, 1, 0x8, 0x0, 0x0, 0x3FFFFF8, 0x0, 0x0, false, 0x0⟩,  -- EVT_CTR_CLR
   ⟨0x400020, 1, 0x8, 1, 0x8, 0x0, 0x0, 0x0, 0x0, 0x0, false, 0x0⟩,  -- EVT_CTR_OLD
   ⟨0x400100, 16, 0x8, 1, 0x8, 0x1FFFFF, 0x0, 0x0, 0x0, 0x0, false, 0x0⟩,  -- EVT_QUEUE
   ⟨0x400200, 8, 0x8, 1, 0x8, 0x0, 0xFFFFFFFFFFFFFFFF, 0x0, 0x0, 0x0, false, 0x0⟩,  -- EVT_PEND
   ⟨0x400300, 1, 0x8, 1, 0x8, 0x0, 0x0, 0x0, 0x0, 0x0, true, 0x0⟩,  -- EVT_OCCURRED
   ⟨0x400308, 1, 0x8, 1, 0x8, 0x0, 0x0, 0x0, 0x0, 0x0, true, 0x0⟩,  -- EVT_MSI
   ⟨0x400310, 1, 0x8, 1, 0x8, 0x0, 0x0, 0x0, 0x0, 0x0, true, 0x0⟩,  -- EVT_ITEMS
   ⟨0x400318, 1, 0x8, 1, 0x8, 0x0, 0x0, 0x0, 0x0, 0x0, true, 0x0⟩,  -- EVT_FOLDED
   ⟨0x401000, 512, 0x8, 1, 0x8, 0x1FFFF, 0x0, 0x0, 0x0, 0x0, false, 0x10000⟩,  -- EVT_SRC
   ⟨0x402000, 512, 0x8, 1, 0x8, 0xFFFFFFFF, 0x0, 0x0, 0x0, 0x0, false, 0x0⟩]  -- EVT_VEC

/-- The LOG registers. -/
def regDescsLOG : List RegDesc :=
  [⟨0x500000, 1, 0x8, 1, 0x8, 0x1, 0x0, 0x0, 0x1, 0x0, false, 0x0⟩,  -- LOG_CFG
   ⟨0x500008, 1, 0x8, 1, 0x8, 0x1, 0x0, 0x0, 0x1, 0x0, false, 0x0⟩,  -- LOG_RATE_LOCK
   ⟨0x500010, 1, 0x8, 1, 0x8, 0x0, 0x1800000, 0x0, 0x0, 0x0, false, 0x0⟩,  -- LOG_STATUS
   ⟨0x500018, 1, 0x8, 1, 0x8, 0x0, 0x0, 0x0, 0x0, 0x0, false, 0x0⟩,  -- LOG_BOOTS
   ⟨0x500020, 1, 0x8, 1, 0x8, 0x0, 0x0, 0xFFFFFFFF0003FFFF, 0x0, 0x0, false, 0x0⟩,  -- LOG_POST
   ⟨0x500028, 1, 0x8, 1, 0x8, 0x0, 0x0, 0x0, 0x0, 0x0, false, 0x0⟩,  -- LOG_CAL
   ⟨0x500030, 1, 0x8, 1, 0x8, 0x0, 0x0, 0xFFFFFFFFFFFFFFFF, 0x0, 0x0, false, 0x0⟩,  -- LOG_CAL_SET
   ⟨0x500038, 1, 0x8, 1, 0x8, 0x0, 0x0, 0x0, 0x0, 0x0, false, 0x0⟩,  -- LOG_CAL_STATUS
   ⟨0x500040, 1, 0x8, 1, 0x8, 0xFFF, 0x0, 0x0, 0x0, 0x0, false, 0x0⟩,  -- LOG_SEL
   ⟨0x500100, 32, 0x8, 1, 0x8, 0x0, 0x0, 0x0, 0x0, 0x0, false, 0x0⟩,  -- LOG_REC0
   ⟨0x500200, 1, 0x8, 1, 0x8, 0x0, 0x0, 0x0, 0x0, 0x0, true, 0x0⟩,  -- LOG_OVERFLOW
   ⟨0x500208, 1, 0x8, 1, 0x8, 0x0, 0x0, 0x0, 0x0, 0x0, true, 0x0⟩,  -- LOG_EVICTED
   ⟨0x501000, 528, 0x8, 1, 0x8, 0x3FFFFFFFFF, 0x0, 0x0, 0x0, 0x0, false, 0x3E803E8⟩]  -- LOG_RATE

/-- The MBX registers. -/
def regDescsMBX : List RegDesc :=
  [⟨0x700000, 1, 0x8, 1, 0x8, 0x1, 0x0, 0x2, 0x0, 0x0, false, 0x0⟩,  -- MBX_CTL
   ⟨0x700008, 1, 0x8, 1, 0x8, 0x0, 0x3, 0x0, 0x0, 0x0, false, 0x0⟩,  -- MBX_STATUS
   ⟨0x700010, 1, 0x8, 1, 0x8, 0x0, 0x0, 0x0, 0x0, 0x0, false, 0x0⟩,  -- MBX_H2D_HEAD
   ⟨0x700018, 1, 0x8, 1, 0x8, 0xFFFC0, 0x0, 0x0, 0x0, 0x0, false, 0x0⟩,  -- MBX_H2D_TAIL
   ⟨0x700020, 1, 0x8, 1, 0x8, 0xFFFC0, 0x0, 0x0, 0x0, 0x0, false, 0x0⟩,  -- MBX_D2H_HEAD
   ⟨0x700028, 1, 0x8, 1, 0x8, 0x0, 0x0, 0x0, 0x0, 0x0, false, 0x0⟩,  -- MBX_D2H_TAIL
   ⟨0x700030, 1, 0x8, 1, 0x8, 0x1FFFFF, 0x0, 0x0, 0x0, 0x0, false, 0x0⟩,  -- MBX_FWQ
   ⟨0x700100, 1, 0x8, 1, 0x8, 0x0, 0x0, 0x0, 0x0, 0x0, true, 0x0⟩,  -- MBX_RX
   ⟨0x700108, 1, 0x8, 1, 0x8, 0x0, 0x0, 0x0, 0x0, 0x0, true, 0x0⟩,  -- MBX_TX
   ⟨0x700110, 1, 0x8, 1, 0x8, 0x0, 0x0, 0x0, 0x0, 0x0, true, 0x0⟩,  -- MBX_REJECT
   ⟨0x700118, 1, 0x8, 1, 0x8, 0x0, 0x0, 0x0, 0x0, 0x0, true, 0x0⟩]  -- MBX_DROPPED

/-- Every register of BAR0. -/
def regDescs : List RegDesc :=
  regDescsGLB ++ regDescsMQ ++ regDescsWKT ++ regDescsFE ++ regDescsJRN ++ regDescsDG ++ regDescsDDX ++ regDescsOX ++ regDescsXTS ++ regDescsMAP ++ regDescsSEG ++ regDescsRDN ++ regDescsNML ++ regDescsMUL ++ regDescsGT ++ regDescsTRN ++ regDescsSRCH ++ regDescsARB ++ regDescsVLT ++ regDescsHCH ++ regDescsCLK ++ regDescsPWR ++ regDescsEVT ++ regDescsLOG ++ regDescsMBX

end Sys2Proof.Machine
end

