-- ==== Sys2Proof/Machine/TArb.lean ====
section
/-! DEFINITION. Types of the arbiters (R375 to R381). -/

namespace Sys2Proof.Machine

/-- A request at an arbiter: requester number, arrival stamp (R375), background; nanoseconds waited behind a holder up to
`mark` (R380); decisions lost in a row; forced; the back-off period reached and the end of a back-off (R381). -/
structure ArbReq where
  num : Nat
  stamp : Nat
  bg : Bool
  waited : Nat
  mark : Nat
  losses : Nat
  forced : Bool
  period : Nat
  until_ : Option Nat
  deriving DecidableEq, Repr

/-- An arbiter: the holder of the grant and whether it won by force, the parked owner (R377), the requests waiting. -/
structure Arb where
  holder : Option ArbReq
  byForce : Bool
  parked : Option Nat
  waiting : List ArbReq
  deriving DecidableEq, Repr

end Sys2Proof.Machine
end

