-- ==== Sys2Proof/Machine/TCore.lean ====
section
/-! DEFINITION. Types of the Mequesko machine: lifecycle, threads, tickets, work items, queues, staging buffers, jobs. -/

namespace Sys2Proof.Machine

/-- The lifecycle states of R22. -/
inductive Life where
  | cold | boot | verify | load | standby | active | brace | vaulting | handover | down
  deriving DecidableEq, Repr

/-- The thread states of R37. -/
inductive TState where
  | free | run | wait | halt | stop
  deriving DecidableEq, Repr

/-- A completion record (R66) with the thread it is for. -/
structure Comp where
  gid : Nat
  status : Nat
  unit : Nat
  ticket : Nat
  aux : Nat
  result : Nat
  deriving DecidableEq, Repr

/-- A live ticket: its value, its completion when that has arrived, and the arrival number of the completion (R63 to R65, R92). -/
structure Ticket where
  val : Nat
  comp : Option Comp
  arrived : Nat
  deriving DecidableEq, Repr

/-- The search iterator of a thread (R89): bank, key, and the last index returned. -/
structure Iter where
  bank : Nat
  key : BitVec 160
  last : Option Nat
  deriving DecidableEq, Repr

/-- What a waiting thread waits for: the stalled instruction and its register operands. -/
inductive Wait where
  /-- WAIT: destination, device time of the start, timeout in ns (0: none) (R92). -/
  | wait (rd : Nat) (since : Nat) (tmo : Nat)
  /-- WAIT.T: destination and ticket (R65). -/
  | waitT (rd : Nat) (ticket : Nat)
  /-- J on a full ring: destination, first descriptor register, class, instance chosen, INST field (R62). -/
  | ring (rd : Nat) (rs1 : Nat) (cls : Nat) (inst : Nat)
  /-- A CHILD admission held while the head is in BRACE: destination, request words, budget, and its place in the order of arrival
  (R110, R126). -/
  | child (rd : Nat) (req : BitVec 256) (budget order : Nat)
  /-- DONE draining its live tickets (R60). -/
  | drainDone
  /-- Q.FWD draining its live tickets: destination and queue (R60). -/
  | drainFwd (rd : Nat) (queue : Nat)
  deriving DecidableEq, Repr

/-- A hardware thread (R37, R38). `wdog` says that BUDGET has reached 0 and WATCHDOG is still to be taken (R61). -/
structure Thread where
  st : TState
  held : TState
  g : SMap Word
  pc : Word
  keeper : Bool
  exc : Bool
  pkeeper : Bool
  epc : Word
  ecause : Nat
  eval : Word
  evec : Word
  kscr0 : Word
  kscr1 : Word
  cycle : Nat
  item : Option Nat
  budget : Option Nat
  wdog : Bool
  pwrmode : Nat
  tickets : SMap Ticket
  tktNext : Nat
  lastjob : Word
  wait : Option Wait
  iter : Option Iter
  deriving DecidableEq, Repr

/-- A work item of the item pool (R54): HEADER words, HANDLE and the fields of bytes 72 to 91. -/
structure Item where
  hdr : List Word
  handle : Word
  queue : Nat
  deadline : Nat
  stamp : Nat
  hasDl : Bool
  source : Nat
  cls : Nat
  tenant : Nat
  deriving DecidableEq, Repr

/-- A hardware queue (R53, R56, R57): its binding word, the slots waiting on it in order, and how many handlers of it run. -/
structure HwQueue where
  bind : Nat
  items : List Nat
  running : Nat
  deriving DecidableEq, Repr

/-- A staging buffer now allocated: its granted length in bytes (R87); the key is its first granule. -/
structure StgBuf where
  len : Nat
  deriving DecidableEq, Repr

/-- A job on a ring (R62): descriptor, issuing thread, ticket, the item slot of the thread, the stamp of R375, and
whether it was issued to the index while that was disabled (R215). -/
structure Job where
  gid : Nat
  ticket : Nat
  desc : Desc
  item : Option Nat
  stamp : Nat
  dark : Bool
  deriving DecidableEq, Repr

/-- A line of a core's data cache: its 64 bytes as they were filled (R48), and whether it holds a parity error (R45). -/
structure DLine where
  addr : Nat
  data : BitVec 512
  parity : Bool
  deriving DecidableEq, Repr

end Sys2Proof.Machine
end

