-- ==== Sys2Proof/Machine/TEvt.lean ====
section
/-! DEFINITION. Types of the event fabric, the logbook and the counters. -/

namespace Sys2Proof.Machine

/-- Occurrences of a source gathered into its one event item (R435): the slot when the item is enqueued, none while the
fabric holds it; latest value, folded count, device times of the first and the latest occurrence. -/
structure EvtItem where
  slot : Option Nat
  value : Nat
  count : Nat
  first : Nat
  last : Nat
  deriving DecidableEq, Repr

/-- Occurrences of a source while it was masked (R434): latest value, number, time of the first and of the latest. -/
structure EvtMasked where
  value : Nat
  count : Nat
  first : Nat
  last : Nat
  deriving DecidableEq, Repr

/-- A vector's pending occurrences (R436): how many since the last signal, the time of the first of them, and a signal
held because MSI-X is disabled or the vector is masked. -/
structure EvtVec where
  count : Nat
  since : Nat
  held : Bool
  deriving DecidableEq, Repr

/-- The event fabric. -/
structure Evt where
  items : SMap EvtItem
  masked : SMap EvtMasked
  vecs : SMap EvtVec
  deriving DecidableEq, Repr

/-- A logbook record (R444), and its order of update (R447). Counts are 48 bits with SAT in bit 63. -/
structure LogRec where
  code : Nat
  sev : Nat
  shift : Nat
  vmin : Nat
  vmax : Nat
  vlast : Nat
  count : Nat
  suppressed : Nat
  first : Nat
  last : Nat
  firstBoot : Nat
  lastBoot : Nat
  hist : SMap Nat
  upd : Nat
  deriving DecidableEq, Repr

/-- A token bucket, in units of 10^-9 tokens, and the device time of its last refill (R119, R446). -/
structure Bucket where
  tokens : Int
  at_ : Nat
  deriving DecidableEq, Repr

/-- The logbook controller (R441 to R448). `nv` is the non-volatile copy, `dirty` the records that differ from it, oldest
first, `urgent` those to be committed at once, `commit` the record a commit of 10 µs is writing with its start and the
contents taken, `lastCommit` the device time of each record's last commit, `faulted` the codes that recorded a FAULT or
FATAL occurrence since cold reset, `selHost` and `selKpr` the record selected by each requester with its snapshot. -/
structure Log where
  recs : SMap LogRec
  nv : SMap LogRec
  dirty : List Nat
  urgent : List Nat
  commit : Option (Nat × Nat × LogRec)
  lastCommit : SMap Nat
  faulted : List Nat
  buckets : SMap Bucket
  upd : Nat
  boots : Nat
  cal : Nat
  calValid : Bool
  calSet : Option Nat
  overflowed : Bool
  selHost : Option (Nat × List Byte)
  selKpr : Option (Nat × List Byte)
  deriving DecidableEq, Repr

/-- The latch of R438 for one requester: the counter's offset and the high half copied at the low read. -/
structure CtrLatch where
  off : Nat
  high : Nat
  deriving DecidableEq, Repr

end Sys2Proof.Machine
end

