-- ==== Sys2Proof/Machine/TTrn.lean ====
section
/-! DEFINITION. Types of the Transom and the journal engine (chapters 6 and 11). -/

namespace Sys2Proof.Machine

/-- Whom the outcome of a message concerns. -/
inductive TxSrc where
  /-- A Transom job. -/
  | job (j : Job)
  /-- A journal append: its job and JOFF (R175). -/
  | append (j : Job) (joff : Nat)
  /-- A retire mark (R177). -/
  | retire (j : Job)
  /-- A record the engine sends of itself: a PAD, or the copy after a CONNECT (R172, R356). -/
  | copy
  /-- Work request `idx` of a Latch chain (R353). -/
  | latch (id idx : Nat)
  /-- A band record (R355). -/
  | band (n : Nat)
  /-- A heartbeat (R355). -/
  | heartbeat
  deriving DecidableEq, Repr

/-- A message on a queue pair: opcode (1 WRITE, 2 WRITE_IMM, 3 SEND), whether it is background (R337), remote address, rkey,
immediate, payload, and its packets as positions counted from the queue pair's first PSN. -/
structure TxMsg where
  src : TxSrc
  op : Nat
  bg : Bool
  raddr : Nat
  rkey : Nat
  imm : Nat
  data : List Byte
  lo : Nat
  n : Nat
  deriving DecidableEq, Repr

/-- A message being received (R344, R349): SEND with its buffer, or WRITE with its region entry and offset; bytes expected
and placed; first PSN; whether an item slot is reserved. -/
structure RxMsg where
  send : Bool
  handle : Nat
  mr : Nat
  off : Nat
  len : Nat
  got : Nat
  first : Nat
  slot : Bool
  mark : Bool
  deriving DecidableEq, Repr

/-- A cached SEND response (R342). -/
structure SendResp where
  first : Nat
  last : Nat
  msn : Nat
  deriving DecidableEq, Repr

/-- The engine's side of a queue pair (R337, R340): first PSN, messages not yet acknowledged, oldest unacknowledged, next to
send, end of what was ever sent and end position; retries; device time of the last progress; RNR wait, with the NAKed position and its
end; the time before which RATE lets nothing more leave; message being received; the EPSN for which a sequence NAK was sent; responses
cached; packets since the last ACK; a packet held under R346 with its start. -/
structure Qp where
  base : Nat
  msgs : List TxMsg
  una : Nat
  nxt : Nat
  top : Nat
  fin : Nat
  retries : Nat
  rnrTries : Nat
  at_ : Nat
  rnr : Option (Nat × Nat)
  paceAt : Nat
  rx : Option RxMsg
  nakAt : Option Nat
  cache : List SendResp
  ackPend : Nat
  ackAt : Nat
  stall : Option (RocePkt × Nat)
  mseq : Nat
  deriving DecidableEq, Repr

/-- A Latch chain (R352, R353): watched queue pair, header fields, work requests, buffer, expiry, when FIRED the
outcomes awaited, and how many chains were armed before it. -/
structure Chain where
  qp : Nat
  consume : Bool
  subst : Bool
  kind : Nat
  type : Nat
  rqueue : Nat
  match_ : Nat
  mask : Nat
  expire : Option Nat
  wrs : List Desc
  buf : Nat
  fired : Bool
  waiting : List Nat
  order : Nat
  deriving DecidableEq, Repr

/-- A report item not yet enqueued (R335, R350, R353): its content and whether it goes to `TRN_RPTQ`. -/
structure Report where
  rptq : Bool
  item : Item
  deriving DecidableEq, Repr

/-- What the Transom sends on a queue pair (R333): a packet of a message, an ACK or a NAK. -/
inductive TrnTx where
  | pkt (p : RocePkt)
  | ack (psn msn : Nat)
  | nak (kind : AckKind) (psn msn : Nat)
  deriving DecidableEq, Repr

/-- What the headers of a packet carry (R332): VLAN, priority, DSCP, MAC and IP source and destination, UDP source port, remote QP
number. -/
structure RoceVia where
  vlan : Option Nat
  prio : Nat
  dscp : Nat
  smac : Nat
  sip : Nat
  dmac : Nat
  dip : Nat
  udp : Nat
  dqpn : Nat
  deriving DecidableEq, Repr

/-- The Transom: queue pairs, chains, device time at which a region entry became FREE and at which one was revoked, reports
held, paths down since when, liveness, heartbeats sent, CONNECT versions (own, partner), a CONNECT copy in progress, when partner
loss was declared (R29), the lanes whose sleds have accepted a takeover of the partner's half (R32), and the JOFFs of appends that
ended without completing on both heads (R318). -/
structure Trn where
  qps : SMap Qp
  chains : SMap Chain
  chainCtr : Nat
  mrFreed : SMap Nat
  revoked : SMap Nat
  reports : List Report
  down : SMap Nat
  liveUntil : Option Nat
  hbSeq : Nat
  hbAt : Option Nat
  hbWatch : Nat
  verOwn : Option (Nat × Nat)
  verPeer : Option (Nat × Nat)
  syncing : Bool
  bandMarks : List Nat
  lossAt : Option Nat
  accepted : List Nat
  undone : List Nat
  deriving DecidableEq, Repr

end Sys2Proof.Machine
end

