-- ==== Sys2Proof/Machine/TFe.lean ====
section
/-! DEFINITION. Types of the front end (chapter 5). -/

namespace Sys2Proof.Machine

/-- The connection states of R143 other than FREE. -/
inductive CState where
  | synRcvd | awaitIc | awaitConnect | awaitBind | ready | closing
  deriving DecidableEq, Repr

/-- A command outstanding on a connection (R147 step 1), with what its answers need: opcode, volume, namespace format, first
block, PRCHK, PRACT, the application tag of its namespace when it was checked (R169), whether it is a write, and whether its
ready-to-transfer PDU has been sent (R142). -/
structure Cmd where
  cid : Nat
  opc : Nat
  vol : Nat
  fmt : Nat
  slba : Nat
  prchk : Nat
  pract : Bool
  apptag : Nat
  write : Bool
  asked : Bool
  deriving DecidableEq, Repr

/-- An open ready-to-transfer window (R142, R167): its transfer tag, the SOLICIT job with its instance, its offset in the
command's data and its length (both in bytes on the wire, protection information included), the bytes received, its start
and a digest error. -/
structure Win where
  tag : Nat
  job : Job
  inst : Nat
  off : Nat
  wire : Nat
  raw : List Byte
  start : Nat
  digestErr : Bool
  deriving DecidableEq, Repr

/-- A RESPOND not yet acknowledged: the job, its instance and the stream position after its last byte (R167). -/
structure Resp where
  job : Job
  inst : Nat
  endAt : Nat
  deriving DecidableEq, Repr

/-- A PDU or segment that the front end sends on a connection. -/
inductive Pdu where
  /-- The MSS and the shift offered, and the options agreed to (R136). -/
  | synAck (mss shift : Nat) (ts sack ecn : Bool)
  | rst | fin
  /-- PFV, CPDA, the digests enabled, MAXH2CDATA (R139). -/
  | icResp (pfv cpda : Nat) (hdgst ddgst : Bool) (maxH2c : Nat)
  | capsuleResp (cid dw0 dw1 sqhd qid status : Nat)
  | c2hData (cid off : Nat) (data : List Byte) (last success : Bool)
  | r2t (cid tag off len : Nat)
  | c2hTerm (fes : Nat)
  deriving DecidableEq, Repr

/-- A PDU in a device's stream: its first position, its bytes, and what it is. -/
structure TxPdu where
  pos : Nat
  len : Nat
  pdu : Pdu
  deriving DecidableEq, Repr

/-- The sender's side of a TCP connection (R136, R137): what the SYN offered; the newest timestamp of the host; smoothed round-trip
time, its variation and the retransmission timeout, in µs; when the timer was started; a position being timed and since when; PDUs
not yet acknowledged; the position sent next and the highest sent; the host's window; congestion window and threshold;
acknowledgements without advance; the position at which recovery ends and that up to which it has sent again; ranges acknowledged
selectively; and for ECN the position at which the observation window ends, the bytes acknowledged and marked in it, and the
fraction of DCTCP in units of 1/1,024. -/
structure Tcp where
  opts : TcpOpts
  tsRecent : Option Nat
  srtt : Nat
  rttvar : Nat
  rto : Nat
  timerAt : Option Nat
  timed : Option (Nat × Nat)
  queue : List TxPdu
  nxt : Nat
  top : Nat
  rwnd : Nat
  cwnd : Nat
  ssthresh : Nat
  dups : Nat
  recover : Option Nat
  highRxt : Nat
  sacked : List (Nat × Nat)
  winEnd : Nat
  winBytes : Nat
  winMarked : Nat
  alpha : Nat
  deriving DecidableEq, Repr

/-- A connection (R143). `sent` and `acked` count bytes of the device's TCP stream; `retries` retransmissions without an
acknowledgement; `cached`, `used` the context cache (R145); `adv` what is left of the receive window promised (R138). -/
structure Conn where
  gen : Nat
  quad : Nat
  ipif : Nat
  tuple : Nat
  st : CState
  since : Nat
  tries : Nat
  hdgst : Bool
  ddgst : Bool
  hpda : Nat
  tenant : Nat
  queue : Nat
  qid : Nat
  sqsize : Nat
  cntlid : Nat
  noFlow : Bool
  admin : Bool
  dctcp : Bool
  mss : Nat
  sqhd : Nat
  cmds : List Cmd
  aers : List Nat
  wins : List Win
  nextTag : Nat
  sent : Nat
  acked : Nat
  resps : List Resp
  retries : Nat
  cached : Bool
  used : Nat
  adv : Nat
  tcp : Tcp
  deriving DecidableEq, Repr

/-- What a segment of a connection brings (R139 to R143, R167); `hd` and `dd` are the header and data digests it carries. -/
inductive Seg where
  /-- ACK of the SYN-ACK. -/
  | synAck
  /-- A PDU that is no CapsuleCmd, H2CData or H2CTermReq: its type, and for an ICReq PFV, HPDA and the digests asked for. -/
  | pdu (type pfv hpda : Nat) (hdgst ddgst : Bool)
  /-- A CapsuleCmd: PLEN, the submission queue entry, in-capsule data, digests. -/
  | capsule (plen : Nat) (sqe : BitVec 512) (data : List Byte) (hd dd : Nat)
  /-- An H2CData: command identifier, transfer tag, offset, whether it is the last, data, digests. -/
  | h2c (cid tag off : Nat) (last : Bool) (data : List Byte) (hd dd : Nat)
  /-- An H2CTermReq of a length. -/
  | term (len : Nat)
  /-- An acknowledgement. -/
  | ack (a : TcpAck)
  /-- RST. -/
  | rst
  deriving DecidableEq, Repr

/-- A segment that waits: in a quad's miss buffer for its context (R145, R146), or for a buffer (R138). -/
structure MissSeg where
  quad : Nat
  conn : Nat
  bytes : Nat
  seg : Seg
  deriving DecidableEq, Repr

/-- A posted RAW_RX (R167). -/
structure RawRx where
  job : Job
  inst : Nat
  port : Nat
  deriving DecidableEq, Repr

/-- What leaves a port. -/
inductive FeTx where
  /-- A PDU or segment on a connection, named by its handle, with the receive window it advertises (R138), its position in the
  device's stream, and its header and data digests where they are enabled (R141). -/
  | pdu (conn wnd pos : Nat) (hd dd : Option Nat) (p : Pdu)
  /-- RST to an address that has no connection: the 4-tuple. -/
  | rstTo (tuple : Nat)
  /-- A raw frame. -/
  | raw (data : List Byte)
  /-- A packet of a replication queue pair (R332). -/
  | roce (qp : Nat) (via : RoceVia) (tx : TrnTx)
  deriving DecidableEq, Repr

/-- A transmission on a port: its priority (R131), how many frames and bytes, whether it is protected by MACsec, and what it is. -/
structure PortTx where
  port : Nat
  prio : Nat
  n : Nat
  bytes : Nat
  prot : Bool
  tx : FeTx
  deriving DecidableEq, Repr

/-- The front end: connections by index, GEN by index, segments that wait, posted RAW_RX, transmissions held because no transmit SA
may send them (R133), transmit SAs that have raised MACSEC_PN and those that have used their last packet number, transmissions that
priority flow control holds and until when it stops each priority (8 × port + priority), and whether the quads are paused after a
warm reset (R409). -/
structure Fe where
  conns : SMap Conn
  gens : SMap Nat
  miss : List MissSeg
  raw : List RawRx
  held : List PortTx
  warned : List Nat
  spent : List Nat
  pfc : List PortTx
  pfcUntil : SMap Nat
  paused : Bool
  deriving DecidableEq, Repr

end Sys2Proof.Machine
end

