-- ==== Sys2Proof/Machine/TMap.lean ====
section
/-! DEFINITION. Types of the map cache unit (chapter 8). -/

namespace Sys2Proof.Machine

/-- The key of a line (R231): a node of a live view, or a node on media. -/
inductive MKey where
  | live (vol level index : Nat)
  | frozen (seg cell : Nat)
  deriving DecidableEq, Repr

/-- A line that is FILLING (R236): its key and the page pointer being read, its level, POISON, and the jobs queued on it. -/
structure MFill where
  key : MKey
  ptr : Nat
  level : Nat
  poison : Bool
  waiters : List Job
  deriving DecidableEq, Repr

/-- A line in the victim buffer (R234): key, content, DIRTY, NEW, PGEN, and for a clean one the line whose fill it waits for. -/
structure VbLine where
  key : MKey
  data : List Byte
  dirty : Bool
  isNew : Bool
  pgen : Nat
  fill : Option Nat
  deriving DecidableEq, Repr

/-- A node captured by a commit (R239): its key, content and PGEN, and whether it has been appended. -/
structure CNode where
  key : MKey
  data : List Byte
  pgen : Nat
  done : Bool
  deriving DecidableEq, Repr

/-- Dirty live lines that a commit is asked for beyond those of R239 step 4: all, those of a volume, those of regions of a
volume, the line of a key. -/
inductive MWant where
  | all
  | vol (v : Nat)
  | range (v lo hi : Nat)
  | key (k : MKey)
  deriving DecidableEq, Repr

/-- A commit that runs (R239): the step it waits in (2, 3, 5, 6 or 7), counter C, start of the wait, whether WARN was raised,
captured nodes, keys written again and keys to drop at the end, what it was asked for, whether the background engine waits for
it, the cleans it will complete, the view pages it writes, those and the table pages it has yet to append, and where its commit page
lies. -/
structure MCommit where
  step : Nat
  c : Nat
  since : Nat
  warned : Bool
  nodes : List CNode
  again : List MKey
  drops : List MKey
  wants : List MWant
  bg : Bool
  cleans : List (MKey × Job)
  views : List Nat
  pages : List Nat
  tables : List Nat
  ptr : Nat
  deriving DecidableEq, Repr

/-- An operation of the background engine (R246). -/
inductive BgOp where
  | job (j : Job)
  | cleanAll
  deriving DecidableEq, Repr

/-- A release report that waits (R250): volume, view, entries, node pointers. -/
structure RelReport where
  vol : Nat
  view : Nat
  entries : List Nat
  ptrs : List Nat
  deriving DecidableEq, Repr

/-- An invalidate of a FILLING line that waits for the requests queued before it (R237): its job, and they. -/
structure MMaint where
  job : Job
  behind : List Job
  deriving DecidableEq, Repr

/-- The map cache unit: lines FILLING, victim buffer, cleans that wait, invalidates that wait, requests that wait for a commit to end,
the commit that runs, the commit asked for next (with whether the engine waits for it), when the last one ended, background operations (the first
one runs) and the phase of the first, SETs held by a snapshot with its volume, reports that wait, INVALL in progress, mount or
format in progress, locations of view pages and table pages on media, view pages changed, and a sync of its own that failed. -/
structure MapUnit where
  fills : SMap MFill
  vb : List VbLine
  cleans : List (MKey × Job)
  maint : List MMaint
  stalled : List Job
  commit : Option MCommit
  next : Option (List MWant × Bool)
  lastEnd : Nat
  bg : List BgOp
  phase : Nat
  holdVol : Option Nat
  held : List Job
  relq : List RelReport
  invall : Bool
  mounting : Option Bool
  viewLoc : SMap Nat
  tableLoc : SMap Nat
  viewDirty : List Nat
  syncBad : Bool
  deriving DecidableEq, Repr

end Sys2Proof.Machine
end

