-- ==== Sys2Proof/Machine/TSled.lean ====
section
/-! DEFINITION. Types of the sleds and of the NML lanes (chapter 10). -/

namespace Sys2Proof.Machine

/-- What a sled's geometry record gives (R303). -/
structure SledGeo where
  dies : Nat
  planes : Nat
  eus : Nat
  emib : Nat
  ppeSlc : Nat
  tread : Nat
  tprog : Nat
  terase : Nat
  tsusp : Nat
  tprogSlc : Nat
  suspMax : Nat
  endurance : Nat
  enduranceSlc : Nat
  spare : Nat
  cmdCredits : Nat
  dataCredits : Nat
  erasedBits : Nat
  serial : List Byte
  model : List Byte
  deriving DecidableEq, Repr

/-- An erase unit of a sled: erase count, bad mark, the page above the highest programmed since its last erase, and whether
its last program was in SLC mode. -/
structure EuInfo where
  erases : Nat
  bad : Bool
  top : Nat
  slc : Bool
  deriving DecidableEq, Repr

/-- A command on a die: the port and tag it came with, the command, the pages received of a PROGRAM; for a program or erase,
since when it is suspended and whether by a read, how often it has been, and for how long in all (ns); for a read, whether it
suspended an operation or had to wait. -/
structure SledOp where
  port : Nat
  tag : Nat
  cmd : NmlCmd
  got : List (List Byte)
  susp : Option (Nat × Bool)
  suspCount : Nat
  suspNs : Nat
  suspended : Bool
  waited : Bool
  deriving DecidableEq, Repr

/-- A die: the operation that runs, reads while it is suspended (the first one is being carried out), commands that wait, and
the most bit errors corrected since power-on (R304). -/
structure SledDie where
  run : Option SledOp
  reads : List SledOp
  wait : List SledOp
  bits : Nat
  deriving DecidableEq, Repr

/-- A sled: geometry, leases (R305; owner 0, 1 or 3 for none), read-only state, erase units, programmed pages, dies. -/
structure Sled where
  geo : SledGeo
  owner0 : Nat
  owner1 : Nat
  epoch0 : Nat
  epoch1 : Nat
  fenced0 : Bool
  fenced1 : Bool
  ro : Bool
  eus : SMap EuInfo
  pages : SMap (List Byte)
  dies : SMap SledDie
  deriving DecidableEq, Repr

/-- An RSP (R298). -/
structure SledRsp where
  status : Nat
  sflags : Nat
  tag : Nat
  donepg : Nat
  maxbits : Nat
  erases : Nat
  suspUs : Nat
  epochs : Nat
  lstate : Nat
  deriving DecidableEq, Repr

/-- What a sled sends to a port. -/
inductive SledTx where
  | rsp (r : SledRsp)
  | rdata (tag off : Nat) (last : Bool) (data : List Byte)
  deriving DecidableEq, Repr

/-- What the head sends on a lane (R292). `eng` is a command of one of the head's own engines with its data, whose frames are not shown
(assumption log 21). -/
inductive NmlTx where
  | eng (c : NmlCmd) (data : List Byte)
  | cmd (fseq tag : Nat) (c : NmlCmd)
  | wdata (fseq tag off : Nat) (last : Bool) (data : List Byte)
  | ack (next : Nat)
  | nak (next : Nat)
  | hello (port : Nat)
  | squelch
  deriving DecidableEq, Repr

/-- A command outstanding at a lane: its job and command, FSEQ of its CMD frame and when that was acknowledged, address of
its buffer and bytes received, whether its job has already ended, and whether it ended by its time limit (R311). A READ or PROGRAM
may go out in parts (R383): pages of the parts before this one, pages in all, and whether it stands between two parts. -/
structure NmlOut where
  job : Job
  cmd : NmlCmd
  fseq : Nat
  acked : Option Nat
  buf : Nat
  got : Nat
  dead : Bool
  late : Bool
  pages : Nat
  total : Nat
  idle : Bool
  deriving DecidableEq, Repr

/-- A lane's controller (R291 to R295): when its state was entered; failed trainings in a row; whether it has been UP since it
left DOWN, and since when it is out of UP; HELLO and absolute CREDIT seen in INIT; time of the last frame received and of the
last HELLO sent; NEXT expected and the last NAK sent (NEXT and time); next FSEQ; frames held; time of the last advance or
replay; replays without progress; frames delivered since the last ACK and the first one's time; credits; commands; and the
EPOCHS that the sled's last RSP carried, which outlast the lane's state (R29). -/
structure Lane where
  since : Nat
  tries : Nat
  wasUp : Bool
  leftUp : Nat
  helloOk : Bool
  creditOk : Bool
  rxAt : Nat
  helloAt : Nat
  next : Nat
  nakAt : Option (Nat × Nat)
  txSeq : Nat
  held : List NmlTx
  progAt : Nat
  replays : Nat
  ackPend : Nat
  ackAt : Nat
  cmdCr : Nat
  dataCr : Nat
  cmds : SMap NmlOut
  epochs : Option Nat
  deriving DecidableEq, Repr

end Sys2Proof.Machine
end

