-- ==== Sys2Proof/Machine/TOut.lean ====
section
/-! DEFINITION. What the head drives outside: the entries of the output trace (assumption log 8). -/

namespace Sys2Proof.Machine

/-- Output pins (chapter 17). -/
inductive OutPin where
  | faultN | thermN | vid
  deriving DecidableEq, Repr

/-- One thing the head has sent or driven. -/
inductive Out where
  /-- An MSI-X memory write for a vector, with the address and data of its table entry (R436, R450). -/
  | msix (vector addr data : Nat)
  /-- An output pin takes a level, or VID a code. -/
  | pin (p : OutPin) (level : Nat)
  /-- A front-end port sends something, MACsec-protected or not. -/
  | fe (port : Nat) (prot : Bool) (tx : FeTx)
  /-- The Transom sends something of a queue pair on a quad. -/
  | trn (quad qp : Nat) (via : RoceVia) (tx : TrnTx)
  /-- The head sends a frame on an NML lane. -/
  | nml (lane : Nat) (tx : NmlTx)
  /-- A sled sends a frame to one of its ports. -/
  | sled (lane port : Nat) (tx : SledTx)
  /-- A read through BAR0 returns data. -/
  | readData (v : Word)
  /-- The I2C target returns a byte (R464). -/
  | i2c (b : Byte)
  deriving DecidableEq, Repr

end Sys2Proof.Machine
end

