-- ==== Sys2Proof/Machine/TPwr.lean ====
section
/-! DEFINITION. Types of the pins, monitors, resets and the PCI Express endpoint. -/

namespace Sys2Proof.Machine

/-- Input pins and rails that no register holds (chapters 14 and 17): the HEAD_ID strap, HEAD_RST_N, VDD_AON with
VDD_IO, and VBAT_RTC. -/
structure Pins where
  headIdPin : Nat
  headRstN : Bool
  aon : Bool
  vbat : Bool
  deriving DecidableEq, Repr

/-- The supply and thermal monitors and the reset control (R422 to R429). `warnAt` is the start of a warning episode and
`epMin` the lowest VDD_CORE in it; `stepAt` the device time of the last VID code, `settling` that the thresholds have not
yet followed; `thrMv` the set point the thresholds follow; `guardAt` the start of a guard episode; `thermHold` that a
shutdown holds reset; `flush` the device time and the calendar time at which a flush began, and whether appends have ended
(R190); `pfailAt` the device time of the fall of PFAIL_N; `pinWait` that a PIN reset waits for a flush (R476); `warm` the device time
of an accepted warm reset (R429); `released` that head reset is released; `rtcSince` the crystal's ticks since it started again (R488). -/
structure Pwr where
  warnAt : Option Nat
  epMin : Nat
  avsBusy : Bool
  stepAt : Nat
  settling : Bool
  thrMv : Nat
  coreMv : Nat
  sramMv : Nat
  guardAt : Option Nat
  thermHold : Bool
  warm : Option Nat
  released : Bool
  flush : Option (Nat × Nat × Bool)
  pfailAt : Option Nat
  pinWait : Bool
  rtcSince : Option Nat
  deriving DecidableEq, Repr

/-- The PCI Express endpoint (R449 to R453): MSI-X Enable, Bus Master Enable, the vectors whose mask bit is clear, and the
errors reported. The link's speed, width and state stand in `GLB_PCIE`. -/
structure Pcie where
  msixEn : Bool
  busMaster : Bool
  vecOpen : List Nat
  inReset : Bool
  aer : List TlpErr
  deriving DecidableEq, Repr

/-- A domain's idle time and shutter sequence (R416, R419): the time since when it has been idle, and the start and goal
of an entry or the start of a wake. -/
structure Dom where
  idleSince : Option Nat
  seq : Option Nat
  deriving DecidableEq, Repr

/-- The I2C target (R464): register pointer and the latest snapshot of each multi-byte field, by its first offset. -/
structure I2c where
  ptr : Nat
  snap : SMap (List Byte)
  deriving DecidableEq, Repr

/-- The mailbox (R454 to R463): bytes of BAR4 (H2D ring from 0, D2H ring from 0xC0000), and since when the device waits for the
tail to cover the packet at HEAD (R456). -/
structure Mbx where
  ring : SMap Byte
  since : Option Nat
  deriving DecidableEq, Repr

end Sys2Proof.Machine
end

