-- ==== Sys2Proof/Machine/TRed.lean ====
section
/-! DEFINITION. Types of the reduction units (chapter 7). -/

namespace Sys2Proof.Machine

/-- The cached key states of a digest slot (R198, R199): the algorithm they were made for, inner and outer chaining value. -/
structure DgKey where
  alg : Nat
  inner : List Nat
  outer : List Nat
  deriving DecidableEq, Repr

/-- A digest slot (R198): state 0 IDLE, 1 OPEN, 2 DONE; algorithm and kind of the message; chaining value; message length;
bytes not yet a block; key; whether PREEMPTED, and the stamp kept (R201, R379). -/
structure DgSlot where
  st : Nat
  alg : Nat
  keyed : Bool
  h : List Nat
  len : Nat
  buf : List Byte
  key : Option DgKey
  pre : Bool
  stamp : Option Nat
  deriving DecidableEq, Repr

/-- The digest lanes: slots, and for each lane's register port the last finished digest and the length of its message. -/
structure Dg where
  slots : SMap DgSlot
  results : SMap (List Byte)
  lens : SMap Nat
  deriving DecidableEq, Repr

/-- The de-duplication index unit: a clear in progress and the device time of the last advance of NOW (R212, R215). -/
structure Ddx where
  clearing : Bool
  nowAt : Nat
  deriving DecidableEq, Repr

end Sys2Proof.Machine
end

