-- ==== Sys2Proof/Machine/TSeg.lean ====
section
/-! DEFINITION. Types of the segment manager, the Mule and the Goat (chapters 9 and 10). -/

namespace Sys2Proof.Machine

/-- A closed stripe that is not yet durable (R262): segment, stripe, its number among the stripes of its stream, W and P; `dead` marks one
that is LOST and programs nothing (R97), `sent` one whose programs were issued before a hold of media writes began. -/
structure Flight where
  seg : Nat
  stripe : Nat
  num : Nat
  w : Nat
  p : Nat
  dead : Bool
  sent : Bool
  deriving DecidableEq, Repr

/-- A sync that waits: the job it completes, with the status (where no stripe is lost), AUX and RESULT it will carry (none for the map's own), the stripes of the
stream that must be durable, and whether one of them was lost. -/
structure SyncWait where
  job : Option Job
  status : Nat
  aux : Nat
  result : Nat
  upTo : Nat
  bad : Bool
  deriving DecidableEq, Repr

/-- A stream (R261, R262, R265): its current band, next unused slot, and the band's pool, W and P; the open segment; the data
page being filled, next cell and descriptors; whether the current stripe holds a grain; stripes closed and stripes ended;
closed stripes; syncs; whether a stripe ended LOST that no sync has told yet. -/
structure SegStream where
  band : Nat
  slotNext : Nat
  pool : Nat
  w : Nat
  p : Nat
  seg : Option Nat
  page : Nat
  cell : Nat
  ndesc : Nat
  begun : Bool
  closed : Nat
  ended : Nat
  flight : List Flight
  syncs : List SyncWait
  lost : Bool
  deriving DecidableEq, Repr

/-- An open that waits for the partner's acknowledgement of its band's record (R265): its job, none for the device's own. -/
structure PendOpen where
  job : Option Job
  band : Nat
  seg : Nat
  deriving DecidableEq, Repr

/-- A page read in progress at a die (R270): when it ends, and whether it is a background read. -/
structure DieRead where
  until_ : Nat
  bg : Bool
  deriving DecidableEq, Repr

/-- A program or erase that this head has running on an own die (R116, R118): its computed end, how often this head's reads have
suspended it, and since when SUSPEND has. -/
structure DieOp where
  until_ : Nat
  susps : Nat
  since : Option Nat
  deriving DecidableEq, Repr

/-- A CHECK in progress (R326): its job, the stripe that comes next, and whether a stripe was LOST. -/
structure CheckSt where
  job : Job
  stripe : Nat
  lost : Bool
  deriving DecidableEq, Repr

/-- A position being rebuilt or moved (R275, R287): band index, position, new erase unit, the slot and stripe that come
next, and the unit it had before. -/
structure PosMove where
  band : Nat
  pos : Nat
  lane : Nat
  die : Nat
  eu : Nat
  slot : Nat
  stripe : Nat
  old : Nat × Nat × Nat
  deriving DecidableEq, Repr

/-- A released band (R267, R318): the journal's HEAD at its release and the erase units not yet erased (lane, own die, unit). -/
structure RelBand where
  fence : Nat
  units : List (Nat × Nat × Nat)
  deriving DecidableEq, Repr

/-- A reshape that runs (R287): pool, bands since the last checkpoint, copies in flight, bands sealed behind the boundary. -/
structure Reshape where
  pool : Nat
  since : Nat
  moving : List PosMove
  again : List Nat
  deriving DecidableEq, Repr

/-- A MOVE in progress (R317): its job, next data page and descriptor, grains moved, cells moved, grains held, LOST pages. -/
structure MoveSt where
  job : Job
  page : Nat
  desc : Nat
  moved : Nat
  cells : Nat
  held : Nat
  lost : Nat
  deriving DecidableEq, Repr

/-- The segment manager, the Mule and the Goat: streams, opens, reports held, die rotation of each lane, rows warned of,
MOVE of positions, positions FAILED and waiting, positions reported NO_REPLACEMENT, positions REBUILDING, replacements taken
per lane, positions rebuilt, the full LOST buckets that hold the rebuild, reshape, census and table load in progress, released
bands, erases in flight, units whose erase the fence holds, the MOVE that runs, the Goat's stripe and findings held; page reads and
own programs and erases in progress, by die; CHECKs in progress. -/
structure SegUnit where
  streams : SMap SegStream
  opens : List PendOpen
  reports : List (List Nat)
  dieNext : SMap Nat
  rowWarned : List Nat
  moves : SMap Nat
  failed : List (Nat × Nat)
  noRepl : List (Nat × Nat)
  rebuild : List PosMove
  taken : SMap Nat
  rebuilt : Nat
  heldBy : List Nat
  reshape : Option Reshape
  census : Bool
  load : Bool
  released : SMap RelBand
  erasing : List (Nat × Nat × Nat)
  fenceHeld : List Nat
  move : Option MoveSt
  goatStripe : Nat
  findings : List (List Nat)
  dieReads : SMap DieRead
  dieOps : SMap DieOp
  checks : List CheckSt
  deriving DecidableEq, Repr

end Sys2Proof.Machine
end

