-- ==== Sys2Proof/Machine/TSrch.lean ====
section
/-! DEFINITION. Types of the search unit (R366 to R373). -/

namespace Sys2Proof.Machine

/-- A search entry: VALUE, MASK, VALID, its count of writes and clears, and whether its parity check fails (R366, R369). -/
structure SEntry where
  value : BitVec 160
  mask : BitVec 160
  valid : Bool
  wcount : Nat
  badParity : Bool
  deriving DecidableEq, Repr

/-- A clear or restore of a bank in progress (R373). -/
inductive SrchOp where
  | init0 | init1 | restore1
  deriving DecidableEq, Repr

end Sys2Proof.Machine
end

