-- ==== Sys2Proof/Machine/TVlt.lean ====
section
/-! DEFINITION. Types of the Vault and the Hatch (R385 to R405). -/

namespace Sys2Proof.Machine

/-- The OTP fields of R387. A key hash slot holds its 64 bytes when programmed. -/
structure Otp where
  serial : Nat
  secret : List Byte
  cert : List Byte
  hash : SMap (List Byte)
  attrs : SMap Nat
  kek0 : List Byte
  kek1 : Option (List Byte)
  plainOk : Bool
  ownerLock : Bool
  svn : Nat
  mediaGen : Nat
  deriving DecidableEq, Repr

/-- A command port of the Vault (R389): the command word while BUSY, the result and output of a command that has been carried
out and not yet ended, the input and output windows, and the fields of `VLT_CMD_STATUS`. -/
structure VltPort where
  cmd : Option Nat
  fin : Option (Nat × List Byte)
  inw : SMap Word
  outw : List Byte
  done : Bool
  result : Nat
  outLen : Nat
  ignored : Bool
  deriving DecidableEq, Repr

/-- A key slot: its key bytes and ATTR (R393). -/
structure VKey where
  key : List Byte
  attr : Nat
  deriving DecidableEq, Repr

/-- The running image, as R398 and R407 use it: its bank while that bank still holds it, the SHA-512 of its manifest, SVN and
MEDIA_READ. -/
structure RunImage where
  bank : Option Nat
  hash : List Byte
  svn : Nat
  mediaRead : Nat
  deriving DecidableEq, Repr

/-- The Vault and the Hatch. Port 0 is H, port 1 is K. `last` is the port served last; `chal` the outstanding challenge;
`bootBank` the bank whose verification the head awaits in VERIFY (R403); `loadDue` that LOAD has yet to copy an image (R405);
`breaks` the addresses at which a debug breakpoint stands (R41). -/
structure Vlt where
  otp : Otp
  ports : SMap VltPort
  last : Nat
  keys : SMap VKey
  chal : Option (List Byte)
  run : Option RunImage
  bootBank : Option Nat
  loadDue : Bool
  breaks : List Nat
  deriving DecidableEq, Repr

end Sys2Proof.Machine
end

