-- ==== Sys2Proof/Machine/TWkt.lean ====
section
/-! DEFINITION. Types of the Wicket (R121, R125, R126). -/

namespace Sys2Proof.Machine

/-- The states of a promise other than NONE (R121). -/
inductive PState where
  | live | paused | expired | ended
  deriving DecidableEq, Repr

/-- A promise entry. `time` is the deadline in device time, or the slack while PAUSED; `cause` the cause code; `start` the
admission; `write`, `attach` and `fwd` what R125 asks of the command; `supply`, `therm` and `partner` that such a condition
stood in the interval; `late` the projected lateness of a BROKEN result; `ifw` the in-flight write entries (R155). -/
structure Promise where
  st : PState
  time : Nat
  cause : Nat
  cls : Nat
  tenant : Nat
  start : Nat
  write : Bool
  attach : Bool
  fwd : Bool
  supply : Bool
  therm : Bool
  partner : Bool
  late : Option Nat
  ifw : List Nat
  deriving DecidableEq, Repr

/-- A capsule on the Wicket's receive ring (R147 to R149): its item HEADER, the handle of its receive record, connection
handle and arrival quad, command identifier, tenant, kind, flags, volume, grains, length, and the queue of its connection. -/
structure RxCap where
  hdr : BitVec 512
  handle : Nat
  conn : Nat
  quad : Nat
  cid : Nat
  tenant : Nat
  kind : Nat
  admin : Bool
  fabrics : Bool
  allns : Bool
  vol : Nat
  first : Nat
  ngrains : Nat
  length : Nat
  queue : Nat
  deriving DecidableEq, Repr

end Sys2Proof.Machine
end

