-- ==== Sys2Proof/Machine/State.lean ====
section
/-! DEFINITION. The state of the head, and the state after reset. -/

namespace Sys2Proof.Machine

/-- Why a step would stop with a fault. No command of the block does: the spec gives every row an effect. -/
inductive Fault where
  deriving DecidableEq, Repr

/-- Why a step is refused. -/
inductive Refusal where
  /-- Raised by an arm of `exec` whose command has no meaning yet; safe: the run stops. -/
  | notModelled (mnemonic : String)
  deriving DecidableEq, Repr

/-- The variants of R1. -/
inductive Variant where
  | dfn7140 | dfn7132 | dfn7124
  deriving DecidableEq, Repr

/-- What manufacture fuses into the head (R1, R3). -/
structure Fuse where
  variant : Variant
  step : Nat
  vendor : Nat
  fuseMv : Nat
  deriving DecidableEq, Repr

/-- The state of the head. -/
structure State where
  /-- Fuses of manufacture (R1, R3). -/
  fuse : Fuse
  /-- Device time in ns (R413). -/
  now : Nat
  /-- HEAD_ID as sampled (R13). -/
  headId : Nat
  /-- Lifecycle state (R22). -/
  life : Life
  /-- Values of BAR0 registers by byte offset, where they differ from the reset value of the register tables (R11, R467). -/
  regs : SMap Word
  /-- Offsets of the RWL registers that have been written (R11). -/
  locked : List Nat
  /-- Counter latch of each requester (R438). -/
  latches : SMap CtrLatch
  /-- The 256 hardware threads (R35 to R38). -/
  threads : SMap Thread
  /-- Item pool by slot (R53, R54). -/
  items : SMap Item
  /-- Hardware queues (R53, R56, R57). -/
  queues : SMap HwQueue
  /-- Staging buffers by first granule (R55, R87). -/
  bufs : SMap StgBuf
  /-- GEN of each start granule (R55, R489). -/
  gens : SMap Nat
  /-- Scratch, staging SRAM and HBM (R44). -/
  mem : List Host.Cell
  /-- Granules that hold a correctable error (R487). -/
  eccFix : List Nat
  /-- Granules that hold an uncorrectable error (R487). -/
  eccBad : List Nat
  /-- Data cache lines of each core (R48). -/
  dcache : SMap (List DLine)
  /-- Job rings by class, instance and cluster (R62). -/
  rings : SMap (List Job)
  /-- Completion records on their way to their threads (R66). -/
  comps : List Comp
  /-- Arbiters of the shared units (R375 to R381). -/
  arbs : SMap Arb
  /-- Search entries (R366). -/
  srch : SMap SEntry
  /-- Clears and restores of search banks in progress (R373). -/
  srchBusy : List SrchOp
  /-- Promise entries by item slot (R121). -/
  prms : SMap Promise
  /-- Token buckets of the tenants (R119). -/
  wktBuckets : SMap Bucket
  /-- When BRACE was entered (R125, R126). -/
  braceAt : Option Nat
  /-- Takeover has completed while partner loss stands (R27, R110). -/
  tookOver : Bool
  /-- Receive ring of the Wicket (R147). -/
  rxRing : List RxCap
  /-- The front end (chapter 5). -/
  fe : Fe
  /-- The Transom (chapter 11). -/
  trn : Trn
  /-- Item slots reserved for reports and messages (R344, R350). -/
  slotRsv : Nat
  /-- The digest lanes (R197 to R205). -/
  dg : Dg
  /-- The de-duplication index unit (R206 to R215). -/
  ddx : Ddx
  /-- Media key slots (R220). -/
  xtsKeys : SMap (List Byte)
  /-- The sleds, by lane (R299 to R311). -/
  sleds : SMap Sled
  /-- The NML lane controllers (R290 to R298). -/
  lanes : SMap Lane
  /-- The segment manager, Mule and Goat (chapters 9 and 10). -/
  seg : SegUnit
  /-- The map cache unit (R223 to R253). -/
  map : MapUnit
  /-- The Vault and the Hatch (chapter 13). -/
  vlt : Vlt
  /-- The event fabric (R432 to R436). -/
  evt : Evt
  /-- The logbook (R441 to R448). -/
  log : Log
  /-- Input pins and rails (R421, R429). -/
  pins : Pins
  /-- Monitors and reset control (R422 to R431). -/
  pwr : Pwr
  /-- The PCI Express endpoint (R449 to R453). -/
  pcie : Pcie
  /-- The mailbox (R454 to R463). -/
  mbx : Mbx
  /-- The power domains (R415 to R420). -/
  doms : SMap Dom
  /-- The I2C target (R464). -/
  i2c : I2c
  /-- The model's own: open choices made so far (assumption log 4). -/
  freeCtr : Nat
  /-- The model's own: what the head has sent or driven, oldest first (assumption log 8). -/
  out : List Out
  /-- The model's own: the commands that wait, first in, first out. -/
  pending : List Instr
  deriving DecidableEq, Repr

/-- A thread after reset: FREE, TKT_NEXT 1 (R64), everything else 0 (assumption log 5). -/
def Thread.init : Thread :=
  { st := .free, held := .free, g := [], pc := 0, keeper := false, exc := false, pkeeper := false,
    epc := 0, ecause := 0, eval := 0, evec := 0, kscr0 := 0, kscr1 := 0, cycle := 0, item := none,
    budget := none, wdog := false, pwrmode := 0, tickets := [], tktNext := 1, lastjob := 0, wait := none, iter := none }

/-- A queue that was never bound: CLOSED and empty (R57). -/
def HwQueue.init : HwQueue := { bind := 0, items := [], running := 0 }

/-- The OTP array of a part whose fields hold 0 (assumption log 6). -/
def Otp.blank : Otp :=
  { serial := 0, secret := List.replicate 32 0, cert := List.replicate 132 0, hash := [], attrs := [],
    kek0 := List.replicate 32 0, kek1 := none, plainOk := false, ownerLock := false, svn := 0, mediaGen := 0 }

/-- The head right after reset. -/
def State.reset : State :=
  { fuse := { variant := .dfn7140, step := 1, vendor := 0, fuseMv := 0 }
    now := 0, headId := 0, life := .cold, regs := [], locked := [], latches := [], threads := [], items := [],
    queues := [], bufs := [], gens := [], mem := [], eccFix := [], eccBad := [], dcache := [], rings := [],
    comps := [], arbs := [], srch := [], srchBusy := [],
    prms := [], wktBuckets := [], braceAt := none, tookOver := false, rxRing := [],
    fe := { conns := [], gens := [], miss := [], raw := [], held := [], warned := [], spent := [], pfc := [],
            pfcUntil := [], paused := false }
    trn := { qps := [], chains := [], chainCtr := 0, mrFreed := [], revoked := [], reports := [], down := [], liveUntil := none,
             hbSeq := 0, hbAt := none, hbWatch := 0, verOwn := none, verPeer := none, syncing := false, bandMarks := [],
             lossAt := none, accepted := [], undone := [] }
    slotRsv := 0
    dg := { slots := [], results := [], lens := [] }
    ddx := { clearing := false, nowAt := 0 }
    xtsKeys := []
    sleds := [], lanes := []
    seg := { streams := [], opens := [], reports := [], dieNext := [], rowWarned := [], moves := [], failed := [], noRepl := [],
             rebuild := [], taken := [], rebuilt := 0, heldBy := [], reshape := none, census := false, load := false,
             released := [], erasing := [], fenceHeld := [], move := none, goatStripe := 0, findings := [],
             dieReads := [], dieOps := [], checks := [] }
    map := { fills := [], vb := [], cleans := [], maint := [], stalled := [], commit := none, next := none, lastEnd := 0, bg := [], phase := 0,
             holdVol := none, held := [], relq := [], invall := false, mounting := none, viewLoc := [], tableLoc := [],
             viewDirty := [], syncBad := false }
    vlt := { otp := Otp.blank, ports := [], last := 1, keys := [], chal := none, run := none, bootBank := none, loadDue := false,
             breaks := [] }
    evt := { items := [], masked := [], vecs := [] }
    log := { recs := [], nv := [], dirty := [], urgent := [], commit := none, lastCommit := [], faulted := [],
             buckets := [], upd := 0, boots := 0, cal := 0, calValid := false, calSet := none,
             overflowed := false, selHost := none, selKpr := none }
    pins := { headIdPin := 0, headRstN := false, aon := true, vbat := true }
    pwr := { warnAt := none, epMin := 1023, avsBusy := false, stepAt := 0, settling := false, thrMv := 750, coreMv := 750,
             sramMv := 800, guardAt := none, thermHold := false, warm := none, released := false,
             flush := none, pfailAt := none, pinWait := false, rtcSince := none }
    pcie := { msixEn := false, busMaster := false, vecOpen := [], inReset := true, aer := [] }
    mbx := { ring := [], since := none }
    doms := [], i2c := { ptr := 0, snap := [] }
    freeCtr := 0, out := [], pending := [] }

end Sys2Proof.Machine
end

