-- ==== Sys2Proof/Machine/Ops.lean ====
section
/-! DEFINITION. The named operations over registers, memory, the item pool, queues and staging buffers. -/

namespace Sys2Proof.Machine

/-! Free values (assumption log 4). -/

/-- The next number the manual leaves open. -/
def State.freeNat (s : State) : Nat := Config.freeNat s.freeCtr

/-- The next truth value the manual leaves open. -/
def State.freeBool (s : State) : Bool := Config.freeBool s.freeCtr

/-- One open choice has been used. -/
def State.nextFree (s : State) : State := { s with freeCtr := s.freeCtr + 1 }

/-- Does an output leave through a transmitter of the front end, the Transom or the NML? -/
def Out.serdes : Out → Bool
  | .fe _ _ _ => true
  | .trn _ _ _ _ => true
  | .nml _ _ => true
  | _ => false

/-- Are those transmitters squelched (R431, R486): in COLD, in DOWN, or without VDD_AON? -/
def State.squelched (s : State) : Bool := decide (s.life = .cold ∨ s.life = .down) || !s.pins.aon

/-- Drive something outside; a squelched transmitter sends nothing. -/
def State.emit (s : State) (o : Out) : State := if o.serdes && s.squelched then s else { s with out := s.out ++ [o] }

/-! The variant (R1). -/

/-- HBM capacity in GiB. -/
def Variant.hbmGib : Variant → Nat
  | .dfn7140 => 192
  | .dfn7132 => 144
  | .dfn7124 => 96

/-- Map cache size in GiB. -/
def Variant.mapGib : Variant → Nat
  | .dfn7140 => 128
  | .dfn7132 => 80
  | .dfn7124 => 32

/-- `GLB_CAPS`.VARIANT. -/
def Variant.code : Variant → Nat
  | .dfn7140 => 0x40
  | .dfn7132 => 0x32
  | .dfn7124 => 0x24

/-- `GLB_UNITS` (R3). -/
def Variant.units : Variant → Nat
  | .dfn7140 => 0x003FFFFFFFFFFFFF
  | .dfn7132 => 0x0027FF3F00FF00FF
  | .dfn7124 => 0x0003330F00FF00FF

/-- NML lanes present. -/
def Variant.lanes : Variant → Nat
  | .dfn7140 => 64
  | .dfn7132 => 48
  | .dfn7124 => 32

/-- Ox units and digest lanes present. -/
def Variant.engines : Variant → Nat
  | .dfn7140 => 16
  | _ => 8

/-- Front-end quads and Transom quads present. -/
def Variant.quads : Variant → Nat
  | .dfn7124 => 2
  | _ => 4

/-- Is the de-duplication index unit present? -/
def Variant.ddx : Variant → Bool
  | .dfn7140 => true
  | _ => false

/-- Are remote queue pairs present? -/
def Variant.repl : Variant → Bool
  | .dfn7124 => false
  | _ => true

/-- RDMA queue pairs usable. -/
def Variant.queuePairs : Variant → Nat
  | .dfn7124 => 64
  | _ => 4096

/-- First address of HBM. -/
def hbmBase : Nat := 0x10000000000

/-- Bytes of HBM. -/
def State.hbmSize (s : State) : Nat := s.fuse.variant.hbmGib * 2 ^ 30

/-- First address of the Hatch: the top 256 MiB of HBM (R402). -/
def State.hatchBase (s : State) : Nat := hbmBase + s.hbmSize - 2 ^ 28

/-! Registers. -/

/-- Does an offset name a word of this register or array? -/
def RegDesc.covers (d : RegDesc) (off : Nat) : Bool :=
  decide (d.off ≤ off) &&
    (let r := off - d.off
     decide (r / d.s1 < d.n1 ∧ (r % d.s1) / d.s2 < d.n2 ∧ (r % d.s1) % d.s2 = 0))

/-- The descriptor of the register at an offset. -/
def regDesc (off : Nat) : Option RegDesc := regDescs.find? (fun d => d.covers off)

/-- WAIT_LIMIT by arbiter class (R384). -/
def arbWaitLimit : Nat → Nat
  | 0 => 2000 | 1 => 2000 | 2 => 1000 | 3 => 5000 | 4 => 1000
  | 5 => 1000 | 6 => 100000 | 7 => 10000 | 8 => 10000 | _ => 500

/-- `WKT_HCOST` (R128) of horizon 8,192 + i: quads, Ox, digest, XTS, parity, map, segment, index, journal. -/
def hcostReset (i : Nat) : Nat :=
  let e := fun (ps ns : Nat) => ps + ns * 2 ^ 24
  if i < 16 then e 1280 200
  else if i < 32 then e 3200 100
  else if i < 48 then e 8000 100
  else if i < 64 then e 3200 50
  else if i < 68 then e 800 100
  else if i < 69 then e 0 500
  else if i < 70 then e 0 200
  else if i < 71 then e 0 300
  else e 800 100

/-- The value a register holds after cold reset: the table's, or what its rule gives by index. -/
def regReset (off : Nat) : Word :=
  if 0x401000 ≤ off ∧ off < 0x402000 then BitVec.ofNat 64 (0x10000 + (off - 0x401000) / 8)
  else if 0x2030000 ≤ off ∧ off < 0x2030240 then BitVec.ofNat 64 (hcostReset ((off - 0x2030000) / 8))
  else if 0x3E00100 ≤ off ∧ off < 0x3E00380 ∧ (off - 0x3E00100) % 0x40 = 0 then
    BitVec.ofNat 64 (arbWaitLimit ((off - 0x3E00100) / 0x40) + 64 * 2 ^ 24 + 2 ^ 32 +
      (if (off - 0x3E00100) / 0x40 ≤ 7 then 2 ^ 33 else 0))
  else if 0x2810000 ≤ off ∧ off < 0x2810000 + 64 * 64 ∧ (off - 0x2810000) % 64 = 0 then
    match regDesc off with
    | some d => BitVec.ofNat 64 (setBitsOf d.rst 40 8 20)
    | none => 0
  else
    match regDesc off with
    | some d => BitVec.ofNat 64 d.rst
    | none => 0

/-- The stored value of a register word. -/
def State.regGet (s : State) (off : Nat) : Word := (SMap.find s.regs off).getD (regReset off)

/-- Store a register word; a word at its reset value is not listed. -/
def State.regSet (s : State) (off : Nat) (v : Word) : State :=
  { s with regs := SMap.putD s.regs off v (regReset off) }

/-- Read a field of element `i` of a register. -/
def State.rd (s : State) (f : Fld) (i : Nat := 0) : Nat :=
  bitsOf (s.regGet (f.off + i * f.stride)).toNat f.lo f.width

/-- Read a one-bit field. -/
def State.flag (s : State) (f : Fld) (i : Nat := 0) : Bool := decide (s.rd f i ≠ 0)

/-- Write a field of element `i` of a register. -/
def State.wr (s : State) (f : Fld) (v : Nat) (i : Nat := 0) : State :=
  s.regSet (f.off + i * f.stride)
    (BitVec.ofNat 64 (setBitsOf (s.regGet (f.off + i * f.stride)).toNat f.lo f.width v))

/-- Set a one-bit field. -/
def State.setFlag (s : State) (f : Fld) (i : Nat := 0) : State := s.wr f 1 i

/-- Clear a one-bit field. -/
def State.clrFlag (s : State) (f : Fld) (i : Nat := 0) : State := s.wr f 0 i

/-- Add `n` to a counter word (R437): 48 bits, saturating, SAT in bit 63. The second component says that it saturated now. -/
def ctrAdd (w : Word) (n : Nat) : Word × Bool :=
  let c := bitsOf w.toNat 0 48
  let sat := w.toNat.testBit 63
  if c + n < 2 ^ 48 then (BitVec.ofNat 64 (c + n + b2n sat * 2 ^ 63), false)
  else (BitVec.ofNat 64 (2 ^ 48 - 1 + 2 ^ 63), !sat)

/-- Add to a counter at an offset; says whether it saturated now. -/
def State.ctrRaw (s : State) (off n : Nat) : State × Bool :=
  let r := ctrAdd (s.regGet off) n
  (s.regSet off r.1, r.2)

/-! Memory (R44). Keys are core addresses; a byte not listed reads 0 (assumption log 3). -/

/-- The byte at an address. -/
def memGet (m : List Host.Cell) (a : Nat) : Byte := SMap.findD m a 0

/-- Store a byte; a zero byte is not listed. -/
def memPut (m : List Host.Cell) (a : Nat) (b : Byte) : List Host.Cell := SMap.putD m a b 0

/-- `n` bytes from an address up. -/
def memRead (m : List Host.Cell) (a : Nat) : Nat → List Byte
  | 0 => []
  | n + 1 => memGet m a :: memRead m (a + 1) n

/-- Store bytes from an address up. -/
def memWrite (m : List Host.Cell) (a : Nat) : List Byte → List Host.Cell
  | [] => m
  | b :: bs => memWrite (memPut m a b) (a + 1) bs

/-- The canonical form of memory: addresses strictly rising, no entry at the value an unlisted address reads as. -/
def Memory.wf : List Host.Cell → Bool
  | [] => true
  | [(_, b)] => decide (b ≠ 0)
  | (a, b) :: (a', b') :: m => decide (a < a') && decide (b ≠ 0) && Memory.wf ((a', b') :: m)

/-- Little-endian number in memory. -/
def State.ldMem (s : State) (a n : Nat) : Nat := leNat (memRead s.mem a n)

/-- Store the low `n` bytes of a number. -/
def State.stMem (s : State) (a n v : Nat) : State := { s with mem := memWrite s.mem a (leBytes n v) }

/-- Bytes of memory. -/
def State.bytes (s : State) (a n : Nat) : List Byte := memRead s.mem a n

/-- Store bytes. -/
def State.setBytes (s : State) (a : Nat) (bs : List Byte) : State := { s with mem := memWrite s.mem a bs }

/-! ECC (R487). Granules are named by address / 8. -/

/-- The granules that `n` bytes at `a` touch. -/
def granules (a n : Nat) : List Nat := if n = 0 then [] else rangeFrom (a / 8) ((a + n - 1) / 8 - a / 8 + 1)

/-- Does a range hold an uncorrectable error? -/
def State.badIn (s : State) (a n : Nat) : Bool := s.eccBad.any (fun g => decide (a / 8 ≤ g ∧ n ≠ 0 ∧ g ≤ (a + n - 1) / 8))

/-- Correctable granules of a range. -/
def State.fixIn (s : State) (a n : Nat) : List Nat :=
  s.eccFix.filter (fun g => decide (a / 8 ≤ g ∧ n ≠ 0 ∧ g ≤ (a + n - 1) / 8))

/-- Is a granule covered whole by a write of `n` bytes at `a`? -/
def wholeGranule (a n g : Nat) : Bool := decide (a ≤ 8 * g ∧ 8 * g + 8 ≤ a + n)

/-! The item pool and the hardware queues (R53 to R57). -/

/-- Slots of the item pool. -/
def poolSize : Nat := 262144

/-- Free item slots. -/
def State.poolFree (s : State) : Nat := poolSize - s.items.length - s.slotRsv

/-- The first free slot at or after `k`, within `n` tries. -/
def freeSlotFrom (items : SMap Item) : Nat → Nat → Nat
  | 0, k => k % poolSize
  | n + 1, k => if SMap.has items (k % poolSize) then freeSlotFrom items n (k + 1) else k % poolSize

/-- The slot the pool gives next: which free slot is not stated (R53, assumption log 4). -/
def State.pickSlot (s : State) : Nat := freeSlotFrom s.items s.items.length s.freeNat

/-- The binding and items of a queue. -/
def State.queue (s : State) (q : Nat) : HwQueue := SMap.findD s.queues q HwQueue.init

/-- Change a queue. -/
def State.updQueue (s : State) (q : Nat) (f : HwQueue → HwQueue) : State :=
  { s with queues := SMap.upd s.queues q HwQueue.init f }

/-- ENTRY of the binding word (R56). -/
def HwQueue.entry (q : HwQueue) : Nat := bitsOf q.bind 0 8
/-- CMASK. -/
def HwQueue.cmask (q : HwQueue) : Nat := bitsOf q.bind 8 8
/-- PRIO. -/
def HwQueue.prio (q : HwQueue) : Nat := bitsOf q.bind 16 2
/-- SERIAL. -/
def HwQueue.serial (q : HwQueue) : Bool := bitOf q.bind 18
/-- STATE: 0 CLOSED, 1 OPEN, 2 PAUSED. -/
def HwQueue.state (q : HwQueue) : Nat := bitsOf q.bind 19 2
/-- LIMIT. -/
def HwQueue.limit (q : HwQueue) : Nat := bitsOf q.bind 24 18

/-- Does the queue accept one more item (R57)? -/
def HwQueue.accepts (q : HwQueue) : Bool :=
  decide (q.state = 1 ∨ q.state = 2) && (decide (q.limit = 0) || decide (q.items.length < q.limit))

/-- Is a queue a candidate for a cluster (R58)? -/
def HwQueue.candidate (q : HwQueue) (cl : Nat) : Bool :=
  decide (q.state = 0 ∨ q.state = 1) && !q.items.isEmpty && bitOf q.cmask cl && !(q.serial && decide (q.running ≠ 0))

/-! Waking of power domains (R418, R420). -/

/-- STATE of a domain. -/
def State.domState (s : State) (d : Nat) : Nat := s.rd F.PWR_DOM_STATE d

/-- A domain's idle time and sequence. -/
def State.dom (s : State) (d : Nat) : Dom := SMap.findD s.doms d { idleSince := none, seq := none }

/-- Set a domain's idle time and sequence. -/
def State.setDom (s : State) (d : Nat) (x : Dom) : State :=
  { s with doms := SMap.putD s.doms d x { idleSince := none, seq := none } }

/-- A wake cause reaches a domain (R418, R420): from DOZE or RETAIN it begins its exit; an entry less than 20 ns old is
cancelled. `seq` then holds the time the exit began, not before the entry's end. -/
def State.domWake (s : State) (d : Nat) : State :=
  let x := s.dom d
  let st := s.domState d
  if st = 1 ∨ st = 2 then
    match x.seq with
    | some e =>
      if st = 2 ∧ s.now < e + 20 then (s.wr F.PWR_DOM_STATE 0 d).setDom d { idleSince := some s.now, seq := none }
      else (s.wr F.PWR_DOM_STATE 5 d).setDom d { idleSince := some st, seq := some (max s.now (if st = 2 then e + 100 else e)) }
    | none => (s.wr F.PWR_DOM_STATE 5 d).setDom d { idleSince := some st, seq := some s.now }
  else s.setDom d { x with idleSince := if st = 0 then none else x.idleSince }

/-- A queue that has become a candidate wakes the clusters of its CMASK that sleep (R68). -/
def State.wakeFor (s : State) (q : Nat) : State :=
  foldSt (fun cl (s : State) =>
    if (s.queue q).candidate cl && decide (s.domState (2 + cl) = 1 ∨ s.domState (2 + cl) = 2) then s.domWake (2 + cl) else s)
    (List.range 8) s

/-- `MQ_POOL_FREE`.MIN follows the lowest FREE. -/
def State.notePool (s : State) : State :=
  let f := s.poolFree
  if f < s.rd F.MQ_POOL_FREE_MIN then s.wr F.MQ_POOL_FREE_MIN f else s

/-- Enqueue an item (R53, R57): a slot from the pool, at the tail of its queue; it wakes the clusters that may take it (R68). None
when the pool is empty or the queue refuses. -/
def State.enqueue (s : State) (it : Item) : Option (Nat × State) :=
  if s.poolFree = 0 || !(s.queue it.queue).accepts then none
  else
    let k := s.pickSlot
    let s := { s with items := SMap.put s.items k { it with stamp := s.now } }
    let s := s.updQueue it.queue (fun q => { q with items := q.items ++ [k] })
    some (k, (s.wakeFor it.queue).nextFree.notePool)

/-- Release an item slot. -/
def State.freeItem (s : State) (k : Nat) : State := { s with items := SMap.del s.items k }

/-- Change an item. -/
def State.updItem (s : State) (k : Nat) (f : Item → Item) : State := { s with items := SMap.modify s.items k f }

/-! Staging buffers (R55, R87, R489). -/

/-- First byte of staging SRAM. -/
def stgBase : Nat := 0x10000000

/-- Granules of the buffer area: 72 MiB in 64-byte units. -/
def stgGranules : Nat := 1179648

/-- BASE64 of a handle. -/
def hBase (h : Nat) : Nat := bitsOf h 0 21
/-- LENGTH of a handle. -/
def hLen (h : Nat) : Nat := bitsOf h 24 21
/-- GEN of a handle. -/
def hGen (h : Nat) : Nat := bitsOf h 56 8

/-- The handle of a buffer. -/
def mkHandle (base len gen : Nat) : Nat := base + len * 2 ^ 24 + gen * 2 ^ 56

/-- GEN of a start granule. -/
def State.gen (s : State) (b : Nat) : Nat := SMap.findD s.gens b 0

/-- Is a handle current (R489)? -/
def State.current (s : State) (h : Nat) : Bool :=
  decide (bitsOf h 21 3 = 0 ∧ bitsOf h 45 11 = 0) &&
    match SMap.find s.bufs (hBase h) with
    | some b => decide (hGen h = s.gen (hBase h) ∧ 1 ≤ hLen h ∧ hLen h ≤ b.len)
    | none => false

/-- Is a handle current, and does `off + len` lie inside it (R95 check 4)? -/
def State.inHandle (s : State) (h off len : Nat) : Bool := s.current h && decide (off + len ≤ hLen h)

/-- The address of an offset within a handle's buffer. -/
def hAddr (h off : Nat) : Nat := stgBase + 64 * hBase h + off

/-- First fit from the lowest address (R87): `from_` is the first granule not yet passed. -/
def firstFit (need : Nat) : Nat → SMap StgBuf → Option Nat
  | from_, [] => if from_ + need ≤ stgGranules then some from_ else none
  | from_, (b, x) :: m => if from_ + need ≤ b then some from_ else firstFit need (max from_ (b + ceilDiv x.len 64)) m

/-- STG.ALLOC (R87): the handle and the new state; none where it returns 0. -/
def State.stgAlloc (s : State) (len : Nat) : Option (Nat × State) :=
  if len = 0 then none
  else
    match firstFit (ceilDiv len 64) 0 s.bufs with
    | none => none
    | some b => some (mkHandle b len (s.gen b), { s with bufs := SMap.put s.bufs b { len := len } })

/-- STG.FREE (R87): none where it returns 0. -/
def State.stgFree (s : State) (h : Nat) : Option State :=
  if s.current h then
    some { s with bufs := SMap.del s.bufs (hBase h)
                  gens := SMap.putD s.gens (hBase h) ((s.gen (hBase h) + 1) % 256) 0 }
  else none

/-- Free a buffer if its handle is current. -/
def State.stgDrop (s : State) (h : Nat) : State := (s.stgFree h).getD s

/-! Threads. -/

/-- A thread. -/
def State.thread (s : State) (t : Nat) : Thread := SMap.findD s.threads t Thread.init

/-- Change a thread. -/
def State.updThread (s : State) (t : Nat) (f : Thread → Thread) : State :=
  { s with threads := SMap.upd s.threads t Thread.init f }

/-- Read a general register; g0 reads 0. -/
def Thread.getG (th : Thread) (r : Nat) : Word := if r = 0 then 0 else SMap.findD th.g r 0

/-- Write a general register; writes to g0 are discarded. -/
def Thread.setG (th : Thread) (r : Nat) (v : Word) : Thread :=
  if r = 0 then th else { th with g := SMap.putD th.g r v 0 }

/-- Write consecutive registers from `r` up. -/
def Thread.setGs (th : Thread) (r : Nat) : List Word → Thread
  | [] => th
  | v :: vs => (th.setG r v).setGs (r + 1) vs

/-- A general register of a thread. -/
def State.g (s : State) (t r : Nat) : Word := (s.thread t).getG r

/-- Write a general register of a thread. -/
def State.setG (s : State) (t r : Nat) (v : Word) : State := s.updThread t (fun th => th.setG r v)

/-- Cluster of a global thread id (R35). -/
def clusterOf (t : Nat) : Nat := t / 32

/-- Core id of a global thread id (R35). -/
def coreOf (t : Nat) : Nat := t / 4

/-- Live tickets (R63). -/
def Thread.live (th : Thread) : Nat := th.tickets.length

end Sys2Proof.Machine
end

