-- ==== Sys2Proof/Machine/Events.lean ====
section
/-! DEFINITION. The event fabric, the logbook and the counters (R432 to R448), and the lifecycle
codes of R22. -/

namespace Sys2Proof.Machine

/-- Severity of a source (R432): 0 NOTE, 1 WARN, 2 FAULT, 3 FATAL. -/
def sevOf (src : Nat) : Nat :=
  if src = 0x001 ∨ src = 0x081 ∨ src = 0x088 ∨ src = 0x08E then 3
  else if src = 0x002 ∨ src = 0x015 ∨ src = 0x022 ∨ src = 0x061 ∨ src = 0x064 ∨ src = 0x082 ∨ src = 0x083
      ∨ src = 0x087 ∨ src = 0x089 ∨ src = 0x08D ∨ (0x0A0 ≤ src ∧ src ≤ 0x11F) then 2
  else if src = 0x003 ∨ src = 0x004 ∨ (0x011 ≤ src ∧ src ≤ 0x013) ∨ src = 0x016 ∨ src = 0x017 ∨ src = 0x021
      ∨ src = 0x034 ∨ src = 0x050 ∨ src = 0x051 ∨ src = 0x060 ∨ src = 0x080 ∨ src = 0x084 ∨ src = 0x085
      ∨ src = 0x08A then 1
  else 0

/-- Does R432 list the source? -/
def srcListed (src : Nat) : Bool :=
  decide (src ≤ 0x006 ∨ (0x010 ≤ src ∧ src ≤ 0x017) ∨ (0x020 ≤ src ∧ src ≤ 0x022) ∨ (0x030 ≤ src ∧ src ≤ 0x035)
    ∨ (0x040 ≤ src ∧ src ≤ 0x051) ∨ (0x060 ≤ src ∧ src ≤ 0x064) ∨ (0x080 ≤ src ∧ src ≤ 0x08E)
    ∨ (0x0A0 ≤ src ∧ src ≤ 0x11F) ∨ (0x1C0 ≤ src ∧ src ≤ 0x1FF))

/-- Is the unit of a source present (R7)? -/
def State.srcPresent (s : State) (src : Nat) : Bool :=
  if 0x040 ≤ src ∧ src ≤ 0x04F then decide ((src - 0x040) / 4 < s.fuse.variant.quads)
  else if 0x0A0 ≤ src ∧ src ≤ 0x0DF then decide (src - 0x0A0 < s.fuse.variant.lanes)
  else if 0x0E0 ≤ src ∧ src ≤ 0x11F then decide (src - 0x0E0 < s.fuse.variant.lanes)
  else true

/-- BAR0 offset of `EVT_SRC` of a source. -/
def evtSrcOff (src : Nat) : Nat := 0x401000 + 8 * src

/-! The logbook. -/

/-- Calendar time as the logbook and `LOG_CAL` read it (R441). -/
def State.calNow (s : State) : Nat := if s.log.calValid then s.log.cal else 0

/-- Add one to a logbook count: 48 bits saturating, SAT in bit 63 (R445). -/
def satInc (c : Nat) : Nat :=
  if bitsOf c 0 48 + 1 < 2 ^ 48 then c + 1 else setBitsOf (c ||| 2 ^ 63) 0 48 (2 ^ 48 - 1)

/-- Tokens in a bucket after refill (R119, R446): `rate` per second up to `burst`. -/
def Bucket.refill (b : Bucket) (rate burst now : Nat) : Bucket :=
  { tokens := min ((burst * 1000000000 : Nat) : Int) (b.tokens + ((now - b.at_) * rate : Nat)), at_ := now }

/-- RATE of a rate-table entry (0 treated as 1). -/
def State.logRate (s : State) (e : Nat) : Nat := max 1 (s.rd F.LOG_RATE_RATE e)

/-- BURST of a rate-table entry (0 treated as 1). -/
def State.logBurst (s : State) (e : Nat) : Nat := max 1 (s.rd F.LOG_RATE_BURST e)

/-- The bucket of a rate-table entry: full until its first token is taken (assumption log 12). -/
def State.logBucket (s : State) (e : Nat) : Bucket :=
  ((SMap.find s.log.buckets e).getD { tokens := (s.logBurst e * 1000000000 : Nat), at_ := s.now }).refill
    (s.logRate e) (s.logBurst e) s.now

/-- Take one token (R446): false when there is none. -/
def State.takeLogToken (s : State) (e : Nat) : State × Bool :=
  let b := s.logBucket e
  let ok := decide (1000000000 ≤ b.tokens)
  let b' : Bucket := if ok then { b with tokens := b.tokens - 1000000000 } else b
  ({ s with log := { s.log with buckets := SMap.put s.log.buckets e b' } }, ok)

/-- A new record of a code (R446). -/
def newRec (s : State) (code sev shift : Nat) : LogRec :=
  { code := code, sev := sev, shift := shift, vmin := 0, vmax := 0, vlast := 0, count := 0, suppressed := 0,
    first := s.calNow, last := 0, firstBoot := s.log.boots, lastBoot := 0, hist := [], upd := s.log.upd }

/-- Histogram bucket of a value (R445). -/
def histBucket (v shift : Nat) : Nat := min 15 (bitLen (v >>> shift))

/-- A record after a logged occurrence with value `v` (R445). -/
def LogRec.occur (r : LogRec) (s : State) (sev v : Nat) : LogRec :=
  let b := histBucket v r.shift
  { r with
    sev := max r.sev sev
    vmin := if bitsOf r.count 0 48 = 0 then v else min r.vmin v
    vmax := if bitsOf r.count 0 48 = 0 then v else max r.vmax v
    vlast := v
    count := satInc r.count
    last := s.calNow
    lastBoot := s.log.boots
    hist := SMap.put r.hist b (satInc (SMap.findD r.hist b 0))
    upd := s.log.upd }

/-- The record index of a code among the firmware records, if it has one. -/
def logFind (recs : SMap LogRec) (code : Nat) : Option Nat :=
  (recs.find? (fun p => decide (512 ≤ p.1) && decide (p.2.code = code))).map Prod.fst

/-- The lowest free record from `k` upward, below 4,096 (R447): `keys` are the records used. -/
def lowestFree (recs : SMap LogRec) : Nat → Nat → Option Nat
  | 0, _ => none
  | n + 1, k => if SMap.has recs k then lowestFree recs n (k + 1) else if k < 4096 then some k else none

/-- The record that the SEVERITY mode evicts: the least recently updated of lower severity (R447). -/
def evictee (recs : SMap LogRec) (sev : Nat) : Option Nat :=
  (minBy (fun p : Nat × LogRec => p.2.upd) (recs.filter (fun p => decide (512 ≤ p.1) && decide (p.2.sev < sev)))).map
    Prod.fst

/-- Start the next urgent commit if none is in progress (R448). -/
def State.logStart (s : State) : State :=
  match s.log.commit, s.log.urgent with
  | none, i :: rest =>
    match SMap.find s.log.recs i with
    | some r => { s with log := { s.log with commit := some (i, s.now, r), urgent := rest } }
    | none => { s with log := { s.log with urgent := rest } }
  | _, _ => s

/-- Note that a record has changed; `soon` says that it is to be committed at once (R448). -/
def State.logDirty (s : State) (i : Nat) (soon : Bool) : State :=
  let dirty := addNat s.log.dirty i
  let urgent := if soon then addNat s.log.urgent i else s.log.urgent
  let urgent := if dirty.length > 256 then (match dirty with | o :: _ => addNat urgent o | [] => urgent) else urgent
  ({ s with log := { s.log with dirty := dirty, urgent := urgent } }).logStart

/-- Every dirty record is committed (R448: VAULTING step 8, entry to DOWN, before a cold reset). -/
def State.logCommitAll (s : State) : State :=
  ({ s with log := { s.log with urgent := s.log.dirty.foldl addNat s.log.urgent } }).logStart

/-- Put a record. -/
def State.logPut (s : State) (i : Nat) (r : LogRec) : State :=
  { s with log := { s.log with recs := SMap.put s.log.recs i r, upd := s.log.upd + 1 } }

/-- The record that an occurrence of a code uses: found, or created at an index; none under STOP (R442, R447). The
Boolean says that a record was evicted. -/
def State.logIndex (s : State) (code sev : Nat) : Option (Nat × Bool) :=
  if code < 0x200 then some (code, false)
  else
    match logFind s.log.recs code with
    | some i => some (i, false)
    | none =>
      match lowestFree s.log.recs (s.log.recs.length + 1) 512 with
      | some i => some (i, false)
      | none =>
        if s.flag F.LOG_CFG_FULL_MODE then (evictee s.log.recs sev).map (fun i => (i, true)) else none

/-- One occurrence of a logbook code (R445 to R447). The Boolean says that no record was found for it. -/
def State.logOccur (s : State) (code sev v : Nat) : State × Bool :=
  let e := if code < 0x200 then code else 512 + code / 0x1000
  let tk := if sev = 3 then (s, true) else s.takeLogToken e
  let s := tk.1
  match s.logIndex code sev with
  | none => ((s.ctrRaw F.LOG_OVERFLOW_CTR.off 1).1, true)
  | some (i, ev) =>
    let s := if ev then (s.ctrRaw F.LOG_EVICTED_CTR.off 1).1 else s
    let old := if ev then none else SMap.find s.log.recs i
    let r0 := old.getD (newRec s code sev (s.rd F.LOG_RATE_SHIFT e))
    let r1 := if tk.2 then r0.occur s sev v else { r0 with suppressed := satInc r0.suppressed, upd := s.log.upd }
    let firstFault := tk.2 && decide (2 ≤ sev) && !s.log.faulted.contains code
    let s := s.logPut i r1
    let s := if firstFault then { s with log := { s.log with faulted := addNat s.log.faulted code } } else s
    (s.logDirty i (old.isNone || firstFault), false)

/-! Delivery. -/

/-- May a vector be signalled now (R436, R450)? -/
def State.msixReady (s : State) (v : Nat) : Bool :=
  s.pcie.msixEn && s.pcie.busMaster && !s.pcie.inReset && s.pcie.vecOpen.contains v && s.flag F.GLB_PCIE_LINK_UP

/-- The memory write of a vector: address and data of its entry in the MSI-X table (R451). -/
def State.msixWrite (s : State) (v : Nat) : Out :=
  .msix v (s.regGet (0x800000 + 16 * v)).toNat (bitsOf (s.regGet (0x800008 + 16 * v)).toNat 0 32)

/-- A vector's entry. -/
def State.vec (s : State) (v : Nat) : EvtVec := SMap.findD s.evt.vecs v { count := 0, since := 0, held := false }

/-- Set a vector's entry. -/
def State.setVec (s : State) (v : Nat) (e : EvtVec) : State :=
  { s with evt := { s.evt with vecs := SMap.putD s.evt.vecs v e { count := 0, since := 0, held := false } } }

/-- Signal a vector, or hold the signal pending (R436). The second component lists counters that saturated. -/
def State.signal (s : State) (v : Nat) : State × List Nat :=
  if s.msixReady v then
    let s := (s.setVec v { count := 0, since := 0, held := false }).emit (s.msixWrite v)
    let r := s.ctrRaw F.EVT_MSI_CTR.off 1
    (r.1, if r.2 then [F.EVT_MSI_CTR.off] else [])
  else (s.setVec v { count := 0, since := 0, held := true }, [])

/-- Deliver an occurrence to MSI-X (R434, R436); `atOnce` for a FATAL event. -/
def State.evtMsi (s : State) (src : Nat) (atOnce : Bool) : State × List Nat :=
  let off := 0x400200 + 8 * (src / 64)
  let s := s.regSet off (s.regGet off ||| BitVec.ofNat 64 (2 ^ (src % 64)))
  let v := s.rd F.EVT_SRC_VECTOR src
  let e := s.vec v
  let e' : EvtVec := { count := e.count + 1, since := if e.count = 0 then s.now else e.since, held := e.held }
  let cnt := s.rd F.EVT_VEC_COAL_CNT v
  if atOnce || decide (cnt ≤ 1) || decide (cnt ≤ e'.count) then s.signal v else (s.setVec v e', [])

/-- The work item of a source's gathered occurrences (R435). -/
def evtItemOf (src sev : Nat) (e : EvtItem) (q : Nat) : Item :=
  { hdr := [BitVec.ofNat 64 (src + sev * 512 + e.value * 2 ^ 32), BitVec.ofNat 64 (min e.count (2 ^ 32 - 1)),
            BitVec.ofNat 64 e.first, BitVec.ofNat 64 e.last, 0, 0, 0, 0]
    handle := 0, queue := q, deadline := 0, stamp := 0, hasDl := false, source := 2, cls := 0, tenant := 0 }

/-- Enqueue a source's held occurrences if its queue takes them (R435); the list names counters that saturated. -/
def State.evtTryItem (s : State) (src : Nat) : State × List Nat :=
  match SMap.find s.evt.items src with
  | some e =>
    let qs := s.rd F.EVT_SRC_QSEL src
    match e.slot with
    | some _ => (s, [])
    | none =>
      if s.flag F.EVT_QUEUE_VALID qs then
        match s.enqueue (evtItemOf src (sevOf src) e (s.rd F.EVT_QUEUE_QUEUE qs)) with
        | some (k, s) =>
          let s := { s with evt := { s.evt with items := SMap.put s.evt.items src { e with slot := some k } } }
          let r := s.ctrRaw F.EVT_ITEMS_CTR.off 1
          (r.1, if r.2 then [F.EVT_ITEMS_CTR.off] else [])
        | none => (s, [])
      else (s, [])
  | none => (s, [])

/-- Deliver `n` occurrences to the source's handler queue: fold into the item that waits, or make one (R435). -/
def State.evtQueue (s : State) (src v n first : Nat) : State × List Nat :=
  match SMap.find s.evt.items src with
  | some e =>
    let e' : EvtItem := { e with value := v, count := e.count + n, last := s.now }
    let s := { s with evt := { s.evt with items := SMap.put s.evt.items src e' } }
    let s := match e'.slot with
      | some k => { s with items := SMap.modify s.items k (fun it => { it with hdr := (evtItemOf src (sevOf src) e' 0).hdr }) }
      | none => s
    let r := s.ctrRaw F.EVT_FOLDED_CTR.off n
    (r.1, if r.2 then [F.EVT_FOLDED_CTR.off] else [])
  | none =>
    let e : EvtItem := { slot := none, value := v, count := n, first := first, last := s.now }
    let s := { s with evt := { s.evt with items := SMap.put s.evt.items src e } }
    let a := s.evtTryItem src
    let b := if 1 < n then a.1.ctrRaw F.EVT_FOLDED_CTR.off (n - 1) else (a.1, false)
    (b.1, a.2 ++ if b.2 then [F.EVT_FOLDED_CTR.off] else [])

/-- Deliver `n` occurrences of a source, the latest with value `v` (R434). -/
def State.evtDeliver (s : State) (src v n first : Nat) (atOnce : Bool) : State × List Nat :=
  let a := if s.flag F.EVT_SRC_MSI_EN src then s.evtMsi src atOnce else (s, [])
  let b := if a.1.flag F.EVT_SRC_Q_EN src then a.1.evtQueue src v n first else (a.1, [])
  (b.1, a.2 ++ b.2)

/-- Is a source masked (R434)? -/
def State.srcMasked (s : State) (src : Nat) : Bool := s.flag F.EVT_SRC_MASK src || !s.flag F.EVT_CTL_EN

/-- One occurrence of a source: counted, delivered or kept, and logged (R434). Names the counters that saturated. -/
def State.evtCore (s : State) (src v : Nat) : State × List Nat :=
  let v := v % 2 ^ 32
  let c := s.ctrRaw F.EVT_OCCURRED_CTR.off 1
  let fatal := decide (sevOf src = 3)
  let d :=
    if c.1.srcMasked src && !fatal then
      let m := SMap.findD c.1.evt.masked src { value := 0, count := 0, first := c.1.now, last := c.1.now }
      ({ c.1 with evt := { c.1.evt with
          masked := SMap.put c.1.evt.masked src { m with value := v, count := m.count + 1, last := c.1.now } } }, [])
    else c.1.evtDeliver src v 1 c.1.now fatal
  let l := if sevOf src = 0 && !d.1.flag F.EVT_SRC_LOG_NOTE src then d.1 else (d.1.logOccur src (sevOf src) v).1
  (l, (if c.2 then [F.EVT_OCCURRED_CTR.off] else []) ++ d.2)

/-- Raise a source that is not FATAL. A counter of the fabric that saturates meanwhile raises CTR_SAT (R437); each can
saturate once, so the bound is never met. -/
def State.evtRaiseN : Nat → Nat → Nat → State → State
  | 0, _, _, s => s
  | n + 1, src, v, s =>
    if srcListed src && s.srcPresent src then
      let r := s.evtCore src v
      r.2.foldl (fun s off => State.evtRaiseN n 0x020 off s) r.1
    else s

/-- Raise an event that is not FATAL. -/
def State.note (s : State) (src v : Nat) : State := s.evtRaiseN 8 src v

/-- Add to a counter (R437): the first saturation raises CTR_SAT. -/
def State.ctr (s : State) (f : Fld) (i : Nat := 0) (n : Nat := 1) : State :=
  let off := f.off + i * f.stride
  let r := s.ctrRaw off n
  if r.2 then r.1.note 0x020 off else r.1

/-! Reads and writes under ECC (R487). -/

/-- A read of `n` bytes finds single-bit errors: each is corrected, written back and counted in `MQ_ECC_FIX` of a cluster. -/
def State.eccCorrect (s : State) (cl a n : Nat) : State :=
  let fix := (s.fixIn a n).filter (fun g => !s.eccBad.contains g)
  if fix.isEmpty then s
  else State.ctr { s with eccFix := s.eccFix.filter (fun g => !fix.contains g) } F.MQ_ECC_FIX_COUNT cl fix.length

/-- A read of `n` bytes by an agent that is no core: none where a granule holds an uncorrectable error. -/
def State.unitRead (s : State) (a n : Nat) : State × Option (List Byte) :=
  let s := s.eccCorrect 0 a n
  (s, if s.badIn a n then none else some (s.bytes a n))

/-- Write bytes as an agent whose corrections count in a cluster: a granule covered whole gets fresh check bits; a granule
covered in part is read first, which corrects and counts a single-bit error, and keeps its bytes and its error when the error is
uncorrectable. Says whether every byte was written. -/
def State.eccWriteBy (s : State) (cl a : Nat) (bs : List Byte) : State × Bool :=
  let n := bs.length
  let part := fun (g : Nat) => decide (a / 8 ≤ g ∧ n ≠ 0 ∧ g ≤ (a + n - 1) / 8) && !wholeGranule a n g
  let badPart := s.eccBad.filter part
  let fixed := (s.eccFix.filter part).length
  let mem' := ((rangeFrom a n).zip bs).foldl (fun m c => if badPart.contains (c.1 / 8) then m else memPut m c.1 c.2) s.mem
  let s' : State :=
    { s with mem := mem'
             eccBad := s.eccBad.filter (fun g => !wholeGranule a n g)
             eccFix := s.eccFix.filter (fun g => !(decide (a / 8 ≤ g ∧ n ≠ 0 ∧ g ≤ (a + n - 1) / 8))) }
  (if fixed = 0 then s' else s'.ctr F.MQ_ECC_FIX_COUNT cl fixed, badPart.isEmpty)

/-- Write bytes as an agent that is no core. -/
def State.eccWrite (s : State) (a : Nat) (bs : List Byte) : State × Bool := s.eccWriteBy 0 a bs

end Sys2Proof.Machine
end

