-- ==== Sys2Proof/Machine/SrchTab.lean ====
section
/-! DEFINITION. The entries of the search banks and their shadows (R366, R369). -/

namespace Sys2Proof.Machine

/-- Entries of a bank. -/
def bankSize : Nat := 32768

/-- An entry after INIT. -/
def SEntry.init : SEntry := { value := 0, mask := 0, valid := false, wcount := 0, badParity := false }

/-- An entry. -/
def State.sent (s : State) (bank i : Nat) : SEntry := SMap.findD s.srch (bankSize * bank + i) SEntry.init

/-- Set an entry. -/
def State.setSent (s : State) (bank i : Nat) (e : SEntry) : State :=
  { s with srch := SMap.putD s.srch (bankSize * bank + i) e SEntry.init }

/-- Has `SRCH_SHADOW_BASE` been written? -/
def State.srchBased (s : State) : Bool := s.locked.contains F.SRCH_SHADOW_BASE_ADDR.off

/-- Address of a shadow (R369). -/
def State.shadowAddr (s : State) (bank i : Nat) : Nat :=
  s.rd F.SRCH_SHADOW_BASE_ADDR * 2 ^ 22 + 64 * (bankSize * bank + i)

/-- The 56 checked bytes of a shadow. -/
def SEntry.body (e : SEntry) : List Byte :=
  leBytes 20 e.value.toNat ++ leBytes 20 e.mask.toNat ++ leBytes 8 (b2n e.valid) ++ leBytes 8 e.wcount

/-- The 64 bytes of a shadow (R369). -/
def SEntry.shadow (e : SEntry) : List Byte := e.body ++ leBytes 8 (crc64 e.body)

/-- Write an entry's shadow. -/
def State.putShadow (s : State) (bank i : Nat) : State :=
  (s.eccWrite (s.shadowAddr bank i) (s.sent bank i).shadow).1

/-- The entry that a shadow holds; none when its CHECK fails or it cannot be read (R369). -/
def State.getShadow (s : State) (bank i : Nat) : Option SEntry :=
  let a := s.shadowAddr bank i
  let b := s.bytes a 56
  if s.badIn a 64 || decide (crc64 b ≠ s.ldMem (a + 56) 8) then none
  else some { value := BitVec.ofNat 160 (s.ldMem a 20), mask := BitVec.ofNat 160 (s.ldMem (a + 20) 20),
              valid := bitOf (s.ldMem (a + 40) 1) 0, wcount := s.ldMem (a + 48) 8, badParity := false }

/-- Write or clear an entry and its shadow (R367, R369). -/
def State.srchPut (s : State) (bank i : Nat) (e : SEntry) : State :=
  ((s.setSent bank i { e with wcount := ((s.sent bank i).wcount + 1) % 2 ^ 64, badParity := false }).putShadow bank i).ctr
    F.SRCH_WRITES_CTR

end Sys2Proof.Machine
end

