-- ==== Sys2Proof/Machine/Life.lean ====
section
/-! DEFINITION. The lifecycle of R22 and R23, how promises end, and the move to DOWN on a FATAL event (R433). -/

namespace Sys2Proof.Machine

/-! Lifecycle. -/

/-- The code of a lifecycle state (R22). -/
def Life.code : Life → Nat
  | .cold => 0 | .boot => 1 | .verify => 2 | .load => 3 | .standby => 4
  | .active => 5 | .brace => 6 | .vaulting => 7 | .handover => 8 | .down => 15

/-- Move to a lifecycle state and raise LIFECYCLE. -/
def State.moveLife (s : State) (l : Life) : State :=
  ({ s with life := l }).note 0x000 (l.code + 16 * s.life.code)

/-- An event R23 does not list for the current state: recorded in the logbook, no change of state (assumption log 13). -/
def State.unlisted (s : State) : State := (s.logOccur 0x000 0 (s.life.code + 16 * s.life.code)).1

/-- A core's enable bit cleared: its threads go to STOP and keep their state (R37). -/
def stopThread (th : Thread) : Thread :=
  if th.st = .stop then th else { th with held := th.st, st := .stop }

/-- Clear the enable bit of a core: its four threads go to STOP (R37). -/
def State.stopCore (s : State) (core : Nat) : State :=
  let en := s.rd F.MQ_RUN_CORE_EN (core / 8)
  if bitOf en (core % 8) then
    let s := s.wr F.MQ_RUN_CORE_EN (maskOff en (2 ^ (core % 8))) (core / 8)
    foldSt (fun i (s : State) => s.updThread (4 * core + i) stopThread) [0, 1, 2, 3] s
  else s

/-- Every core that executes is stopped (R23, R429). -/
def State.stopCores (s : State) : State := foldSt (fun c (s : State) => s.stopCore c) (List.range 64) s

/-! How promises end (R121, R125). -/

/-- A promise entry. -/
def State.prm (s : State) (k : Nat) : Option Promise := SMap.find s.prms k

/-- Set a promise entry. -/
def State.setPrm (s : State) (k : Nat) (p : Promise) : State := { s with prms := SMap.put s.prms k p }

/-- Clear in-flight write entries (R155). -/
def State.ifwClear (s : State) (l : List Nat) : State :=
  foldSt (fun i (s : State) => s.srchPut 0 i { s.sent 0 i with valid := false }) l s

/-- The slack D − now of a promise. -/
def Promise.slack (p : Promise) (now : Nat) : Int :=
  match p.st with
  | .paused => p.time
  | _ => (p.time : Int) - now

/-- Count a broken promise by cause 1 to 5, class and tenant (R125). -/
def State.countBroken (s : State) (p : Promise) (cause : Nat) : State :=
  ((s.ctr F.WKT_BRK_CTR (cause - 1)).ctr F.WKT_CLASS_BROKEN p.cls).ctr F.WKT_TENANT_BROKEN p.tenant

/-- The BROKEN_* event of a cause with its lateness (R125). -/
def State.brokenEvent (s : State) (cause late : Nat) : State := s.note (0x02F + cause) (min late (2 ^ 32 - 1))

/-- End a promise with a WKT.FIN cause (R121): kept, broken with the cause, or the end of an expired one. -/
def State.endPromise (s : State) (k cause : Nat) : State :=
  match s.prm k with
  | none => s
  | some p =>
    let s' := (s.setPrm k { p with st := .ended, ifw := [] }).ifwClear p.ifw
    match p.st with
    | .ended => s
    | .expired => s'.brokenEvent p.cause (s.now - p.time)
    | _ =>
      if cause = 0 then (s'.ctr F.WKT_KEPT_CTR).ctr F.WKT_CLASS_KEPT p.cls
      else
        let c := if 5 < cause then 5 else cause
        ((s'.setPrm k { p with st := .ended, cause := c, ifw := [] }).countBroken p c).brokenEvent c (s.now - (if p.st = .paused then s.now else p.time))

/-- The event of a BROKEN result, raised when the handler ends the promise or its slot is released (R125). -/
def State.flushLate (s : State) (k : Nat) : State :=
  match s.prm k with
  | some p =>
    match p.late with
    | some late => (s.setPrm k { p with late := none }).brokenEvent p.cause late
    | none => s
  | none => s

/-- The slot of a promise is released (R121): INFLIGHT counts one promise fewer. -/
def State.releasePromise (s : State) (k : Nat) : State :=
  match s.prm k with
  | none => s
  | some p =>
    let s := (s.endPromise k 0).flushLate k
    { s with prms := SMap.del s.prms k }.wr F.WKT_CLASS_INFLIGHT (s.rd F.WKT_CLASS_INFLIGHT p.cls - 1) p.cls

/-- Release an item slot and what stands with it. -/
def State.releaseItem (s : State) (k : Nat) : State := (s.releasePromise k).freeItem k

/-- Every LIVE or PAUSED promise is broken with cause FATAL when the head enters DOWN (R121); there an EXPIRED promise, and one that a
BROKEN result has ended, raises its event, and has ended (R125; DEDUCED, assumption log 85). -/
def State.fatalPromises (s : State) : State :=
  foldSt (fun k (s : State) =>
    match s.prm k with
    | some p =>
      if p.st = .live ∨ p.st = .paused then
        (((s.setPrm k { p with st := .ended, cause := 4, ifw := [] }).ifwClear p.ifw).countBroken p 4).brokenEvent 4 0
      else (s.endPromise k 0).flushLate k
    | none => s) (SMap.keys s.prms) s

/-- FAULT_N driven low (R431, R433). -/
def State.faultLow (s : State) : State :=
  if s.flag F.GLB_STATE_FAULT then s else (s.setFlag F.GLB_STATE_FAULT).emit (.pin .faultN 0)

/-- FAULT_N released. -/
def State.faultHigh (s : State) : State :=
  if s.flag F.GLB_STATE_FAULT then (s.clrFlag F.GLB_STATE_FAULT).emit (.pin .faultN 1) else s

/-- Move to DOWN: cores stopped, FAULT_N low, every dirty logbook record committed (R23, R431, R448). CHILD requests held in BRACE stay
held in their stopped threads, with the start of the episode (DESIGN CHOICE, assumption log 86); a thread that a double fault has put
in HALT shows STOP like every thread of a core that is not enabled (DESIGN CHOICE, assumption log 75). -/
def State.goDown (s : State) : State :=
  match s.life with
  | .down => s
  | .cold => s
  | _ => (s.moveLife .down).fatalPromises.stopCores.faultLow.logCommitAll

/-- A FATAL event (R433): FAULT_N low, delivered whatever MASK and EN hold, and the head goes to DOWN. -/
def State.fatal (s : State) (src v : Nat) : State :=
  let s := s.note src v
  let s := s.faultLow
  if s.life = .down ∨ s.life = .cold then s.unlisted else s.goDown

/-- Raise an event of any severity. -/
def State.raise (s : State) (src v : Nat) : State :=
  if sevOf src = 3 then s.fatal src v else s.note src v

/-- An event item has been started or taken: the source may make another (R435). -/
def State.evtStarted (s : State) (slot : Nat) : State :=
  { s with evt := { s.evt with items := s.evt.items.filter (fun p => decide (p.2.slot ≠ some slot)) } }

end Sys2Proof.Machine
end

