-- ==== Sys2Proof/Machine/Threads.lean ====
section
/-! DEFINITION. Threads: exception entry (R41, R42), the wrapper around an instruction, wake-up, ticket tables and completions
(R60 to R66), power states of cores and clusters (R67, R68). -/

namespace Sys2Proof.Machine

/-! The vectors of R41. -/

def vecIllegal : Nat := 0x01
def vecPriv : Nat := 0x02
def vecAlign : Nat := 0x03
def vecAccess : Nat := 0x04
def vecBus : Nat := 0x05
def vecMemEcc : Nat := 0x06
def vecFetch : Nat := 0x07
def vecTicket : Nat := 0x08
def vecWatchdog : Nat := 0x09
def vecSyscall : Nat := 0x0A
def vecBreak : Nat := 0x0B

/-! Power states of cores and clusters (R67). -/

/-- The power state a thread offers: 0 NONE, 1 DOZE, 2 RETAIN. -/
def State.offer (s : State) (t : Nat) : Nat :=
  let th := s.thread t
  match th.st with
  | .free => let m := s.rd F.MQ_IDLE_IDLE_MODE (clusterOf t); if m = 3 then 0 else m
  | .run => 0
  | .wait => th.pwrmode
  | .halt => 2
  | .stop => 2

/-- Does any candidate queue name the cluster? -/
def State.hasCandidate (s : State) (cl : Nat) : Bool := s.queues.any (fun p => p.2.candidate cl)

/-- Does a core doze: all four threads offer DOZE or RETAIN (R67)? -/
def State.coreDozes (s : State) (core : Nat) : Bool :=
  [0, 1, 2, 3].all (fun i => decide (1 ≤ s.offer (4 * core + i)))

/-- May a cluster be in RETAIN (R67)? -/
def State.clusterRetains (s : State) (cl : Nat) : Bool :=
  s.flag F.MQ_IDLE_RETAIN_EN cl && (List.range 32).all (fun i => decide (s.offer (32 * cl + i) = 2)) &&
    !s.hasCandidate cl

/-- A cluster settles when its threads no longer execute (R67): in RETAIN, which loses its caches (R69), or in DOZE when every core
dozes. -/
def State.clusterSettle (s : State) (cl : Nat) : State :=
  let st := s.rd F.PWR_DOM_STATE (2 + cl)
  if st ≤ 1 ∧ s.clusterRetains cl = true then
    let s := s.wr F.PWR_DOM_STATE 2 (2 + cl)
    { s with doms := SMap.put s.doms (2 + cl) { idleSince := none, seq := some s.now }
             dcache := s.dcache.filter (fun p => decide (p.1 / 8 ≠ cl)) }
  else if st = 0 ∧ (List.range 8).all (fun i => s.coreDozes (8 * cl + i)) = true then s.wr F.PWR_DOM_STATE 1 (2 + cl)
  else s

/-- Every cluster settles, after a change that concerns several. -/
def State.settleAll (s : State) : State := foldSt (fun cl (s : State) => s.clusterSettle cl) (List.range 8) s

/-! Exception entry. -/

/-- Exception entry of thread `t` (R41): `epc` is the address EPC receives. With EXC set it is a double fault (R42): the
thread halts, its state kept, and DOUBLE_FAULT is raised, which takes the head to DOWN: its cores then show STOP (DESIGN CHOICE,
assumption log 75). -/
def State.trap (s : State) (t vec : Nat) (eval : Word) (epc : Word) : State :=
  if (s.thread t).exc then
    ((s.updThread t (fun th => { th with st := .halt, wait := none })).raise 0x001 t).settleAll
  else
    s.updThread t (fun th =>
      { th with epc := epc, ecause := vec, eval := eval, pkeeper := th.keeper, keeper := true, exc := true,
                st := .run, wait := none, pc := th.evec + BitVec.ofNat 64 (64 * vec) })

/-- What the body of an instruction leaves: go on at the next word, go on at an address, or trap with a vector and EVAL
(EPC is the instruction, or the next one for SYSCALL and BREAK), or stay at the instruction (waiting or ended). -/
inductive Body where
  | next (s : State)
  | jump (s : State) (pc : Word)
  | trap (s : State) (vec : Nat) (eval : Word)
  | trapNext (s : State) (vec : Nat) (eval : Word)
  | stay (s : State)

/-- Advance the PC past the instruction. -/
def State.advance (s : State) (t : Nat) : State := s.updThread t (fun th => { th with pc := th.pc + 4 })

/-- First address of the Code region of a thread's cluster. -/
def State.codeBase (s : State) (t : Nat) : Nat := s.rd F.MQ_CODE_BASE_ADDR (clusterOf t)

/-- Last address of the Code region of a thread's cluster. -/
def State.codeLimit (s : State) (t : Nat) : Nat := s.rd F.MQ_CODE_LIMIT_ADDR (clusterOf t)

/-- Is an address in the Code region (R45)? -/
def State.inCode (s : State) (t a : Nat) : Bool := decide (s.codeBase t ≤ a ∧ a ≤ s.codeLimit t)

/-- Can a word be fetched at an address: inside the Code region, without an uncorrectable error (R41, R45)? -/
def State.canFetch (s : State) (t a : Nat) : Bool := s.inCode t a && !s.badIn a 4

/-- Does a fetch inside the Code region meet the Hatch or the queue table, which take ACCESS (R45)? DESIGN CHOICE (assumption log
76): outside the Code region FETCH is taken, there as well, and the keeper range bars no fetch. -/
def State.fetchBarred (s : State) (t a : Nat) : Bool :=
  let qt := 2 ^ 25 * s.rd F.MQ_QTAB_BASE_ADDR
  s.inCode t a && (decide (s.hatchBase ≤ a) ||
    (s.locked.contains F.MQ_QTAB_BASE_ADDR.off && decide (qt ≤ a ∧ a < qt + 2 ^ 25)))

/-- Is thread `t` able to issue: in RUN and not draining (R36, R60), on a core that is enabled, in a cluster whose domain is in RUN? -/
def State.canIssue (s : State) (t : Nat) : Bool :=
  decide ((s.thread t).st = .run) && (s.thread t).wait.isNone && bitOf (s.rd F.MQ_RUN_CORE_EN (clusterOf t)) (coreOf t % 8) &&
    decide (s.rd F.PWR_DOM_STATE (2 + clusterOf t) = 0)

/-- Finish an instruction. -/
def Body.apply (t : Nat) (pc : Word) : Body → State
  | .next s => s.advance t
  | .jump s a => s.updThread t (fun th => { th with pc := a })
  | .trap s vec eval => s.trap t vec eval pc
  | .trapNext s vec eval => s.trap t vec eval (pc + 4)
  | .stay s => s.clusterSettle (clusterOf t)

/-- Does a debug breakpoint stand at the next instruction of a thread (R41)? -/
def State.atBreak (s : State) (t : Nat) : Bool := s.vlt.breaks.contains (s.thread t).pc.toNat

/-- One instruction of thread `t`: nothing when the thread cannot issue (R36); WATCHDOG when it is due (R61); BREAK at a debug
breakpoint (R41); ACCESS when the word lies in the Hatch or the queue table, FETCH when the word cannot be fetched (R45); otherwise
the instruction's body, after a correctable error of its word has been corrected (R487). -/
def State.issue (s : State) (t : Nat) (body : State → Body) : State :=
  if s.canIssue t then
    let pc := (s.thread t).pc
    if (s.thread t).wdog then (s.updThread t (fun th => { th with wdog := false })).trap t vecWatchdog 0 pc
    else if s.atBreak t then s.trap t vecBreak pc (pc + 4)
    else if s.fetchBarred t pc.toNat then s.trap t vecAccess pc pc
    else if s.canFetch t pc.toNat then (body (s.eccCorrect (clusterOf t) pc.toNat 4)).apply t pc
    else s.trap t vecFetch pc pc
  else s

/-- Write a destination register and go on. -/
def State.put (s : State) (t rd : Nat) (v : Word) : Body := .next (s.setG t rd v)

/-! Tickets (R63, R64). -/

/-- The ticket value after `v`, skipping 0. -/
def nextTicket (v : Nat) : Nat := if (v + 1) % 65536 = 0 then 1 else (v + 1) % 65536

/-- The offered value, or the next whose slot is free (R64). -/
def findTicket (tk : SMap Ticket) : Nat → Nat → Nat
  | 0, v => v
  | n + 1, v => if SMap.has tk (v % 64) then findTicket tk n (nextTicket v) else v

/-- Allocate a ticket for thread `t` (R64). The caller has checked that fewer than 64 are live. -/
def State.allocTicket (s : State) (t : Nat) : Nat × State :=
  let th := s.thread t
  let v := findTicket th.tickets 128 th.tktNext
  (v, s.updThread t (fun th =>
    { th with tktNext := nextTicket v
              tickets := SMap.put th.tickets (v % 64) { val := v, comp := none, arrived := 0 } }))

/-- Is ticket `v` of a thread live, and its entry? -/
def Thread.ticket (th : Thread) (v : Nat) : Option Ticket :=
  match SMap.find th.tickets (v % 64) with
  | some k => if k.val = v then some k else none
  | none => none

/-- The unconsumed completion that arrived first (R92). -/
def Thread.firstArrived (th : Thread) : Option Ticket :=
  minBy (fun k : Ticket => k.arrived) ((SMap.vals th.tickets).filter (fun k => k.comp.isSome))

/-- The next arrival number of a thread. -/
def Thread.nextArrival (th : Thread) : Nat :=
  (SMap.vals th.tickets).foldl (fun m k => max m k.arrived) 0 + 1

/-- Bytes 0 to 7 of a completion record (R66). -/
def Comp.low (c : Comp) : Word :=
  BitVec.ofNat 64 (c.status + c.unit * 2 ^ 8 + c.ticket * 2 ^ 16 + (c.aux % 2 ^ 32) * 2 ^ 32)

/-- Consume the completion of ticket `v` into `rd` and LASTJOB (R65). -/
def State.consume (s : State) (t rd v : Nat) (c : Comp) : State :=
  s.updThread t (fun th =>
    { (th.setG rd (BitVec.ofNat 64 c.result)) with lastjob := c.low, tickets := SMap.del th.tickets (v % 64) })

/-! Ending a handler (R60). -/

/-- Have all live tickets of the thread completed? -/
def Thread.drained (th : Thread) : Bool := (SMap.vals th.tickets).all (fun k => k.comp.isSome)

/-- Discard the completions of a drained thread and count them in `MQ_ORPHAN`. -/
def State.dropTickets (s : State) (t : Nat) : State :=
  let n := (s.thread t).live
  let s := s.updThread t (fun th => { th with tickets := [] })
  if n = 0 then s else s.ctr F.MQ_ORPHAN_COUNT (clusterOf t) n

/-- One handler of a queue fewer runs (R86); a SERIAL queue may be a candidate again. -/
def State.queueEnd (s : State) (q : Nat) : State :=
  (s.updQueue q (fun w => { w with running := w.running - 1 })).wakeFor q

/-- The thread becomes FREE, and its cluster may settle. -/
def State.freeThread (s : State) (t : Nat) : State :=
  (s.updThread t (fun th => { th with st := .free, item := none, wait := none })).clusterSettle (clusterOf t)

/-! Wake-up. -/

/-- A waiting thread resumes past its stalled instruction. -/
def State.resume (s : State) (t : Nat) : State :=
  s.updThread t (fun th => { th with st := if th.st = .wait then .run else th.st
                                     held := if th.st = .stop ∧ th.held = .wait then .run else th.held
                                     wait := none, pc := th.pc + 4 })

/-- Is a thread waiting, in WAIT or in STOP held from WAIT? -/
def Thread.waiting (th : Thread) : Bool := decide (th.st = .wait)

end Sys2Proof.Machine
end

