-- ==== Sys2Proof/Machine/Operands.lean ====
section
/-! DEFINITION. The values of the integer operations (R76 to R79) and of the atomics (R81). -/

namespace Sys2Proof.Machine

/-- The outcome of a command. -/
abbrev Res := Host.Outcome State Fault Refusal

/-- 1 for true, in a register. -/
def bw (b : Bool) : Word := if b then 1 else 0

/-- Shift amount: bits [5:0]. -/
def shAmt (b : Word) : Nat := b.toNat % 64

/-- MULH. -/
def mulh (a b : Word) : Word := BitVec.ofInt 64 ((a.toInt * b.toInt) / 2 ^ 64)

/-- MULHU. -/
def mulhu (a b : Word) : Word := BitVec.ofNat 64 ((a.toNat * b.toNat) / 2 ^ 64)

/-- DIV: truncated toward zero; by zero all ones (R77). -/
def sdivW (a b : Word) : Word := if b = 0 then BitVec.allOnes 64 else a.sdiv b

/-- DIVU. -/
def udivW (a b : Word) : Word := if b = 0 then BitVec.allOnes 64 else a / b

/-- REM: by zero the dividend (R77). -/
def sremW (a b : Word) : Word := if b = 0 then a else a.srem b

/-- REMU. -/
def uremW (a b : Word) : Word := if b = 0 then a else a % b

/-- Leading zero bits. -/
def clzW (a : Word) : Word := BitVec.ofNat 64 (64 - bitLen a.toNat)

/-- Trailing zero bits: of 64 bits from bit `i` up. -/
def ctzFrom (v : Nat) : Nat → Nat → Nat
  | 0, i => i
  | n + 1, i => if bitOf v i then i else ctzFrom v n (i + 1)

/-- CTZ. -/
def ctzW (a : Word) : Word := BitVec.ofNat 64 (ctzFrom a.toNat 64 0)

/-- Set bits among the low `n`. -/
def popc (v : Nat) : Nat → Nat
  | 0 => 0
  | n + 1 => popc v n + b2n (bitOf v n)

/-- POPC. -/
def popcW (a : Word) : Word := BitVec.ofNat 64 (popc a.toNat 64)

/-- BSWAP. -/
def bswapW (a : Word) : Word := BitVec.ofNat 64 (leNat (leBytes 8 a.toNat).reverse)

/-- SER in width `n` (R78). -/
def serW (n : Nat) (a b : Word) : Word :=
  if laterThan n a.toNat b.toNat then 1 else if laterThan n b.toNat a.toNat then BitVec.allOnes 64 else 0

/-- The new memory value of an atomic (R81): operation, width in bytes, old value, rs2, entry value of rd. -/
inductive Amo where
  | add | swap | cas | and | or | maxu | minu
  deriving DecidableEq, Repr

/-- New memory value of an atomic on `n`-byte values already narrowed to the width. -/
def Amo.new (o : Amo) (n old b entry : Nat) : Nat :=
  match o with
  | .add => (old + b) % 2 ^ (8 * n)
  | .swap => b
  | .cas => if old = entry then b else old
  | .and => old &&& b
  | .or => old ||| b
  | .maxu => max old b
  | .minu => min old b

end Sys2Proof.Machine
end

