-- ==== Sys2Proof/Machine/Alu.lean ====
section
/-! DEFINITION. Integer register and immediate operations (R76 to R79). -/

namespace Sys2Proof.Machine

/-- An integer operation on two registers. -/
def State.alu2 (s : State) (t : BitVec 8) (rd rs1 rs2 : BitVec 5) (f : Word → Word → Word) : State :=
  s.issue t.toNat (fun s => s.put t.toNat rd.toNat (f (s.g t.toNat rs1.toNat) (s.g t.toNat rs2.toNat)))

/-- An integer operation on one register. -/
def State.alu1 (s : State) (t : BitVec 8) (rd rs1 : BitVec 5) (f : Word → Word) : State :=
  s.issue t.toNat (fun s => s.put t.toNat rd.toNat (f (s.g t.toNat rs1.toNat)))

/-- An integer operation on a register and a 16-bit immediate. -/
def State.aluI (s : State) (t : BitVec 8) (rd rs1 : BitVec 5) (imm : BitVec 16) (f : Word → BitVec 16 → Word) : State :=
  s.issue t.toNat (fun s => s.put t.toNat rd.toNat (f (s.g t.toNat rs1.toNat) imm))

/-- ADD (R76). -/
def execAdd (t : BitVec 8) (rd rs1 rs2 : BitVec 5) (s : State) : Res :=
  .next (s.alu2 t rd rs1 rs2 (fun a b => a + b))

/-- SUB (R76). -/
def execSub (t : BitVec 8) (rd rs1 rs2 : BitVec 5) (s : State) : Res :=
  .next (s.alu2 t rd rs1 rs2 (fun a b => a - b))

/-- AND (R76). -/
def execAnd (t : BitVec 8) (rd rs1 rs2 : BitVec 5) (s : State) : Res :=
  .next (s.alu2 t rd rs1 rs2 (fun a b => a &&& b))

/-- OR (R76). -/
def execOr (t : BitVec 8) (rd rs1 rs2 : BitVec 5) (s : State) : Res :=
  .next (s.alu2 t rd rs1 rs2 (fun a b => a ||| b))

/-- XOR (R76). -/
def execXor (t : BitVec 8) (rd rs1 rs2 : BitVec 5) (s : State) : Res :=
  .next (s.alu2 t rd rs1 rs2 (fun a b => a ^^^ b))

/-- ANDN (R76). -/
def execAndn (t : BitVec 8) (rd rs1 rs2 : BitVec 5) (s : State) : Res :=
  .next (s.alu2 t rd rs1 rs2 (fun a b => a &&& ~~~b))

/-- SLL (R76). -/
def execSll (t : BitVec 8) (rd rs1 rs2 : BitVec 5) (s : State) : Res :=
  .next (s.alu2 t rd rs1 rs2 (fun a b => a <<< shAmt b))

/-- SRL (R76). -/
def execSrl (t : BitVec 8) (rd rs1 rs2 : BitVec 5) (s : State) : Res :=
  .next (s.alu2 t rd rs1 rs2 (fun a b => a >>> shAmt b))

/-- SRA (R76). -/
def execSra (t : BitVec 8) (rd rs1 rs2 : BitVec 5) (s : State) : Res :=
  .next (s.alu2 t rd rs1 rs2 (fun a b => a.sshiftRight (shAmt b)))

/-- ROTR (R76). -/
def execRotr (t : BitVec 8) (rd rs1 rs2 : BitVec 5) (s : State) : Res :=
  .next (s.alu2 t rd rs1 rs2 (fun a b => a.rotateRight (shAmt b)))

/-- SLT (R76). -/
def execSlt (t : BitVec 8) (rd rs1 rs2 : BitVec 5) (s : State) : Res :=
  .next (s.alu2 t rd rs1 rs2 (fun a b => bw (a.slt b)))

/-- SLTU (R76). -/
def execSltu (t : BitVec 8) (rd rs1 rs2 : BitVec 5) (s : State) : Res :=
  .next (s.alu2 t rd rs1 rs2 (fun a b => bw (a.ult b)))

/-- MIN (R76). -/
def execMin (t : BitVec 8) (rd rs1 rs2 : BitVec 5) (s : State) : Res :=
  .next (s.alu2 t rd rs1 rs2 (fun a b => if a.slt b then a else b))

/-- MAX (R76). -/
def execMax (t : BitVec 8) (rd rs1 rs2 : BitVec 5) (s : State) : Res :=
  .next (s.alu2 t rd rs1 rs2 (fun a b => if a.slt b then b else a))

/-- MINU (R76). -/
def execMinu (t : BitVec 8) (rd rs1 rs2 : BitVec 5) (s : State) : Res :=
  .next (s.alu2 t rd rs1 rs2 (fun a b => if a.ult b then a else b))

/-- MAXU (R76). -/
def execMaxu (t : BitVec 8) (rd rs1 rs2 : BitVec 5) (s : State) : Res :=
  .next (s.alu2 t rd rs1 rs2 (fun a b => if a.ult b then b else a))

/-- SER.B (R78). -/
def execSerB (t : BitVec 8) (rd rs1 rs2 : BitVec 5) (s : State) : Res :=
  .next (s.alu2 t rd rs1 rs2 (serW 8))

/-- SER.H (R78). -/
def execSerH (t : BitVec 8) (rd rs1 rs2 : BitVec 5) (s : State) : Res :=
  .next (s.alu2 t rd rs1 rs2 (serW 16))

/-- SER.P (R78). -/
def execSerP (t : BitVec 8) (rd rs1 rs2 : BitVec 5) (s : State) : Res :=
  .next (s.alu2 t rd rs1 rs2 (serW 24))

/-- SER.W (R78). -/
def execSerW (t : BitVec 8) (rd rs1 rs2 : BitVec 5) (s : State) : Res :=
  .next (s.alu2 t rd rs1 rs2 (serW 32))

/-- MUL (R76). -/
def execMul (t : BitVec 8) (rd rs1 rs2 : BitVec 5) (s : State) : Res :=
  .next (s.alu2 t rd rs1 rs2 (fun a b => a * b))

/-- MULH (R76). -/
def execMulh (t : BitVec 8) (rd rs1 rs2 : BitVec 5) (s : State) : Res :=
  .next (s.alu2 t rd rs1 rs2 (mulh))

/-- MULHU (R76). -/
def execMulhu (t : BitVec 8) (rd rs1 rs2 : BitVec 5) (s : State) : Res :=
  .next (s.alu2 t rd rs1 rs2 (mulhu))

/-- DIV (R77). -/
def execDiv (t : BitVec 8) (rd rs1 rs2 : BitVec 5) (s : State) : Res :=
  .next (s.alu2 t rd rs1 rs2 (sdivW))

/-- DIVU (R77). -/
def execDivu (t : BitVec 8) (rd rs1 rs2 : BitVec 5) (s : State) : Res :=
  .next (s.alu2 t rd rs1 rs2 (udivW))

/-- REM (R77). -/
def execRem (t : BitVec 8) (rd rs1 rs2 : BitVec 5) (s : State) : Res :=
  .next (s.alu2 t rd rs1 rs2 (sremW))

/-- REMU (R77). -/
def execRemu (t : BitVec 8) (rd rs1 rs2 : BitVec 5) (s : State) : Res :=
  .next (s.alu2 t rd rs1 rs2 (uremW))

/-- CLZ (R76). -/
def execClz (t : BitVec 8) (rd rs1 : BitVec 5) (s : State) : Res := .next (s.alu1 t rd rs1 clzW)

/-- CTZ (R76). -/
def execCtz (t : BitVec 8) (rd rs1 : BitVec 5) (s : State) : Res := .next (s.alu1 t rd rs1 ctzW)

/-- POPC (R76). -/
def execPopc (t : BitVec 8) (rd rs1 : BitVec 5) (s : State) : Res := .next (s.alu1 t rd rs1 popcW)

/-- BSWAP (R76). -/
def execBswap (t : BitVec 8) (rd rs1 : BitVec 5) (s : State) : Res := .next (s.alu1 t rd rs1 bswapW)

/-- ADDI (R79): rd = rs1 + sext(IMM16). -/
def execAddi (t : BitVec 8) (rd rs1 : BitVec 5) (imm : BitVec 16) (s : State) : Res :=
  .next (s.aluI t rd rs1 imm (fun a i => a + i.signExtend 64))

/-- ANDI (R79): rd = rs1 & zext(IMM16). -/
def execAndi (t : BitVec 8) (rd rs1 : BitVec 5) (imm : BitVec 16) (s : State) : Res :=
  .next (s.aluI t rd rs1 imm (fun a i => a &&& i.setWidth 64))

/-- ORI (R79): rd = rs1 | zext(IMM16). -/
def execOri (t : BitVec 8) (rd rs1 : BitVec 5) (imm : BitVec 16) (s : State) : Res :=
  .next (s.aluI t rd rs1 imm (fun a i => a ||| i.setWidth 64))

/-- XORI (R79): rd = rs1 ^ zext(IMM16). -/
def execXori (t : BitVec 8) (rd rs1 : BitVec 5) (imm : BitVec 16) (s : State) : Res :=
  .next (s.aluI t rd rs1 imm (fun a i => a ^^^ i.setWidth 64))

/-- SLTI (R79): rd = 1 if s(rs1) < sext(IMM16), else 0. -/
def execSlti (t : BitVec 8) (rd rs1 : BitVec 5) (imm : BitVec 16) (s : State) : Res :=
  .next (s.aluI t rd rs1 imm (fun a i => bw (a.slt (i.signExtend 64))))

/-- SLTIU (R79): rd = 1 if u(rs1) < u(sext(IMM16)), else 0. -/
def execSltiu (t : BitVec 8) (rd rs1 : BitVec 5) (imm : BitVec 16) (s : State) : Res :=
  .next (s.aluI t rd rs1 imm (fun a i => bw (a.ult (i.signExtend 64))))

/-- SHI (R79): rd = (rs1 << 16) | zext(IMM16). -/
def execShi (t : BitVec 8) (rd rs1 : BitVec 5) (imm : BitVec 16) (s : State) : Res :=
  .next (s.aluI t rd rs1 imm (fun a i => (a <<< 16) ||| i.setWidth 64))

/-- SLLI (R79): by IMM16[5:0]. -/
def execSlli (t : BitVec 8) (rd rs1 : BitVec 5) (sh : BitVec 6) (s : State) : Res :=
  .next (s.alu1 t rd rs1 (fun a => (fun (a : Word) (n : Nat) => a <<< n) a sh.toNat))

/-- SRLI (R79): by IMM16[5:0]. -/
def execSrli (t : BitVec 8) (rd rs1 : BitVec 5) (sh : BitVec 6) (s : State) : Res :=
  .next (s.alu1 t rd rs1 (fun a => (fun (a : Word) (n : Nat) => a >>> n) a sh.toNat))

/-- SRAI (R79): by IMM16[5:0]. -/
def execSrai (t : BitVec 8) (rd rs1 : BitVec 5) (sh : BitVec 6) (s : State) : Res :=
  .next (s.alu1 t rd rs1 (fun a => (fun (a : Word) (n : Nat) => a.sshiftRight n) a sh.toNat))

/-- LUI (R79): rd = sext(IMM16) << 16. -/
def execLui (t : BitVec 8) (rd : BitVec 5) (imm : BitVec 16) (s : State) : Res :=
  .next (s.aluI t rd 0 imm (fun _ i => i.signExtend 64 <<< 16))

end Sys2Proof.Machine
end

