-- ==== Sys2Proof/Machine/Hash.lean ====
section
/-! DEFINITION. The digests of FIPS 180-4 and the keyed digest of FIPS 198-1 (R197), on words as numbers. -/

namespace Sys2Proof.Machine

/-- Round constants of SHA-224 and SHA-256. -/
def shaK32 : List Nat :=
  [0x428A2F98, 0x71374491, 0xB5C0FBCF, 0xE9B5DBA5, 0x3956C25B, 0x59F111F1, 0x923F82A4, 0xAB1C5ED5] ++
  [0xD807AA98, 0x12835B01, 0x243185BE, 0x550C7DC3, 0x72BE5D74, 0x80DEB1FE, 0x9BDC06A7, 0xC19BF174] ++
  [0xE49B69C1, 0xEFBE4786, 0x0FC19DC6, 0x240CA1CC, 0x2DE92C6F, 0x4A7484AA, 0x5CB0A9DC, 0x76F988DA] ++
  [0x983E5152, 0xA831C66D, 0xB00327C8, 0xBF597FC7, 0xC6E00BF3, 0xD5A79147, 0x06CA6351, 0x14292967] ++
  [0x27B70A85, 0x2E1B2138, 0x4D2C6DFC, 0x53380D13, 0x650A7354, 0x766A0ABB, 0x81C2C92E, 0x92722C85] ++
  [0xA2BFE8A1, 0xA81A664B, 0xC24B8B70, 0xC76C51A3, 0xD192E819, 0xD6990624, 0xF40E3585, 0x106AA070] ++
  [0x19A4C116, 0x1E376C08, 0x2748774C, 0x34B0BCB5, 0x391C0CB3, 0x4ED8AA4A, 0x5B9CCA4F, 0x682E6FF3] ++
  [0x748F82EE, 0x78A5636F, 0x84C87814, 0x8CC70208, 0x90BEFFFA, 0xA4506CEB, 0xBEF9A3F7, 0xC67178F2]

/-- Round constants of the SHA-512 family. -/
def shaK64 : List Nat :=
  [0x428A2F98D728AE22, 0x7137449123EF65CD, 0xB5C0FBCFEC4D3B2F, 0xE9B5DBA58189DBBC] ++
  [0x3956C25BF348B538, 0x59F111F1B605D019, 0x923F82A4AF194F9B, 0xAB1C5ED5DA6D8118] ++
  [0xD807AA98A3030242, 0x12835B0145706FBE, 0x243185BE4EE4B28C, 0x550C7DC3D5FFB4E2] ++
  [0x72BE5D74F27B896F, 0x80DEB1FE3B1696B1, 0x9BDC06A725C71235, 0xC19BF174CF692694] ++
  [0xE49B69C19EF14AD2, 0xEFBE4786384F25E3, 0x0FC19DC68B8CD5B5, 0x240CA1CC77AC9C65] ++
  [0x2DE92C6F592B0275, 0x4A7484AA6EA6E483, 0x5CB0A9DCBD41FBD4, 0x76F988DA831153B5] ++
  [0x983E5152EE66DFAB, 0xA831C66D2DB43210, 0xB00327C898FB213F, 0xBF597FC7BEEF0EE4] ++
  [0xC6E00BF33DA88FC2, 0xD5A79147930AA725, 0x06CA6351E003826F, 0x142929670A0E6E70] ++
  [0x27B70A8546D22FFC, 0x2E1B21385C26C926, 0x4D2C6DFC5AC42AED, 0x53380D139D95B3DF] ++
  [0x650A73548BAF63DE, 0x766A0ABB3C77B2A8, 0x81C2C92E47EDAEE6, 0x92722C851482353B] ++
  [0xA2BFE8A14CF10364, 0xA81A664BBC423001, 0xC24B8B70D0F89791, 0xC76C51A30654BE30] ++
  [0xD192E819D6EF5218, 0xD69906245565A910, 0xF40E35855771202A, 0x106AA07032BBD1B8] ++
  [0x19A4C116B8D2D0C8, 0x1E376C085141AB53, 0x2748774CDF8EEB99, 0x34B0BCB5E19B48A8] ++
  [0x391C0CB3C5C95A63, 0x4ED8AA4AE3418ACB, 0x5B9CCA4F7763E373, 0x682E6FF3D6B2B8A3] ++
  [0x748F82EE5DEFB2FC, 0x78A5636F43172F60, 0x84C87814A1F0AB72, 0x8CC702081A6439EC] ++
  [0x90BEFFFA23631E28, 0xA4506CEBDE82BDE9, 0xBEF9A3F7B2C67915, 0xC67178F2E372532B] ++
  [0xCA273ECEEA26619C, 0xD186B8C721C0C207, 0xEADA7DD6CDE0EB1E, 0xF57D4F7FEE6ED178] ++
  [0x06F067AA72176FBA, 0x0A637DC5A2C898A6, 0x113F9804BEF90DAE, 0x1B710B35131C471B] ++
  [0x28DB77F523047D84, 0x32CAAB7B40C72493, 0x3C9EBE0A15C9BEBC, 0x431D67C49C100D4C] ++
  [0x4CC5D4BECB3E42B6, 0x597F299CFC657E2A, 0x5FCB6FAB3AD6FAEC, 0x6C44198C4A475817]

/-- Initial value of SHA-224. -/
def shaIv224 : List Nat :=
  [0xC1059ED8, 0x367CD507, 0x3070DD17, 0xF70E5939, 0xFFC00B31, 0x68581511, 0x64F98FA7, 0xBEFA4FA4]

/-- Initial value of SHA-256. -/
def shaIv256 : List Nat :=
  [0x6A09E667, 0xBB67AE85, 0x3C6EF372, 0xA54FF53A, 0x510E527F, 0x9B05688C, 0x1F83D9AB, 0x5BE0CD19]

/-- Initial value of SHA-384. -/
def shaIv384 : List Nat :=
  [0xCBBB9D5DC1059ED8, 0x629A292A367CD507, 0x9159015A3070DD17, 0x152FECD8F70E5939] ++
  [0x67332667FFC00B31, 0x8EB44A8768581511, 0xDB0C2E0D64F98FA7, 0x47B5481DBEFA4FA4]

/-- Initial value of SHA-512. -/
def shaIv512 : List Nat :=
  [0x6A09E667F3BCC908, 0xBB67AE8584CAA73B, 0x3C6EF372FE94F82B, 0xA54FF53A5F1D36F1] ++
  [0x510E527FADE682D1, 0x9B05688C2B3E6C1F, 0x1F83D9ABFB41BD6B, 0x5BE0CD19137E2179]

/-- Initial value of SHA-512/256. -/
def shaIv512t : List Nat :=
  [0x22312194FC2BF72C, 0x9F555FA3C84C64C2, 0x2393B86B6F53B151, 0x963877195940EABD] ++
  [0x96283EE2A88EFFE3, 0xBE5E1E2553863992, 0x2B0199FC2C85B8AA, 0x0EB72DDC81C52CA2]

/-- Word width of an algorithm (R197): 32 bits for ALG 0 and 1. -/
def shaW (alg : Nat) : Nat := if alg ≤ 1 then 32 else 64

/-- Block size in bytes. -/
def shaBlock (alg : Nat) : Nat := if alg ≤ 1 then 64 else 128

/-- Digest length in bytes. -/
def shaLen (alg : Nat) : Nat :=
  match alg with
  | 0 => 28 | 1 => 32 | 2 => 48 | 3 => 64 | _ => 32

/-- Initial chaining value. -/
def shaIv (alg : Nat) : List Nat :=
  match alg with
  | 0 => shaIv224 | 1 => shaIv256 | 2 => shaIv384 | 3 => shaIv512 | _ => shaIv512t

/-- Rotate right within `w` bits. -/
def rotrN (w n x : Nat) : Nat := (x >>> n) ||| ((x <<< (w - n)) % 2 ^ w)

/-- Two rotations and a shift. -/
def shaSmall (w a b c x : Nat) : Nat := rotrN w a x ^^^ rotrN w b x ^^^ (x >>> c)

/-- Three rotations. -/
def shaBig (w a b c x : Nat) : Nat := rotrN w a x ^^^ rotrN w b x ^^^ rotrN w c x

/-- σ0 of the schedule. -/
def shaS0 (w x : Nat) : Nat := if w = 32 then shaSmall w 7 18 3 x else shaSmall w 1 8 7 x
/-- σ1 of the schedule. -/
def shaS1 (w x : Nat) : Nat := if w = 32 then shaSmall w 17 19 10 x else shaSmall w 19 61 6 x
/-- Σ0 of a round. -/
def shaE0 (w x : Nat) : Nat := if w = 32 then shaBig w 2 13 22 x else shaBig w 28 34 39 x
/-- Σ1 of a round. -/
def shaE1 (w x : Nat) : Nat := if w = 32 then shaBig w 6 11 25 x else shaBig w 14 18 41 x

/-- The words of a block, big-endian. -/
def shaWords (w : Nat) : Nat → List Byte → List Nat
  | 0, _ => []
  | n + 1, l => beNat (l.take (w / 8)) :: shaWords w n (l.drop (w / 8))

/-- Extend the schedule, newest word first, by `n` words. -/
def shaExtend (w : Nat) : Nat → List Nat → List Nat
  | 0, l => l
  | n + 1, l =>
    let x := (shaS1 w (l[1]?.getD 0) + l[6]?.getD 0 + shaS0 w (l[14]?.getD 0) + l[15]?.getD 0) % 2 ^ w
    shaExtend w n (x :: l)

/-- One round on the eight working words. -/
def shaRound (w : Nat) (v : List Nat) (k x : Nat) : List Nat :=
  match v with
  | [a, b, c, d, e, f, g, h] =>
    let ch := (e &&& f) ^^^ ((2 ^ w - 1 - e) &&& g)
    let mj := (a &&& b) ^^^ (a &&& c) ^^^ (b &&& c)
    let t1 := h + shaE1 w e + ch + k + x
    let t2 := shaE0 w a + mj
    [(t1 + t2) % 2 ^ w, a, b, c, (d + t1) % 2 ^ w, e, f, g]
  | _ => v

/-- Compress one block into a chaining value. -/
def shaCompress (alg : Nat) (h : List Nat) (block : List Byte) : List Nat :=
  let w := shaW alg
  let ks := if w = 32 then shaK32 else shaK64
  let ws := (shaExtend w (ks.length - 16) (shaWords w 16 block).reverse).reverse
  let v := (ks.zip ws).foldl (fun v p => shaRound w v p.1 p.2) h
  (h.zip v).map (fun p => (p.1 + p.2) % 2 ^ w)

/-- Compress every whole block of the bytes (`n` bounds their number); answers the bytes left. -/
def shaAbsorb (alg : Nat) : Nat → List Nat → List Byte → List Nat × List Byte
  | 0, h, l => (h, l)
  | n + 1, h, l =>
    if l.length < shaBlock alg then (h, l)
    else shaAbsorb alg n (shaCompress alg h (l.take (shaBlock alg))) (l.drop (shaBlock alg))

/-- The padding after a message of `len` bytes. -/
def shaPad (alg len : Nat) : List Byte :=
  let b := shaBlock alg
  let f := b / 8
  let z := (b - (len + 1 + f) % b) % b
  0x80 :: List.replicate z 0 ++ beBytes f (8 * len)

/-- Finish a message of `total` bytes whose chaining value is `h` and whose bytes not yet compressed are `rest`. -/
def shaFinish (alg : Nat) (h : List Nat) (rest : List Byte) (total : Nat) : List Byte :=
  let l := rest ++ shaPad alg total
  let v := (shaAbsorb alg (l.length / shaBlock alg) h l).1
  ((v.map (beBytes (shaW alg / 8))).flatten).take (shaLen alg)

/-- The digest of a whole message. -/
def sha (alg : Nat) (m : List Byte) : List Byte :=
  let r := shaAbsorb alg (m.length / shaBlock alg) (shaIv alg) m
  shaFinish alg r.1 r.2 m.length

/-- The key of HMAC as one block: hashed first when longer than a block. -/
def hmacKey (alg : Nat) (key : List Byte) : List Byte :=
  let k := if shaBlock alg < key.length then sha alg key else key
  k ++ List.replicate (shaBlock alg - k.length) 0

/-- The chaining value after the key block masked with a constant. -/
def hmacState (alg : Nat) (key : List Byte) (pad : Byte) : List Nat :=
  shaCompress alg (shaIv alg) ((hmacKey alg key).map (· ^^^ pad))

/-- The outer hash of HMAC over an inner digest. -/
def hmacOuter (alg : Nat) (outer : List Nat) (inner : List Byte) : List Byte :=
  shaFinish alg outer inner (shaBlock alg + inner.length)

/-- HMAC of a message. -/
def hmac (alg : Nat) (key m : List Byte) : List Byte :=
  let r := shaAbsorb alg (m.length / shaBlock alg) (hmacState alg key 0x36) m
  hmacOuter alg (hmacState alg key 0x5C) (shaFinish alg r.1 r.2 (shaBlock alg + m.length))

end Sys2Proof.Machine
end

