-- ==== Sys2Proof/Machine/Arb.lean ====
section
/-! DEFINITION. The arbiters (R375 to R384) and turn hints (R382). Arbiter classes 0 to 5 (digest, Ox, XTS, parity, map, index)
have the cluster rings of the unit as requesters 0 to 7, and internal clients above them; classes 7 and 8 (Transom quads, front-end
transmit ports) have queue pairs, each under its own number (DESIGN CHOICE, assumption log 89). Instance lane × 256 + die of class 6 is
the queue of a die: its requesters 0 to 7 are the lane's cluster rings, and 256 + tag is a command that holds the die (DESIGN CHOICE,
assumption log 96). -/

namespace Sys2Proof.Machine

/-- The arbiter class of a unit class of R84, for units whose rings are its requesters (R383). -/
def arbClass (cls : Nat) : Option Nat :=
  match cls with
  | 0x02 => some 0
  | 0x03 => some 1
  | 0x05 => some 2
  | 0x06 => some 3
  | 0x07 => some 4
  | 0x04 => some 5
  | _ => none

/-- The unit class of an arbiter class. -/
def arbUnit (ac : Nat) : Nat :=
  match ac with
  | 0 => 0x02 | 1 => 0x03 | 2 => 0x05 | 3 => 0x06 | 4 => 0x07 | 5 => 0x04 | 6 => 0x09 | 7 => 0x0A | _ => 0x01

/-- Key of an arbiter: class and instance. -/
def arbKey (ac inst : Nat) : Nat := ac * 65536 + inst

/-- An idle arbiter. -/
def Arb.init : Arb := { holder := none, byForce := false, parked := none, waiting := [] }

/-- Does no request wait? Requests in back-off have withdrawn (R381). -/
def Arb.quiet (a : Arb) : Bool := a.waiting.all (fun r => r.until_.isSome)

/-- An arbiter. -/
def State.arb (s : State) (ac inst : Nat) : Arb := SMap.findD s.arbs (arbKey ac inst) Arb.init

/-- Set an arbiter. -/
def State.setArb (s : State) (ac inst : Nat) (a : Arb) : State :=
  { s with arbs := SMap.putD s.arbs (arbKey ac inst) a Arb.init }

/-- WAIT_LIMIT of a class: at most 1,000,000; 0 treated as 1. -/
def State.arbLimit (s : State) (ac : Nat) : Nat := max 1 (min 1000000 (s.rd F.ARB_CFG_WAIT_LIMIT ac))

/-- BG_LOSSES of a class; 0 treated as 1. -/
def State.arbLosses (s : State) (ac : Nat) : Nat := max 1 (s.rd F.ARB_CFG_BG_LOSSES ac)

/-- BO_MIN of a class; 0 treated as 1. -/
def State.boMin (s : State) (ac : Nat) : Nat := max 1 (s.rd F.ARB_BACKOFF_BO_MIN ac)

/-- BO_MAX of a class: at most 1,000,000, at least BO_MIN. -/
def State.boMax (s : State) (ac : Nat) : Nat := max (s.boMin ac) (min 1000000 (s.rd F.ARB_BACKOFF_BO_MAX ac))

/-- Age of a stamp: a stamp more than 2^30 ns old counts as 2^30 (R376). -/
def stampAge (now stamp : Nat) : Nat := min (2 ^ 30) ((now % 2 ^ 32 + 2 ^ 32 - stamp % 2 ^ 32) % 2 ^ 32)

/-- The winner among requests: the oldest stamp, then the lowest number (R376). -/
def oldest (now : Nat) (l : List ArbReq) : Option ArbReq :=
  minBy (fun r : ArbReq => (2 ^ 30 - stampAge now r.stamp) * 65536 + r.num) l

/-- The request that a decision grants: among the forced, then among the others (R376, R380). Requests in back-off do not
wait. -/
def Arb.choose (a : Arb) (now : Nat) : Option ArbReq :=
  let w := a.waiting.filter (fun r => r.until_.isNone)
  let f := w.filter (fun r => r.forced)
  if f.isEmpty then oldest now w else oldest now f

/-- Bring the wait counters of foreground requests up to now (R380). -/
def Arb.accrue (a : Arb) (now : Nat) : Arb :=
  { a with waiting := a.waiting.map (fun r =>
      if r.bg then r
      else { r with waited := if a.holder.isSome then r.waited + (now - r.mark) else r.waited, mark := now }) }

/-- A fresh request. -/
def newReq (num now : Nat) (bg : Bool) (period : Nat) : ArbReq :=
  { num := num, stamp := now % 2 ^ 32, bg := bg, waited := 0, mark := now, losses := 0, forced := false,
    period := period, until_ := none }

/-! Rings. -/

/-- Key of the ring of a unit instance for a cluster. -/
def ringKey (cls inst cl : Nat) : Nat := cls * 2 ^ 16 + inst * 8 + cl

/-- The jobs on a ring. -/
def State.ring (s : State) (cls inst cl : Nat) : List Job := SMap.findD s.rings (ringKey cls inst cl) []

/-- Set a ring. -/
def State.setRing (s : State) (cls inst cl : Nat) (l : List Job) : State :=
  { s with rings := SMap.putD s.rings (ringKey cls inst cl) l [] }

/-- Bytes `lo` to `lo + n - 1` of a descriptor. -/
def Job.fld (j : Job) (lo n : Nat) : Nat := bitsOf j.desc.toNat (8 * lo) (8 * n)

/-- OP of a descriptor. -/
def Job.op (j : Job) : Nat := j.fld 0 1

/-- FLAGS.BG (R94). -/
def Job.bg (j : Job) : Bool := bitOf j.desc.toNat 8

/-- FLAGS.FREE_IN (R94). -/
def Job.freeIn (j : Job) : Bool := bitOf j.desc.toNat 9

/-- FLAGS bits [7:2] are 0 (R95). -/
def Job.flagsOk (j : Job) : Bool := decide (bitsOf j.desc.toNat 10 6 = 0)

/-- Bytes `lo` to `hi` are 0. -/
def Job.zero (j : Job) (lo hi : Nat) : Bool := decide (j.fld lo (hi + 1 - lo) = 0)

/-! Turn hints (R382). -/

/-- The horizon of a unit instance, less 8,192 (R115). -/
def unitHorizon (cls inst : Nat) : Nat :=
  match cls with
  | 0x03 => 16 + inst
  | 0x02 => 32 + inst
  | 0x05 => 48 + inst
  | 0x06 => 64 + inst
  | 0x07 => 68
  | 0x08 => 69
  | _ => 70

/-- Bytes a job works on, for its cost. -/
def Job.workBytes (j : Job) (cls : Nat) : Nat :=
  match cls with
  | 0x03 => 4096
  | 0x02 => j.fld 20 4
  | 0x05 => j.fld 12 4
  | 0x06 => j.fld 4 4 * j.fld 2 1
  | _ => 0

/-- Work of a job: FIXED_NS + ceil(PS64 × units of 64 bytes / 1,000) ns (R128, R382). -/
def State.jobWork (s : State) (cls inst : Nat) (j : Job) : Nat :=
  let h := unitHorizon cls inst
  s.rd F.WKT_HCOST_FIXED_NS h + ceilDiv (s.rd F.WKT_HCOST_PS64 h * ceilDiv (j.workBytes cls) 64) 1000

/-- The work of the head job of a ring. -/
def State.headWork (s : State) (cls inst cl : Nat) : Nat :=
  match s.ring cls inst cl with
  | j :: _ => s.jobWork cls inst j
  | [] => 0

/-- A queue pair that has done nothing. -/
def Qp.init : Qp :=
  { base := 0, msgs := [], una := 0, nxt := 0, top := 0, fin := 0, retries := 0, rnrTries := 0, at_ := 0, rnr := none, paceAt := 0,
    rx := none, nakAt := none, cache := [], ackPend := 0, ackAt := 0, stall := none, mseq := 0 }

/-- A queue pair's engine side. -/
def State.qp (s : State) (q : Nat) : Qp := SMap.findD s.trn.qps q Qp.init

/-- `TRN_CFG`.PEER_QPS: 64 on a DFN7124 (R334). -/
def State.peerQps (s : State) : Nat := if s.fuse.variant.repl then s.rd F.TRN_CFG_PEER_QPS else 64

/-- Path MTU in bytes: 4,096 on the peer link, the MTU field for replication (R333). -/
def State.mtu (s : State) (q : Nat) : Nat :=
  if q < s.peerQps then 4096
  else
    match s.rd F.TRN_QP_MTU q with
    | 0 => 1024
    | 1 => 2048
    | _ => 4096

/-- The message of which a queue pair sends a packet next (R337). -/
def Qp.next (x : Qp) : Option TxMsg := x.msgs.find? (fun m => decide (x.nxt < m.lo + m.n))

/-- The Transom job whose message a queue pair sends next. -/
def TxMsg.job (m : TxMsg) : Option Job :=
  match m.src with
  | .job j => some j
  | .append j _ => some j
  | .retire j => some j
  | _ => none

/-- The JOFF of an append. -/
def TxMsg.joff (m : TxMsg) : Option Nat :=
  match m.src with
  | .append _ joff => some joff
  | _ => none

/-- Does an NML job work on a die through its queue: READ, PROGRAM, ERASE, HDR_READ (R383)? -/
def Job.needsDie (j : Job) : Bool := decide (j.op = 1 ∨ j.op = 2 ∨ j.op = 3 ∨ j.op = 6)

/-- The command that holds a die, or waits for it, under a tag of a lane. -/
def State.dieCmd (s : State) (inst num : Nat) : Option NmlOut := (SMap.find s.lanes (inst / 256)).bind (fun x => SMap.find x.cmds (num - 256))

/-- The job that a requester waits for, when a thread issued it. -/
def State.reqJob (s : State) (ac inst num : Nat) : Option Job :=
  if ac = 7 then (s.qp num).next.bind TxMsg.job
  else if ac = 6 then if num < 8 then (s.ring 0x09 (inst / 256) num).head? else (s.dieCmd inst num).map (·.job)
  else if num < 8 then (s.ring (arbUnit ac) inst num).head?
  else none

/-- Time of a die command's pages, in ns (R382). -/
def State.dieWork (s : State) (op pages : Nat) : Nat :=
  1000 * (if op = 3 then s.rd F.WKT_MEDIA_TERASE else if op = 2 then pages * s.rd F.WKT_MEDIA_TPROG else pages * s.rd F.WKT_MEDIA_TREAD)

/-- Work of a requester: of the head job of its ring, or of what its queue pair's message has left (R382). -/
def State.reqWork (s : State) (ac inst num : Nat) : Nat :=
  if ac = 7 then
    match (s.qp num).next with
    | some m =>
      let left := m.data.length - ((s.qp num).nxt - m.lo) * s.mtu num
      s.rd F.WKT_HCOST_FIXED_NS (8 + inst) + ceilDiv (s.rd F.WKT_HCOST_PS64 (8 + inst) * ceilDiv left 64) 1000
    | none => 0
  else if ac = 6 then
    if num < 8 then ((s.ring 0x09 (inst / 256) num).head?.map (fun j => s.dieWork j.op (j.fld 10 2))).getD 0
    else ((s.dieCmd inst num).map (fun o => s.dieWork o.cmd.opc (o.total - o.pages))).getD 0
  else if num < 8 then s.headWork (arbUnit ac) inst num
  else 0

/-- Time to work on what a holder has left of some bytes, granted `dt` ns ago (R382). -/
def leftWork (ps64 bytes dt : Nat) : Nat := ceilDiv (ps64 * ceilDiv (bytes - (if ps64 = 0 then bytes else dt * 64000 / ps64)) 64) 1000

/-- The remaining work of the holder of a grant, from the bytes it has left (R382). -/
def State.heldWork (s : State) (ac inst : Nat) (r : ArbReq) : Nat :=
  if ac = 6 then s.reqWork ac inst r.num - (s.now - r.mark)
  else if ac = 7 then ((s.qp r.num).next.map (fun m =>
    ceilDiv (s.rd F.WKT_HCOST_PS64 (8 + inst) * ceilDiv (m.data.length - ((s.qp r.num).nxt - m.lo) * s.mtu r.num) 64) 1000)).getD 0
  else if r.num < 8 then ((s.ring (arbUnit ac) inst r.num).head?.map (fun j =>
    leftWork (s.rd F.WKT_HCOST_PS64 (unitHorizon (arbUnit ac) inst)) (j.workBytes (arbUnit ac)) (s.now - r.mark))).getD 0
  else 0

/-- Write the hint of a waiting foreground job (R382). END is an estimate: now, the holder's remaining work, the work of the requests
ahead, and the job's own. -/
def State.turnHint (s : State) (ac inst num : Nat) : State :=
  if s.flag F.ARB_CTL_HINT_EN && s.locked.contains F.ARB_HINT_BASE_ADDR.off && s.flag F.ARB_CFG_HINT ac then
    match s.reqJob ac inst num with
    | some j =>
      if j.bg then s
      else
        let a := s.arb ac inst
        let me := stampAge s.now ((a.waiting.find? (fun r => decide (r.num = num))).map (·.stamp) |>.getD s.now)
        let ahead := (a.waiting.filter (fun r => decide (r.num ≠ num) && r.until_.isNone && decide (me ≤ stampAge s.now r.stamp))).foldl
          (fun n r => n + s.reqWork ac inst r.num) 0
        let hold := (a.holder.map (s.heldWork ac inst)).getD 0
        let e := (s.now + hold + ahead + s.reqWork ac inst num) % 2 ^ 32
        let w := j.ticket + e * 2 ^ 16 + (if ac = 6 then inst / 256 else inst) * 2 ^ 48 + arbUnit ac * 2 ^ 56 + 2 ^ 63
        (s.stMem (s.rd F.ARB_HINT_BASE_ADDR * 2 ^ 17 + 512 * j.gid + 8 * (j.ticket % 64)) 8 w).ctr F.ARB_HINTS_CTR ac
    | none => s
  else s

/-! Requests, decisions, release. -/

/-- A requester's request reaches the arbiter. A parked grant is taken at once (R377); a foreground job that must wait
behind a holder gets a hint (R382). The stamp is now, or the one that a PREEMPTED digest slot kept (R202). -/
def State.arbArrive (s : State) (ac inst num : Nat) (bg : Bool) (kept : Option Nat) : State :=
  let a := (s.arb ac inst).accrue s.now
  let r := { newReq num s.now bg (s.boMin ac) with stamp := kept.getD (s.now % 2 ^ 32) }
  if a.holder.isNone && a.quiet && a.parked.isSome then
    s.setArb ac inst { a with holder := some r, byForce := false, parked := none }
  else
    let s' := s.setArb ac inst { a with waiting := a.waiting ++ [r] }
    if a.holder.isSome then s'.turnHint ac inst num else s'

/-- The stamp kept in a PREEMPTED slot for the UPDATE or FINAL that goes on with its message (R202). -/
def State.keptStamp (s : State) (cls : Nat) (j : Job) : Option Nat :=
  if cls = 0x02 ∧ (j.op = 2 ∨ j.op = 3) then (SMap.find s.dg.slots (j.fld 2 2)).bind (fun x => if x.pre then x.stamp else none) else none

/-- Nanoseconds since a stamp. -/
def sinceStamp (now stamp : Nat) : Nat := (now % 2 ^ 32 + 2 ^ 32 - stamp % 2 ^ 32) % 2 ^ 32

/-- Does a digest job wait behind a job on another ring of the lane that names the same slot and arrived earlier (R200)? Of two
that arrived in the same nanosecond, the one of the lower cluster is taken as the earlier (assumption log 34). -/
def State.behindSlot (s : State) (cls inst cl : Nat) (j : Job) : Bool :=
  decide (cls = 0x02 ∧ j.fld 2 2 ≠ 0xFFFF) && (List.range 8).any (fun c => decide (c ≠ cl) &&
    (s.ring cls inst c).any (fun k => decide (k.fld 2 2 = j.fld 2 2 ∧
      (sinceStamp s.now j.stamp < sinceStamp s.now k.stamp ∨ (sinceStamp s.now j.stamp = sinceStamp s.now k.stamp ∧ c < cl)))))

/-- Is a media key slot in use by a started job (R220)? A job of an XTS lane has started when its ring holds the lane's grant. -/
def State.keyBusy (s : State) (k : Nat) : Bool :=
  (List.range 16).any (fun inst => (s.arb 2 inst).holder.any (fun r =>
    decide (r.num < 8) && (s.ring 0x05 inst r.num).head?.any (fun j => decide (j.fld 2 1 = k))))

/-- The arbiter that the head job of a ring passes: that of its unit, or the queue of the die that an NML job names (R383). SUSPEND,
RESUME and the commands of no die pass none. -/
def State.ringArb (s : State) (cls inst cl : Nat) : Option (Nat × Nat) :=
  if cls = 0x09 then ((s.ring cls inst cl).head?.filter Job.needsDie).map (fun j => (6, 256 * inst + j.fld 2 1))
  else (arbClass cls).map (fun ac => (ac, inst))

/-- The head job of a ring becomes eligible (R375), unless it waits behind another job of its digest slot (R200). -/
def State.ringArrive (s : State) (cls inst cl : Nat) : State :=
  match s.ringArb cls inst cl, s.ring cls inst cl with
  | some a, j :: _ => if s.behindSlot cls inst cl j then s else s.arbArrive a.1 a.2 cl j.bg (s.keptStamp cls j)
  | _, _ => s

/-- Has a ring a request at its arbiter? -/
def Arb.requests (a : Arb) (num : Nat) : Bool := a.holder.any (fun r => decide (r.num = num)) || a.waiting.any (fun r => decide (r.num = num))

/-- Digest jobs that waited behind a job of their slot become eligible (R200). -/
def State.slotArrive (s : State) (cls inst : Nat) : State :=
  if cls = 0x02 then
    foldSt (fun c (s : State) => if (s.arb 0 inst).requests c then s else s.ringArrive cls inst c) (List.range 8) s
  else s

/-- What losing a decision does to a request (R380, R381): a background one counts it and backs off. -/
def State.lose (s : State) (ac : Nat) (r : ArbReq) : ArbReq :=
  if r.bg then
    { r with losses := r.losses + 1, forced := r.forced || decide (s.arbLosses ac ≤ r.losses + 1),
             until_ := some (s.now + r.period), period := min (s.boMax ac) (2 * r.period) }
  else r

/-- Grant the chosen request; the others have lost if two or more waited (R376). -/
def State.arbGrant (s : State) (ac inst : Nat) (a : Arb) (w : ArbReq) : State :=
  let rest := a.waiting.filter (fun r => decide (r.num ≠ w.num))
  let live := rest.filter (fun r => r.until_.isNone)
  let backoffs := (live.filter (fun r => r.bg)).length
  let rest' := rest.map (fun r => if r.until_.isNone then s.lose ac r else r)
  let s' := s.setArb ac inst
    { holder := some { w with waited := 0, losses := 0, forced := false, period := s.boMin ac, mark := s.now },
      byForce := w.forced, parked := none, waiting := rest' }
  let s' := s'.ctr F.ARB_GRANTS_CTR ac
  let s' := if w.forced then s'.ctr F.ARB_FORCED_CTR ac else s'
  let s' := if backoffs = 0 then s' else s'.ctr F.ARB_BACKOFF_CTR ac backoffs
  foldSt (fun (r : ArbReq) (s : State) => if r.bg then s else s.turnHint ac inst r.num) live s'

/-- Does the holder lose its grant at this break point (R378)? -/
def Arb.preempts (a : Arb) (now : Nat) (h : ArbReq) : Bool :=
  let w := a.waiting.filter (fun r => r.until_.isNone)
  w.any (fun r => r.forced) ||
    (!a.byForce && (w.any (fun r => decide (stampAge now h.stamp < stampAge now r.stamp)) ||
                    (h.bg && w.any (fun r => !r.bg))))

/-- The grant ends (R377): it stays parked when nobody waits. -/
def State.arbRelease (s : State) (ac inst num : Nat) : State :=
  let a := (s.arb ac inst).accrue s.now
  s.setArb ac inst { a with holder := none, byForce := false,
                            parked := if a.quiet && s.flag F.ARB_CFG_PARK_EN ac then some num else none }

/-- Does a requester hold a grant? -/
def State.holds (s : State) (ac inst num : Nat) : Bool := decide (((s.arb ac inst).holder.map (·.num)) = some num)

/-- A requester withdraws: its grant ends, or its request goes. -/
def State.arbWithdraw (s : State) (ac inst num : Nat) : State :=
  if s.holds ac inst num then s.arbRelease ac inst num
  else
    let a := s.arb ac inst
    if a.waiting.any (fun r => decide (r.num = num)) then
      s.setArb ac inst { a with waiting := a.waiting.filter (fun r => decide (r.num ≠ num)) }
    else s

/-- A piece of work of an internal client: asked for at its arbiter, done when it holds the grant, which then ends. -/
def State.asClient (s : State) (ac inst num : Nat) (bg : Bool) (f : State → State) : State :=
  let s := if (s.arb ac inst).requests num then s else s.arbArrive ac inst num bg none
  if s.holds ac inst num then (f s).arbRelease ac inst num else s

/-- A waiting foreground request that has reached WAIT_LIMIT becomes forced (R380). -/
def ArbReq.force (limit : Nat) (r : ArbReq) : ArbReq := { r with forced := r.forced || (!r.bg && decide (limit ≤ r.waited)) }

/-- Counters up to now, and forced requesters. -/
def State.arbNow (s : State) (ac inst : Nat) : Arb :=
  let a := (s.arb ac inst).accrue s.now
  { a with waiting := a.waiting.map (ArbReq.force (s.arbLimit ac)) }

/-- A holder whose request goes on later (R379, R381): a foreground one keeps its stamp, a background one has lost a decision and backs
off. -/
def State.arbPutBack (s : State) (ac : Nat) (h : ArbReq) : ArbReq :=
  if h.bg then { s.lose ac h with waited := 0, mark := s.now }
  else { h with waited := 0, mark := s.now }

/-- The holder loses its grant at a break point and waits again (R378, R379). -/
def State.arbYield (s : State) (ac inst : Nat) (a : Arb) (h : ArbReq) : State :=
  let s := s.ctr F.ARB_PREEMPT_CTR ac
  let s' := if h.bg then s.ctr F.ARB_BACKOFF_CTR ac else s
  s'.setArb ac inst { a with holder := none, byForce := false, waiting := a.waiting ++ [s.arbPutBack ac h] }

/-- Does the head job of a ring hold the grant of its arbiter, where it passes one? -/
def State.granted (s : State) (cls inst cl : Nat) : Bool := (s.ringArb cls inst cl).all (fun a => s.holds a.1 a.2 cl)

end Sys2Proof.Machine
end

