-- ==== Sys2Proof/Machine/Domains.lean ====
section
/-! DEFINITION. Power domains (R415 to R420): which unit lies in which, which states each allows, and waking. `PWR_DOM` holds
MODE, STATE and WAKES; `doms` the times of a sequence. -/

namespace Sys2Proof.Machine

/-- Is a domain's unit present (R5, R415)? -/
def State.domPresent (s : State) (d : Nat) : Bool :=
  if 10 ≤ d ∧ d ≤ 25 then decide (d - 10 < s.fuse.variant.engines)
  else if 26 ≤ d ∧ d ≤ 33 then decide (2 * (d - 26) < s.fuse.variant.engines)
  else if 40 ≤ d ∧ d ≤ 43 then decide (48 * (d - 40) < s.fuse.variant.hbmGib)
  else if 44 ≤ d ∧ d ≤ 47 then decide (d - 44 < s.fuse.variant.quads)
  else if 48 ≤ d ∧ d ≤ 51 then decide (d - 48 < s.fuse.variant.quads)
  else if 52 ≤ d ∧ d ≤ 59 then decide (8 * (d - 52) < s.fuse.variant.lanes)
  else decide (d < 64)

/-- The states a domain allows, bit s for state s (R415); search bank 0 leaves RUN only while ADMIT_EN is 0. -/
def State.domAllowed (s : State) (d : Nat) : Nat :=
  if d ≤ 1 then 1
  else if d = 2 then 0b0111
  else if d ≤ 39 then 0b1111
  else if d ≤ 43 then 1
  else if d ≤ 59 then 0b1001
  else if d = 61 then (if s.flag F.WKT_CTL_ADMIT_EN then 1 else 0b1101)
  else if d = 62 then 0b1101
  else 1

/-- Is a domain held OFF by firmware (R8, R417)? -/
def State.heldOff (s : State) (d : Nat) : Bool := decide (s.rd F.PWR_DOM_MODE d = 3)

/-- The domain of a unit instance of R84 (R415). -/
def unitDomain (cls inst : Nat) : Nat :=
  match cls with
  | 0x01 => 44 + inst
  | 0x02 => 26 + inst / 2
  | 0x03 => 10 + inst
  | 0x05 => 34 + inst / 4
  | 0x06 => 38 + inst / 2
  | 0x09 => 52 + inst / 8
  | _ => 1

/-- A thread that waits goes on: its core and cluster wake (R68). -/
def State.resumeW (s : State) (t : Nat) : State := (s.resume t).domWake (2 + clusterOf t)

/-- Is a unit's domain running? -/
def State.domRuns (s : State) (d : Nat) : Bool := decide (s.domState d = 0)

/-- The switched domain whose units an offset's register belongs to: Ox units, digest lanes, parity engines (R415). -/
def regDomain (off : Nat) : Option Nat :=
  if 0x2C00000 ≤ off ∧ off < 0x2C10000 then some (10 + (off - 0x2C00000) / 0x1000)
  else if 0x2E00000 ≤ off ∧ off < 0x2E10000 then some (26 + (off - 0x2E00000) / 0x2000)
  else if 0x3600000 ≤ off ∧ off < 0x3604000 then some (38 + (off - 0x3600000) / 0x2000)
  else none

/-- A register access that reaches a domain in DOZE or RETAIN wakes it (R418); the wake time before it runs is timing. -/
def State.regWake (s : State) (off : Nat) : State :=
  match regDomain off with
  | some d => if s.domState d = 1 ∨ s.domState d = 2 then s.domWake d else s
  | none => s

end Sys2Proof.Machine
end

