-- ==== Sys2Proof/Machine/Search.lean ====
section
/-! DEFINITION. The search unit (R366 to R374) and the search instructions (R88, R89). -/

namespace Sys2Proof.Machine

/-- Is a bank usable: INIT_DONE and not in OFF (R373, R374)? -/
def State.bankReady (s : State) (bank : Nat) : Bool :=
  (if bank = 0 then s.flag F.SRCH_STATUS_INIT_DONE0 else s.flag F.SRCH_STATUS_INIT_DONE1) &&
    decide (s.domState (61 + bank) ≠ 3)

/-- An entry that cannot be recovered (R372). -/
def State.entryLost (s : State) (bank i : Nat) : State :=
  let s := s.ctr F.SRCH_DOUBLE_CTR
  if bank = 0 then s.raise 0x088 i
  else
    let s := (s.setSent 1 i { s.sent 1 i with valid := false, badParity := false }).putShadow 1 i
    ((s.wr F.SRCH_FAULT_INDEX i).setFlag F.SRCH_FAULT_VALID).raise 0x087 i

/-- Repair an entry that failed its parity from its shadow, or lose it (R370). -/
def State.repair (s : State) (bank i : Nat) : State :=
  let s := s.eccCorrect 0 (s.shadowAddr bank i) 64
  match s.getShadow bank i with
  | some e => ((s.setSent bank i e).ctr F.SRCH_REPAIRS_CTR).raise 0x085 (i + bankSize * bank)
  | none => s.entryLost bank i

/-- Entries of a bank that fail their parity. -/
def State.badEntries (s : State) (bank : Nat) : List Nat :=
  (s.srch.filter (fun p => decide (p.1 / bankSize = bank) && p.2.badParity)).map (fun p => p.1 % bankSize)

/-- Repair before a search completes (R370). -/
def State.repairBank (s : State) (bank : Nat) : State := foldSt (fun i (s : State) => s.repair bank i) (s.badEntries bank) s

/-- Does an entry match a key (R366)? -/
def SEntry.matches (e : SEntry) (key : BitVec 160) : Bool := e.valid && decide ((e.value ^^^ key) &&& e.mask = 0)

/-- Indices of a bank that match a key, lowest first, from `lo` upward. -/
def State.srchHits (s : State) (bank : Nat) (key : BitVec 160) (lo : Nat) : List Nat :=
  (s.srch.filter (fun p => decide (p.1 / bankSize = bank ∧ lo ≤ p.1 % bankSize) && p.2.matches key)).map
    (fun p => p.1 % bankSize)

/-- The search result word (R88). -/
def srchWord (bank : Nat) : List Nat → Word
  | [] => 0
  | i :: rest => BitVec.ofNat 64 (i + bank * 2 ^ 15 + b2n (!rest.isEmpty) * 2 ^ 62 + 2 ^ 63)

/-- The lowest index of a bank that holds no valid entry, from `k` up. -/
def State.srchFree (s : State) (bank : Nat) : Nat → Nat → Option Nat
  | 0, _ => none
  | n + 1, k =>
    if bankSize ≤ k then none else if (s.sent bank k).valid then State.srchFree s bank n (k + 1) else some k

/-- A free entry of bank 0 (R367). -/
def State.ifwFree (s : State) : Option Nat := s.srchFree 0 (s.srch.length + 1) 0

/-! Instructions. -/

/-- ILLEGAL with the instruction word. -/
def Body.illegal (s : State) (w : BitVec 32) : Body := .trap s vecIllegal (w.setWidth 64)

/-- PRIV with the instruction word. -/
def Body.priv (s : State) (w : BitVec 32) : Body := .trap s vecPriv (w.setWidth 64)

/-- Do registers r to r + k - 1 lie within g1 to g31 (R73)? -/
def groupOk (r k : Nat) : Bool := decide (1 ≤ r ∧ r + k ≤ 32)

/-- A 160-bit operand in g[r] to g[r + 2]. -/
def State.key160 (s : State) (t r : Nat) : BitVec 160 :=
  BitVec.ofNat 160 ((s.g t r).toNat + (s.g t (r + 1)).toNat * 2 ^ 64 + (s.g t (r + 2)).toNat % 2 ^ 32 * 2 ^ 128)

/-- An access wakes a bank in RETAIN (R374). -/
def State.bankTouch (s : State) (bank : Nat) : State := if s.domState (61 + bank) = 2 then s.domWake (61 + bank) else s

/-- SRCH.FIND (R88). -/
def srchFindBody (t : Nat) (bank rd rs1 : Nat) (w : BitVec 32) (s : State) : Body :=
  if !groupOk rs1 3 then .illegal s w
  else
    let key := s.key160 t rs1
    let s := s.bankTouch bank
    if !s.bankReady bank then
      (s.updThread t (fun th => { th with iter := some { bank := bank, key := key, last := none } })).put t rd 0
    else
      let s := (s.repairBank bank).ctr F.SRCH_FINDS_CTR
      let h := s.srchHits bank key 0
      (s.updThread t (fun th => { th with iter := some { bank := bank, key := key, last := h.head? } })).put t rd
        (srchWord bank h)

/-- SRCH.FIND. -/
def execSrchFind (t : BitVec 8) (bank : BitVec 1) (rd rs1 : BitVec 5) (s : State) : Res :=
  .next (s.issue t.toNat (srchFindBody t.toNat bank.toNat rd.toNat rs1.toNat (encQ 0x31 rd rs1 0 0x00 bank.toNat)))

/-- SRCH.NEXT (R89). -/
def srchNextBody (t : Nat) (rd : Nat) (s : State) : Body :=
  match (s.thread t).iter with
  | none => s.put t rd 0
  | some it =>
    let s := s.bankTouch it.bank
    if !s.bankReady it.bank then s.put t rd 0
    else
      let s := (s.repairBank it.bank).ctr F.SRCH_NEXTS_CTR
      let h := s.srchHits it.bank it.key ((it.last.map (· + 1)).getD 0)
      let s := match h with
        | [] => s
        | i :: _ => s.updThread t (fun th => { th with iter := some { it with last := some i } })
      s.put t rd (srchWord it.bank h)

/-- SRCH.NEXT. -/
def execSrchNext (t : BitVec 8) (rd : BitVec 5) (s : State) : Res :=
  .next (s.issue t.toNat (srchNextBody t.toNat rd.toNat))

/-- May the thread write the bank (R367)? -/
def State.mayWriteBank (s : State) (t bank : Nat) : Bool :=
  (s.thread t).keeper || (decide (bank = 1) && s.flag F.SRCH_CTL_HWR1)

/-- Write or clear an entry of a bank on behalf of firmware: rd = 1, or 0 where it is refused (R367, R373). -/
def State.fwSrchPut (s : State) (t rd bank i : Nat) (e : SEntry) : Body :=
  let s := s.bankTouch bank
  if bank = 0 || !s.bankReady 1 then s.put t rd 0 else (s.srchPut 1 i e).put t rd 1

/-- SRCH.WR (R88). -/
def execSrchWr (t : BitVec 8) (bank : BitVec 1) (rd rs1 rs2 : BitVec 5) (s : State) : Res :=
  let w := encQ 0x31 rd rs1 rs2 0x02 bank.toNat
  .next (s.issue t.toNat (fun s =>
    if !s.mayWriteBank t.toNat bank.toNat then .priv s w
    else if !groupOk rs1.toNat 6 then .illegal s w
    else s.fwSrchPut t.toNat rd.toNat bank.toNat ((s.g t.toNat rs2.toNat).toNat % bankSize)
      { value := s.key160 t.toNat rs1.toNat, mask := s.key160 t.toNat (rs1.toNat + 3), valid := true, wcount := 0,
        badParity := false }))

/-- SRCH.CLR (R88). -/
def execSrchClr (t : BitVec 8) (rd rs2 : BitVec 5) (s : State) : Res :=
  let w := encQ 0x31 rd 0 rs2 0x03 0
  .next (s.issue t.toNat (fun s =>
    let x := (s.g t.toNat rs2.toNat).toNat
    let bank := bitsOf x 15 1
    if !s.mayWriteBank t.toNat bank then .priv s w
    else s.fwSrchPut t.toNat rd.toNat bank (x % bankSize) { s.sent bank (x % bankSize) with valid := false }))

/-- SRCH.RD (R88): VALUE in g[rd] to g[rd + 2], MASK in g[rd + 3] to g[rd + 5], VALID in g[rd + 6]. -/
def execSrchRd (t : BitVec 8) (rd rs2 : BitVec 5) (s : State) : Res :=
  let w := encQ 0x31 rd 0 rs2 0x04 0
  .next (s.issue t.toNat (fun s =>
    if !(s.thread t.toNat).keeper then .priv s w
    else if !groupOk rd.toNat 7 then .illegal s w
    else
      let x := (s.g t.toNat rs2.toNat).toNat
      let s := s.bankTouch (bitsOf x 15 1)
      let e := s.sent (bitsOf x 15 1) (x % bankSize)
      let ws := fun (v : BitVec 160) =>
        [BitVec.ofNat 64 v.toNat, BitVec.ofNat 64 (bitsOf v.toNat 64 64), BitVec.ofNat 64 (bitsOf v.toNat 128 32)]
      .next (s.updThread t.toNat (fun th => th.setGs rd.toNat (ws e.value ++ ws e.mask ++ [bw e.valid])))))

/-! INIT, RESTORE and the scrubber. -/

/-- Begin an operation on a bank (R373): refused until `SRCH_SHADOW_BASE` is written. -/
def State.srchBegin (s : State) (o : SrchOp) : State :=
  if s.srchBased then
    let s := { s with srchBusy := s.srchBusy ++ [o] }
    let s := s.setFlag F.SRCH_STATUS_BUSY
    match o with
    | .init0 => s.clrFlag F.SRCH_STATUS_INIT_DONE0
    | .init1 => s.clrFlag F.SRCH_STATUS_INIT_DONE1
    | .restore1 => s
  else s

/-- SRCH_CTL.INIT0 (R373). -/
def execSrchInit0 (s : State) : Res := .next (s.srchBegin .init0)

/-- SRCH_CTL.INIT1 (R373). -/
def execSrchInit1 (s : State) : Res := .next (s.srchBegin .init1)

/-- SRCH_CTL.RESTORE1 (R373). -/
def execSrchRestore1 (s : State) : Res := .next (s.srchBegin .restore1)

/-- Clear a bank: every entry and every shadow as an invalid entry with a valid CHECK. -/
def State.srchClear (s : State) (bank : Nat) : State :=
  let s := { s with srch := s.srch.filter (fun p => decide (p.1 / bankSize ≠ bank)) }
  foldSt (fun i (s : State) => (s.eccWrite (s.shadowAddr bank i) SEntry.init.shadow).1) (List.range bankSize) s

/-- Load bank 1 from its shadows: an entry whose CHECK fails is left invalid and counted. -/
def State.srchRestore (s : State) : State :=
  let s := s.wr F.SRCH_STATUS_RESTORE_LOST 0
  foldSt (fun i (s : State) =>
    let s := s.eccCorrect 0 (s.shadowAddr 1 i) 64
    match s.getShadow 1 i with
    | some e => s.setSent 1 i e
    | none => (s.setSent 1 i SEntry.init).wr F.SRCH_STATUS_RESTORE_LOST
        (min 65535 (s.rd F.SRCH_STATUS_RESTORE_LOST + 1))) (List.range bankSize) s

/-- The operation in progress completes (R373). -/
def State.srchDone (s : State) : State :=
  match s.srchBusy with
  | [] => s
  | o :: rest =>
    let s := { s with srchBusy := rest }
    let s := if rest.isEmpty then s.clrFlag F.SRCH_STATUS_BUSY else s
    match o with
    | .init0 => (s.srchClear 0).setFlag F.SRCH_STATUS_INIT_DONE0
    | .init1 => (s.srchClear 1).setFlag F.SRCH_STATUS_INIT_DONE1
    | .restore1 => s.srchRestore

/-- INIT or RESTORE completes (R373). -/
def execSrchInitDone (s : State) : Res := .next s.srchDone

/-- The scrubber's next position. -/
def State.scrubNext (s : State) : State :=
  let i := s.rd F.SRCH_SCRUB_AT
  let b := s.rd F.SRCH_SCRUB_AT_BANK
  if i + 1 < bankSize then s.wr F.SRCH_SCRUB_AT (i + 1)
  else (s.wr F.SRCH_SCRUB_AT 0).wr F.SRCH_SCRUB_AT_BANK (1 - b)

/-- Compare an entry with its shadow (R371). An entry that equals its shadow but fails its parity, which the table of R371 does not list,
is rewritten as R370 has it (DEDUCED, assumption log 107). -/
def State.scrubEntry (s : State) (bank i : Nat) : State :=
  let s := s.eccCorrect 0 (s.shadowAddr bank i) 64
  let e := s.sent bank i
  match s.getShadow bank i with
  | some x =>
    if e.value = x.value ∧ e.mask = x.mask ∧ e.valid = x.valid ∧ e.badParity = false then s
    else ((s.setSent bank i x).ctr F.SRCH_REPAIRS_CTR).raise 0x085 (i + bankSize * bank)
  | none =>
    if e.badParity then s.entryLost bank i
    else ((s.putShadow bank i).ctr F.SRCH_SHADOW_FIX_CTR).raise 0x086 (i + bankSize * bank)

/-- The scrubber visits the next entry (R371). -/
def execSrchScrubVisit (s : State) : Res :=
  .next (if s.flag F.SRCH_CTL_SCRUB_EN && s.srchBased && s.bankReady (s.rd F.SRCH_SCRUB_AT_BANK) then
    (s.scrubEntry (s.rd F.SRCH_SCRUB_AT_BANK) (s.rd F.SRCH_SCRUB_AT)).scrubNext
  else s)

end Sys2Proof.Machine
end

