-- ==== Sys2Proof/Machine/Jobs.lean ====
section
/-! DEFINITION. Job issue (R62, R83, R84), the end of a job (R66, R94, R96, R97), and the frame every unit's job rows share. -/

namespace Sys2Proof.Machine

/-! Status codes (R96). -/

def stDone : Nat := 0x00
def stDoneRaw : Nat := 0x01
def stPartial : Nat := 0x02
def stCheck : Nat := 0x10
def stTag : Nat := 0x11
def stLost : Nat := 0x12
def stMediaErr : Nat := 0x20
def stMediaTmo : Nat := 0x21
def stLease : Nat := 0x22
def stBroken : Nat := 0x30
def stNoSpace : Nat := 0x31
def stRefused : Nat := 0x32
def stBad : Nat := 0x3E
def stAbsent : Nat := 0x3F

/-- Is a CLASS listed in R84? -/
def classListed (cls : Nat) : Bool := decide (1 ≤ cls ∧ cls ≤ 13)

/-- The highest instance number of a class (R84). -/
def classMax (cls : Nat) : Nat :=
  match cls with
  | 0x01 => 3 | 0x02 => 15 | 0x03 => 15 | 0x05 => 15 | 0x06 => 3 | 0x09 => 63 | _ => 0

/-- Is a unit instance present in this variant (R1)? -/
def State.unitPresent (s : State) (cls inst : Nat) : Bool :=
  let v := s.fuse.variant
  match cls with
  | 0x01 => decide (inst < v.quads)
  | 0x02 => decide (inst < v.engines)
  | 0x03 => decide (inst < v.engines)
  | 0x04 => v.ddx
  | 0x09 => decide (inst < v.lanes)
  | _ => true

/-- Is a unit instance held OFF by firmware (R8)? -/
def State.unitOff (s : State) (cls inst : Nat) : Bool := s.heldOff (unitDomain cls inst)

/-- May a descriptor go to any instance of its class (R84)? Digest lanes: a transient ONESHOT only. -/
def anyAllowed (cls : Nat) (d : Desc) : Bool :=
  match cls with
  | 0x01 => false
  | 0x09 => false
  | 0x02 => decide (bitsOf d.toNat 0 8 = 4 ∧ bitsOf d.toNat 16 16 = 0xFFFF)
  | _ => true

/-- Entries of a ring (R62). -/
def ringSize : Nat := 256

/-- The present instances of a class. -/
def State.present (s : State) (cls : Nat) : List Nat :=
  (List.range (classMax cls + 1)).filter (fun i => s.unitPresent cls i)

/-- The least-filled present instance that is not OFF, the lowest on a tie (R83). -/
def State.leastFilled (s : State) (cls cl : Nat) : Option Nat :=
  minBy (fun i => (s.ring cls i cl).length) ((s.present cls).filter (fun i => !s.unitOff cls i))

/-- The descriptor in g[r] to g[r + 7]. -/
def State.descAt (s : State) (t r : Nat) : Desc :=
  BitVec.ofNat 512 ((List.range 8).foldl (fun n i => n + (s.g t (r + i)).toNat * 2 ^ (64 * i)) 0)

/-- Complete ticket `v` of thread `t` with a completion, where that ticket is live (R66). A completion for a ticket that is
not live is dropped. -/
def State.arrive (s : State) (t : Nat) (v : Nat) (c : Comp) : State :=
  s.updThread t (fun th =>
    match th.ticket v with
    | some k => { th with tickets := SMap.put th.tickets (v % 64) { k with comp := some c, arrived := th.nextArrival } }
    | none => th)

/-- `post` of R83: allocate a ticket, write it to rd, complete it at once. -/
def State.postAtIssue (s : State) (t rd inst status : Nat) : State :=
  let (v, s) := s.allocTicket t
  (s.setG t rd (BitVec.ofNat 64 v)).arrive t v
    { gid := t, status := status, unit := inst, ticket := v, aux := 0, result := 0 }

/-- Put a descriptor on a ring that has room: ticket, wake of a unit in DOZE or RETAIN, and the request of a job that
becomes the head. -/
def State.ringPush (s : State) (t rd cls inst : Nat) (d : Desc) : State :=
  let cl := clusterOf t
  let was := s.ring cls inst cl
  let (v, s) := s.allocTicket t
  let s := s.setG t rd (BitVec.ofNat 64 v)
  let j : Job := { gid := t, ticket := v, desc := d, item := (s.thread t).item, stamp := s.now % 2 ^ 32
                   dark := decide (cls = 0x04) && !s.flag F.DDX_CTL_EN }
  let s := s.setRing cls inst cl (was ++ [j])
  let s := s.domWake (unitDomain cls inst)
  if was.isEmpty then s.ringArrive cls inst cl else s

/-- J after the instance is chosen (R83). -/
def State.jTo (s : State) (t rd rs1 cls inst fld : Nat) : Body :=
  if classMax cls < inst then .next (s.postAtIssue t rd fld stBad)
  else if !s.unitPresent cls inst then .next (s.postAtIssue t rd fld stAbsent)
  else if s.unitOff cls inst then .next ((s.postAtIssue t rd fld stBad).note 0x080 (inst + 2 ^ 8 * cls))
  else if ringSize ≤ (s.ring cls inst (clusterOf t)).length then
    .stay ((s.updThread t (fun th => { th with st := .wait, wait := some (.ring rd rs1 cls inst) })).ctr
      F.MQ_RING_STALL_COUNT (clusterOf t))
  else .next (s.ringPush t rd cls inst (s.descAt t rs1))

/-- J (R83). -/
def jBody (t rd rs1 cls inst : Nat) (w : BitVec 32) (s : State) : Body :=
  if rs1 < 1 ∨ 24 < rs1 then .illegal s w
  else if !classListed cls then .illegal s w
  else if (s.thread t).live = 64 then .trap s vecTicket (w.setWidth 64)
  else if inst = 0x7F then
    if !anyAllowed cls (s.descAt t rs1) then .next (s.postAtIssue t rd 0x7F stBad)
    else if (s.present cls).isEmpty then .next (s.postAtIssue t rd 0x7F stAbsent)
    else
      match s.leastFilled cls (clusterOf t) with
      | none => .next (s.postAtIssue t rd 0x7F stBad)
      | some i => s.jTo t rd rs1 cls i i
  else s.jTo t rd rs1 cls inst inst

/-- J (R83). -/
def execJ (t : BitVec 8) (rd rs1 cls : BitVec 5) (inst : BitVec 7) (s : State) : Res :=
  .next (s.issue t.toNat (jBody t.toNat rd.toNat rs1.toNat cls.toNat inst.toNat (encJ rd rs1 cls inst)))

/-- A J stalled on a full ring issues when an entry has freed (R62); when the unit has been put OFF meanwhile it ends BAD_JOB with the
WARN event (R8). -/
def execJRingResume (t : BitVec 8) (s : State) : Res :=
  .next (match (s.thread t.toNat).st, (s.thread t.toNat).wait with
    | .wait, some (.ring rd rs1 cls inst) =>
      if s.unitOff cls inst then ((s.postAtIssue t.toNat rd inst stBad).note 0x080 (inst + 2 ^ 8 * cls)).resumeW t.toNat
      else if (s.ring cls inst (clusterOf t.toNat)).length < ringSize then
        (s.ringPush t.toNat rd cls inst (s.descAt t.toNat rs1)).resumeW t.toNat
      else s
    | _, _ => s)

/-! The end of a job. -/

/-- How a job ends: status, AUX and RESULT. -/
structure JobEnd where
  status : Nat
  aux : Nat
  result : Nat
  deriving DecidableEq, Repr

/-- A job that fails its check. -/
def JobEnd.bad : JobEnd := { status := stBad, aux := 0, result := 0 }

/-- A job that could not read its input (R97): CHECK_FAIL with MEM_ERR. -/
def JobEnd.memErr : JobEnd := { status := stCheck, aux := 0, result := 2 ^ 63 }

/-- A status alone. -/
def JobEnd.st (c : Nat) : JobEnd := { status := c, aux := 0, result := 0 }



/-- Send a completion towards its thread (R66), and free the buffer of a FREE_IN job that ended DONE or DONE_RAW (R94). -/
def State.complete (s : State) (j : Job) (inst inH : Nat) (e : JobEnd) : State :=
  let s := { s with comps := s.comps ++ [{ gid := j.gid, status := e.status, unit := inst, ticket := j.ticket,
                                           aux := e.aux % 2 ^ 32, result := e.result % 2 ^ 64 }] }
  if j.freeIn && decide (e.status = stDone ∨ e.status = stDoneRaw) && decide (inH ≠ 0) then s.stgDrop inH else s

/-- How a front-end or segment job ends: one that would end DONE after its item's deadline has passed, which then has a declared cause,
ends PROMISE_BROKEN (R96; DEDUCED, assumption log 97). -/
def State.lateEnd (s : State) (j : Job) (e : JobEnd) : JobEnd :=
  if e.status = stDone ∧ (j.item.bind s.prm).any (fun p => decide (p.st = .expired)) then { e with status := stBroken } else e

/-- Complete a front-end or segment job. -/
def State.completeP (s : State) (j : Job) (inst inH : Nat) (e : JobEnd) : State := s.complete j inst inH (s.lateEnd j e)

/-- The MEM_UNCORR event of R97. -/
def State.memEvent (s : State) (cls inst : Nat) : State := s.note 0x08D (inst + 2 ^ 8 * cls)

/-- The rings of a unit instance are empty. -/
def State.ringsEmpty (s : State) (cls inst : Nat) : Bool := (List.range 8).all (fun cl => (s.ring cls inst cl).isEmpty)

/-- A unit that has no job left counts its idle time from now (R416). -/
def State.noteIdle (s : State) (cls inst : Nat) : State :=
  let d := unitDomain cls inst
  if 10 ≤ d ∧ d ≤ 39 ∧ s.ringsEmpty cls inst = true then s.setDom d { s.dom d with idleSince := some s.now } else s

/-- Take the head job off a ring: its grant ends, and the next job requests (R375). -/
def State.popRing (s : State) (cls inst cl : Nat) : State :=
  match s.ring cls inst cl with
  | [] => s
  | _ :: rest =>
    let s := match s.ringArb cls inst cl with
      | some a => s.arbWithdraw a.1 a.2 cl
      | none => s
    (((s.setRing cls inst cl rest).ringArrive cls inst cl).slotArrive cls inst).noteIdle cls inst

/-- The jobs on the rings of a unit that firmware puts OFF end BAD_JOB, each with a WARN event (R8); their request goes. -/
def State.offJobs (s : State) (cls inst : Nat) : State :=
  foldSt (fun cl (s : State) =>
    let s' := match s.ringArb cls inst cl with
      | some a => s.arbWithdraw a.1 a.2 cl
      | none => s
    foldSt (fun (j : Job) (s : State) => (s.complete j inst 0 .bad).note 0x080 (inst + 2 ^ 8 * cls)) (s.ring cls inst cl)
      (s'.setRing cls inst cl [])) (List.range 8) s

/-- The highest OP a class defines. -/
def opMax (cls : Nat) : Nat :=
  match cls with
  | 0x01 => 7 | 0x02 => 5 | 0x03 => 2 | 0x04 => 6 | 0x05 => 2 | 0x06 => 3 | 0x07 => 12 | 0x08 => 6 | 0x09 => 9
  | 0x0A => 4 | 0x0B => 2 | 0x0C => 2 | _ => 1

/-- Is OP defined for the class? -/
def opDefined (cls op : Nat) : Bool := decide (1 ≤ op ∧ op ≤ opMax cls)

/-- What a unit does with the job at the head of a ring: end it, with the IN handle for FREE_IN; take it in and complete it
later; or leave it where it is. -/
inductive JobDo where
  | done (s : State) (inH : Nat) (e : JobEnd)
  | taken (s : State)
  | held (s : State)

/-- A BAD_JOB ending. -/
def JobDo.bad (s : State) : JobDo := .done s 0 .bad

/-- A CHECK_FAIL with MEM_ERR and its event (R97). -/
def JobDo.memErr (s : State) (cls inst : Nat) : JobDo := .done (s.memEvent cls inst) 0 .memErr

/-- Run the job at the head of a ring (class, instance, cluster) when it is one of those the row takes (`mine`), or its
OP is one the class does not define, which any row of the unit ends BAD_JOB (R95 check 1); and the unit is present and running, and the ring holds the grant. The
checks of R95 are `check` (fields and handles) and the common flags. -/
def State.runJob (s : State) (cls inst cl : Nat) (mine : Job → Bool) (check : Job → State → Bool) (body : Job → State → JobDo) : State :=
  match s.ring cls inst cl with
  | [] => s
  | j :: _ =>
    if !s.unitPresent cls inst || !s.domRuns (unitDomain cls inst) || !s.granted cls inst cl then s
    else if !opDefined cls j.op then (s.popRing cls inst cl).complete j inst 0 .bad
    else if !mine j then s
    else if !j.flagsOk || !check j s then (s.popRing cls inst cl).complete j inst 0 .bad
    else
      match body j s with
      | .done s h e => (s.popRing cls inst cl).complete j inst h (if cls = 0x01 ∨ cls = 0x08 then s.lateEnd j e else e)
      | .taken s => s.popRing cls inst cl
      | .held s => s

/-- Does a job have an OP? -/
def isOp (op : Nat) (j : Job) : Bool := decide (j.op = op)

end Sys2Proof.Machine
end

