-- ==== Sys2Proof/Machine/Digest.lean ====
section
/-! DEFINITION. The digest lanes (R197 to R205): slots, jobs, preemption and the register port. -/

namespace Sys2Proof.Machine

/-- A slot that has never been used. -/
def DgSlot.init : DgSlot :=
  { st := 0, alg := 1, keyed := false, h := [], len := 0, buf := [], key := none, pre := false, stamp := none }

/-- A digest slot. -/
def State.dgSlot (s : State) (k : Nat) : DgSlot := SMap.findD s.dg.slots k DgSlot.init

/-- Set a digest slot. -/
def State.setDgSlot (s : State) (k : Nat) (x : DgSlot) : State :=
  { s with dg := { s.dg with slots := SMap.putD s.dg.slots k x DgSlot.init } }

/-- Discard a slot's message. -/
def DgSlot.drop (x : DgSlot) : DgSlot := { DgSlot.init with key := x.key }

/-- Open a message: from the initial value of the algorithm, or from the cached inner key state (R198). -/
def DgSlot.start (x : DgSlot) (alg : Nat) (keyed : Bool) : DgSlot :=
  { x with st := 1, alg := alg, keyed := keyed, len := 0, buf := [], pre := false, stamp := none
           h := match keyed, x.key with
             | true, some k => k.inner
             | _, _ => shaIv alg }

/-- Take message bytes. -/
def DgSlot.feed (x : DgSlot) (d : List Byte) : DgSlot :=
  let l := x.buf ++ d
  let r := shaAbsorb x.alg (l.length / shaBlock x.alg) x.h l
  { x with h := r.1, buf := r.2, len := x.len + d.length }

/-- The digest of the message so far. -/
def DgSlot.digest (x : DgSlot) : List Byte :=
  let inner := shaFinish x.alg x.h x.buf (x.len + if x.keyed then shaBlock x.alg else 0)
  match x.keyed, x.key with
  | true, some k => hmacOuter x.alg k.outer inner
  | _, _ => inner

/-- A message that has been finished: DONE. -/
def DgSlot.finish (x : DgSlot) : DgSlot := { x with st := 2, h := [], buf := [] }

/-- The key states of a key (R199). -/
def dgKey (alg : Nat) (key : List Byte) : DgKey :=
  { alg := alg, inner := hmacState alg key 0x36, outer := hmacState alg key 0x5C }

/-- Has the slot a key for an algorithm? -/
def DgSlot.keyFor (x : DgSlot) (alg : Nat) : Bool :=
  match x.key with
  | some k => decide (k.alg = alg)
  | none => false

/-- Most bytes a message may have (R199). -/
def dgMax (alg : Nat) : Nat := if alg ≤ 1 then 2 ^ 61 - 1 else 2 ^ 64 - 1

/-! Jobs. -/

/-- Is SLOT the transient one? -/
def Job.transient (j : Job) : Bool := decide (j.fld 2 2 = 0xFFFF)

/-- The algorithm a job works with: its own for START, ONESHOT and KEYLOAD, the slot's otherwise. -/
def dgAlg (s : State) (j : Job) : Nat := if j.op = 2 ∨ j.op = 3 then (s.dgSlot (j.fld 2 2)).alg else j.fld 4 1

/-- The checks of R95, R98, R198, R199 and R203 on a job for a lane. -/
def dgCheck (inst : Nat) (j : Job) (s : State) : Bool :=
  let op := j.op
  let slot := j.fld 2 2
  let x := s.dgSlot slot
  let alg := dgAlg s j
  let len := j.fld 20 4
  let starts := decide (op = 1 ∨ op = 4)
  let finals := decide (op = 3 ∨ op = 4)
  j.zero 6 7 && j.zero 36 63 && decide (len ≤ 2097151) &&
    (if j.transient then decide (op = 4 ∧ j.fld 5 1 = 0 ∧ len ≤ 16384) else decide (slot / 16 = inst)) &&
    (decide (op = 2 ∨ op = 3) || decide (j.fld 4 1 ≤ 4)) && (!starts || decide (j.fld 5 1 ≤ 1)) &&
    (decide (op ≠ 1 ∧ op ≠ 2) || decide (len % shaBlock alg = 0)) &&
    (decide (op ≠ 2 ∧ op ≠ 3) || decide (x.st = 1)) &&
    (decide (op ≠ 2) || decide (x.len + len ≤ dgMax x.alg)) &&
    (!starts || decide (j.fld 5 1 = 0) || x.keyFor alg) &&
    (!(s.flag F.DG_CTL_PORT_EN inst && decide (slot = 16 * inst + 15)) || (decide (op = 5) && decide (x.st ≠ 1))) &&
    (if j.fld 8 8 = 0 then decide (len = 0) else s.inHandle (j.fld 8 8) (j.fld 16 4) len) &&
    (!finals || decide (j.fld 24 8 = 0) || s.inHandle (j.fld 24 8) (j.fld 32 4) (shaLen alg))

/-- Bytes read before the first uncorrectable error, in whole blocks. -/
def State.goodBlocks (s : State) (a n bs : Nat) : Nat :=
  match s.eccBad.find? (fun g => decide (a / 8 ≤ g ∧ g ≤ (a + n - 1) / 8)) with
  | some g => (8 * g - a) / bs * bs
  | none => n

/-- A job completed DONE. -/
def dgDone (s : State) (inst : Nat) (j : Job) (result : Nat) : JobDo :=
  .done (s.ctr F.DG_JOBS_CTR inst) (j.fld 8 8) { status := stDone, aux := j.fld 20 4, result := result }

/-- Run a digest job whose checks have passed (R198). -/
def dgRun (inst : Nat) (j : Job) (s : State) : JobDo :=
  let slot := j.fld 2 2
  let a := hAddr (j.fld 8 8) (j.fld 16 4)
  let len := j.fld 20 4
  let x := s.dgSlot slot
  match s.unitRead a len with
  | (s, none) =>
    -- an UPDATE or FINAL has started, which clears PREEMPTED (R202)
    let s := if j.op = 2 ∨ j.op = 3 then s.setDgSlot slot { x with pre := false, stamp := none } else s
    .done (s.memEvent 0x02 inst) 0 { JobEnd.memErr with aux := s.goodBlocks a len (shaBlock (dgAlg s j)) }
  | (s, some d) =>
    let y := if j.op = 1 ∨ j.op = 4 then x.start (j.fld 4 1) (decide (j.fld 5 1 = 1)) else { x with pre := false, stamp := none }
    if j.op = 5 then
      let k := if len = 0 then none else some (dgKey (j.fld 4 1) d)
      dgDone (s.setDgSlot slot { DgSlot.init with key := k }) inst j 0
    else
      let z := y.feed d
      let s := s.ctr F.DG_BYTES_CTR inst len
      if j.op = 1 ∨ j.op = 2 then dgDone (s.setDgSlot slot z) inst j 0
      else
        let dig := z.digest
        let s := if j.transient then s else s.setDgSlot slot z.finish
        let w := if j.fld 24 8 = 0 then (s, true) else s.eccWrite (hAddr (j.fld 24 8) (j.fld 32 4)) dig
        if w.2 then dgDone w.1 inst j (leNat (dig.take 8)) else .memErr w.1 0x02 inst

/-- Run the job of an OP at the head of a lane's ring. -/
def State.dgJob (s : State) (op inst cl : Nat) : State := s.runJob 0x02 inst cl (isOp op) (dgCheck inst) (dgRun inst)

/-- START. -/
def execDgStartJob (inst cl : Nat) (s : State) : Res := .next (s.dgJob 1 inst cl)
/-- UPDATE. -/
def execDgUpdate (inst cl : Nat) (s : State) : Res := .next (s.dgJob 2 inst cl)
/-- FINAL. -/
def execDgFinal (inst cl : Nat) (s : State) : Res := .next (s.dgJob 3 inst cl)
/-- ONESHOT. -/
def execDgOneshot (inst cl : Nat) (s : State) : Res := .next (s.dgJob 4 inst cl)
/-- KEYLOAD. -/
def execDgKeyload (inst cl : Nat) (s : State) : Res := .next (s.dgJob 5 inst cl)

/-! Preemption (R201, R379). -/

/-- Blocks after which a job of a lane may lose the lane: START and UPDATE before their last block; FINAL and ONESHOT while
more than one block of their data remains; a transient job and KEYLOAD never. -/
def dgBreaks (alg : Nat) (j : Job) : Nat :=
  let b := shaBlock alg
  let len := j.fld 20 4
  match j.op with
  | 1 => len / b - 1
  | 2 => len / b - 1
  | 3 => (len - 1) / b - 1
  | 4 => if j.transient then 0 else (len - 1) / b - 1
  | _ => 0

/-- The job that runs on a lane is preempted at a block boundary: the slot keeps the state, and the job completes PARTIAL.
How far it had come is a free value, at least one block and at most what R201 allows; none where no boundary is allowed, the
job would fail its checks, or its input cannot be read. -/
def State.dgPreempt (s : State) (inst cl stamp : Nat) : Option State :=
  match s.ring 0x02 inst cl with
  | [] => none
  | j :: _ =>
    let alg := dgAlg s j
    let most := dgBreaks alg j
    if most = 0 ∨ !j.flagsOk ∨ !dgCheck inst j s then none
    else
      let n := (1 + s.freeNat % most) * shaBlock alg
      match s.nextFree.unitRead (hAddr (j.fld 8 8) (j.fld 16 4)) n with
      | (_, none) => none
      | (s', some d) =>
        let x := s.dgSlot (j.fld 2 2)
        let y := if j.op = 1 ∨ j.op = 4 then x.start (j.fld 4 1) (decide (j.fld 5 1 = 1)) else x
        let z := { y.feed d with pre := true, stamp := if j.bg then none else some stamp }
        let s := (((s'.setDgSlot (j.fld 2 2) z).ctr F.DG_BYTES_CTR inst n).ctr F.DG_PARTIAL_CTR inst).popRing 0x02 inst cl
        some (s.complete j inst 0 { status := stPartial, aux := n, result := 0 })

/-- The contents of a lane's slots are lost (R198). -/
def State.dgLose (s : State) (lane : Nat) : State :=
  { s with dg := { slots := s.dg.slots.filter (fun p => decide (p.1 / 16 ≠ lane))
                   results := SMap.del s.dg.results lane, lens := SMap.del s.dg.lens lane } }

/-! The register port (R203 to R205). -/

/-- The slot of a lane's port. -/
def portSlot (lane : Nat) : Nat := 16 * lane + 15

/-- ALG of the next port message. -/
def State.portAlg (s : State) (lane : Nat) : Nat := let a := s.rd F.DG_CTL_ALG lane; if 4 < a then 1 else a

/-- ORDER_ERR. -/
def State.orderErr (s : State) (lane : Nat) : State := s.setFlag F.DG_STATUS_ORDER_ERR lane

/-- Is the port of a lane there and enabled? -/
def State.portOn (s : State) (lane : Nat) : Bool := decide (lane < s.fuse.variant.engines) && s.flag F.DG_CTL_PORT_EN lane

/-- Begin a port message (R204): none when KEYED asks for a key that slot 15 has not. -/
def State.portStart (s : State) (lane : Nat) : Option State :=
  let x := s.dgSlot (portSlot lane)
  let keyed := s.flag F.DG_CTL_KEYED lane
  if keyed && !x.keyFor (s.portAlg lane) then none
  else
    let s := s.setDgSlot (portSlot lane) (x.start (s.portAlg lane) keyed)
    some { s with dg := { s.dg with lens := SMap.putD s.dg.lens lane 0 0 } }

/-- Take bytes into the port's open message, which ends with them if `fin` is set. -/
def State.portFeed (s : State) (lane : Nat) (d : List Byte) (fin : Bool) : State :=
  let x := (s.dgSlot (portSlot lane)).feed d
  let s := s.setDgSlot (portSlot lane) (if fin then x.finish else x)
  let s := { s with dg := { s.dg with lens := SMap.putD s.dg.lens lane x.len 0
                                      results := if fin then SMap.put s.dg.results lane x.digest else s.dg.results } }
  s.ctr F.DG_BYTES_CTR lane d.length

/-- START. -/
def State.portCmdStart (s : State) (lane : Nat) : State :=
  if !s.portOn lane then s else (s.portStart lane).getD (s.orderErr lane)

/-- FIN0. -/
def State.portCmdFin (s : State) (lane : Nat) : State :=
  if s.portOn lane && decide ((s.dgSlot (portSlot lane)).st = 1) then s.portFeed lane [] true else s

/-- A store to `DG_DATA` or `DG_LAST`. -/
def State.portData (s : State) (lane : Nat) (d : List Byte) (fin : Bool) : State :=
  if !s.portOn lane then s
  else if (s.dgSlot (portSlot lane)).st = 1 then s.portFeed lane d fin
  else if s.flag F.DG_CTL_COMPAT lane then s.orderErr lane
  else
    match s.portStart lane with
    | some s => s.portFeed lane d fin
    | none => s.orderErr lane

/-- A store to `DG_CTL` (R203). -/
def State.dgCtl (s : State) (lane v : Nat) : State :=
  let on := s.flag F.DG_CTL_PORT_EN lane
  let x := s.dgSlot (portSlot lane)
  if !on && bitOf v 0 && decide (x.st = 1) then s.orderErr lane
  else
    let s := if on && !bitOf v 0 then s.setDgSlot (portSlot lane) x.drop else s
    (((s.wr F.DG_CTL_PORT_EN v lane).wr F.DG_CTL_COMPAT (v >>> 1) lane).wr F.DG_CTL_ALG (v >>> 2) lane).wr F.DG_CTL_KEYED (v >>> 5) lane

/-- The value a read of `DG_RESULTk` gives, and what the read does (R204). -/
def State.dgResult (s : State) (lane k : Nat) : State × Nat :=
  if s.portOn lane && decide ((s.dgSlot (portSlot lane)).st = 1) && s.flag F.DG_CTL_COMPAT lane then
    (s.setFlag F.DG_STATUS_EARLY_RD lane, 0)
  else (s, leNat (((SMap.findD s.dg.results lane []).drop (8 * k)).take 8))

/-- An access to a register of a lane wakes its domain (R418). -/
def State.laneWake (s : State) (lane : Nat) : State := if lane < s.fuse.variant.engines then s.regWake (0x2E00000 + 0x1000 * lane) else s

/-- A store to `DG_CTL`. -/
def execDgCtlWrite (lane v : Nat) (s : State) : Res :=
  .next (if lane < s.fuse.variant.engines then (s.laneWake lane).dgCtl lane v else s)
/-- A store of START to `DG_CMD`. -/
def execDgPortStart (lane : Nat) (s : State) : Res := .next ((s.laneWake lane).portCmdStart lane)
/-- A store of FIN0 to `DG_CMD`. -/
def execDgPortFin0 (lane : Nat) (s : State) : Res := .next ((s.laneWake lane).portCmdFin lane)
/-- A store to `DG_DATA`. -/
def execDgDataWrite (lane v : Nat) (s : State) : Res := .next ((s.laneWake lane).portData lane (leBytes 8 v) false)
/-- A store to `DG_LAST` that supplies `n` bytes. -/
def execDgLastWrite (lane n v : Nat) (s : State) : Res :=
  .next (if 1 ≤ n ∧ n ≤ 8 then (s.laneWake lane).portData lane (leBytes n v) true else s)
/-- A read of `DG_RESULTk`. -/
def execDgResultRead (lane k : Nat) (s : State) : Res :=
  .next (
    let r := (s.laneWake lane).dgResult lane k
    r.1.emit (.readData (BitVec.ofNat 64 r.2)))

end Sys2Proof.Machine
end

