-- ==== Sys2Proof/Machine/Sled.lean ====
section
/-! DEFINITION. The sleds (R299 to R307): commands, dies, leases. A sled answers on the output trace. -/

namespace Sys2Proof.Machine

/-- The geometry of a sled as the model takes it (assumption log 20). -/
def SledGeo.std : SledGeo :=
  { dies := 256, planes := 4, eus := 4096, emib := 64, ppeSlc := 1024, tread := 50, tprog := 2000, terase := 10000, tsusp := 20,
    tprogSlc := 150, suspMax := 8, endurance := 3000, enduranceSlc := 30000, spare := 4096, cmdCredits := 256, dataCredits := 64,
    erasedBits := 64, serial := List.replicate 32 0x20, model := List.replicate 32 0x20 }

/-- A sled that has never held a lease (R305), all its units erased. -/
def Sled.init : Sled :=
  { geo := SledGeo.std, owner0 := 3, owner1 := 3, epoch0 := 0, epoch1 := 0, fenced0 := false, fenced1 := false, ro := false
    eus := [], pages := [], dies := [] }

/-- An erase unit never erased nor programmed. -/
def EuInfo.init : EuInfo := { erases := 0, bad := false, top := 0, slc := false }

/-- An idle die. -/
def SledDie.init : SledDie := { run := none, reads := [], wait := [], bits := 0 }

/-- The sled on a lane. -/
def State.sled (s : State) (lane : Nat) : Sled := SMap.findD s.sleds lane Sled.init

/-- Set the sled on a lane. -/
def State.setSled (s : State) (lane : Nat) (x : Sled) : State := { s with sleds := SMap.putD s.sleds lane x Sled.init }

/-- Key of an erase unit of a sled. -/
def euKey (die eu : Nat) : Nat := die * 2 ^ 32 + eu

/-- Key of a page of a sled. -/
def pageKey (die eu page : Nat) : Nat := euKey die eu * 2 ^ 16 + page

/-- An erase unit. -/
def Sled.eu (x : Sled) (die eu : Nat) : EuInfo := SMap.findD x.eus (euKey die eu) EuInfo.init

/-- Set an erase unit. -/
def Sled.setEu (x : Sled) (die eu : Nat) (u : EuInfo) : Sled := { x with eus := SMap.putD x.eus (euKey die eu) u EuInfo.init }

/-- A die. -/
def Sled.die (x : Sled) (d : Nat) : SledDie := SMap.findD x.dies d SledDie.init

/-- Set a die. -/
def Sled.setDie (x : Sled) (d : Nat) (y : SledDie) : Sled := { x with dies := SMap.putD x.dies d y SledDie.init }

/-- OWNER of a half: 0, 1, or 3 for none. -/
def Sled.owner (x : Sled) (h : Nat) : Nat := if h = 0 then x.owner0 else x.owner1
/-- EPOCH of a half. -/
def Sled.epoch (x : Sled) (h : Nat) : Nat := if h = 0 then x.epoch0 else x.epoch1
/-- FENCED of a port. -/
def Sled.fenced (x : Sled) (p : Nat) : Bool := if p = 0 then x.fenced0 else x.fenced1
/-- Set owner and epoch of a half. -/
def Sled.setHalf (x : Sled) (h o e : Nat) : Sled := if h = 0 then { x with owner0 := o, epoch0 := e } else { x with owner1 := o, epoch1 := e }
/-- Set FENCED of a port. -/
def Sled.setFenced (x : Sled) (p : Nat) (b : Bool) : Sled := if p = 0 then { x with fenced0 := b } else { x with fenced1 := b }

/-- The half of a die (R14). -/
def halfOf (die : Nat) : Nat := die / 128

/-- Bytes of a page. -/
def pageBytes : Nat := 16384

/-- An erased page. -/
def erasedPage : List Byte := List.replicate pageBytes 0xFF

/-- Pages of an erase unit in a mode. -/
def SledGeo.ppe (g : SledGeo) (slc : Bool) : Nat := if slc then g.ppeSlc else 64 * g.emib

/-- Bad erase units of a half. -/
def Sled.badUnits (x : Sled) (h : Nat) : Nat :=
  (x.eus.filter (fun p => p.2.bad && decide (halfOf (p.1 / 2 ^ 32) = h))).length

/-! Media, as one command leaves it. -/

/-- Program a page (R300). -/
def Sled.program (x : Sled) (die eu page : Nat) (slc : Bool) (d : List Byte) : Sled :=
  let u := x.eu die eu
  { x.setEu die eu { u with top := page + 1, slc := slc } with pages := SMap.put x.pages (pageKey die eu page) d }

/-- Erase a unit. -/
def Sled.erase (x : Sled) (die eu : Nat) : Sled :=
  let u := x.eu die eu
  { x.setEu die eu { u with erases := min (2 ^ 32 - 1) (u.erases + 1), top := 0 } with
    pages := x.pages.filter (fun p => decide (p.1 / 2 ^ 16 ≠ euKey die eu)) }

/-- A failed erase marks the unit bad; at SPARE bad units of a half the sled goes read-only. -/
def Sled.eraseFail (x : Sled) (die eu : Nat) : Sled :=
  let y := x.setEu die eu { x.eu die eu with bad := true }
  { y with ro := y.ro || decide (x.geo.spare ≤ y.badUnits (halfOf die)) }

/-- The bytes of a page, if it is programmed. -/
def Sled.page (x : Sled) (die eu page : Nat) : Option (List Byte) := SMap.find x.pages (pageKey die eu page)

/-! Answers. -/

/-- An RSP of a status. -/
def Sled.rsp (x : Sled) (tag status : Nat) : SledRsp :=
  { status := status, sflags := 8 * b2n x.ro, tag := tag, donepg := 0, maxbits := 0, erases := 0, suspUs := 0,
    epochs := x.epoch0 + x.epoch1 * 2 ^ 16,
    lstate := x.owner0 + x.owner1 * 4 }

/-- LSTATE as a port sees it. -/
def SledRsp.forPort (r : SledRsp) (x : Sled) (p : Nat) : SledRsp :=
  { r with lstate := r.lstate + 16 * b2n (x.fenced p) + 32 * b2n (x.fenced (1 - p)) }

/-- Send an RSP. -/
def State.sledRsp (s : State) (lane port : Nat) (r : SledRsp) : State := s.emit (.sled lane port (.rsp (r.forPort (s.sled lane) port)))

/-- Send an RSP of a status alone. -/
def State.sledStatus (s : State) (lane port tag status : Nat) : State := s.sledRsp lane port ((s.sled lane).rsp tag status)

/-- Send data frames of a command, the last with LAST. -/
def State.sledData (s : State) (lane port tag : Nat) (l : List (Nat × List Byte)) : State :=
  foldSt (fun (p : Nat × (Nat × List Byte)) (s : State) =>
    s.emit (.sled lane port (.rdata tag p.2.1 (decide (p.1 + 1 = l.length)) p.2.2))) ((List.range l.length).zip l) s

/-! Status codes (R298). -/

def slOk : Nat := 0
def slUncor : Nat := 1
def slProgFail : Nat := 2
def slEraseFail : Nat := 3
def slStale : Nat := 4
def slInvalid : Nat := 5
def slReadOnly : Nat := 6
def slEpochOld : Nat := 7

/-- The lease checks of R307: is a command STALE? -/
def Sled.stale (x : Sled) (p : Nat) (c : NmlCmd) : Bool :=
  let open_ := decide (c.opc = 6 ∨ c.opc = 7 ∨ (c.opc = 9 ∧ c.sub = 0))
  (x.fenced p && !open_) ||
    (decide (c.opc = 2 ∨ c.opc = 3 ∨ c.opc = 4 ∨ c.opc = 5) &&
      !(decide (x.owner (halfOf c.die) = p) && decide (c.epoch = x.epoch (halfOf c.die))))

/-- Are the unit and pages of a command there? -/
def Sled.inRange (x : Sled) (c : NmlCmd) : Bool :=
  decide (c.eu < x.geo.eus) &&
    (decide (c.opc = 3) || decide (1 ≤ c.count ∧ c.count ≤ 64 ∧ c.page + c.count ≤ x.geo.ppe c.slc))

/-- Does an operation program or erase? -/
def SledOp.writes (o : SledOp) : Bool := decide (o.cmd.opc = 2 ∨ o.cmd.opc = 3)

/-- Is the die's program or erase suspended? -/
def SledDie.isSusp (d : SledDie) : Bool :=
  match d.run with
  | some o => o.susp.isSome
  | none => false

/-- Suspend the operation of a die: by a read, or by SUSPEND. -/
def SledDie.suspend (d : SledDie) (now : Nat) (byRead : Bool) : SledDie :=
  { d with run := d.run.map (fun o => { o with susp := some (now, byRead), suspCount := o.suspCount + 1 }) }

/-- A read left over when the suspended operation goes on: one that may suspend has had to wait. -/
def SledOp.leftOver (o : SledOp) : SledOp := { o with waited := o.waited || (o.cmd.susp && !o.suspended) }

/-- Resume the operation of a die; reads not yet carried out wait for it (R301). -/
def SledDie.resume (d : SledDie) (now : Nat) : SledDie :=
  { d with
    run := d.run.map (fun o => match o.susp with
      | some (t, _) => { o with susp := none, suspNs := o.suspNs + (now - t) }
      | none => o)
    reads := [], wait := d.reads.map SledOp.leftOver ++ d.wait }

/-- Is the die's operation suspended by a read? -/
def SledDie.byRead (d : SledDie) : Bool :=
  match d.run with
  | some o => match o.susp with
    | some (_, b) => b
    | none => false
  | none => false

/-- May a read be carried out while the die's operation is suspended: one that may suspend, or, where SUSPEND suspended it,
any that no earlier command of its port waits before (R299 to R301)? -/
def SledDie.joins (d : SledDie) (port : Nat) (c : NmlCmd) : Bool :=
  d.isSusp && ((decide (c.opc = 1) && c.susp) ||
    (decide (c.opc = 1 ∨ c.opc = 6) && !d.byRead && d.wait.all (fun o => decide (o.port ≠ port))))

/-- A new operation. -/
def newOp (port tag : Nat) (c : NmlCmd) : SledOp :=
  { port := port, tag := tag, cmd := c, got := [], susp := none, suspCount := 0, suspNs := 0, suspended := false, waited := false }

/-- A command reaches its die (R299 to R301). -/
def Sled.enter (x : Sled) (now port tag : Nat) (c : NmlCmd) : Sled :=
  let d := x.die c.die
  let o := newOp port tag c
  let d' := match d.run with
    | none => { d with run := some o }
    | some r =>
      if d.joins port c then { d with reads := d.reads ++ [o] }
      else if decide (c.opc = 1) && c.susp && r.writes then
        if r.suspCount < x.geo.suspMax then { (d.suspend now true) with reads := [{ o with suspended := true }] }
        else { d with wait := d.wait ++ [{ o with waited := true }] }
      else { d with wait := d.wait ++ [o] }
  x.setDie c.die d'

/-- Does a lane carry a sled, and is the port one of its two? -/
def State.laneHere (s : State) (lane port : Nat) : Bool := decide (lane < s.fuse.variant.lanes ∧ port ≤ 1)

/-- A command of a die: READ, PROGRAM, ERASE, HDR_READ (R299, R300, R307). -/
def State.sledDieCmd (s : State) (lane port tag : Nat) (c : NmlCmd) : State :=
  let x := s.sled lane
  if !s.laneHere lane port ∨ x.geo.dies ≤ c.die then s
  else if x.stale port c then s.sledStatus lane port tag slStale
  else if x.ro ∧ (c.opc = 2 ∨ c.opc = 3) then s.sledStatus lane port tag slReadOnly
  else if !x.inRange c then s.sledStatus lane port tag slInvalid
  else s.setSled lane (x.enter s.now port tag c)

/-- READ. -/
def execSledRead (lane port tag : Nat) (c : NmlCmd) (s : State) : Res := .next (s.sledDieCmd lane port tag { c with opc := 1 })
/-- PROGRAM. -/
def execSledProgram (lane port tag : Nat) (c : NmlCmd) (s : State) : Res := .next (s.sledDieCmd lane port tag { c with opc := 2 })
/-- ERASE. -/
def execSledErase (lane port tag : Nat) (c : NmlCmd) (s : State) : Res := .next (s.sledDieCmd lane port tag { c with opc := 3 })
/-- HDR_READ. -/
def execSledHdrRead (lane port tag : Nat) (c : NmlCmd) (s : State) : Res := .next (s.sledDieCmd lane port tag { c with opc := 6 })

/-- A command answered at once, after the checks of R307. -/
def State.sledNow (s : State) (lane port tag : Nat) (c : NmlCmd) (f : State → State) : State :=
  if !s.laneHere lane port ∨ ((c.opc = 4 ∨ c.opc = 5 ∨ (c.opc = 8 ∧ c.sub = 1)) ∧ (s.sled lane).geo.dies ≤ c.die) then s
  else if (s.sled lane).stale port c then s.sledStatus lane port tag slStale
  else f s

/-- SUSPEND of an operation: one that a read has suspended stays so until a RESUME or 10 ms from now. -/
def SledDie.hostSuspend (d : SledDie) (now : Nat) : SledDie :=
  match d.run with
  | some o =>
    match o.susp with
    | none => if o.writes then d.suspend now false else d
    | some (t, true) => { d with run := some { o with susp := some (now, false), suspNs := o.suspNs + (now - t) } }
    | some (_, false) => d
  | none => d

/-- SUSPEND (R299). -/
def execSledSuspend (lane port tag : Nat) (c : NmlCmd) (s : State) : Res :=
  .next (s.sledNow lane port tag { c with opc := 4 } (fun s =>
    let x := s.sled lane
    let d := x.die c.die
    (s.setSled lane (x.setDie c.die (d.hostSuspend s.now))).sledStatus lane port tag slOk))

/-- RESUME (R299). -/
def execSledResume (lane port tag : Nat) (c : NmlCmd) (s : State) : Res :=
  .next (s.sledNow lane port tag { c with opc := 5 } (fun s =>
    let x := s.sled lane
    let d := x.die c.die
    let d' := if d.isSusp then d.resume s.now else d
    (s.setSled lane (x.setDie c.die d')).sledStatus lane port tag slOk))

/-- A suspended operation without a RESUME goes on after 10 ms (R299). -/
def execSledAutoResume (lane die : Nat) (s : State) : Res :=
  .next (match (s.sled lane).die die |>.run with
    | some o => match o.susp with
      | some (t, false) =>
        if t + 10000000 ≤ s.now then s.setSled lane ((s.sled lane).setDie die (((s.sled lane).die die).resume s.now)) else s
      | _ => s
    | none => s)

/-- An operation suspended by a read goes on after 2 ms (R301). -/
def execSledSuspReadResume (lane die : Nat) (s : State) : Res :=
  .next (match (s.sled lane).die die |>.run with
    | some o => match o.susp with
      | some (t, true) =>
        if t + 2000000 ≤ s.now then s.setSled lane ((s.sled lane).setDie die (((s.sled lane).die die).resume s.now)) else s
      | _ => s
    | none => s)

/-- Take a page into the PROGRAM of a tag in a list of operations, where it belongs (R296). -/
def takeWdata (port tag off : Nat) (data : List Byte) : List SledOp → Option (List SledOp)
  | [] => none
  | o :: l =>
    if o.port = port ∧ o.tag = tag ∧ o.cmd.opc = 2 then
      if o.got.length < o.cmd.count ∧ off = pageBytes * o.got.length ∧ data.length = pageBytes then
        some ({ o with got := o.got ++ [data] } :: l)
      else none
    else (takeWdata port tag off data l).map (o :: ·)

/-- Take a page on a die. -/
def SledDie.wdata (d : SledDie) (port tag off : Nat) (data : List Byte) : Option SledDie :=
  match (match d.run with
    | some o => (takeWdata port tag off data [o]).bind List.head?
    | none => none) with
  | some o => some { d with run := some o }
  | none => (takeWdata port tag off data d.wait).map (fun w => { d with wait := w })

/-- A WDATA frame reaches the sled (R296). -/
def execSledWdataRx (lane port tag off : Nat) (data : List Byte) (s : State) : Res :=
  .next (if !s.laneHere lane port then s
    else
      let x := s.sled lane
      match x.dies.findSome? (fun p => (p.2.wdata port tag off data).map (fun d => (p.1, d))) with
      | some (k, d) => s.setSled lane (x.setDie k d)
      | none => s.sledStatus lane port tag slInvalid)

/-- Four-byte numbers. -/
def le4 (v : Nat) : List Byte := leBytes 4 v

/-- The GEOMETRY record (R303). -/
def SledGeo.bytes (g : SledGeo) : List Byte :=
  let head := leBytes 2 0x0100 ++ leBytes 1 (g.dies % 256) ++ leBytes 1 g.planes ++ le4 g.eus ++ leBytes 2 g.emib ++ leBytes 2 g.ppeSlc ++
    leBytes 2 g.tread ++ leBytes 2 g.tprog ++ leBytes 2 g.terase ++ leBytes 2 g.tsusp ++ leBytes 2 g.tprogSlc ++ leBytes 1 g.suspMax ++
    leBytes 1 0 ++ le4 g.endurance ++ le4 g.enduranceSlc ++ le4 g.spare ++ leBytes 2 g.cmdCredits ++ leBytes 2 g.dataCredits ++
    leBytes 2 g.erasedBits ++ List.replicate 22 0
  head ++ g.serial ++ g.model ++ List.replicate 128 0

/-- GEOMETRY. -/
def execSledGeometry (lane port tag : Nat) (c : NmlCmd) (s : State) : Res :=
  .next (s.sledNow lane port tag { c with opc := 7 } (fun s =>
    (s.sledData lane port tag [(0, (s.sled lane).geo.bytes)]).sledStatus lane port tag slOk))

/-- The HEALTH summary (R304); temperature and power losses are free values. -/
def State.healthSum (s : State) (lane : Nat) : List Byte :=
  let x := s.sled lane
  let f := s.freeNat
  leBytes 2 f ++ leBytes 2 0 ++ le4 (x.badUnits 0) ++ le4 (x.badUnits 1) ++ le4 (f >>> 16) ++ List.replicate 48 (0 : Byte) ++
    ((List.range 256).map (fun d =>
      le4 ((x.eus.filter (fun p => p.2.bad && decide (p.1 / 2 ^ 32 = d))).length) ++ leBytes 2 (x.die d).bits ++ leBytes 2 0)).flatten

/-- Data as frames of at most 16,384 bytes (R292). -/
def dataFrames : Nat → Nat → List Byte → List (Nat × List Byte)
  | 0, _, _ => []
  | n + 1, off, d =>
    if d.length ≤ pageBytes then [(off, d)] else (off, d.take pageBytes) :: dataFrames n (off + pageBytes) (d.drop pageBytes)

/-- Erase-unit records (R304). -/
def Sled.euRecords (x : Sled) (die eu n : Nat) : List Byte :=
  ((rangeFrom eu n).map (fun u => leBytes 8 ((x.eu die u).erases + b2n (x.eu die u).bad * 2 ^ 32))).flatten

/-- HEALTH. -/
def execSledHealth (lane port tag : Nat) (c : NmlCmd) (s : State) : Res :=
  .next (s.sledNow lane port tag { c with opc := 8 } (fun s =>
    let d := if c.sub = 0 then s.healthSum lane else (s.sled lane).euRecords c.die c.eu (16 * c.count)
    (s.nextFree.sledData lane port tag (dataFrames (d.length / pageBytes + 1) 0 d)).sledStatus lane port tag slOk))

/-! Leases (R306). -/

/-- Commands of a die that have not started: those that wait, and the reads behind the one being carried out. -/
def SledDie.unstarted (d : SledDie) : List SledOp := d.reads.drop 1 ++ d.wait

/-- End the commands of a sled that have not started and meet a condition, with a status. -/
def State.sledEndWaiting (s : State) (lane status : Nat) (f : SledOp → Bool) : State :=
  let x := s.sled lane
  let gone := (x.dies.map (fun p => p.2.unstarted.filter f)).flatten
  let keep : SledDie → SledDie := fun d =>
    { d with reads := d.reads.take 1 ++ (d.reads.drop 1).filter (fun o => !f o), wait := d.wait.filter (fun o => !f o) }
  foldSt (fun (o : SledOp) (s : State) => s.sledStatus lane o.port o.tag status) gone
    (s.setSled lane { x with dies := x.dies.map (fun p => (p.1, keep p.2)) })

/-- Commands of a port that have not started complete STALE when it becomes fenced. -/
def State.sledFence (s : State) (lane port : Nat) : State :=
  (s.setSled lane ((s.sled lane).setFenced port true)).sledEndWaiting lane slStale (fun o => decide (o.port = port))

/-- A LEASE command: status, and the state it leaves. -/
def State.lease (s : State) (lane p op h e : Nat) : State × Nat :=
  let x := s.sled lane
  let own := x.owner h
  let ep := x.epoch h
  let later := laterThan 16 e ep
  match op with
  | 0 => (s, slOk)
  | 1 =>
    if x.fenced p then (s, slStale)
    else if (own = 3 ∧ laterThan 16 ep e = false) ∨ (own = p ∧ e = ep) then (s.setSled lane (x.setHalf h p e), slOk)
    else (s, slEpochOld)
  | 2 =>
    if x.fenced p then (s, slStale)
    else if later then
      let s := if own = 1 - p then s.sledFence lane (1 - p) else s
      (s.setSled lane ((s.sled lane).setHalf h p e), slOk)
    else (s, slEpochOld)
  | 3 =>
    if own ≠ p then (s, slStale)
    else if later then (s.setSled lane ((x.setHalf h (1 - p) e).setFenced (1 - p) false), slOk)
    else (s, slEpochOld)
  | _ => if own = p then (s.setSled lane (x.setHalf h 3 ep), slOk) else (s, slStale)

/-- A LEASE command reaches the sled. -/
def State.sledLease (s : State) (lane port tag op : Nat) (c : NmlCmd) : State :=
  s.sledNow lane port tag { c with opc := 9, sub := op } (fun s =>
    let r := s.lease lane port op (c.half % 2) (c.epoch % 2 ^ 16)
    r.1.sledStatus lane port tag r.2)

/-- STATUS. -/
def execSledLeaseStatus (lane port tag : Nat) (c : NmlCmd) (s : State) : Res := .next (s.sledLease lane port tag 0 c)
/-- ACQUIRE. -/
def execSledLeaseAcquire (lane port tag : Nat) (c : NmlCmd) (s : State) : Res := .next (s.sledLease lane port tag 1 c)
/-- TAKEOVER. -/
def execSledLeaseTakeover (lane port tag : Nat) (c : NmlCmd) (s : State) : Res := .next (s.sledLease lane port tag 2 c)
/-- GRANT. -/
def execSledLeaseGrant (lane port tag : Nat) (c : NmlCmd) (s : State) : Res := .next (s.sledLease lane port tag 3 c)
/-- RELEASE. -/
def execSledLeaseRelease (lane port tag : Nat) (c : NmlCmd) (s : State) : Res := .next (s.sledLease lane port tag 4 c)

/-! The end of an operation. -/

/-- A page as a READ sends it: erased pages read all ones, and a page programmed in the other mode reads a free value. -/
def Sled.readPage (x : Sled) (free : Nat) (c : NmlCmd) (i : Nat) : List Byte :=
  match x.page c.die c.eu (c.page + i) with
  | none => erasedPage
  | some d => if (x.eu c.die c.eu).slc = c.slc then d else leBytes pageBytes free

/-- A header-read record (R302): `bad` says that the page is uncorrectable, whose bytes are then a free value. A unit whose
erase was interrupted reads so too. -/
def Sled.hdrRecord (x : Sled) (free : Nat) (c : NmlCmd) (i bits : Nat) (bad : Bool) : List Byte :=
  if bad then leBytes 512 free ++ [2, BitVec.ofNat 8 (min 255 bits)] ++ List.replicate 14 0
  else
    match x.page c.die c.eu (c.page + i) with
    | none => List.replicate 512 0xFF ++ [0, 0] ++ List.replicate 14 0
    | some d => d.take 512 ++ [1, BitVec.ofNat 8 (min 255 bits)] ++ List.replicate 14 0

/-- Note the bit errors corrected in a read of a die (R304). -/
def Sled.noteBits (x : Sled) (die b : Nat) : Sled :=
  x.setDie die { x.die die with bits := max (x.die die).bits (min 65535 b) }

/-- A read that ends: its data and its RSP. `failAt` is the page at which a READ failed, at COUNT or above for none; `bad` marks
the pages that are uncorrectable to an HDR_READ; `bits` gives the bit errors corrected page by page. -/
def State.readEnd (s : State) (lane : Nat) (o : SledOp) (failAt bad : Nat) (pageBits : List Nat) : State :=
  let bits := (pageBits.take o.cmd.count).foldl max 0
  let s := s.setSled lane ((s.sled lane).noteBits o.cmd.die bits)
  let x := s.sled lane
  let c := o.cmd
  let fl := fun (x : Sled) => b2n o.suspended + 2 * b2n o.waited + 8 * b2n x.ro
  if c.opc = 6 then
    let s := s.sledData lane o.port o.tag ((List.range c.count).map (fun i => (528 * i, x.hdrRecord s.freeNat c i (pageBits.getD i 0) (bitOf bad i))))
    s.nextFree.sledRsp lane o.port { x.rsp o.tag slOk with donepg := c.count, maxbits := min 255 bits, sflags := fl x }
  else
    let n := min failAt c.count
    let erased := (List.range n).any (fun i => (x.page c.die c.eu (c.page + i)).isNone)
    let s := s.sledData lane o.port o.tag ((List.range n).map (fun i => (pageBytes * i, x.readPage s.freeNat c i)))
    s.nextFree.sledRsp lane o.port { x.rsp o.tag (if n < c.count then slUncor else slOk) with
      donepg := n, maxbits := min 255 bits, sflags := fl x + 4 * b2n erased }

/-- Program the pages of an operation. -/
def Sled.programPages (x : Sled) (c : NmlCmd) (l : List (List Byte)) : Sled :=
  ((List.range l.length).zip l).foldl (fun x p => x.program c.die c.eu (c.page + p.1) c.slc p.2) x

/-- A program or erase that ends. Programs and erases that have not started when the sled goes read-only complete READ_ONLY
(R300). -/
def State.writeEnd (s : State) (lane : Nat) (o : SledOp) (failAt : Nat) : State :=
  let x := s.sled lane
  let c := o.cmd
  let susp := o.suspNs / 1000
  if c.opc = 2 then
    if c.page < (x.eu c.die c.eu).top then s.sledStatus lane o.port o.tag slInvalid
    else
      let n := min failAt c.count
      let s := s.setSled lane (x.programPages c (o.got.take n))
      s.sledRsp lane o.port { x.rsp o.tag (if n < c.count then slProgFail else slOk) with donepg := n, suspUs := susp }
  else if failAt = 0 then
    let y := x.eraseFail c.die c.eu
    let s := (s.setSled lane y).sledRsp lane o.port { y.rsp o.tag slEraseFail with suspUs := susp }
    if y.ro && !x.ro then s.sledEndWaiting lane slReadOnly SledOp.writes else s
  else
    let y := x.erase c.die c.eu
    (s.setSled lane y).sledRsp lane o.port { y.rsp o.tag slOk with erases := (y.eu c.die c.eu).erases, suspUs := susp }

/-- The next command of a die starts. -/
def SledDie.nextOp (d : SledDie) : SledDie :=
  match d.wait with
  | o :: w => { d with run := some o, reads := [], wait := w }
  | [] => { d with run := none, reads := [], wait := [] }

/-- What runs on a die ends (R299): first a read that runs while the operation is suspended, after which an operation that a
read suspended goes on when no further read that may suspend waits (R301). `failAt` counts the pages that went well (0 fails
an erase). -/
def State.dieEnd (s : State) (lane die failAt bad : Nat) (bits : List Nat) : State :=
  let x := s.sled lane
  let d := x.die die
  match d.reads, d.run with
  | r :: rest, some o =>
    let d' := { d with reads := rest }
    let d' := if d.byRead && o.susp.isSome && rest.all (fun o => !(decide (o.cmd.opc = 1) && o.cmd.susp)) then d'.resume s.now else d'
    (s.setSled lane (x.setDie die d')).readEnd lane r failAt bad bits
  | _, some o =>
    if o.susp.isSome ∨ (o.cmd.opc = 2 ∧ o.got.length < o.cmd.count) then s
    else
      let s := s.setSled lane (x.setDie die d.nextOp)
      if o.writes then s.writeEnd lane o failAt else s.readEnd lane o failAt bad bits
  | _, none => s

/-- An operation of a die ends. -/
def execSledOpComplete (lane die failAt : Nat) (m : MediaBits) (s : State) : Res := .next (s.dieEnd lane die failAt m.bad m.bits)

end Sys2Proof.Machine
end

