-- ==== Sys2Proof/Machine/Wicket.lean ====
section
/-! DEFINITION. The Wicket (chapter 4): horizons, admission, refusal, promises, classes and tenants. Times of the promise
formula are kept as nanoseconds after now; a horizon that is not later than now (R12) is 0 after now. -/

namespace Sys2Proof.Machine

/-! Horizons (R115 to R117). -/

/-- Entries of the horizon table. -/
def hznCount : Nat := 8264

/-- How far a 32-bit time lies after now; 0 when it is not later (R12). -/
def ahead (t now : Nat) : Nat := if laterThan 32 t now then (t + 2 ^ 32 - now % 2 ^ 32) % 2 ^ 32 else 0

/-- T_i − now of a horizon: the later of REPORTED and BOOKED, 0 when idle. -/
def State.hzn (s : State) (i : Nat) : Nat :=
  max (ahead (s.rd F.WKT_HZN_REPORTED i) s.now) (ahead (s.rd F.WKT_HZN_BOOKED i) s.now)

/-- Is the resource of a horizon present (R115)? -/
def State.hznPresent (s : State) (i : Nat) : Bool :=
  let v := s.fuse.variant
  if i < 8192 then decide (i / 128 < v.lanes)
  else if i < 8208 then decide ((i - 8192) % 4 < v.quads)
  else if i < 8224 then decide (i - 8208 < v.engines)
  else if i < 8240 then decide (i - 8224 < v.engines)
  else if i = 8262 then v.ddx
  else decide (i < hznCount)

/-- Clamp a time after now to 1 s, counted (R117). -/
def State.clampHzn (s : State) (i off : Nat) : State × Nat :=
  if 1000000000 < off then ((s.ctr F.WKT_HZN_CLAMP_CTR).note 0x035 i, 1000000000) else (s, off)

/-- Store BOOKED of an entry; an absent entry stays idle. -/
def State.book (s : State) (i off : Nat) : State :=
  if s.hznPresent i then
    let (s, off) := s.clampHzn i off
    s.wr F.WKT_HZN_BOOKED (s.now + off) i
  else s

/-- Store REPORTED of an entry. -/
def State.report (s : State) (i off : Nat) : State :=
  if s.hznPresent i then
    let (s, off) := s.clampHzn i off
    s.wr F.WKT_HZN_REPORTED (s.now + off) i
  else s

/-- TREAD in ns. -/
def State.tread (s : State) : Nat := 1000 * s.rd F.WKT_MEDIA_TREAD

/-- TSUSP in ns. -/
def State.tsusp (s : State) : Nat := 1000 * s.rd F.WKT_MEDIA_TSUSP

/-- Cost of a unit or port horizon for a length (R112). -/
def State.hcost (s : State) (i len : Nat) : Nat :=
  s.rd F.WKT_HCOST_FIXED_NS (i - 8192) + ceilDiv (s.rd F.WKT_HCOST_PS64 (i - 8192) * ceilDiv len 64) 1000

/-- finish − now of a named resource and its booking (R112): ROLE 0 a unit, 1 an own die, 2 a foreign die. -/
def State.finish (s : State) (len : Nat) (r : Nat × Nat) : Nat × Option (Nat × Nat) :=
  match r.2 with
  | 0 => let f := s.hzn r.1 + s.hcost r.1 len; (f, some (r.1, f))
  | 1 =>
    let d := s.hzn r.1
    if s.flag F.WKT_CTL_SUSP_EN && decide (s.tsusp < d) then
      (s.tsusp + s.tread, some (r.1, d + s.tsusp + s.tread))
    else (d + s.tread, some (r.1, d + s.tread))
  | _ => (s.tsusp + s.tread, none)

/-- The present instance of a group whose horizon is earliest, the lowest number on a tie (R112). -/
def State.earliest (s : State) (base n : Nat) : Option Nat :=
  minBy (fun i => s.hzn i) ((rangeFrom base n).filter (fun i => s.hznPresent i))

/-- First horizon and number of instances of a footprint bit (R115). -/
def footGroup (bit : Nat) : Nat × Nat :=
  match bit with
  | 0 => (8192, 4) | 1 => (8196, 4) | 2 => (8200, 4) | 3 => (8204, 4) | 4 => (8208, 16) | 5 => (8224, 16)
  | 6 => (8240, 16) | 7 => (8256, 4) | 8 => (8260, 1) | 9 => (8261, 1) | 10 => (8262, 1) | _ => (8263, 1)

/-- The horizon that a footprint bit names: the arrival quad for the front-end bits where there is one, else the earliest of
the group. -/
def State.footHzn (s : State) (quad : Option Nat) (bit : Nat) : Option Nat :=
  match quad with
  | some q => if bit ≤ 1 then some (8192 + 4 * bit + q) else s.earliest (footGroup bit).1 (footGroup bit).2
  | none => s.earliest (footGroup bit).1 (footGroup bit).2

/-! Requests and refusals (R110, R111, R124). -/

/-- An admission request. `quad` is the arrival quad of a capsule, `queue` the queue of its item and `need` the in-flight
write entries it takes. -/
structure AdmReq where
  tenant : Nat
  kind : Nat
  cls : Option Nat
  vol : Nat
  allns : Bool
  length : Nat
  hzns : List (Nat × Nat)
  budget : Nat
  quad : Option Nat
  queue : Option Nat
  need : Nat

/-- Class of a request: CLASS_SET's, else the tenant's for the KIND (R110). -/
def State.reqClass (s : State) (r : AdmReq) : Nat :=
  match r.cls with
  | some c => c
  | none => bitsOf (s.rd F.WKT_TENANT_CLASSES r.tenant) (4 * min r.kind 2) 4

/-- STATE of the ANA group of a volume (R152). -/
def State.groupState (s : State) (vol : Nat) : Nat :=
  s.rd F.WKT_GRP_STATE (bitsOf (s.regGet (F.WKT_VOLGRP_GROUP.off + 8 * (vol / 8))).toNat (8 * (vol % 8)) 7)

/-- Does partner-late or partner loss stand before takeover completes (R27, R110)? -/
def State.partnerGate (s : State) : Bool :=
  (s.flag F.TRN_STATUS_PARTNER_LATE || s.flag F.TRN_STATUS_PARTNER_LOSS) && !s.tookOver

/-- The footprint of a new admission: the class's, or for a PARTNER group the arrival quad and the Transom transmit group
(R112). -/
def State.footprint (s : State) (r : AdmReq) : List (Nat × Nat) :=
  let bits :=
    if !r.allns && decide (s.groupState r.vol = 1) then [if r.kind = 0 then 1 else 0, 2]
    else (List.range 12).filter (fun b => bitOf (s.rd F.WKT_CLASS_FOOTPRINT (s.reqClass r)) b)
  (bits.filterMap (fun b => s.footHzn r.quad b)).map (fun i => (i, 0))

/-- The latest of finish times. -/
def latest (l : List (Nat × Option (Nat × Nat))) : Nat := l.foldl (fun m x => max m x.1) 0

/-- Refill a tenant's bucket (R119): bucket 0 counts commands, 1 grains. An unlisted bucket is full. -/
def State.tenBucket (s : State) (ten k : Nat) : Bucket :=
  let burst := if k = 0 then s.rd F.WKT_TENANT_CMD_BURST ten else s.rd F.WKT_TENANT_GRAIN_BURST ten
  let rate := if k = 0 then s.rd F.WKT_TENANT_CMD_RATE ten else s.rd F.WKT_TENANT_GRAIN_RATE ten
  ((SMap.find s.wktBuckets (2 * ten + k)).getD { tokens := (burst * 1000000000 : Nat), at_ := s.now }).refill rate burst s.now

/-- The time until a bucket holds what a need asks for: none when it does now (R119). RATE 0 is no limit. -/
def State.tokenWait (s : State) (ten k need : Nat) : Option Nat :=
  let burst := if k = 0 then s.rd F.WKT_TENANT_CMD_BURST ten else s.rd F.WKT_TENANT_GRAIN_BURST ten
  let rate := if k = 0 then s.rd F.WKT_TENANT_CMD_RATE ten else s.rd F.WKT_TENANT_GRAIN_RATE ten
  let short := ((min need burst * 1000000000 : Nat) : Int) - (s.tenBucket ten k).tokens
  if rate = 0 ∨ need = 0 ∨ short ≤ 0 then none else some (ceilDiv short.toNat rate)

/-- Take tokens. -/
def State.takeTokens (s : State) (ten k need : Nat) : State :=
  let rate := if k = 0 then s.rd F.WKT_TENANT_CMD_RATE ten else s.rd F.WKT_TENANT_GRAIN_RATE ten
  if rate = 0 ∨ need = 0 then s
  else
    let b := s.tenBucket ten k
    let b' : Bucket := { b with tokens := b.tokens - ((need * 1000000000 : Nat) : Int) }
    { s with wktBuckets := SMap.put s.wktBuckets (2 * ten + k) b' }

/-- Why a request is refused: reason code, and the hint before MIN_NS where the table gives one. -/
structure Refuse where
  reason : Nat
  hint : Option Nat

/-- STATE_NS. -/
def State.stateHint (s : State) : Option Nat := some (s.rd F.WKT_HINT_STATE_NS)

/-- Grain tokens a request needs (R119). -/
def AdmReq.grains (r : AdmReq) : Nat := if 2 ≤ r.kind then 0 else ceilDiv r.length 4096

/-- Effective budget (R112): the smaller of the class bound and the budget. -/
def State.effBudget (s : State) (r : AdmReq) : Nat :=
  let b := s.rd F.WKT_CLASS_BOUND_NS (s.reqClass r)
  if r.budget = 0 then b else min b r.budget

/-- Free entries of bank 0, up to `n`. -/
def State.ifwRoom (s : State) (n : Nat) : Bool :=
  decide ((s.srch.filter (fun p => decide (p.1 < bankSize) && p.2.valid)).length + n ≤ bankSize)

/-- The checks of R110 before the promise formula, in order. A capsule is refused with STATE while bank 0 is not usable (R374). In BRACE
with ADMIT_EN clear the order of R110 gives STATE, R24 and the words after the table BRACE: STATE (DESIGN CHOICE, assumption log 84). -/
def State.admGate (s : State) (r : AdmReq) : Option Refuse :=
  let c := s.reqClass r
  let own := decide (s.groupState r.vol = 0)
  if !(decide (s.life = .active ∨ s.life = .brace ∨ s.life = .handover)) || !s.flag F.WKT_CTL_ADMIT_EN ||
      (r.queue.isSome && !s.flag F.SRCH_STATUS_INIT_DONE0) then some ⟨1, s.stateHint⟩
  else if s.life = .brace then some ⟨2, s.stateHint⟩
  else if s.flag F.PWR_THERM_GUARD then some ⟨3, s.stateHint⟩
  else if !r.allns && decide (2 ≤ s.groupState r.vol) then some ⟨4, s.stateHint⟩
  else if !s.flag F.WKT_TENANT_ENABLE r.tenant || (decide (r.kind = 1) && s.flag F.WKT_TENANT_NO_WRITE r.tenant) then some ⟨5, none⟩
  else if !s.flag F.WKT_CLASS_VALID c then some ⟨6, none⟩
  else if decide (r.kind = 1) && own && s.partnerGate then some ⟨7, s.stateHint⟩
  else if decide (r.kind = 1) && s.flag F.WKT_CTL_CAP_CLOSED then some ⟨8, none⟩
  else if decide (r.kind = 1) && s.flag F.JRN_LIMIT_BP then some ⟨9, s.stateHint⟩
  else if (match r.queue with
      | some q => decide (s.poolFree = 0) || !(s.queue q).accepts || !s.ifwRoom r.need
      | none => false) then some ⟨10, s.stateHint⟩
  else if decide (s.rd F.WKT_CLASS_MAX_INFLIGHT c ≠ 0 ∧ s.rd F.WKT_CLASS_MAX_INFLIGHT c ≤ s.rd F.WKT_CLASS_INFLIGHT c) then some ⟨11, s.stateHint⟩
  else if s.effBudget r < 60000 + s.rd F.WKT_CLASS_FIXED_NS c then some ⟨12, none⟩
  else none

/-- An admission granted: D − now, E − now, and the bookings. -/
structure Grant where
  d : Nat
  e : Nat
  books : List (Nat × Nat)

/-- The whole of R110 for a new admission. -/
def State.admCheck (s : State) (r : AdmReq) : Refuse ⊕ Grant :=
  match s.admGate r with
  | some x => .inl x
  | none =>
    let fs := (s.footprint r ++ r.hzns).map (s.finish r.length)
    let d := s.effBudget r
    let e := latest fs + s.rd F.WKT_CLASS_FIXED_NS (s.reqClass r)
    if d < e + 60000 then .inl ⟨13, some (e + 60000 - d)⟩
    else
      match s.tokenWait r.tenant 0 1 with
      | some w => .inl ⟨14, some w⟩
      | none =>
        match s.tokenWait r.tenant 1 r.grains with
        | some w => .inl ⟨15, some w⟩
        | none => .inr ⟨d, e, fs.filterMap Prod.snd⟩

/-- CRD of a hint (R124). -/
def State.crd (s : State) (hint : Nat) : Nat :=
  if hint ≤ 100000 * s.rd F.WKT_CRD_LIM0 then 0
  else if hint ≤ 100000 * s.rd F.WKT_CRD_LIM1 then 1
  else if hint ≤ 100000 * s.rd F.WKT_CRD_LIM2 then 2
  else 3

/-- The result word of a refusal (R111): every hint given is at least MIN_NS and saturates. -/
def State.refuseWord (s : State) (x : Refuse) : Nat :=
  let hint := match x.hint with
    | some h => min (2 ^ 32 - 1) (max h (s.rd F.WKT_HINT_MIN_NS))
    | none => 0
  hint + x.reason * 2 ^ 33 + s.crd hint * 2 ^ 38

/-- The result word of an admission with deadline D and margin in ns. -/
def grantWord (dl margin : Nat) : Nat := dl % 2 ^ 32 + 2 ^ 32 + min (2 ^ 20 - 1) (margin / 1000) * 2 ^ 44

/-- Count a refusal. -/
def State.countRefused (s : State) (reason : Nat) : State :=
  (s.ctr F.WKT_REFUSED_CTR).ctr F.WKT_REF_REASON_CTR reason

/-- Count a refusal of a new admission, with its class and tenant (R108). -/
def State.countRefusedNew (s : State) (r : AdmReq) (reason : Nat) : State :=
  ((s.countRefused reason).ctr F.WKT_CLASS_REFUSED (s.reqClass r)).ctr F.WKT_TENANT_REFUSED r.tenant

/-- Book every resource of a grant. -/
def State.bookAll (s : State) (l : List (Nat × Nat)) : State := foldSt (fun (b : Nat × Nat) (s : State) => s.book b.1 b.2) l s

/-- Take tokens, book and count a new admission. -/
def State.admTake (s : State) (r : AdmReq) (g : Grant) : State :=
  let s := (s.takeTokens r.tenant 0 1).takeTokens r.tenant 1 r.grains
  let s := (s.bookAll g.books).ctr F.WKT_ADMITTED_CTR
  (s.ctr F.WKT_CLASS_ADMITTED (s.reqClass r)).ctr F.WKT_TENANT_ADMITTED r.tenant

/-- A promise begins in an item slot (R121). -/
def State.startPromise (s : State) (k : Nat) (r : AdmReq) (g : Grant) (attach : Bool) (ifw : List Nat) : State :=
  let c := s.reqClass r
  let s := s.setPrm k
    { st := .live, time := s.now + g.d, cause := 0, cls := c, tenant := r.tenant, start := s.now,
      write := decide (r.kind = 1), attach := attach, fwd := !r.allns && decide (s.groupState r.vol = 1),
      supply := false, therm := s.flag F.PWR_THERM_GUARD, partner := s.flag F.TRN_STATUS_PARTNER_LATE, late := none,
      ifw := ifw }
  s.wr F.WKT_CLASS_INFLIGHT (s.rd F.WKT_CLASS_INFLIGHT c + 1) c

/-! Child requests (R108, R126). -/

/-- D − now of a promise that has not expired: what is left, or the slack stored while it is PAUSED (R121). -/
def Promise.left (p : Promise) (now : Nat) : Nat := if p.st = .paused then p.time else p.time - now

/-- Evaluate a CHILD request of the item in slot `k` with a brace allowance; the hint is the excess over the full 60 µs (R124). -/
def State.childCheck (s : State) (k allow len : Nat) (hzns : List (Nat × Nat)) : State × Nat :=
  match s.prm k with
  | none => (s.countRefused 17, s.refuseWord ⟨17, none⟩)
  | some p =>
    let fs := hzns.map (s.finish len)
    let e := latest fs
    let d := p.left s.now
    if d < e + allow then
      (s.countRefused 13, s.refuseWord ⟨13, some (e + 60000 - d)⟩)
    else ((s.bookAll (fs.filterMap Prod.snd)).ctr F.WKT_ADMITTED_CTR, grantWord (s.now + d) (d - (e + allow)))

/-- The result word BROKEN with a cause. -/
def State.brokenWord (s : State) (cause : Nat) : Nat := s.refuseWord ⟨16, none⟩ + cause * 2 ^ 40

/-! Request words. -/

/-- HZN0 to HZN7 of a request: index and role. -/
def reqHzns (w : BitVec 256) : List (Nat × Nat) :=
  (List.range (min 8 (bitsOf w.toNat 40 8))).map (fun i => let v := bitsOf w.toNat (96 + 16 * i) 16; (v % 2 ^ 14, v / 2 ^ 14))

/-- Bits of FLAGS: CHILD, ATTACH, CLASS_SET. -/
def reqFlag (w : BitVec 256) (i : Nat) : Bool := bitOf w.toNat (24 + i)

/-- Are the fields of a request well formed (R110 reason 17), apart from what the item says? The bytes CHILD ignores are not
checked on a CHILD request. -/
def reqOk (w : BitVec 256) : Bool :=
  let n := w.toNat
  decide (bitsOf n 16 8 ≤ 2 ∧ bitsOf n 27 5 = 0 ∧ bitsOf n 40 8 ≤ 8 ∧ bitsOf n 224 32 = 0) &&
    (reqHzns w).all (fun h => match h.2 with
      | 0 => decide (8192 ≤ h.1 ∧ h.1 ≤ 8263)
      | 1 => decide (h.1 ≤ 8191)
      | 2 => decide (h.1 ≤ 8191)
      | _ => false) &&
    !(reqFlag w 0 && reqFlag w 1) &&
    (reqFlag w 0 || decide (bitsOf n 12 4 = 0 ∧ bitsOf n 62 2 = 0))

/-- The request of a WKT.ADM that is no CHILD. -/
def admReqOf (w : BitVec 256) (budget : Nat) : AdmReq :=
  { tenant := bitsOf w.toNat 0 12, kind := bitsOf w.toNat 16 8,
    cls := if reqFlag w 2 then some (bitsOf w.toNat 32 4) else none,
    vol := bitsOf w.toNat 48 14, allns := false, length := bitsOf w.toNat 64 32, hzns := reqHzns w, budget := budget,
    quad := none, queue := none, need := 0 }

/-- Is the promise of a slot LIVE? -/
def State.prmLive (s : State) (k : Nat) : Bool :=
  match s.prm k with
  | some p => decide (p.st = .live)
  | none => false

/-- The request with those of its horizons that are well formed. -/
def AdmReq.sound (r : AdmReq) : AdmReq :=
  { r with hzns := r.hzns.filter (fun h => match h.2 with
      | 0 => decide (8192 ≤ h.1 ∧ h.1 ≤ 8263)
      | 3 => false
      | _ => decide (h.1 ≤ 8191)) }

/-- The checks of R110 for a WKT.ADM without CHILD: MALFORMED is the last of the table. A horizon that is not well formed prices
nothing in the checks before it (DEDUCED, assumption log 67). -/
def State.admCheckW (s : State) (r : AdmReq) (ok : Bool) : Refuse ⊕ Grant :=
  match s.admCheck r.sound with
  | .inl x => .inl x
  | .inr g => if ok then .inr g else .inl ⟨17, none⟩

/-- Threads that wait in a held CHILD request, in order of arrival at the Wicket (R110). -/
def State.heldOrder (s : State) : List (Nat × Nat) :=
  s.threads.filterMap (fun p => match p.2.wait with
    | some (.child _ _ _ o) => if p.2.st = .wait then some (o, p.1) else none
    | _ => none)

/-- Insert by the first number. -/
def insOrder (x : Nat × Nat) : List (Nat × Nat) → List (Nat × Nat)
  | [] => [x]
  | y :: l => if x.1 < y.1 then x :: y :: l else y :: insOrder x l

/-- WKT.ADM (R90, R108 to R112, R126). A new admission refused as MALFORMED counts in its class and tenant like another (DEDUCED,
assumption log 67). -/
def wktAdmBody (t rd rs1 rs2 : Nat) (iw : BitVec 32) (s : State) : Body :=
  if rs1 < 1 ∨ 28 < rs1 then .illegal s iw
  else
    let w : BitVec 256 := BitVec.ofNat 256 ((List.range 4).foldl (fun n i => n + (s.g t (rs1 + i)).toNat * 2 ^ (64 * i)) 0)
    let budget := (s.g t rs2).toNat % 2 ^ 32
    let item := (s.thread t).item
    let out := fun (s : State) (v : Nat) => s.put t rd (BitVec.ofNat 64 v)
    let r := admReqOf w budget
    let hasDl := match item with
      | some k => match SMap.find s.items k with
        | some it => it.hasDl
        | none => false
      | none => false
    let itemOk :=
      if reqFlag w 0 then (match item with
        | some k => s.prmLive k
        | none => false)
      else !reqFlag w 1 || (item.isSome && !hasDl)
    if reqFlag w 0 then
      if !reqOk w || !itemOk then out (s.countRefused 17) (s.refuseWord ⟨17, none⟩)
      else if s.life = .brace then
        let o := s.heldOrder.foldl (fun m p => max m (p.1 + 1)) 0
        .stay (s.updThread t (fun th => { th with st := .wait, wait := some (.child rd w budget o) }))
      else
        let x := s.childCheck (item.getD 0) 60000 r.length r.hzns
        out x.1 x.2
    else
      match s.admCheckW r (reqOk w && itemOk) with
      | .inl x => out (s.countRefusedNew r x.reason) (s.refuseWord x)
      | .inr g =>
        let word := grantWord (s.now + g.d) (g.d - (g.e + 60000))
        let s := s.admTake r g
        if reqFlag w 1 then
          let k := item.getD 0
          let dl := (s.now + g.d) % 2 ^ 32
          let c := s.reqClass r
          let s := s.startPromise k r g true []
          let s := s.updItem k (fun it => { it with deadline := dl, hasDl := true, cls := c, tenant := r.tenant })
          out s word
        else out s word

/-- WKT.ADM. -/
def execWktAdm (t : BitVec 8) (rd rs1 rs2 : BitVec 5) (s : State) : Res :=
  .next (s.issue t.toNat (wktAdmBody t.toNat rd.toNat rs1.toNat rs2.toNat (encQ 0x32 rd rs1 rs2 0x00 0)))

/-- End the hold of one CHILD request at BRACE exit with what it returns. -/
def State.childEnd (s : State) (t rd v : Nat) : State := (s.setG t rd (BitVec.ofNat 64 v)).resumeW t

/-- Evaluate a CHILD request held through a BRACE episode of `d` ns (R126). -/
def State.childExit (s : State) (d t rd : Nat) (w : BitVec 256) : State :=
  match (s.thread t).item with
  | none => s.childEnd t rd 0
  | some k =>
    match s.prm k with
    | none => s.childEnd t rd 0
    | some p =>
      if p.st = .expired then (s.countRefused 16).childEnd t rd (s.brokenWord p.cause)
      else if d ≤ 50000 then
        let x := s.childCheck k (60000 - d) (admReqOf w 0).length (reqHzns w)
        x.1.childEnd t rd x.2
      else
        let e := latest ((reqHzns w).map (s.finish (admReqOf w 0).length))
        if p.left s.now < e then
          let late := e - p.left s.now
          let s := (s.setPrm k { p with st := .ended, time := s.now + p.left s.now, cause := 1, late := some late, ifw := [] }).ifwClear p.ifw
          ((s.countBroken p 1).countRefused 16).childEnd t rd (s.brokenWord 1)
        else
          let x := s.childCheck k 0 (admReqOf w 0).length (reqHzns w)
          x.1.childEnd t rd x.2

/-- Apply a function to each thread that waits in a held CHILD request, in order of arrival. -/
def State.heldChildren (s : State) (f : Nat → Nat → BitVec 256 → State → State) : State :=
  foldSt (fun (p : Nat × Nat) (s : State) =>
    match (s.thread p.2).wait with
    | some (.child rd w _ _) => f p.2 rd w s
    | _ => s) (s.heldOrder.foldr insOrder []) s

/-- A promise whose interval a long BRACE episode overlapped. -/
def Promise.dipped (p : Promise) : Promise :=
  if p.st = .live ∨ p.st = .paused then { p with supply := true } else p

/-- Leaving BRACE for ACTIVE after an episode of `d` ns: promises are marked (R125) and held requests evaluated (R126). -/
def State.braceExit (s : State) (d : Nat) : State :=
  let s := if 50000 < d then
      { s with prms := s.prms.map (fun q => (q.fst, q.snd.dipped)) }
    else s
  State.heldChildren { s with braceAt := none } (fun t rd w s => s.childExit d t rd w)

/-- Leaving BRACE for VAULTING: every held request returns REASON STATE without a hint (R126). -/
def State.braceVault (s : State) : State :=
  State.heldChildren { s with braceAt := none } (fun t rd _ s => (s.countRefused 1).childEnd t rd (s.refuseWord ⟨1, none⟩))

/-! WKT.SLK, WKT.FIN, WKT.HZN. -/

/-- A slack as a 64-bit word: at least −2^31 (R123). -/
def slackWord (x : Int) : Word := BitVec.ofInt 64 (max (-(2 ^ 31 : Nat) : Int) x)

/-- DEADLINE of an item (R121): now plus the slack while its promise is PAUSED. -/
def State.itemDeadline (s : State) (k : Nat) : Nat :=
  match s.prm k, SMap.find s.items k with
  | some p, some it => if p.st = .paused then (s.now + p.time) % 2 ^ 32 else it.deadline
  | none, some it => it.deadline
  | _, none => 0

/-- Slack of an item that has a deadline (R123). -/
def State.itemSlack (s : State) (k : Nat) : Word :=
  match s.prm k with
  | some p => if p.st = .ended then sext64 32 (s.itemDeadline k + 2 ^ 32 - s.now % 2 ^ 32) else slackWord (p.slack s.now)
  | none => sext64 32 (s.itemDeadline k + 2 ^ 32 - s.now % 2 ^ 32)

/-- WKT.SLK (R90). -/
def execWktSlk (t : BitVec 8) (rd : BitVec 5) (s : State) : Res :=
  .next (s.issue t.toNat (fun s =>
    let none' := BitVec.ofNat 64 0x7FFFFFFFFFFFFFFF
    match (s.thread t.toNat).item with
    | none => s.put t.toNat rd.toNat none'
    | some k =>
      match SMap.find s.items k with
      | some it => s.put t.toNat rd.toNat (if it.hasDl then s.itemSlack k else none')
      | none => s.put t.toNat rd.toNat none'))

/-- WKT.FIN (R90, R121). The first after a BROKEN result has ended the promise returns the slack, as R90 says of every first WKT.FIN
(DEDUCED, assumption log 85). -/
def execWktFin (t : BitVec 8) (rd rs1 : BitVec 5) (s : State) : Res :=
  .next (s.issue t.toNat (fun s =>
    match (s.thread t.toNat).item with
    | none => s.put t.toNat rd.toNat 0
    | some k =>
      match s.prm k with
      | none => s.put t.toNat rd.toNat 0
      | some p =>
        if p.st = .ended then
          (s.flushLate k).put t.toNat rd.toNat (if p.late.isSome then slackWord (p.slack s.now) else 0)
        else (s.endPromise k ((s.g t.toNat rs1.toNat).toNat % 16)).put t.toNat rd.toNat (slackWord (p.slack s.now))))

/-- WKT.HZN (R90): raise a horizon to at least a device time. -/
def execWktHzn (t : BitVec 8) (rd rs1 rs2 : BitVec 5) (s : State) : Res :=
  .next (s.issue t.toNat (fun s =>
    if !(s.thread t.toNat).keeper then .priv s (encQ 0x32 rd rs1 rs2 0x03 0)
    else
      let i := (s.g t.toNat rs1.toNat).toNat % 2 ^ 14
      let off := ahead ((s.g t.toNat rs2.toNat).toNat % 2 ^ 32) s.now
      if hznCount ≤ i then s.put t.toNat rd.toNat 0
      else (if s.hzn i < off then s.book i off else s).put t.toNat rd.toNat 1))

/-! The Wicket's own events. -/

/-- The cause of an expiry (R125). -/
def State.expiryCause (s : State) (p : Promise) : Nat :=
  if p.supply || (match s.braceAt with
      | some b => decide (50000 < s.now - b)
      | none => false) then 1
  else if p.therm then 2
  else if p.partner && (p.write || p.fwd || p.attach) then 3
  else 5

/-- The threads whose current item lies in a slot. -/
def State.holders (s : State) (k : Nat) : List Nat :=
  (s.threads.filter (fun p => decide (p.2.item = some k ∧ p.2.st ≠ .free))).map Prod.fst

/-- A write to `MQ_WAKE` of one thread (R68): its WAIT completes with 0. -/
def State.wake (s : State) (t : Nat) : State :=
  match (s.thread t).st, (s.thread t).wait with
  | .wait, some (.wait rd _ _) => (s.setG t rd 0).resumeW t
  | _, _ => s

/-- A LIVE deadline has passed: the promise of slot `k` expires (R121, R123). -/
def execPromiseExpiry (k : Nat) (s : State) : Res :=
  .next (match s.prm k with
    | some p =>
      if p.st = .live ∧ p.time ≤ s.now then
        let c := s.expiryCause p
        let s := (s.setPrm k { p with st := .expired, cause := c }).countBroken p c
        foldSt (fun t (s : State) => s.wake t) (s.holders k) s
      else s
    | none => s)

/-- Every 100 ms, values not later than now become now (R117). -/
def execHorizonRefresh (s : State) : Res :=
  .next (foldSt (fun i (s : State) =>
    let s := if laterThan 32 (s.rd F.WKT_HZN_REPORTED i) s.now then s else s.wr F.WKT_HZN_REPORTED s.now i
    if laterThan 32 (s.rd F.WKT_HZN_BOOKED i) s.now then s else s.wr F.WKT_HZN_BOOKED s.now i) (List.range hznCount) s)

/-! Register writes with an effect of their own. The whole 8-byte word is given. -/

/-- A store to `WKT_CTL`: a 1 to ADMIT_EN is ignored while bank 0 is not initialised (R374). -/
def State.wktCtl (s : State) (v : Nat) : State :=
  let en := bitOf v 0 && (s.flag F.SRCH_STATUS_INIT_DONE0 || s.flag F.WKT_CTL_ADMIT_EN)
  (((s.wr F.WKT_CTL_ADMIT_EN (b2n en)).wr F.WKT_CTL_CAP_CLOSED (bitsOf v 1 1)).wr F.WKT_CTL_SUSP_EN (bitsOf v 2 1)).wr
    F.WKT_CTL_RECON_EN (bitsOf v 3 1)

/-- A store to `WKT_CTL`. -/
def execWktCtlWrite (v : Nat) (s : State) : Res := .next (s.wktCtl v)

/-- VALID of a class after a store (R120). -/
def State.classEval (s : State) (c : Nat) : State :=
  let b := s.rd F.WKT_CLASS_BOUND_NS c
  s.wr F.WKT_CLASS_VALID
    (b2n (decide (100000 ≤ b ∧ b ≤ 1000000000 ∧ s.rd F.WKT_CLASS_FIXED_NS c < b - 60000))) c

/-- A store to word `w` (0 to 2) of class `c`. -/
def State.classStore (s : State) (c w v : Nat) : State :=
  let s := match w with
    | 0 => (s.wr F.WKT_CLASS_BOUND_NS v c).wr F.WKT_CLASS_FIXED_NS (v >>> 32) c
    | 1 => s.wr F.WKT_CLASS_FOOTPRINT v c
    | 2 => s.wr F.WKT_CLASS_MAX_INFLIGHT v c
    | _ => s
  s.classEval c

/-- A store to `WKT_CLASS`. -/
def execWktClassStore (c w v : Nat) (s : State) : Res := .next (if c < 16 then s.classStore c w v else s)

/-- A store to word `w` (0 to 2) of tenant `n`: writing RATE or BURST sets the bucket to BURST (R119). -/
def State.tenantStore (s : State) (n w v : Nat) : State :=
  match w with
  | 0 => { (s.wr F.WKT_TENANT_CMD_RATE v n).wr F.WKT_TENANT_CMD_BURST (v >>> 32) n with
            wktBuckets := SMap.del s.wktBuckets (2 * n) }
  | 1 => { (s.wr F.WKT_TENANT_GRAIN_RATE v n).wr F.WKT_TENANT_GRAIN_BURST (v >>> 32) n with
            wktBuckets := SMap.del s.wktBuckets (2 * n + 1) }
  | 2 => (s.wr F.WKT_TENANT_CLASSES v n).wr F.WKT_TENANT_FLAGS (v >>> 16) n
  | _ => s

/-- A store to `WKT_TENANT`. -/
def execWktTenantStore (n w v : Nat) (s : State) : Res := .next (if n < 4096 then s.tenantStore n w v else s)

end Sys2Proof.Machine
end

