-- ==== Sys2Proof/Machine/Eut.lean ====
section
/-! DEFINITION. The erase-unit table (R312 to R315, R321): one entry for every erase unit of every own die, in HBM. The sums in
`MUL_LANE` and `MUL_STATUS` follow its entries. -/

namespace Sys2Proof.Machine

/-- STRIDE, at most 32,768. -/
def State.eutStride (s : State) : Nat := min 32768 (s.rd F.MUL_GEOM_STRIDE)

/-- Address of the entry of lane, own die (0 to 127) and unit. -/
def State.eutAddr (s : State) (lane d u : Nat) : Nat := s.rd F.MUL_EUT_BASE_ADDR * 2 ^ 31 + 8 * ((128 * lane + d) * s.eutStride + u)

/-- An entry. -/
def State.eut (s : State) (lane d u : Nat) : Nat := s.ldMem (s.eutAddr lane d u) 8

/-- ERASES of an entry. -/
def eutErases (e : Nat) : Nat := bitsOf e 0 32

/-- STATE of an entry: 0 FREE, 1 VAULT, 2 IN_BAND, 3 DIRTY, 4 ERASING, 5 RETIRED, 6 ABSENT. -/
def eutState (e : Nat) : Nat := bitsOf e 32 3

/-- Write an entry; the lane's FREE and RETIRED and the head's DIRTY and ERASING follow. -/
def State.setEut (s : State) (lane d u st band erases : Nat) : State :=
  let old := eutState (s.eut lane d u)
  let s := s.stMem (s.eutAddr lane d u) 8 (min (2 ^ 32 - 1) erases + st * 2 ^ 32 + band * 2 ^ 36)
  let step := fun (f : Fld) (i k : Nat) (s : State) =>
    if old = k ∧ st ≠ k then s.wr f (s.rd f i - 1) i else if old ≠ k ∧ st = k then s.wr f (s.rd f i + 1) i else s
  step F.MUL_STATUS_ERASING 0 4 (step F.MUL_STATUS_DIRTY 0 3 (step F.MUL_LANE_RETIRED lane 5 (step F.MUL_LANE_FREE lane 0 s)))

/-- Move an entry to a state, keeping its erase count; BAND stays only while IN_BAND. -/
def State.eutMove (s : State) (lane d u st : Nat) : State := s.setEut lane d u st 0 (eutErases (s.eut lane d u))

/-- Lane becomes READONLY (R321), with its FAULT event. -/
def State.laneReadonly (s : State) (lane : Nat) : State :=
  if s.flag F.MUL_LANE_READONLY lane then s
  else (s.setFlag F.MUL_LANE_READONLY lane).raise (0x0E0 + lane) (s.rd F.MUL_LANE_RETIRED lane)

/-- A unit becomes RETIRED (R315); at SPARE its lane becomes READONLY. -/
def State.eutRetire (s : State) (lane d u : Nat) : State :=
  let s := (s.eutMove lane d u 5).ctr F.MUL_RETIRED_CTR
  if s.rd F.MUL_LANE_SPARE lane ≤ s.rd F.MUL_LANE_RETIRED lane then s.laneReadonly lane else s

/-- Is a lane present and not FAILED? -/
def State.laneGood (s : State) (lane : Nat) : Bool :=
  decide (lane < s.fuse.variant.lanes) && !bitOf (s.rd F.SEG_LANE_FAILED) lane

/-- May a unit be taken on a lane (R314)? `held` is the number of FREE units withheld. -/
def State.laneEligible (s : State) (lane held : Nat) : Bool :=
  s.laneGood lane && !s.flag F.MUL_LANE_READONLY lane && decide (held < s.rd F.MUL_LANE_FREE lane)

/-- The FREE units of a die with their erase counts. -/
def State.freeUnits (s : State) (lane d : Nat) : List (Nat × Nat) :=
  (List.range s.eutStride).filterMap (fun u =>
    let e := s.eut lane d u
    if eutState e = 0 then some (u, eutErases e) else none)

/-- FREE units withheld from a stream (R314). -/
def State.withheld (s : State) (stream : Nat) : Nat := if stream ≤ 1 then s.rd F.MUL_GEOM_HOST_RESERVE else 0

/-- Choose a unit on a lane: the next own die in rotation that holds a FREE unit, then the least worn unit, or the most worn
for streams 1 and 2 (R314). Stream 5 stands for rebuild. -/
def State.chooseUnit (s : State) (lane stream : Nat) : Option (Nat × Nat) :=
  if !s.laneEligible lane (s.withheld stream) then none
  else
    let start := SMap.findD s.seg.dieNext lane 0
    let dies := (List.range 128).map (fun i => (start + i) % 128)
    match dies.find? (fun d => !(s.freeUnits lane d).isEmpty) with
    | none => none
    | some d =>
      (minBy (fun p : Nat × Nat => if stream = 1 ∨ stream = 2 then 2 ^ 32 - p.2 else p.2) (s.freeUnits lane d)).map (fun p => (d, p.1))

/-- Take a unit for a band number: it becomes IN_BAND, and the rotation goes on. -/
def State.takeUnit (s : State) (lane d u band : Nat) : State :=
  let s := { s with seg := { s.seg with dieNext := SMap.putD s.seg.dieNext lane ((d + 1) % 128) 0 } }
  s.setEut lane d u 2 band (eutErases (s.eut lane d u))

/-- The physical die of an own die (R14). -/
def State.physDie (s : State) (d : Nat) : Nat := d + 128 * s.headId

/-- Does this head own a die? -/
def State.ownDie (s : State) (die : Nat) : Bool := decide (die / 128 = s.headId)

/-- Is a lane UP? -/
def State.laneUp (s : State) (lane : Nat) : Bool := decide (lane < s.fuse.variant.lanes ∧ s.rd F.NML_LINK_STATE lane = 3)

/-! The dies as the head knows them (R116, R118, R270). Times are ns of device time. -/

/-- Key of a die of a lane. -/
def dieKey (lane die : Nat) : Nat := 256 * lane + die

/-- Index of an own die in the ledger (R115). -/
def ownIndex (lane die : Nat) : Nat := 128 * lane + die % 128

/-- The page read in progress at a die. -/
def State.dieRead (s : State) (lane die : Nat) : Option DieRead :=
  (SMap.find s.seg.dieReads (dieKey lane die)).filter (fun r => decide (s.now < r.until_))

/-- How long a background read in progress at a die still lasts (R270). -/
def State.bgLeft (s : State) (lane die : Nat) : Nat :=
  ((s.dieRead lane die).filter (fun r => r.bg)).elim 0 (fun r => r.until_ - s.now)

/-- The program or erase that this head has running on an own die. -/
def State.dieOp (s : State) (lane die : Nat) : Option DieOp :=
  (SMap.find s.seg.dieOps (ownIndex lane die)).filter (fun o => s.ownDie die && (decide (s.now < o.until_) || o.since.isSome))

/-- Put the running operation of an own die, and report its end (R116). -/
def State.setDieOp (s : State) (lane die : Nat) (o : DieOp) : State :=
  State.report { s with seg := { s.seg with dieOps := SMap.put s.seg.dieOps (ownIndex lane die) o } } (ownIndex lane die) (o.until_ - s.now)

/-- A program or erase starts on an own die, after one that runs: its end is computed from TPROG or TERASE (R116). -/
def State.opStart (s : State) (lane die ns : Nat) : State :=
  if s.ownDie die then
    let u := ((s.dieOp lane die).map (·.until_)).getD s.now
    s.setDieOp lane die { until_ := u + ns, susps := 0, since := none }
  else s

/-- The sled reports that an operation has completed: REPORTED becomes now (R116). -/
def State.opEnd (s : State) (lane die : Nat) : State :=
  if s.ownDie die then
    State.report { s with seg := { s.seg with dieOps := SMap.del s.seg.dieOps (ownIndex lane die) } } (ownIndex lane die) 0
  else s

/-- Does a background read of a die have to wait: behind a read in progress, or behind the requests of the die's queue (R270)? -/
def State.bgWaits (s : State) (lane die : Nat) : Bool :=
  (s.dieRead lane die).isSome || (s.arb 6 (dieKey lane die)).holder.isSome || !(s.arb 6 (dieKey lane die)).quiet

/-! What the head's own engines do on the media (R297, R299, R307): a command and its answer, as one step. -/

/-- A command of the head's engines (R297): a READ of a foreign die always asks for suspension (R309). -/
def State.engCmd (s : State) (opc die eu page : Nat) (slc susp : Bool) : NmlCmd :=
  { opc := opc, slc := slc, susp := decide (opc = 1) && (susp || !s.ownDie die), die := die, sub := 0, eu := eu, page := page
    count := if opc = 3 then 0 else 1, epoch := if opc = 2 ∨ opc = 3 then s.rd F.NML_EPOCH_EPOCH else 0, half := 0 }

/-- The lane carries a command of the head's engines, where it is UP. -/
def State.engSend (s : State) (lane : Nat) (c : NmlCmd) (d : List Byte) : State :=
  if s.laneUp lane then s.emit (.nml lane (.eng c d)) else s

/-- A read suspends the program or erase that runs on a die of a sled, which then ends later (R301). -/
def SledDie.readThrough (d : SledDie) (suspMax ns : Nat) : SledDie :=
  { d with run := d.run.map (fun o =>
      if o.writes && o.susp.isNone && decide (o.suspCount < suspMax) then { o with suspCount := o.suspCount + 1, suspNs := o.suspNs + ns } else o) }

/-- A READ that asks for suspension: the sled's operation is suspended for it, and an own one ends that much later (R116, R118, R301). -/
def State.suspRead (s : State) (lane die : Nat) : State :=
  let x := s.sled lane
  let s := if SMap.has x.dies die then
      s.setSled lane (x.setDie die ((x.die die).readThrough x.geo.suspMax (1000 * (x.geo.tsusp + x.geo.tread))))
    else s
  match s.dieOp lane die with
  | some o => s.setDieOp lane die { o with until_ := o.until_ + s.tsusp + s.tread, susps := o.susps + 1 }
  | none => s

/-- A page read of the head's engines starts (R270, R297, R309): it lasts TREAD after what is being read at the die (DESIGN CHOICE,
assumption log 98). -/
def State.readStart (s : State) (lane die eu page : Nat) (susp bg : Bool) : State :=
  let c := s.engCmd 1 die eu page false susp
  let s := s.engSend lane c []
  let s := if c.susp then s.suspRead lane die else s
  let r : DieRead := { until_ := ((s.dieRead lane die).map (·.until_)).getD s.now + s.tread, bg := bg }
  let l := s.seg.dieReads.filter (fun p => decide (s.now < p.2.until_))
  { s with seg := { s.seg with dieReads := SMap.put l (dieKey lane die) r } }

/-- A media read. -/
inductive MediaRead where
  | page (d : List Byte)
  | erased
  | bad
  | tmo
  | stale
  deriving DecidableEq, Repr

/-- What a header read finds at a page; a fenced port may issue it (R307). `unc` says that the sled finds the page uncorrectable. -/
def State.mediaHeader (s : State) (lane die eu page : Nat) (unc : Bool) : MediaRead :=
  let x := s.sled lane
  if !s.laneUp lane ∨ x.geo.dies ≤ die then .tmo
  else if unc then .bad
  else
    match x.page die eu page with
    | some d => .page d
    | none => .erased

/-- What a READ finds at a page: STALE on a fenced port (R307). -/
def State.mediaRead (s : State) (lane die eu page : Nat) (unc : Bool) : MediaRead :=
  if s.laneUp lane ∧ die < (s.sled lane).geo.dies ∧ (s.sled lane).fenced s.headId then .stale else s.mediaHeader lane die eu page unc

/-- Do the head's engines issue no new program or erase: in BRACE (R424), from VAULTING on (R190 step 3, R23)? -/
def State.mediaHold (s : State) : Bool :=
  decide (s.life = .brace ∨ s.life = .vaulting ∨ s.life = .down ∨ s.life = .cold)

/-- The end of a media write: done, failed on the media or unanswered, refused with nothing done, or STALE. -/
inductive MediaWrite where
  | ok (s : State)
  | fail (s : State)
  | refused (s : State)
  | stale (s : State)

/-- How a sled answers a write of this head before it acts (R300, R307). -/
inductive WriteGate where
  | open_ | silent | stale | readOnly | invalid
  deriving DecidableEq, Repr

/-- The answer to a write of this head. -/
def State.mediaGate (s : State) (lane : Nat) (c : NmlCmd) : WriteGate :=
  let x := s.sled lane
  if !s.laneUp lane ∨ x.geo.dies ≤ c.die then .silent
  else if x.stale s.headId c then .stale
  else if x.ro then .readOnly
  else if x.geo.eus ≤ c.eu ∨ (c.opc = 2 ∧ (c.page < (x.eu c.die c.eu).top ∨ x.geo.ppe c.slc ≤ c.page)) then .invalid
  else .open_

/-- A sled has reported READ_ONLY (R298, R321). -/
def State.sledRo (s : State) (lane : Nat) : State := (s.setFlag F.NML_LINK_SLED_RO lane).laneReadonly lane

/-- Program a page; `bad` says that the sled reports a failed program. A program that is not answered or is INVALID has failed (R311). -/
def State.mediaProgram (s : State) (lane die eu page : Nat) (slc bad : Bool) (d : List Byte) : MediaWrite :=
  let c := s.engCmd 2 die eu page slc false
  let s := s.engSend lane c d
  match s.mediaGate lane c with
  | .open_ =>
    let s := s.opStart lane die (1000 * s.rd F.WKT_MEDIA_TPROG)
    if bad then .fail s else .ok (s.setSled lane ((s.sled lane).program die eu page slc d))
  | .stale => .stale s
  | .readOnly => .refused (s.sledRo lane)
  | _ => .fail s

/-- Erase a unit; `bad` says that the sled reports a failed erase. -/
def State.mediaErase (s : State) (lane die eu : Nat) (bad : Bool) : MediaWrite :=
  let c := s.engCmd 3 die eu 0 false false
  let s := s.engSend lane c []
  match s.mediaGate lane c with
  | .open_ =>
    let s := s.opStart lane die (1000 * s.rd F.WKT_MEDIA_TERASE)
    if bad then
      let s := s.setSled lane ((s.sled lane).eraseFail die eu)
      .fail (if (s.sled lane).ro then s.sledRo lane else s)
    else .ok (s.setSled lane ((s.sled lane).erase die eu))
  | .stale => .stale s
  | .readOnly => .refused (s.sledRo lane)
  | _ => .refused s

/-- A flush that is cut off leaves its areas disarmed, where they stand (R191). -/
def State.flushStop (s : State) : State :=
  if s.pwr.flush.isSome then
    foldSt (fun a (s : State) => s.clrFlag F.JRN_VAULT_ARMED a) (List.range 4) { s with pwr := { s.pwr with flush := none } }
  else s

/-- LEASE_STALE from any sled (R29): counted, and the head goes to DOWN at once, from BOOT, VERIFY, LOAD and STANDBY too, for which R23
lists no such event and R29 excepts none (DEDUCED, assumption log 87). -/
def State.staleDown (s : State) (lane : Nat) : State := (s.ctr F.NML_PROTO_ERR_CTR lane).flushStop.goDown

end Sys2Proof.Machine
end

