-- ==== Sys2Proof/Machine/Nml.lean ====
section
/-! DEFINITION. The NML controller (R290 to R298, R309, R311) and the NML jobs (R105). What it sends stands on the output
trace; what it receives comes with the commands. -/

namespace Sys2Proof.Machine

/-- A lane that has done nothing. -/
def Lane.init : Lane :=
  { since := 0, tries := 0, wasUp := false, leftUp := 0, helloOk := false, creditOk := false, rxAt := 0, helloAt := 0, next := 0
    nakAt := none, txSeq := 0, held := [], progAt := 0, replays := 0, ackPend := 0, ackAt := 0, cmdCr := 0, dataCr := 0, cmds := [],
    epochs := none }

/-- A lane's controller. -/
def State.lane (s : State) (n : Nat) : Lane := SMap.findD s.lanes n Lane.init

/-- Set a lane's controller. -/
def State.setLane (s : State) (n : Nat) (x : Lane) : State := { s with lanes := SMap.putD s.lanes n x Lane.init }

/-- STATE of a lane: 0 DOWN, 1 TRAIN, 2 INIT, 3 UP, 4 FAULT. -/
def State.laneState (s : State) (n : Nat) : Nat := s.rd F.NML_LINK_STATE n

/-- Is a lane present? -/
def State.laneIn (s : State) (n : Nat) : Bool := decide (n < s.fuse.variant.lanes)

/-- Enter a state. -/
def State.laneGo (s : State) (n st : Nat) : State := (s.wr F.NML_LINK_STATE st n).setLane n { s.lane n with since := s.now }

/-- Send something on a lane. -/
def State.nmlTx (s : State) (n : Nat) (t : NmlTx) : State := s.emit (.nml n t)

/-- Tags held after a timeout (R311). -/
def Lane.heldTags (x : Lane) : Nat := (x.cmds.filter (fun p => p.2.late)).length

/-- The FAULT event of a lane (R432). -/
def State.laneFault (s : State) (n : Nat) : State :=
  s.raise (0x0A0 + n) (s.laneState n + 8 * s.rd F.NML_LINK_MISWIRE n + 2 ^ 8 * min 255 (s.lane n).heldTags)

/-- A command no longer holds its die, nor waits for it (R383). -/
def State.dieFree (s : State) (n tag : Nat) (o : NmlOut) : State :=
  if o.job.needsDie then s.arbWithdraw 6 (dieKey n o.cmd.die) (256 + tag) else s

/-- End the job of a command. DESIGN CHOICE (assumption log 71): FREE_IN frees BUF for every OP, a destination as well, since the
descriptor of R105 has no IN field. -/
def State.nmlDone (s : State) (n : Nat) (o : NmlOut) (e : JobEnd) : State :=
  if o.dead then s else s.complete o.job n (o.job.fld 16 8) e

/-- Outstanding commands complete MEDIA_TIMEOUT, and the lane starts afresh (R291). -/
def State.laneDown (s : State) (n : Nat) : State :=
  let x := s.lane n
  let s := ((s.wr F.NML_LINK_STATE 0 n).clrFlag F.NML_LINK_MISWIRE n).setLane n { Lane.init with since := s.now, epochs := x.epochs }
  foldSt (fun (p : Nat × NmlOut) (s : State) =>
    if p.2.dead then s else ((s.dieFree n p.1 p.2).nmlDone n p.2 (.st stMediaTmo)).ctr F.NML_TIMEOUTS_CTR n) x.cmds s

/-- A lane leaves UP for TRAIN: frames and commands are kept (R291). -/
def State.laneRetrain (s : State) (n : Nat) : State :=
  let s := s.laneGo n 1
  (s.setLane n { s.lane n with leftUp := s.now, tries := 0, helloOk := false, creditOk := false }).ctr F.NML_RETRAINS_CTR n

/-- A store to `NML_CTL`: clearing LANE_EN squelches the lane. DESIGN CHOICE (assumption log 72): bits of absent lanes are kept, and
read back as stored, while nothing happens on those lanes. -/
def State.nmlCtl (s : State) (v : Nat) : State :=
  let old := s.rd F.NML_CTL_LANE_EN
  let s := s.wr F.NML_CTL_LANE_EN v
  foldSt (fun n (s : State) => if bitOf old n && !bitOf v n && s.laneIn n then (s.laneDown n).nmlTx n .squelch else s) (List.range 64) s

/-- A store to `NML_CTL`. -/
def execNmlCtlWrite (v : Nat) (s : State) : Res := .next (s.nmlCtl v)

/-- Signal is detected on an enabled lane in DOWN. -/
def execNmlSignalDetect (lane : Nat) (s : State) : Res :=
  .next (if s.laneIn lane ∧ s.laneState lane = 0 ∧ bitOf (s.rd F.NML_CTL_LANE_EN) lane then
      let s := s.laneGo lane 1
      s.setLane lane { s.lane lane with tries := 0 }
    else s)

/-- FEC lock held for 1 ms with a low error ratio, the exit condition of R290: HELLO frames begin. The link is in TRAIN for that
long, counted over a failed training before this one. -/
def execNmlTrainExit (lane : Nat) (s : State) : Res :=
  .next (if s.laneIn lane ∧ s.laneState lane = 1 ∧ (0 < (s.lane lane).tries ∨ (s.lane lane).since + 1000000 ≤ s.now) then
      let s := s.laneGo lane 2
      (s.setLane lane { s.lane lane with tries := 0, helloOk := false, creditOk := false, helloAt := s.now }).nmlTx lane (.hello s.headId)
    else s)

/-- 20 ms of training without the exit condition; the third in a row is a fault. -/
def execNmlTrainTimeout (lane : Nat) (s : State) : Res :=
  .next (let x := s.lane lane
    if s.laneIn lane ∧ s.laneState lane = 1 ∧ x.since + 20000000 ≤ s.now then
      if 2 ≤ x.tries then (s.laneGo lane 4).laneFault lane
      else s.setLane lane { x with tries := x.tries + 1, since := s.now }
    else s)

/-- Every held frame is sent again (R294). -/
def State.nmlReplay (s : State) (n : Nat) (l : List NmlTx) : State :=
  let s := foldSt (fun (t : NmlTx) (s : State) => (s.nmlTx n t).ctr F.NML_FRAMES_TX_CTR n) l s
  s.ctr F.NML_REPLAYS_CTR n

/-- A lane in INIT with HELLO and absolute CREDIT comes UP; unacknowledged frames are sent again. -/
def State.laneTryUp (s : State) (n : Nat) : State :=
  let x := s.lane n
  if s.laneState n = 2 ∧ x.helloOk ∧ x.creditOk then
    let s := s.laneGo n 3
    let s := s.setLane n { s.lane n with wasUp := true, rxAt := s.now, helloAt := s.now, progAt := s.now, replays := 0 }
    if x.held.isEmpty then s else s.nmlReplay n x.held
  else s

/-- A frame of any kind has been received in UP. -/
def State.laneHeard (s : State) (n : Nat) : State := s.setLane n { s.lane n with rxAt := s.now }

/-- A HELLO frame: the sled's port and READ_ONLY (R291, R292, R300, R321); a read-only sled always reports it. -/
def execNmlHelloRx (lane port : Nat) (ro : Bool) (s : State) : Res :=
  .next (
    let ro := ro || (s.sled lane).ro
    let st := s.laneState lane
    if !s.laneIn lane ∨ (st ≠ 2 ∧ st ≠ 3) then s
    else
      let s := (s.laneHeard lane).wr F.NML_LINK_SLED_RO (b2n ro) lane
      let s := if ro then s.laneReadonly lane else s
      if st = 3 then s
      else if port = s.headId then (s.setLane lane { s.lane lane with helloOk := true }).laneTryUp lane
      else ((s.setFlag F.NML_LINK_MISWIRE lane).laneGo lane 4).laneFault lane)

/-- HELLO is due: every 10 µs in INIT and in FAULT after INIT, every 100 µs in UP (R291). -/
def execNmlHelloTimer (lane : Nat) (s : State) : Res :=
  .next (
    let x := s.lane lane
    let st := s.laneState lane
    let gap := if st = 3 then 100000 else 10000
    if s.laneIn lane ∧ (st = 2 ∨ st = 3 ∨ (st = 4 ∧ x.tries < 2 ∧ s.flag F.NML_LINK_MISWIRE lane = false)) ∧ x.helloAt + gap ≤ s.now then
      (s.setLane lane { x with helloAt := s.now }).nmlTx lane (.hello s.headId)
    else s)

/-- RETRAIN_MS in ns. -/
def State.retrainNs (s : State) : Nat := 1000000 * s.rd F.NML_CFG_RETRAIN_MS

/-- RETRAIN_MS passes outside UP (R291). -/
def execNmlRetrainTimeout (lane : Nat) (s : State) : Res :=
  .next (
    let x := s.lane lane
    let st := s.laneState lane
    if !s.laneIn lane then s
    else if (st = 1 ∨ st = 2) ∧ x.wasUp ∧ x.leftUp + s.retrainNs ≤ s.now then s.laneDown lane
    else if st = 2 ∧ !x.wasUp ∧ x.since + s.retrainNs ≤ s.now then (s.laneGo lane 4).laneFault lane
    else s)

/-- FEC lock is lost in UP. -/
def execNmlFecLockLoss (lane : Nat) (s : State) : Res :=
  .next (if s.laneIn lane ∧ s.laneState lane = 3 then s.laneRetrain lane else s)

/-- No frame of any kind for 1 ms in UP. -/
def execNmlIdleTimeout (lane : Nat) (s : State) : Res :=
  .next (if s.laneIn lane ∧ s.laneState lane = 3 ∧ (s.lane lane).rxAt + 1000000 ≤ s.now then s.laneRetrain lane else s)

/-! Link layer (R293, R294). -/

/-- FSEQ of a frame held. -/
def NmlTx.fseq : NmlTx → Nat
  | .cmd q _ _ => q
  | .wdata q _ _ _ _ => q
  | _ => 0

/-- Send a sequenced frame and hold it. -/
def State.nmlSend (s : State) (n : Nat) (mk : Nat → NmlTx) : State :=
  let x := s.lane n
  let t := mk x.txSeq
  ((s.setLane n { x with txSeq := (x.txSeq + 1) % 4096, held := x.held ++ [t],
                         progAt := if x.held.isEmpty then s.now else x.progAt }).nmlTx n t).ctr F.NML_FRAMES_TX_CTR n

/-- NEXT of an ACK or NAK covers every held frame before it: those are freed, and commands among them are timed from now
(R311). Nothing where NEXT covers no held frame. -/
def State.nmlAcked (s : State) (n next : Nat) : State :=
  let x := s.lane n
  match x.held with
  | [] => s
  | t :: _ =>
    let k := (next % 4096 + 4096 - t.fseq) % 4096
    if k = 0 ∨ x.held.length < k then s
    else
      let gone := (x.held.take k).map NmlTx.fseq
      let start : NmlOut → NmlOut := fun o => if o.acked.isNone ∧ gone.contains o.fseq then { o with acked := some s.now } else o
      s.setLane n { x with held := x.held.drop k, progAt := s.now, replays := 0, cmds := x.cmds.map (fun p => (p.1, start p.2)) }

/-- An ACK frame. -/
def execNmlAckRx (lane next : Nat) (s : State) : Res :=
  .next (if s.laneUp lane then (s.laneHeard lane).nmlAcked lane next else s)

/-- A replay starts (R294), or, when REPLAY_MAX of them have made no progress, the lane retrains (R291). -/
def State.replayOrRetrain (s : State) (n : Nat) : State :=
  let x := s.lane n
  if s.rd F.NML_CFG_REPLAY_MAX ≤ x.replays then s.laneRetrain n
  else (s.setLane n { x with replays := x.replays + 1 }).nmlReplay n x.held

/-- A NAK frame: acknowledges what comes before NEXT, and every held frame from NEXT on is sent again. -/
def execNmlNakRx (lane next : Nat) (s : State) : Res :=
  .next (if s.laneUp lane then
      let s := (s.laneHeard lane).nmlAcked lane next
      if (s.lane lane).held.isEmpty then s else s.replayOrRetrain lane
    else s)

/-- REPLAY_US passes with frames held and no advance; REPLAY_MAX replays without progress retrain the lane. -/
def execNmlReplayTimer (lane : Nat) (s : State) : Res :=
  .next (
    let x := s.lane lane
    if s.laneUp lane ∧ !x.held.isEmpty ∧ x.progAt + 1000 * s.rd F.NML_CFG_REPLAY_US ≤ s.now then
      (s.setLane lane { x with progAt := s.now }).replayOrRetrain lane
    else s)

/-- Send ACK(NEXT). -/
def State.nmlAck (s : State) (n : Nat) : State :=
  let x := s.lane n
  (s.setLane n { x with ackPend := 0 }).nmlTx n (.ack x.next)

/-- 2 µs after a delivered frame that is not yet acknowledged. -/
def execNmlAckTimer (lane : Nat) (s : State) : Res :=
  .next (let x := s.lane lane
    if s.laneUp lane ∧ 0 < x.ackPend ∧ x.ackAt + 2000 ≤ s.now then s.nmlAck lane else s)

/-- Send NAK(NEXT). -/
def State.nmlNakNow (s : State) (n : Nat) : State :=
  let x := s.lane n
  (s.setLane n { x with nakAt := some (x.next, s.now) }).nmlTx n (.nak x.next)

/-- Send NAK(NEXT), unless one with the same NEXT went out within REPLAY_US. -/
def State.nmlNak (s : State) (n : Nat) : State :=
  let x := s.lane n
  let recent := match x.nakAt with
    | some (k, t) => decide (k = x.next ∧ s.now < t + 1000 * s.rd F.NML_CFG_REPLAY_US)
    | none => false
  if recent then s else s.nmlNakNow n

/-- A sequenced frame arrives (R293): the state, and whether it is delivered. -/
def State.nmlRx (s : State) (n : Nat) (f : NmlRx) : State × Bool :=
  let s := s.laneHeard n
  let x := s.lane n
  if !f.hchkOk ∨ !f.lenOk ∨ !f.fcrcOk then
    (((if f.lenOk then s.ctr F.NML_CRC_ERR_CTR n else s.ctr F.NML_LEN_ERR_CTR n)).nmlNak n, false)
  else if f.fseq % 4096 = x.next then
    let s := s.setLane n { x with next := (x.next + 1) % 4096, ackPend := x.ackPend + 1, ackAt := if x.ackPend = 0 then s.now else x.ackAt }
    let s := s.ctr F.NML_FRAMES_RX_CTR n
    (if max 1 (s.rd F.NML_CFG_ACK_FRAMES) ≤ x.ackPend + 1 then s.nmlAck n else s, true)
  else if laterThan 12 x.next f.fseq then (s.nmlAck n, false)
  else (s.nmlNakNow n, false)

/-! Commands (R105, R295, R297, R309). -/

/-- Pages of the PROGRAMs outstanding at a lane. -/
def Lane.pagesOut (x : Lane) : Nat := (x.cmds.map (fun p => if p.2.cmd.opc = 2 ∧ !p.2.idle then p.2.cmd.count else 0)).sum

/-- Commands outstanding at a lane: those that stand between two parts are not. -/
def Lane.cmdsOut (x : Lane) : Nat := (x.cmds.filter (fun p => !p.2.idle)).length

/-- A free tag of a lane, the lowest: `n` tries from `k`. -/
def freeTag (m : SMap NmlOut) : Nat → Nat → Option Nat
  | 0, _ => none
  | n + 1, k => if SMap.has m k then freeTag m n (k + 1) else if k < 1024 then some k else none

/-- The command of a descriptor (R105, R297, R309). -/
def State.nmlCmd (s : State) (j : Job) : NmlCmd :=
  let op := j.op
  let die := j.fld 2 1
  let pages := decide (op = 1 ∨ op = 2 ∨ op = 6)
  { opc := op, slc := pages && decide (j.fld 3 1 = 1), susp := decide (op = 1) && !s.ownDie die, die := die
    sub := if op = 9 then j.fld 28 1 else if op = 8 then j.fld 8 2 else 0
    eu := j.fld 4 4, page := j.fld 8 2, count := j.fld 10 2
    epoch := if op = 9 then j.fld 30 2 else if op = 2 ∨ op = 3 ∨ op = 4 ∨ op = 5 then s.rd F.NML_EPOCH_EPOCH else 0
    half := if op = 9 then j.fld 29 1 else 0 }

/-- Bytes of data a command moves. -/
def cmdBytes (c : NmlCmd) : Nat :=
  match c.opc with
  | 1 => pageBytes * c.count
  | 2 => pageBytes * c.count
  | 6 => 528 * c.count
  | 7 => 256
  | 8 => if c.sub = 0 then 2112 else 128 * c.count
  | _ => 0

/-- The checks of R95 and R105; PROGRAM and ERASE only on an own die. -/
def nmlCheck (j : Job) (s : State) : Bool :=
  let c := s.nmlCmd j
  let pages := decide (c.opc = 1 ∨ c.opc = 2 ∨ c.opc = 6)
  j.zero 12 15 && j.zero 32 63 && decide (j.fld 3 1 ≤ 1 ∧ (j.fld 3 1 = 0 ∨ c.opc = 1 ∨ c.opc = 2)) &&
    (!pages || decide (1 ≤ c.count ∧ c.count ≤ 64)) && (decide (c.opc ≠ 9) || decide (c.sub ≤ 4 ∧ j.fld 29 1 ≤ 1)) &&
    (decide (c.opc ≠ 8) || decide (c.sub ≤ 1)) &&
    (decide (c.opc ≠ 2 ∧ c.opc ≠ 3) || s.ownDie c.die) && (decide (cmdBytes c = 0) || s.inHandle (j.fld 16 8) (j.fld 24 4) (cmdBytes c))

/-- Read the pages of a PROGRAM: those before the first that cannot be read (R97). -/
def State.nmlPages (s : State) (a : Nat) : Nat → State × List (List Byte)
  | 0 => (s, [])
  | n + 1 =>
    match s.unitRead a pageBytes with
    | (s, none) => (s, [])
    | (s, some d) => let r := State.nmlPages s (a + pageBytes) n; (r.1, d :: r.2)

/-- Head 1 waits 10 ms after it has declared partner loss (R29). -/
def State.lossWait (s : State) : Bool := decide (s.headId = 1) && s.trn.lossAt.any (fun t => decide (s.now < t + 10000000))

/-- Does a job's command wait for the head: in BRACE a PROGRAM or ERASE (R424), in DOWN those and a takeover for good (R23, R29),
and a takeover of head 1 during its wait? -/
def State.nmlWaits (s : State) (c : NmlCmd) : Bool :=
  let take := decide (c.opc = 9 ∧ c.sub = 2)
  decide (s.life = .brace ∧ (c.opc = 2 ∨ c.opc = 3)) || (decide (s.life = .down) && (take || decide (c.opc = 2 ∨ c.opc = 3))) ||
    (take && s.lossWait)

/-- Frames that a command takes: its CMD, and a WDATA for each page of a PROGRAM. -/
def cmdFrames (c : NmlCmd) : Nat := if c.opc = 2 then 1 + c.count else 1

/-- Is a lane without the credits or the room for a command's frames (R294, R295)? -/
def Lane.tooFull (x : Lane) (c : NmlCmd) : Bool :=
  decide (x.cmdCr = 0 ∨ (c.opc = 2 ∧ x.dataCr < c.count) ∨ 1024 < x.held.length + cmdFrames c)

/-- Does no other request wait for a die? Then a READ or PROGRAM goes out whole, and page by page otherwise (R383). -/
def State.dieAlone (s : State) (n die : Nat) : Bool := (s.arb 6 (dieKey n die)).quiet

/-- The command of the pages from `k` on of a READ or PROGRAM of `total` pages: all that are left, or one. -/
def cmdPart (c : NmlCmd) (page k total : Nat) (alone : Bool) : NmlCmd :=
  if c.opc = 1 ∨ c.opc = 2 then { c with page := page + k, count := if alone then total - k else 1 } else c

/-- Send the command of `o`, a part or a whole, under a tag (R296, R297): the state, and the number of WDATA pages sent where one could
not be read. A program or erase of an own die is reported to the ledger (R116). -/
def State.nmlSendCmd (s : State) (n tag : Nat) (o : NmlOut) : State × Option Nat :=
  let c := o.cmd
  let r := if c.opc = 2 then s.nmlPages (o.buf + pageBytes * o.pages) c.count else (s, [])
  let short := decide (c.opc = 2) && decide (r.2.length < c.count)
  let x := r.1.lane n
  let o : NmlOut := { o with fseq := x.txSeq, acked := none, got := 0, dead := short, idle := false }
  let s := r.1.setLane n { x with cmdCr := x.cmdCr - 1, cmds := SMap.put x.cmds tag o, dataCr := x.dataCr - r.2.length }
  let s := s.nmlSend n (fun q => .cmd q tag c)
  let s := foldSt (fun (p : Nat × List Byte) (s : State) =>
    s.nmlSend n (fun q => .wdata q tag (pageBytes * p.1) (decide (p.1 + 1 = c.count)) p.2)) ((List.range r.2.length).zip r.2) s
  (if c.opc = 2 ∨ c.opc = 3 then s.opStart n c.die (s.dieWork c.opc c.count) else s, if short then some r.2.length else none)

/-- The grant of a die passes from a ring to the command that it sends. -/
def State.dieTake (s : State) (n die cl tag : Nat) : State :=
  let a := s.arb 6 (dieKey n die)
  if s.holds 6 (dieKey n die) cl then
    s.setArb 6 (dieKey n die) { a with holder := a.holder.map (fun r => { r with num := 256 + tag }) }
  else s

/-- Send a job's command (R295 to R297): it waits for the head, the lane, a tag, credits and room for its frames (R294); on a lane
that is DOWN or in FAULT it completes MEDIA_TIMEOUT. -/
def nmlStart (n cl : Nat) (j : Job) (s : State) : JobDo :=
  let x := s.lane n
  let all := s.nmlCmd j
  let c := cmdPart all all.page 0 all.count (s.dieAlone n all.die)
  let st := s.laneState n
  if st = 0 ∨ st = 4 then .done (s.ctr F.NML_TIMEOUTS_CTR n) 0 (.st stMediaTmo)
  else if st ≠ 3 ∨ s.nmlWaits c = true ∨ x.tooFull c = true then .held s
  else
    match freeTag x.cmds 1025 0 with
    | none => .held s
    | some tag =>
      let o : NmlOut := { job := j, cmd := c, fseq := 0, acked := none, buf := hAddr (j.fld 16 8) (j.fld 24 4), got := 0, dead := false
                          late := false, pages := 0, total := all.count, idle := false }
      match s.nmlSendCmd n tag o with
      | (s, some k) => .done (s.memEvent 0x09 n) 0 { JobEnd.memErr with aux := k }
      | (s, none) => .taken (if j.needsDie then s.dieTake n c.die cl tag else s)

/-- A command whose parts are not all done goes on, where it holds its die (R379). -/
def State.nmlPart (s : State) (n tag : Nat) (o : NmlOut) : State :=
  if o.idle = false ∨ !s.holds 6 (dieKey n o.cmd.die) (256 + tag) ∨ s.laneState n ≠ 3 then s
  else
    let c := cmdPart (s.nmlCmd o.job) (o.job.fld 8 2) o.pages o.total (s.dieAlone n o.cmd.die)
    if s.nmlWaits c = true ∨ (s.lane n).tooFull c = true then s
    else
      match s.nmlSendCmd n tag { o with cmd := c } with
      | (s, none) => s
      | (s, some k) =>
        ((s.memEvent 0x09 n).dieFree n tag o).complete o.job n 0 { JobEnd.memErr with aux := o.pages + k }

/-- Every command of a lane that can go on does. -/
def State.nmlPump (s : State) (n : Nat) : State := foldSt (fun (p : Nat × NmlOut) (s : State) => s.nmlPart n p.1 p.2) (s.lane n).cmds s

/-- Credits: absolute totals in INIT, of which the commands outstanding from before a retrain and their pages take their part
(DEDUCED, assumption log 73), returns afterwards (R295). -/
def execNmlCreditRx (lane cmd data : Nat) (absolute : Bool) (s : State) : Res :=
  .next (
    let st := s.laneState lane
    if !s.laneIn lane ∨ (st ≠ 2 ∧ st ≠ 3) then s
    else
      let s := s.laneHeard lane
      let x := s.lane lane
      if absolute then
        let s := s.setLane lane { x with cmdCr := min 1024 cmd - x.cmdsOut, dataCr := data - x.pagesOut, creditOk := true }
        (s.laneTryUp lane).nmlPump lane
      else (s.setLane lane { x with cmdCr := min 1024 (x.cmdCr + cmd), dataCr := x.dataCr + data }).nmlPump lane)

/-- Does a job carry a LEASE_OP? -/
def isLease (k : Nat) (j : Job) : Bool := decide (j.op = 9 ∧ j.fld 28 1 = k)

/-- Run the NML job of an OP at the head of a lane's ring. -/
def State.nmlJob (s : State) (op n cl : Nat) : State := s.runJob 0x09 n cl (isOp op) nmlCheck (nmlStart n cl)

/-- Run the LEASE job of a LEASE_OP at the head of a lane's ring; STATUS also takes a LEASE_OP that is not defined. -/
def State.nmlLease (s : State) (k n cl : Nat) : State :=
  s.runJob 0x09 n cl (fun j => isLease k j || (decide (k = 0) && decide (j.op = 9 ∧ 4 < j.fld 28 1))) nmlCheck (nmlStart n cl)

/-- READ. -/
def execNmlJobRead (inst cl : Nat) (s : State) : Res := .next (s.nmlJob 1 inst cl)
/-- PROGRAM. -/
def execNmlJobProgram (inst cl : Nat) (s : State) : Res := .next (s.nmlJob 2 inst cl)
/-- ERASE. -/
def execNmlJobErase (inst cl : Nat) (s : State) : Res := .next (s.nmlJob 3 inst cl)
/-- SUSPEND. -/
def execNmlJobSuspend (inst cl : Nat) (s : State) : Res := .next (s.nmlJob 4 inst cl)
/-- RESUME. -/
def execNmlJobResume (inst cl : Nat) (s : State) : Res := .next (s.nmlJob 5 inst cl)
/-- HDR_READ. -/
def execNmlJobHdrRead (inst cl : Nat) (s : State) : Res := .next (s.nmlJob 6 inst cl)
/-- GEOMETRY. -/
def execNmlJobGeometry (inst cl : Nat) (s : State) : Res := .next (s.nmlJob 7 inst cl)
/-- HEALTH. -/
def execNmlJobHealth (inst cl : Nat) (s : State) : Res := .next (s.nmlJob 8 inst cl)
/-- LEASE STATUS. -/
def execNmlJobLeaseStatus (inst cl : Nat) (s : State) : Res := .next (s.nmlLease 0 inst cl)
/-- LEASE ACQUIRE. -/
def execNmlJobLeaseAcquire (inst cl : Nat) (s : State) : Res := .next (s.nmlLease 1 inst cl)
/-- LEASE TAKEOVER. -/
def execNmlJobLeaseTakeover (inst cl : Nat) (s : State) : Res := .next (s.nmlLease 2 inst cl)
/-- LEASE GRANT. -/
def execNmlJobLeaseGrant (inst cl : Nat) (s : State) : Res := .next (s.nmlLease 3 inst cl)
/-- LEASE RELEASE. -/
def execNmlJobLeaseRelease (inst cl : Nat) (s : State) : Res := .next (s.nmlLease 4 inst cl)

/-! Answers (R296, R298). -/

/-- Set a command of a lane. -/
def State.setCmd (s : State) (n tag : Nat) (o : NmlOut) : State :=
  s.setLane n { s.lane n with cmds := SMap.put (s.lane n).cmds tag o }

/-- A protocol error (R296). -/
def State.protoErr (s : State) (n : Nat) : State := s.ctr F.NML_PROTO_ERR_CTR n

/-- End a command's job while its tag stays outstanding (R296). -/
def State.cmdDead (s : State) (n tag : Nat) (o : NmlOut) (e : JobEnd) : State :=
  ((s.dieFree n tag o).nmlDone n o e).setCmd n tag { o with dead := true }

/-- End a command by its time limit: its tag stays held, and more than 64 such tags are a fault (R311). -/
def State.cmdLate (s : State) (n tag : Nat) (o : NmlOut) : State :=
  let before := (s.lane n).heldTags
  let s := (((s.ctr F.NML_TIMEOUTS_CTR n).dieFree n tag o).nmlDone n o (.st stMediaTmo)).setCmd n tag { o with dead := true, late := true }
  if before ≤ 64 ∧ 64 < (s.lane n).heldTags then s.laneFault n else s

/-- A delivered RDATA frame. -/
def State.rdataDo (s : State) (n : Nat) (f : NmlRx) : State :=
  match SMap.find (s.lane n).cmds f.tag with
  | none => s.protoErr n
  | some o =>
    if o.idle then s.protoErr n
    else if o.dead then s
    else if f.off ≠ o.got ∨ (if o.cmd.opc = 2 then 0 else cmdBytes o.cmd) < o.got + f.data.length then (s.protoErr n).cmdDead n f.tag o (.st stMediaErr)
    else
      let w := s.eccWrite (o.buf + pageBytes * o.pages + f.off) f.data
      if w.2 then w.1.setCmd n f.tag { o with got := o.got + f.data.length }
      else (w.1.memEvent 0x09 n).cmdDead n f.tag o .memErr

/-- An RDATA frame arrives. -/
def execNmlRdataRx (lane : Nat) (f : NmlRx) (s : State) : Res :=
  .next (if s.laneUp lane then
      match s.nmlRx lane f with
      | (s, true) => s.rdataDo lane f
      | (s, false) => s
    else s)

/-- The job status and AUX of a sled status (R298). -/
def rspStatus (st donepg : Nat) : Nat × Nat :=
  match st with
  | 0 => (stDone, donepg)
  | 1 => (stMediaErr, donepg)
  | 2 => (stMediaErr, donepg)
  | 3 => (stMediaErr, 0)
  | 4 => (stLease, 0)
  | 5 => (stRefused, 1)
  | 6 => (stRefused, 2)
  | _ => (stRefused, 3)

/-- EPOCHS of an RSP: head 1 goes to DOWN when a sled's epoch has moved during its wait (R29). -/
def State.epochsSeen (s : State) (n e : Nat) : State :=
  let x := s.lane n
  let s := s.setLane n { x with epochs := some e }
  if s.lossWait && x.epochs.any (fun k => decide (k ≠ e)) then s.goDown else s

/-- Have all sleds on lanes that are UP accepted the takeover? -/
def State.allAccepted (s : State) : Bool :=
  (List.range s.fuse.variant.lanes).all (fun n => decide (s.laneState n ≠ 3) || s.trn.accepted.contains n)

/-- The answer to a LEASE command for the partner's half. A sled accepts a takeover: when all sleds have, while partner loss
stands, takeover has completed and own groups reopen for writes (R32 step 5; DESIGN CHOICE, assumption log 74: all sleds on lanes
that are UP). EPOCH_OLD to a takeover is a lost race (R308). After a grant the half is the partner's again (R33). -/
def State.leaseSeen (s : State) (n : Nat) (c : NmlCmd) (st : Nat) : State :=
  if c.opc ≠ 9 ∨ c.half % 2 = s.headId then s
  else if c.sub = 2 ∧ st = 0 then
    let s := { s with trn := { s.trn with accepted := n :: s.trn.accepted.filter (fun k => decide (k ≠ n)) } }
    { s with tookOver := s.tookOver || (s.flag F.TRN_STATUS_PARTNER_LOSS && s.allAccepted) }
  else if c.sub = 2 ∧ st = 7 then s.goDown
  else if c.sub = 3 ∧ st = 0 then
    { s with trn := { s.trn with accepted := s.trn.accepted.filter (fun k => decide (k ≠ n)) }, tookOver := false }
  else s

/-- What the ledger learns from the end of a command (R116): a program or erase has completed, or has been suspended, or goes on after it
was suspended, for 10 ms at most. -/
def State.opSeen (s : State) (n : Nat) (c : NmlCmd) (st : Nat) : State :=
  if c.opc = 2 ∨ c.opc = 3 then s.opEnd n c.die
  else
    match s.dieOp n c.die, c.opc, st with
    | some o, 4, 0 => if o.since.isNone then s.setDieOp n c.die { o with since := some s.now } else s
    | some o, 5, 0 =>
      match o.since with
      | some t => s.setDieOp n c.die { o with until_ := o.until_ + min (s.now - t) 10000000, since := none }
      | none => s
    | _, _, _ => s

/-- A part of a command has been done: at this break point the command loses its die to another request, or its next part goes out
(R378, R379, R383). -/
def State.partDone (s : State) (n tag : Nat) (o : NmlOut) : State :=
  let o : NmlOut := { o with idle := true, acked := none, pages := o.pages + o.cmd.count }
  let s := s.setCmd n tag o
  let k := dieKey n o.cmd.die
  let a := s.arbNow 6 k
  match a.holder with
  | some h => if h.num = 256 + tag ∧ a.preempts s.now h then s.arbYield 6 k a h else (s.setArb 6 k a).nmlPart n tag o
  | none => s

/-- A delivered RSP frame: its command ends and returns its credit; STALE sends the head to DOWN (R29). One that is late is
discarded (R311). The parts of a job that went well are counted in AUX of its end. -/
def State.rspDo (s : State) (n : Nat) (f : NmlRx) : State :=
  let b := fun lo k => leNat ((f.data.drop lo).take k)
  match (SMap.find (s.lane n).cmds f.tag).filter (fun o => !o.idle) with
  | none => s.protoErr n
  | some o =>
    let x := s.lane n
    let s := s.setLane n { x with cmds := SMap.del x.cmds f.tag, cmdCr := min 1024 (x.cmdCr + 1) }
    if o.late then s.nmlPump n
    else
      let r := rspStatus (b 0 1) (b 4 2)
      let s := s.opSeen n o.cmd (b 0 1)
      let s := if b 0 1 = 0 ∧ !o.dead ∧ o.pages + o.cmd.count < o.total then s.partDone n f.tag o
        else (s.dieFree n f.tag o).nmlDone n o { status := r.1, aux := if b 0 1 ≤ 2 then o.pages + r.2 else r.2, result := b 8 8 }
      let s := if bitOf (b 1 1) 3 then s.sledRo n else s
      let s := (s.epochsSeen n (b 16 4)).leaseSeen n o.cmd (b 0 1)
      if b 0 1 = 4 then s.staleDown n else s.nmlPump n

/-- An RSP frame arrives. -/
def execNmlRspRx (lane : Nat) (f : NmlRx) (s : State) : Res :=
  .next (if s.laneUp lane then
      match s.nmlRx lane f with
      | (s, true) => s.rspDo lane f
      | (s, false) => s
    else s)

/-- Time limit of a command (R311, `NML_TMO`). -/
def State.nmlTmo (s : State) (opc : Nat) : Nat :=
  1000000 * (match opc with
    | 1 => s.rd F.NML_TMO_T_READ
    | 6 => s.rd F.NML_TMO_T_READ
    | 2 => s.rd F.NML_TMO_T_PROG
    | 3 => s.rd F.NML_TMO_T_ERASE
    | _ => s.rd F.NML_TMO_T_SHORT)

/-- A command exceeds its limit (R311). -/
def execNmlCmdTimeout (lane tag : Nat) (s : State) : Res :=
  .next (match SMap.find (s.lane lane).cmds tag with
    | some o =>
      match o.acked with
      | some t =>
        if o.dead = false ∧ t + s.nmlTmo o.cmd.opc ≤ s.now then
          s.cmdLate lane tag o
        else s
      | none => s
    | none => s)

end Sys2Proof.Machine
end

