-- ==== Sys2Proof/Machine/Gf.lean ====
section
/-! DEFINITION. The field GF(2^8) and the Reed–Solomon code of stripes (R260). -/

namespace Sys2Proof.Machine

/-- Multiply by x, reducing by a polynomial of degree 8. -/
def gfX (poly a : Nat) : Nat := let d := 2 * a; if 256 ≤ d then d ^^^ poly else d

/-- Product of field elements: the bits of `b`, `n` of them, lowest first. -/
def gfMulN (poly : Nat) : Nat → Nat → Nat → Nat
  | 0, _, _ => 0
  | n + 1, a, b => (if b % 2 = 1 then a else 0) ^^^ gfMulN poly n (gfX poly a) (b / 2)

/-- Product of field elements. -/
def gfMul (poly a b : Nat) : Nat := gfMulN poly 8 a b

/-- Inverse: a to the 254th power (0 for 0). -/
def gfInv (poly a : Nat) : Nat :=
  let a2 := gfMul poly a a
  let a4 := gfMul poly a2 a2
  let a8 := gfMul poly a4 a4
  let a16 := gfMul poly a8 a8
  let a32 := gfMul poly a16 a16
  let a64 := gfMul poly a32 a32
  let a128 := gfMul poly a64 a64
  [a4, a8, a16, a32, a64, a128].foldl (gfMul poly) a2

/-- The reducing polynomial of R260. -/
def rsPoly : Nat := 0x11D

/-- Product in the field of R260. -/
def rsMul (a b : Nat) : Nat := gfMul rsPoly a b

/-- Coefficient c(j, i) of R260. -/
def rsCoef (j i : Nat) : Nat := gfInv rsPoly (j ^^^ (i + 4))

/-- Add two byte strings (exclusive or). -/
def xorBytes (a b : List Byte) : List Byte := a.zipWith (· ^^^ ·) b

/-- Multiply a byte string by an element. -/
def scaleBytes (c : Nat) (a : List Byte) : List Byte := a.map (fun b => BitVec.ofNat 8 (rsMul c b.toNat))

/-- A linear combination of byte strings of one length. -/
def rsCombine (len : Nat) (l : List (Nat × List Byte)) : List Byte :=
  l.foldl (fun acc p => xorBytes acc (scaleBytes p.1 p.2)) (List.replicate len 0)

/-- Row of the generator for a position of a stripe of W data positions: a unit row, or the row of a parity position. -/
def rsRow (w pos : Nat) : List Nat :=
  if pos < w then (List.range w).map (fun i => if i = pos then 1 else 0)
  else (List.range w).map (fun i => rsCoef (pos - w) i)

/-- Parity position j of the data positions. -/
def rsParity (len j : Nat) (data : List (List Byte)) : List Byte :=
  rsCombine len ((List.range data.length).map (fun i => (rsCoef j i, data[i]?.getD [])))

/-- A row with its byte string. -/
abbrev RsEq := List Nat × List Byte

/-- Subtract a multiple of one equation from another so that column `c` becomes 0. -/
def rsElim (c : Nat) (p q : RsEq) : RsEq :=
  let f := q.1[c]?.getD 0
  (q.1.zipWith (fun a b => a ^^^ rsMul f b) p.1, xorBytes q.2 (scaleBytes f p.2))

/-- Scale an equation so that column `c` becomes 1. -/
def rsNorm (c : Nat) (q : RsEq) : RsEq :=
  let f := gfInv rsPoly (q.1[c]?.getD 0)
  (q.1.map (rsMul f), scaleBytes f q.2)

/-- Gauss–Jordan elimination over the columns from `c` up, `n` of them: `done` holds the solved equations in column order. -/
def rsSolve : Nat → Nat → List RsEq → List RsEq → List RsEq
  | 0, _, done, _ => done
  | n + 1, c, done, todo =>
    match todo.find? (fun q => decide (q.1[c]?.getD 0 ≠ 0)) with
    | none => done
    | some q =>
      let p := rsNorm c q
      let rest := (todo.filter (fun x => decide (x ≠ q))).map (rsElim c p)
      rsSolve n (c + 1) (done.map (rsElim c p) ++ [p]) rest

/-- The data positions of a stripe from W of its positions (number and bytes). -/
def rsData (w : Nat) (have_ : List (Nat × List Byte)) : List (List Byte) :=
  (rsSolve w 0 [] ((have_.take w).map (fun p => (rsRow w p.1, p.2)))).map Prod.snd

/-- The bytes of any position from the data positions. -/
def rsPos (w len pos : Nat) (data : List (List Byte)) : List Byte :=
  if pos < w then data[pos]?.getD [] else rsParity len (pos - w) data

end Sys2Proof.Machine
end

