-- ==== Sys2Proof/Machine/Aes.lean ====
section
/-! DEFINITION. AES (FIPS 197), XTS-AES-256 (IEEE Std 1619, R221) and the key wrap of RFC 3394, on bytes as numbers. -/

namespace Sys2Proof.Machine

/-- The reducing polynomial of AES. -/
def aesPoly : Nat := 0x11B

/-- Rotate a byte left. -/
def rotl8 (n x : Nat) : Nat := ((x <<< n) ||| (x >>> (8 - n))) % 256

/-- The S-box: inverse, then the affine map. -/
def aesSub (x : Nat) : Nat :=
  let i := gfInv aesPoly x
  i ^^^ rotl8 1 i ^^^ rotl8 2 i ^^^ rotl8 3 i ^^^ rotl8 4 i ^^^ 0x63

/-- The inverse S-box. -/
def aesInvSub (x : Nat) : Nat := gfInv aesPoly (rotl8 1 x ^^^ rotl8 3 x ^^^ rotl8 6 x ^^^ 0x05)

/-- Exclusive or of two strings of numbers. -/
def xorNats (a b : List Nat) : List Nat := a.zipWith (· ^^^ ·) b

/-- The key schedule of a key of `nk` words, newest word first: `n` more words, the next being word `i`, with round
constant `rc`. -/
def aesExpand (nk : Nat) : Nat → Nat → Nat → List (List Nat) → List (List Nat)
  | 0, _, _, ws => ws
  | n + 1, i, rc, ws =>
    let prev := ws[0]?.getD []
    let old := ws[nk - 1]?.getD []
    let t :=
      if i % nk = 0 then xorNats ((prev.drop 1 ++ prev.take 1).map aesSub) [rc, 0, 0, 0]
      else if 6 < nk ∧ i % nk = 4 then prev.map aesSub
      else prev
    aesExpand nk n (i + 1) (if i % nk = 0 then gfX aesPoly rc else rc) (xorNats old t :: ws)

/-- Split into pieces of `k`, `n` of them. -/
def pieces {α : Type} (k : Nat) : Nat → List α → List (List α)
  | 0, _ => []
  | n + 1, l => l.take k :: pieces k n (l.drop k)

/-- The round keys of a key of 16, 24 or 32 bytes: 11, 13 or 15. -/
def aesKeys (key : List Nat) : List (List Nat) :=
  let nk := key.length / 4
  let ws := (aesExpand nk (3 * nk + 28) nk 1 (pieces 4 nk key).reverse).reverse
  pieces 16 (nk + 7) ws.flatten

/-- Row shift by `d` (1 for encryption, 3 for decryption): byte r + 4c from column c + r·d. -/
def aesShift (d : Nat) (s : List Nat) : List Nat :=
  (List.range 16).map (fun k => s[k % 4 + 4 * ((k / 4 + k % 4 * d) % 4)]?.getD 0)

/-- Mix one column by a row of coefficients. -/
def aesMixCol (cs col : List Nat) : List Nat :=
  (List.range 4).map (fun r => (List.range 4).foldl
    (fun acc i => acc ^^^ gfMul aesPoly (cs[(i + 4 - r) % 4]?.getD 0) (col[i]?.getD 0)) 0)

/-- Mix the columns. -/
def aesMix (cs s : List Nat) : List Nat := ((pieces 4 4 s).map (aesMixCol cs)).flatten

/-- Encrypt a block of 16 bytes. -/
def aesEncBlock (key blk : List Nat) : List Nat :=
  match aesKeys key with
  | k0 :: ks =>
    let mid := ks.dropLast.foldl (fun s k => xorNats (aesMix [2, 3, 1, 1] (aesShift 1 (s.map aesSub))) k) (xorNats blk k0)
    xorNats (aesShift 1 (mid.map aesSub)) (ks.getLast?.getD [])
  | [] => []

/-- Decrypt a block of 16 bytes. -/
def aesDecBlock (key blk : List Nat) : List Nat :=
  match (aesKeys key).reverse with
  | k0 :: ks =>
    let mid := ks.dropLast.foldl (fun s k => aesMix [14, 11, 13, 9] (xorNats ((aesShift 3 s).map aesInvSub) k)) (xorNats blk k0)
    xorNats ((aesShift 3 mid).map aesInvSub) (ks.getLast?.getD [])
  | [] => []

/-- Bytes as numbers. -/
def natsOf (l : List Byte) : List Nat := l.map BitVec.toNat

/-- Numbers as bytes. -/
def bytesOf (l : List Nat) : List Byte := l.map (BitVec.ofNat 8)

/-! XTS. -/

/-- Multiply a tweak by the primitive element: 128 bits, byte 0 least significant. -/
def xtsNext (t : Nat) : Nat := let d := 2 * t; if 2 ^ 128 ≤ d then (d - 2 ^ 128) ^^^ 0x87 else d

/-- Process blocks under rising tweaks. -/
def xtsBlocks (f : List Nat → List Nat) : Nat → Nat → List Nat → List Nat
  | 0, _, _ => []
  | n + 1, t, l =>
    let tb := natsOf (leBytes 16 t)
    xorNats (f (xorNats (l.take 16) tb)) tb ++ xtsBlocks f n (xtsNext t) (l.drop 16)

/-- XTS-AES-256 of a data unit number over whole blocks: `key` is the data key followed by the tweak key. -/
def xts (enc : Bool) (key : List Byte) (unit : Nat) (data : List Byte) : List Byte :=
  let k1 := natsOf (key.take 32)
  let k2 := natsOf (key.drop 32)
  let t := leNat (bytesOf (aesEncBlock k2 (natsOf (leBytes 16 unit))))
  bytesOf (xtsBlocks (if enc then aesEncBlock k1 else aesDecBlock k1) (data.length / 16) t (natsOf data))

/-! Key wrap (RFC 3394): `a` is the 8-byte check register, `rs` the 8-byte pieces. -/

/-- One wrapping pass of a step number `t` over the pieces. -/
def kwPass (key : List Nat) : Nat → List Nat → List (List Nat) → List Nat × List (List Nat)
  | _, a, [] => (a, [])
  | t, a, r :: rs =>
    let b := aesEncBlock key (a ++ r)
    let q := kwPass key (t + 1) (xorNats (b.take 8) (natsOf (beBytes 8 t))) rs
    (q.1, b.drop 8 :: q.2)

/-- Wrap whole 8-byte pieces. -/
def kwWrap (key data : List Byte) : List Byte :=
  let n := data.length / 8
  let r := (List.range 6).foldl (fun (p : List Nat × List (List Nat)) j => kwPass (natsOf key) (j * n + 1) p.1 p.2)
    (List.replicate 8 0xA6, pieces 8 n (natsOf data))
  bytesOf (r.1 ++ r.2.flatten)

/-- One unwrapping pass over the pieces, last first, from step number `t` down. -/
def kwUnpass (key : List Nat) : Nat → List Nat → List (List Nat) → List Nat × List (List Nat)
  | _, a, [] => (a, [])
  | t, a, r :: rs =>
    let b := aesDecBlock key (xorNats a (natsOf (beBytes 8 t)) ++ r)
    let q := kwUnpass key (t - 1) (b.take 8) rs
    (q.1, b.drop 8 :: q.2)

/-- Unwrap; none when the check fails. -/
def kwUnwrap (key data : List Byte) : Option (List Byte) :=
  let n := data.length / 8 - 1
  let r := (List.range 6).foldl (fun (p : List Nat × List (List Nat)) j => kwUnpass (natsOf key) ((6 - j) * n) p.1 p.2)
    ((natsOf data).take 8, (pieces 8 n ((natsOf data).drop 8)).reverse)
  if r.1 = List.replicate 8 0xA6 then some (bytesOf r.2.reverse.flatten) else none

end Sys2Proof.Machine
end

