-- ==== Sys2Proof/Machine/Gcm.lean ====
section
/-! DEFINITION. GCM with AES-256, as the cipher suites of R132 use it: a 96-bit initial vector and a 128-bit check value. -/

namespace Sys2Proof.Machine

/-- The steps of a product in the field of GCM: `n` bits of `x` to go from the most significant one, the product so far, the
multiplicand as shifted. -/
def ghMulGo (x : Nat) : Nat → Nat → Nat → Nat
  | 0, z, _ => z
  | n + 1, z, v =>
    ghMulGo x n (if x.testBit n then z ^^^ v else z) (if v % 2 = 1 then v / 2 ^^^ 0xE1 * 2 ^ 120 else v / 2)

/-- A product in the field of GCM; the first bit of a block is the most significant. -/
def ghMul (x y : Nat) : Nat := ghMulGo x 128 0 y

/-- A block of up to 16 bytes as a number, padded with zeros at the end. -/
def ghBlock (l : List Byte) : Nat := beNat (l ++ List.replicate (16 - l.length) 0)

/-- Hash bytes in blocks onto a value, under the key `h`. -/
def ghash (h z : Nat) (l : List Byte) : Nat := (pieces 16 (ceilDiv l.length 16) l).foldl (fun z b => ghMul (z ^^^ ghBlock b) h) z

/-- One block of key stream: the initial vector followed by a 32-bit counter, encrypted. -/
def gcmStream (key iv : List Byte) (ctr : Nat) : List Nat :=
  aesEncBlock (natsOf key) (natsOf (iv ++ beBytes 4 (ctr % 2 ^ 32)))

/-- Encrypt or decrypt pieces of up to 16 bytes, with rising counters. -/
def gcmCtr (key iv : List Byte) : Nat → List (List Byte) → List Byte
  | _, [] => []
  | ctr, b :: bs => bytesOf (xorNats (natsOf b) (gcmStream key iv ctr)) ++ gcmCtr key iv (ctr + 1) bs

/-- Encrypt or decrypt data. -/
def gcmCrypt (key iv data : List Byte) : List Byte := gcmCtr key iv 2 (pieces 16 (ceilDiv data.length 16) data)

/-- The check value over additional data and encrypted data. -/
def gcmTag (key iv aad ct : List Byte) : List Byte :=
  let h := beNat (bytesOf (aesEncBlock (natsOf key) (List.replicate 16 0)))
  let z := ghMul (ghash h (ghash h 0 aad) ct ^^^ (8 * aad.length * 2 ^ 64 + 8 * ct.length)) h
  bytesOf (xorNats (natsOf (beBytes 16 z)) (gcmStream key iv 1))

end Sys2Proof.Machine
end

