-- ==== Sys2Proof/Machine/FePorts.lean ====
section
/-! DEFINITION. The front end's ports: modes and links (R129, R130), frames (R131), MACsec (R132 to R134, R170), and what
R135 sends to firmware. -/

namespace Sys2Proof.Machine

/-- MODE of a quad: values above 4 treated as 0, absent quads OFF. -/
def State.quadMode (s : State) (q : Nat) : Nat :=
  let m := bitsOf (s.rd F.FE_PORTMODE_MODE) (4 * q) 4
  if 4 < m ∨ s.fuse.variant.quads ≤ q then 0 else m

/-- Is a quad pair set with only one quad in MODE 4? -/
def State.pairBad (s : State) (p : Nat) : Bool :=
  (decide (s.quadMode (2 * p) = 4)) != (decide (s.quadMode (2 * p + 1) = 4))

/-- The speed code of a port in `FE_LINK`, 0 for a port that the mode of its quad does not have (R129); while only one quad of a
pair is set to MODE 4 neither has any (R130). -/
def State.portSpeed (s : State) (port : Nat) : Nat :=
  let q := port / 4
  let l := port % 4
  if s.pairBad (q / 2) then 0
  else
    match s.quadMode q with
    | 1 => 1
    | 2 => if l % 2 = 0 then 2 else 0
    | 3 => if l = 0 then 3 else 0
    | 4 => if l = 0 ∧ q % 2 = 0 then 4 else 0
    | _ => 0

/-- A store to `FE_PORTMODE`: a pair with only one quad in MODE 4 sets MODE_ERR (R130). DESIGN CHOICE (assumption log 72): MODE of an
absent quad stays 0, its MEDIA bit is kept as stored. -/
def State.fePortmode (s : State) (v : Nat) : State :=
  let s := (s.wr F.FE_PORTMODE_MODE (v % 2 ^ (4 * s.fuse.variant.quads))).wr F.FE_PORTMODE_MEDIA (bitsOf v 16 4)
  foldSt (fun p (s : State) =>
    if s.pairBad p then
      (s.wr F.FE_STATUS_MODE_ERR (s.rd F.FE_STATUS_MODE_ERR ||| 2 ^ p)).raise 0x051 p
    else s) [0, 1] s

/-- A store to `FE_PORTMODE`. -/
def execFePortmodeWrite (v : Nat) (s : State) : Res := .next (s.fePortmode v)

/-- Note since when a path of the Transom is down: quads 0 to 3, front-end ports from 16 (R335). -/
def State.pathLink (s : State) (path : Nat) (up : Bool) : State :=
  { s with trn := { s.trn with down := if up then SMap.del s.trn.down path else SMap.put s.trn.down path s.now } }

/-- A port's link goes up or down (R130): connections stay. -/
def execFeLinkChange (port : Nat) (up : Bool) (s : State) : Res :=
  .next (
    let sp := s.portSpeed port
    let was := bitsOf (s.rd F.FE_LINK_PORT) (4 * port) 4
    let is := if up then 1 + 2 * sp else 0
    if 16 ≤ port ∨ (up ∧ sp = 0) ∨ was = is then s
    else
      let s := s.wr F.FE_LINK_PORT (setBitsOf (s.rd F.FE_LINK_PORT) (4 * port) 4 is)
      let s := s.pathLink (16 + port) up
      s.raise (0x040 + port) (b2n up))

/-! MACsec. -/

/-- Secure associations of `FE_MSA`. -/
def msaCount : Nat := 1024

/-- The transmit SA in use on a port: VALID, TX and SELECTED. -/
def State.txSa (s : State) (port : Nat) : Option Nat :=
  (List.range msaCount).find? (fun e =>
    s.flag F.FE_MSA_VALID e && s.flag F.FE_MSA_TX e && s.flag F.FE_MSA_SELECTED e && decide (s.rd F.FE_MSA_PORT e = port))

/-- Largest PN of an SA (R133). -/
def State.maxPn (s : State) (e : Nat) : Nat := if s.flag F.FE_MSA_XPN e then 2 ^ 64 - 1 else 2 ^ 32 - 1

/-- Has an SA used its last packet number, or would `n` frames pass it? -/
def State.pnShort (s : State) (e n : Nat) : Bool :=
  s.fe.spent.contains e || decide (s.maxPn e + 1 < s.rd F.FE_MSA_NEXT_PN e + n)

/-- An SA takes `n` packet numbers; when the largest is among them it is spent, and NEXT_PN keeps the largest. -/
def State.pnTake (s : State) (e n : Nat) : State :=
  let pn := s.rd F.FE_MSA_NEXT_PN e
  let s := s.wr F.FE_MSA_NEXT_PN (min (s.maxPn e) (pn + n)) e
  if s.maxPn e < pn + n then { s with fe := { s.fe with spent := addNat s.fe.spent e } } else s

/-- Send frames on a port, past flow control. A protected transmission takes packet numbers of the transmit SA: MACSEC_PN once when
the next PN reaches PN_WARN; held when the PN would pass its largest value, dropped when the 256 KiB hold buffer is full; and
nothing leaves without a valid SA (R133, R134). -/
def State.macTx (s : State) (t : PortTx) : State :=
  if !t.prot then s.emit (.fe t.port false t.tx)
  else
    match s.txSa t.port with
    | none => s.ctr F.FE_MACSEC_DROP_CTR (t.port / 4) t.n
    | some e =>
      if s.pnShort e t.n then
        let heldBytes := (s.fe.held.filter (fun h => decide (h.port = t.port))).foldl (fun m h => m + h.bytes) 0
        if heldBytes + t.bytes ≤ 262144 then { s with fe := { s.fe with held := s.fe.held ++ [t] } }
        else s.ctr F.FE_MACSEC_DROP_CTR (t.port / 4) t.n
      else
        let s := (s.pnTake e t.n).emit (.fe t.port true t.tx)
        if s.rd F.FE_MSA_PN_WARN e ≤ s.rd F.FE_MSA_NEXT_PN e ∧ !s.fe.warned.contains e then
          ({ s with fe := { s.fe with warned := s.fe.warned ++ [e] } }).raise 0x050 e
        else s

/-! Priority flow control (R131; IEEE 802.1Qbb, PRESUMED, assumption log 78). -/

/-- A pause time in ns: quanta of 512 bit times at the port's rate. -/
def State.pauseNs (s : State) (port quanta : Nat) : Nat := quanta * 512 / (100 * 2 ^ (s.portSpeed port - 1))

/-- Is a priority of a port stopped? -/
def State.pfcStopped (s : State) (port prio : Nat) : Bool := decide (s.now < SMap.findD s.fe.pfcUntil (8 * port + prio) 0)

/-- Transmissions of a port whose priority is stopped no more are sent, in order. -/
def State.pfcGo (s : State) (port : Nat) : State :=
  let go := fun (t : PortTx) => decide (t.port = port) && !s.pfcStopped port t.prio
  foldSt (fun (t : PortTx) (s : State) => s.macTx t) (s.fe.pfc.filter go)
    { s with fe := { s.fe with pfc := s.fe.pfc.filter (fun t => !go t) } }

/-- A priority flow control frame: each priority that it names and that PFC_EN enables is stopped for its time, or goes on. -/
def State.pfcRx (s : State) (port en : Nat) (times : List Nat) : State :=
  let l := (List.range 8).filter (fun p => bitOf en p && bitOf (s.rd F.FE_MAC_PFC_EN port) p)
  let put := fun (m : SMap Nat) (p : Nat) => SMap.put m (8 * port + p) (s.now + s.pauseNs port (times[p]?.getD 0))
  State.pfcGo { s with fe := { s.fe with pfcUntil := l.foldl put s.fe.pfcUntil } } port

/-- Send frames on a port: nothing leaves a port that does not exist in its quad's mode (R6, R129, R130), and a priority that is
stopped, or that still has frames waiting, holds them. -/
def State.portTx (s : State) (t : PortTx) : State :=
  if s.portSpeed t.port = 0 then s
  else
    let s := s.pfcGo t.port
    if s.fe.pfc.any (fun h => decide (h.port = t.port ∧ h.prio = t.prio)) || s.pfcStopped t.port t.prio then
      { s with fe := { s.fe with pfc := s.fe.pfc ++ [t] } }
    else s.macTx t

/-- Firmware has installed or selected an SA: what the port held is sent. -/
def State.releaseHeld (s : State) (port : Nat) : State :=
  let l := s.fe.held.filter (fun h => decide (h.port = port))
  foldSt (fun (h : PortTx) (s : State) => s.portTx h) l { s with fe := { s.fe with held := s.fe.held.filter (fun h => decide (h.port ≠ port)) } }

/-- `FE_MSA` entries other than `e` that are VALID on its port in its direction. -/
def State.msaPeers (s : State) (e : Nat) : List Nat :=
  let l := s.regs.filterMap (fun p =>
    let k := (p.1 - F.FE_MSA_PORT.off) / 0x80
    if F.FE_MSA_PORT.off ≤ p.1 ∧ k < msaCount ∧ p.1 = F.FE_MSA_PORT.off + 0x80 * k then some k else none)
  l.filter (fun k => decide (k ≠ e) && s.flag F.FE_MSA_VALID k && decide (s.rd F.FE_MSA_PORT k = s.rd F.FE_MSA_PORT e) &&
    s.flag F.FE_MSA_TX k == s.flag F.FE_MSA_TX e)

/-- Does a port have room for SA `e`: one transmit channel and 32 receive channels, each with two SAs (R132)? -/
def State.msaFits (s : State) (e : Nat) : Bool :=
  let l := s.msaPeers e
  let mine := l.filter (fun k => decide (s.rd F.FE_MSA_SCI k = s.rd F.FE_MSA_SCI e))
  let chans := ((l.map (fun k => s.rd F.FE_MSA_SCI k)).eraseDups).length
  decide (mine.length < 2) && (!mine.isEmpty || decide (chans < if s.flag F.FE_MSA_TX e then 1 else 32))

/-- A store to word `w` of `FE_MSA` entry `e`: SAK or SALT clears VALID (R170); another word is stored as written, and what
the port held is tried again. VALID is not set beyond the SAs of R132 (DESIGN CHOICE, assumption log 79). -/
def State.msaStore (s : State) (e w v : Nat) : State :=
  let s := { s with fe := { s.fe with warned := if w = 2 ∨ w = 3 then removeNat s.fe.warned e else s.fe.warned
                                      spent := if w = 2 then removeNat s.fe.spent e else s.fe.spent } }
  match w with
  | 0 =>
    let s := (s.wr F.FE_MSA_PORT v e).wr F.FE_MSA_CTL (v >>> 8) e
    (if s.flag F.FE_MSA_VALID e && !s.msaFits e then s.clrFlag F.FE_MSA_VALID e else s).releaseHeld (bitsOf v 0 4)
  | 1 => s.wr F.FE_MSA_SCI v e
  | 2 => (s.wr F.FE_MSA_NEXT_PN v e).releaseHeld (s.rd F.FE_MSA_PORT e)
  | 3 => s.wr F.FE_MSA_PN_WARN v e
  | 4 => (s.wr F.FE_MSA_REPLAY_WIN v e).wr F.FE_MSA_SSCI (v >>> 32) e
  | 5 => (s.wr F.FE_MSA_SALT0 v e).clrFlag F.FE_MSA_VALID e
  | 6 => (s.wr F.FE_MSA_SALT1 v e).clrFlag F.FE_MSA_VALID e
  | 8 => (s.wr F.FE_MSA_SAK0 v e).clrFlag F.FE_MSA_VALID e
  | 9 => (s.wr F.FE_MSA_SAK1 v e).clrFlag F.FE_MSA_VALID e
  | 10 => (s.wr F.FE_MSA_SAK2 v e).clrFlag F.FE_MSA_VALID e
  | 11 => (s.wr F.FE_MSA_SAK3 v e).clrFlag F.FE_MSA_VALID e
  | _ => s

/-- A store to `FE_MSA`. -/
def execFeMsaKeyWrite (e w v : Nat) (s : State) : Res := .next (if e < msaCount then s.msaStore e w v else s)

/-- The receive SA of a frame: port, SCI and AN. -/
def State.rxSa (s : State) (port sci an : Nat) : Option Nat :=
  (List.range msaCount).find? (fun e =>
    s.flag F.FE_MSA_VALID e && !s.flag F.FE_MSA_TX e && decide (s.rd F.FE_MSA_PORT e = port ∧ s.rd F.FE_MSA_SCI e = sci ∧
      s.rd F.FE_MSA_AN e = an))

/-- The initial vector of an SA for a packet number (IEEE 802.1AE): SCI and PN, or with XPN the SSCI and the PN under the SALT. -/
def State.msaIv (s : State) (e pn : Nat) : List Byte :=
  if s.flag F.FE_MSA_XPN e then
    let salt := leBytes 8 (s.rd F.FE_MSA_SALT0 e) ++ leBytes 4 (s.rd F.FE_MSA_SALT1 e)
    (beBytes 4 (s.rd F.FE_MSA_SSCI e) ++ beBytes 8 pn).zipWith (· ^^^ ·) salt
  else beBytes 8 (s.rd F.FE_MSA_SCI e) ++ beBytes 4 (pn % 2 ^ 32)

/-- The SAK of an SA. -/
def State.sak (s : State) (e : Nat) : List Byte :=
  leBytes 8 (s.rd F.FE_MSA_SAK0 e) ++ leBytes 8 (s.rd F.FE_MSA_SAK1 e) ++ leBytes 8 (s.rd F.FE_MSA_SAK2 e) ++ leBytes 8 (s.rd F.FE_MSA_SAK3 e)

/-- The frame inside a protected frame, none where the ICV fails (IEEE 802.1AE, PRESUMED, assumption log 80): the SecTAG, of 8 or with
an SCI 16 bytes, follows the addresses, and the ICV ends the frame; bit 3 of the SecTAG's third byte says that the data is
encrypted. -/
def State.secOpen (s : State) (e pn : Nat) (d : List Byte) : Option (List Byte) :=
  let tci := ((d.drop 14).head?.getD 0).toNat
  let head := if bitOf tci 5 then 28 else 20
  let body := (d.take (d.length - 16)).drop head
  let enc := bitOf tci 3
  let aad := if enc then d.take head else d.take (d.length - 16)
  if head + 16 ≤ d.length ∧ gcmTag (s.sak e) (s.msaIv e pn) aad (if enc then body else []) = d.drop (d.length - 16) then
    some (d.take 12 ++ (if enc then gcmCrypt (s.sak e) (s.msaIv e pn) body else body))
  else none

/-- Check a protected frame (R132, R133): none when it is dropped, otherwise the frame inside. The lowest acceptable PN follows the
replay window. -/
def State.macsecRx (s : State) (port sci an pn : Nat) (d : List Byte) : Option (State × List Byte) :=
  match s.rxSa port sci an with
  | none => none
  | some e =>
    if pn < s.rd F.FE_MSA_NEXT_PN e then none
    else
      (s.secOpen e pn d).map (fun p =>
        (s.wr F.FE_MSA_NEXT_PN (max (s.rd F.FE_MSA_NEXT_PN e) (pn + 1 - s.rd F.FE_MSA_REPLAY_WIN e)) e, p))

/-! Frames. -/

/-- Give a frame to the oldest RAW_RX posted for the port (R167), or drop and count it. A frame longer than the room in
the buffer is stored as far as the room goes (assumption log 14). -/
def State.toFirmware (s : State) (port : Nat) (f : RxFrame) : State :=
  match s.fe.raw.find? (fun r => decide (r.port = port)) with
  | none => s.ctr F.FE_IP_DROP_CTR (port / 4)
  | some r =>
    let s := { s with fe := { s.fe with raw := s.fe.raw.erase r } }
    let h := r.job.fld 8 8
    let off := r.job.fld 16 4
    let d := f.data.take (hLen h - off)
    let s := if s.current h then (s.eccWrite (hAddr h off) d).1 else s
    s.completeP r.job r.inst 0 { status := stDone, aux := f.data.length, result := port + 16 * b2n f.sec.isSome }

/-- Is there a listener for an interface and port? -/
def State.listener (s : State) (ipif lport : Nat) : Bool :=
  s.flag F.FE_IPIF_VALID ipif &&
    (List.range 64).any (fun i => s.flag F.FE_LISTEN_VALID i && decide (s.rd F.FE_LISTEN_TCP_PORT i = lport ∧ s.rd F.FE_LISTEN_IPIF i = ipif))

/-- The address of an IP interface as a number: 16 bytes in network byte order, or the last 4 (R135). -/
def State.ipifAddr (s : State) (i : Nat) : Nat :=
  let d := leBytes 8 (s.rd F.FE_IPIF_ADDR0 i) ++ leBytes 8 (s.rd F.FE_IPIF_ADDR1 i)
  if s.flag F.FE_IPIF_IPV6 i then beNat d else beNat (d.drop 12)

/-- The IP interface of a packet: its port, VLAN, IP version and address. -/
def State.ipifOf (s : State) (port : Nat) (f : RxFrame) (v6 : Bool) (dst : Nat) : Option Nat :=
  (List.range 64).find? (fun i =>
    s.flag F.FE_IPIF_VALID i && decide (s.rd F.FE_IPIF_PORT i = port) && s.flag F.FE_IPIF_IPV6 i == v6 &&
      decide (s.ipifAddr i = dst) && (if s.flag F.FE_IPIF_TAGGED i then decide (f.tags = 1 ∧ f.vlan = s.rd F.FE_IPIF_VLAN i) else decide (f.tags = 0)))

/-- The UDP port of RoCEv2 (PRESUMED, assumption log 78). -/
def rocePort : Nat := 4791

/-- The checks above MACsec (R135): TCP to a listener and RoCEv2 go on; what happens to them there is the other rows'. -/
def State.frameIp (s : State) (port : Nat) (f : RxFrame) : State :=
  match f.kind with
  | .eapol => s.toFirmware port f
  | .firmware => s.toFirmware port f
  | .ip v6 dst proto dport frag opts ext badSum urg =>
    let known := match s.ipifOf port f v6 dst with
      | some i => (decide (proto = 6) && s.listener i dport) || decide (proto = 17 ∧ dport = rocePort)
      | none => false
    if frag || opts || ext || badSum || urg || !known then s.ctr F.FE_IP_DROP_CTR (port / 4) else s

/-- Does the IP interface of a frame require MACsec (R134)? For a frame that names none, does any interface of the port? -/
def State.secRequired (s : State) (port : Nat) (f : RxFrame) : Bool :=
  let mine := match f.kind with
    | .ip v6 dst _ _ _ _ _ _ _ => s.ipifOf port f v6 dst
    | _ => none
  match mine with
  | some i => s.flag F.FE_IPIF_MACSEC_REQ i
  | none => (List.range 64).any (fun i => s.flag F.FE_IPIF_VALID i && s.flag F.FE_IPIF_MACSEC_REQ i && decide (s.rd F.FE_IPIF_PORT i = port))

/-- A received frame is checked, verified, and classified or dropped (R131 to R135). -/
def State.frameRx (s : State) (port : Nat) (f : RxFrame) : State :=
  let q := port / 4
  let drop := s.ctr F.FE_FRAME_DROP_CTR q
  if !bitOf (s.rd F.FE_CTL_QUAD_EN) q || s.fe.paused then s
  else if !f.fcsOk ∨ f.len < 64 ∨ 9216 < f.len ∨ 2 ≤ f.tags ∨ f.pause then drop
  else
    match f.pfc with
    | some (en, times) => s.pfcRx port en times
    | none =>
      if f.dst ≠ s.rd F.FE_MAC_ADDR port ∧ !f.group then drop
      else
        match f.sec with
        | some (sci, an, pn) =>
          match s.macsecRx port sci an pn f.data with
          | none => s.ctr F.FE_MACSEC_DROP_CTR q
          | some (s, d) => s.frameIp port { f with data := d }
        | none => if s.secRequired port f && decide (f.kind ≠ .eapol) then s.ctr F.FE_MACSEC_DROP_CTR q else s.frameIp port f

/-- A received Ethernet frame. -/
def execFeFrameRx (port : Nat) (f : RxFrame) (s : State) : Res := .next (if port < 16 then s.frameRx port f else s)

end Sys2Proof.Machine
end

