-- ==== Sys2Proof/Machine/JRing.lean ====
section
/-! DEFINITION. The journal ring and its mirror in HBM (R172, R173, R178), live bytes and back-pressure (R183, R184). -/

namespace Sys2Proof.Machine

/-- Bytes of a ring. -/
def ringBytes : Nat := 2 ^ 30

/-- Address of the own ring. -/
def State.jrnBase (s : State) : Nat := s.rd F.JRN_BASE_ADDR * 2 ^ 30

/-- Address of the mirror. -/
def State.jrnMbase (s : State) : Nat := s.rd F.JRN_MBASE_ADDR * 2 ^ 30

/-- Address of a JOFF in a ring. -/
def ringAddr (base j : Nat) : Nat := base + j % ringBytes

/-- TYPE of the record at a JOFF. -/
def State.recType (s : State) (base j : Nat) : Nat := s.ldMem (ringAddr base j) 1

/-- LENGTH of the record at a JOFF. -/
def State.recLen (s : State) (base j : Nat) : Nat := s.ldMem (ringAddr base j + 4) 4

/-- RETIRED of the record at a JOFF. -/
def State.recRetired (s : State) (base j : Nat) : Bool := bitOf (s.ldMem (ringAddr base j + 1) 1) 0

/-- Set RETIRED of the record at a JOFF. -/
def State.setRetired (s : State) (base j : Nat) : State :=
  s.stMem (ringAddr base j + 1) 1 (s.ldMem (ringAddr base j + 1) 1 ||| 1)

/-- The JOFFs of the records from `j` up to `head`. -/
def State.recsFrom (s : State) (base head : Nat) : Nat → Nat → List Nat
  | 0, _ => []
  | n + 1, j => if head ≤ j ∨ s.recLen base j = 0 then [] else j :: State.recsFrom s base head n (j + s.recLen base j)

/-- The records between TAIL and HEAD of the own ring. -/
def State.jrnRecs (s : State) : List Nat :=
  s.recsFrom s.jrnBase (s.rd F.JRN_HEAD_JOFF) ((s.rd F.JRN_HEAD_JOFF - s.rd F.JRN_TAIL_JOFF) / 64) (s.rd F.JRN_TAIL_JOFF)

/-- The tail after every leading record that is RETIRED or PAD (R178). -/
def State.walkTail (s : State) (base head : Nat) : Nat → Nat → Nat
  | 0, j => j
  | n + 1, j =>
    if head ≤ j ∨ s.recLen base j = 0 then j
    else if s.recRetired base j || decide (s.recType base j = 0x0F) then State.walkTail s base head n (j + s.recLen base j)
    else j

/-- Advance TAIL. -/
def State.advTail (s : State) : State :=
  let h := s.rd F.JRN_HEAD_JOFF
  let t := s.rd F.JRN_TAIL_JOFF
  s.wr F.JRN_TAIL_JOFF (s.walkTail s.jrnBase h ((h - t) / 64) t)

/-- Advance MTAIL. -/
def State.advMtail (s : State) : State :=
  let h := s.rd F.JRN_MHEAD_JOFF
  let t := s.rd F.JRN_MTAIL_JOFF
  s.wr F.JRN_MTAIL_JOFF (s.walkTail s.jrnMbase h ((h - t) / 64) t)

/-- DIRTY and META bytes (chapter 6): WRITE and TRIM, DELTA and SPILL records not retired. -/
def State.liveBytes (s : State) : Nat × Nat :=
  s.jrnRecs.foldl (fun a j =>
    if s.recRetired s.jrnBase j then a
    else if s.recType s.jrnBase j ≤ 2 then (a.1 + s.recLen s.jrnBase j, a.2)
    else if s.recType s.jrnBase j ≤ 4 then (a.1, a.2 + s.recLen s.jrnBase j)
    else a) (0, 0)

/-- Armed areas: two armed entries of one sled count as one (R195). -/
def State.armedAreas (s : State) : Nat :=
  (((List.range 4).filter (fun a => s.flag F.JRN_VAULT_ARMED a)).map (fun a => s.rd F.JRN_VAULT_SLED a)).eraseDups.length

/-- The limits in bytes (R184): DIRTY, META, SPAN. -/
def State.jrnLimits (s : State) : Nat × Nat × Nat :=
  (2 ^ 20 * min 256 (s.rd F.JRN_LIMIT_DIRTY_LIMIT), 2 ^ 20 * min 64 (s.rd F.JRN_LIMIT_META_LIMIT),
   2 ^ 20 * min 1008 (s.rd F.JRN_LIMIT_SPAN_LIMIT))

/-- Look at back-pressure (R183): at each event that changes what it rests on (assumption log 91). -/
def State.jrnEval (s : State) : State :=
  let (d, m) := s.liveBytes
  let span := s.rd F.JRN_HEAD_JOFF - s.rd F.JRN_TAIL_JOFF
  let (ld, lm, ls) := s.jrnLimits
  let few := decide (s.armedAreas < min 4 (s.rd F.JRN_CTL_VAULT_MIN))
  let cause := b2n (decide (ld < d)) + 2 * b2n (decide (lm < m)) + 4 * b2n (decide (ls < span)) + 8 * b2n few
  if s.flag F.JRN_LIMIT_BP then
    if !few ∧ 16 * d ≤ 15 * ld ∧ 16 * m ≤ 15 * lm ∧ 16 * span ≤ 15 * ls then
      (s.clrFlag F.JRN_LIMIT_BP).wr F.JRN_LIMIT_BP_CAUSE 0
    else s.wr F.JRN_LIMIT_BP_CAUSE (s.rd F.JRN_LIMIT_BP_CAUSE ||| cause)
  else if cause = 0 then s
  else (((s.setFlag F.JRN_LIMIT_BP).wr F.JRN_LIMIT_BP_CAUSE cause).ctr F.JRN_BP_CTR).raise 0x063 cause

end Sys2Proof.Machine
end

