-- ==== Sys2Proof/Machine/Trn.lean ====
section
/-! DEFINITION. The Transom (chapter 11): queue pairs, sending, receiving, regions, Latch chains, heartbeats. -/

namespace Sys2Proof.Machine

/-! Queue pairs. -/

/-- Set a queue pair's engine side. -/
def State.setQp (s : State) (q : Nat) (x : Qp) : State :=
  { s with trn := { s.trn with qps := SMap.putD s.trn.qps q x Qp.init } }

/-- STATE of a queue pair: 0 RESET, 1 INIT, 2 RTR, 3 RTS, 4 ERROR. -/
def State.qpState (s : State) (q : Nat) : Nat := s.rd F.TRN_QP_STATE q

/-- Is a queue pair present (R334)? -/
def State.qpPresent (s : State) (q : Nat) : Bool := decide (q < s.fuse.variant.queuePairs)

/-- Is a queue pair a journal queue pair (R175)? -/
def State.isJrnQp (s : State) (q : Nat) : Bool := decide (q = s.rd F.JRN_CTL_QP0 % 64 ∨ q = s.rd F.JRN_CTL_QP1 % 64)

/-- The active journal queue pair (R176). -/
def State.jrnQp (s : State) : Nat := (if s.flag F.JRN_CTL_ACTIVE_QP then s.rd F.JRN_CTL_QP1 else s.rd F.JRN_CTL_QP0) % 64

/-- The other journal queue pair. -/
def State.jrnOther (s : State) : Nat := (if s.flag F.JRN_CTL_ACTIVE_QP then s.rd F.JRN_CTL_QP0 else s.rd F.JRN_CTL_QP1) % 64

/-- MAX_UNACK: 0 treated as 8,192, at most 8,192. -/
def State.maxUnack (s : State) (q : Nat) : Nat :=
  let m := s.rd F.TRN_QP_MAX_UNACK q
  if m = 0 then 8192 else min 8192 m

/-! Reports (R335, R350, R353, `TRN_RPTQ`). -/

/-- An item of firmware's source without a deadline. -/
def plainItem (queue : Nat) (hdr : List Nat) (handle : Nat) : Item :=
  { hdr := (List.range 8).map (fun i => BitVec.ofNat 64 (hdr[i]?.getD 0)), handle := BitVec.ofNat 64 handle, queue := queue,
    deadline := 0, stamp := 0, hasDl := false, source := 0, cls := 0, tenant := 0 }

/-- Try to enqueue the reports held, oldest first; one that is refused stays (it is never dropped). -/
def State.flushReports (s : State) : State :=
  foldSt (fun (r : Report) (s : State) =>
    let keep := fun (s : State) => { s with trn := { s.trn with reports := s.trn.reports ++ [r] } }
    if r.rptq && !s.flag F.TRN_RPTQ_VALID then keep s
    else
      let it := if r.rptq then { r.item with queue := s.rd F.TRN_RPTQ_QUEUE } else r.item
      match s.enqueue it with
      | some (_, s) => s
      | none => keep s) s.trn.reports { s with trn := { s.trn with reports := [] } }

/-- Make a report. -/
def State.trnReport (s : State) (rptq : Bool) (it : Item) : State :=
  State.flushReports { s with trn := { s.trn with reports := s.trn.reports ++ [{ rptq := rptq, item := it }] } }

/-! Sending (R337). -/

/-- PSN of a position. -/
def Qp.psn (x : Qp) (k : Nat) : Nat := (x.base + k) % 2 ^ 24

/-- The addresses of a queue pair's packets (R332): on quad q the source is 169.254.q.(HEAD_ID + 1) and the target the partner's; for
replication they are those of the IP interface and of the queue pair's context. -/
def State.roceVia (s : State) (q : Nat) : RoceVia :=
  let quad := s.rd F.TRN_QP_PATH q % 16
  let ll := fun (head : Nat) => ((169 * 256 + 254) * 256 + quad) * 256 + head + 1
  let i := s.rd F.TRN_QP_IPIF q % 64
  let d := leBytes 8 (s.rd F.TRN_QP_DADDR0 q) ++ leBytes 8 (s.rd F.TRN_QP_DADDR1 q)
  let peer := decide (q < s.peerQps)
  { vlan := if !peer && s.flag F.FE_IPIF_TAGGED i then some (s.rd F.FE_IPIF_VLAN i) else none
    prio := if peer then s.rd F.TRN_CFG_PRIO else if s.flag F.FE_IPIF_TAGGED i then s.rd F.FE_IPIF_PRIO i else 0
    dscp := if peer then 0 else s.rd F.FE_IPIF_DSCP i
    smac := if peer then s.rd F.TRN_MAC_ADDR quad else s.rd F.FE_MAC_ADDR quad
    sip := if peer then ll s.headId else s.ipifAddr i
    dmac := s.rd F.TRN_QP_DMAC q
    dip := if peer then ll (1 - s.headId) else if s.flag F.FE_IPIF_IPV6 i then beNat d else beNat (d.drop 12)
    udp := s.rd F.TRN_QP_UDP_SRC q
    dqpn := s.rd F.TRN_QP_DQPN q % 2 ^ 24 }

/-- Payload bytes of what a queue pair sends. -/
def TrnTx.len : TrnTx → Nat
  | .pkt p => p.data.length
  | _ => 0

/-- The Transom drives something of a queue pair: on its quad, where that is enabled and its link is up, or for replication through
its front-end port (R332). What a squelched quad or a link that is down does not carry is lost. -/
def State.trnOut (s : State) (q : Nat) (t : TrnTx) : State :=
  let p := s.rd F.TRN_QP_PATH q % 16
  if q < s.peerQps then
    if bitOf (s.rd F.TRN_CTL_QUAD_EN) p && bitOf (s.rd F.TRN_STATUS_QUAD_UP) p then s.emit (.trn p q (s.roceVia q) t) else s
  else
    s.portTx { port := p, prio := (s.roceVia q).prio, n := 1, bytes := t.len, prot := s.flag F.FE_IPIF_MACSEC_REQ (s.rd F.TRN_QP_IPIF q % 64),
               tx := .roce q (s.roceVia q) t }

/-- The arbiter that a queue pair asks: its quad's, or for replication its front-end port's (R383). -/
def State.qpArb (s : State) (q : Nat) : Nat × Nat := (if q < s.peerQps then 7 else 8, s.rd F.TRN_QP_PATH q % 16)

/-- The message of which a queue pair may send a packet now: in RTS, outside an RNR wait, within its window and its RATE. -/
def State.qpNext (s : State) (q : Nat) : Option TxMsg :=
  let x := s.qp q
  if s.qpState q ≠ 3 ∨ x.rnr.isSome ∨ x.una + s.maxUnack q ≤ x.nxt ∨ s.now < x.paceAt then none else x.next

/-- The opcode of packet `i` of a message (R333). -/
def TxMsg.opc (m : TxMsg) (i : Nat) : Nat :=
  let first := decide (i = 0)
  let last := decide (i + 1 = m.n)
  if m.op = 3 then (if first then (if last then 4 else 0) else if last then 2 else 1)
  else if first then (if last then (if m.op = 2 then 0x0B else 0x0A) else 6)
  else if last then (if m.op = 2 then 9 else 8) else 7

/-- The packet that a queue pair sends next of a message: the last one of a message carries AckReq (R337). -/
def State.txPkt (s : State) (q : Nat) (m : TxMsg) : RocePkt :=
  let x := s.qp q
  let i := x.nxt - m.lo
  let o := m.opc i
  let reth := fun (n : Nat) => if m.op ≠ 3 ∧ i = 0 then n else 0
  { opc := o, psn := x.psn x.nxt, ackReq := decide (i + 1 = m.n), icrcOk := true, vaddr := reth m.raddr, rkey := reth m.rkey,
    dmaLen := reth m.data.length, imm := if o = 9 ∨ o = 0x0B then m.imm else 0, data := (m.data.drop (i * s.mtu q)).take (s.mtu q) }

/-- Send the next packet of a message. RATE of a replication queue pair keeps back what follows (R333). -/
def State.qpEmit (s : State) (q : Nat) (m : TxMsg) : State :=
  let x := s.qp q
  let p := s.txPkt q m
  let rate := if q < s.peerQps then 0 else s.rd F.TRN_QP_RATE q
  let s := s.setQp q { x with nxt := x.nxt + 1, top := max x.top (x.nxt + 1), at_ := if x.una = x.nxt then s.now else x.at_,
                              paceAt := if rate = 0 then 0 else s.now + 1000 * p.data.length / rate }
  let s := (s.trnOut q (.pkt p)).ctr F.TRN_TX_PKTS_CTR
  if x.nxt < x.top then s.ctr F.TRN_RETX_CTR else s

/-- A queue pair with a packet to send asks its arbiter: background for a job with BG and for replication (R337, R375). -/
def State.qpAsk (s : State) (q : Nat) : State :=
  let a := s.qpArb q
  match s.qpNext q with
  | some m => if (s.arb a.1 a.2).requests q then s else s.arbArrive a.1 a.2 q (m.bg || decide (s.peerQps ≤ q)) none
  | none => s

/-- A queue pair that has the grant sends a packet. It keeps the grant to the packet's end while its message has more to send; else
its request has ended, and its next message is the next request. -/
def State.qpGo (q : Nat) : Nat → State → State
  | 0, s => s
  | k + 1, s =>
    let a := s.qpArb q
    if !s.holds a.1 a.2 q then s
    else
      match s.qpNext q with
      | none => s.arbRelease a.1 a.2 q
      | some m =>
        let s := s.qpEmit q m
        if (s.qp q).nxt < m.lo + m.n ∧ (s.qpNext q).isSome then s
        else State.qpGo q k ((s.arbRelease a.1 a.2 q).qpAsk q)

/-- The holder of a grant sends. -/
def State.qpSendNow (s : State) (q : Nat) : State := s.qpGo q ((s.qp q).msgs.length + 1)

/-- A queue pair may have come to have a packet to send. -/
def State.qpPump (s : State) (q : Nat) : State :=
  let a := s.qpArb q
  if (s.arb a.1 a.2).requests q then s else (s.qpAsk q).qpSendNow q

/-- What a queue pair asks for no longer stands. -/
def State.qpWithdraw (s : State) (q : Nat) : State := s.arbWithdraw (s.qpArb q).1 (s.qpArb q).2 q

/-- Queue pairs that RATE kept back and that may go on ask now. -/
def State.qpPaced (s : State) (ac inst : Nat) : State :=
  foldSt (fun q (s : State) => if s.qpArb q = (ac, inst) then s.qpAsk q else s)
    ((s.trn.qps.filter (fun p => decide (p.2.paceAt ≠ 0))).map Prod.fst) s

/-- Put a message on a queue pair. -/
def State.qpSend (s : State) (q : Nat) (src : TxSrc) (bg : Bool) (op raddr rkey imm : Nat) (data : List Byte) : State :=
  let x := s.qp q
  let n := max 1 (ceilDiv data.length (s.mtu q))
  let m : TxMsg := { src := src, op := op, bg := bg, raddr := raddr, rkey := rkey, imm := imm, data := data, lo := x.fin, n := n }
  let s := s.setQp q { x with msgs := x.msgs ++ [m], fin := x.fin + n }
  (s.wr F.TRN_QP_SPSN (x.psn (x.fin + n)) q).qpPump q

/-- Resend every unacknowledged packet from a position, in order (R337). -/
def State.qpResend (s : State) (q k : Nat) : State :=
  let s := s.qpWithdraw q
  let x := s.qp q
  (s.setQp q { x with nxt := min x.nxt k, at_ := s.now }).qpPump q

/-! Outcomes. -/

/-- The Transom's instance in completions. -/
def State.trnDone (s : State) (j : Job) (e : JobEnd) : State := s.complete j 0 (j.fld 8 8) e

/-- A fire report (R353). -/
def State.fireReport (s : State) (id : Nat) (c : Chain) (status idx : Nat) : State :=
  let s := (s.trnReport false (plainItem c.rqueue [c.qp + 3 * 2 ^ 12 + id * 2 ^ 16, status + idx * 2 ^ 8] 0)).stgDrop c.buf
  { s with trn := { s.trn with chains := SMap.del s.trn.chains id } }

/-- A work request of a FIRED chain has ended (R353). -/
def State.wrDone (s : State) (id idx status : Nat) : State :=
  match SMap.find s.trn.chains id with
  | none => s
  | some c =>
    if status ≠ stDone then s.fireReport id c status idx
    else
      let c' := { c with waiting := removeNat c.waiting idx }
      if c'.waiting.isEmpty then s.fireReport id c' 0 0
      else { s with trn := { s.trn with chains := SMap.put s.trn.chains id c' } }

/-- MSYNC once the last record of a copy and every marked band record are acknowledged (R356). -/
def State.syncEval (s : State) : State :=
  let busy := s.trn.qps.any (fun p => p.2.msgs.any (fun m => match m.src with
    | .copy => true
    | _ => false))
  if s.trn.syncing && !busy && s.trn.bandMarks.isEmpty then
    State.setFlag { s with trn := { s.trn with syncing := false, undone := [] } } F.TRN_STATUS_MSYNC
  else s

/-- A band record is marked: it goes out after the next CONNECT, in ascending band number (R355). -/
def State.bandMark (s : State) (n : Nat) : State :=
  let l := s.trn.bandMarks
  if l.contains n then s
  else { s with trn := { s.trn with bandMarks := l.filter (· < n) ++ [n] ++ l.filter (n < ·) } }

/-- The partner has acknowledged a band's record: SEG.OPEN jobs that wait for it complete (R265). -/
def State.openAcked (s : State) (n : Nat) : State :=
  let mine := s.seg.opens.filter (fun o => decide (o.band = n))
  let s := { s with seg := { s.seg with opens := s.seg.opens.filter (fun o => decide (o.band ≠ n)) } }
  foldSt (fun (o : PendOpen) (s : State) =>
    match o.job with
    | some j => s.completeP j 0 0 { status := stDone, aux := 0, result := o.seg }
    | none => s) mine s

/-- What the outcome of a message does: a job status with AUX. -/
def State.msgEnd (s : State) (m : TxMsg) (status aux : Nat) : State :=
  match m.src with
  | .job j => s.trnDone j { status := status, aux := aux, result := 0 }
  | .append j joff =>
    if status = stDone then (s.ctr F.JRN_APPENDS_CTR).trnDone j { status := stDone, aux := 0, result := joff }
    else State.trnDone { s with trn := { s.trn with undone := addNat s.trn.undone joff } } j { status := status, aux := aux, result := 0 }
  | .retire j => s.trnDone j { status := status, aux := aux, result := 0 }
  | .copy => s.syncEval
  | .latch id idx => s.wrDone id idx status
  | .band n =>
    if status = stDone then (State.syncEval { s with trn := { s.trn with bandMarks := removeNat s.trn.bandMarks n } }).openAcked n
    else s.bandMark n
  | .heartbeat => s

/-- Is a message the journal's, to be sent again on the other queue pair (R176)? -/
def TxMsg.ofJournal (m : TxMsg) : Bool :=
  match m.src with
  | .append _ _ => true
  | .retire _ => true
  | .copy => true
  | _ => false

/-! ERROR (R335). -/

/-- One message fewer is in flight to a region; a revoked region without any becomes FREE (R350). -/
def State.mrFree (s : State) (e : Nat) : State :=
  let s := if s.flag F.TRN_MR_ODP e then
      let base := s.rd F.TRN_MR_BASE e
      let n := ceilDiv (s.rd F.TRN_MR_LENGTH e) 65536
      foldSt (fun i (s : State) =>
        let h := s.ldMem (base + 8 * i) 8
        if h = 0 then s else (s.stgDrop h).stMem (base + 8 * i) 8 0) (List.range n) s
    else s
  let rkey := s.rd F.TRN_MR_RKEY e
  let s := (s.wr F.TRN_MR_STATE 0 e).wr F.TRN_MR_FREED (s.now / 1000) e
  let s := { s with trn := { s.trn with mrFreed := SMap.put s.trn.mrFreed e s.now, revoked := SMap.del s.trn.revoked e } }
  s.trnReport true (plainItem 0 [4 * 2 ^ 12, rkey] 0)

/-- A validated message to a region has ended. -/
def State.mrDrop (s : State) (e : Nat) : State :=
  let n := s.rd F.TRN_MR_INFLIGHT e - 1
  let s := s.wr F.TRN_MR_INFLIGHT n e
  if s.rd F.TRN_MR_STATE e = 2 ∧ n = 0 then s.mrFree e else s

/-- A message being received is abandoned. -/
def State.rxDrop (s : State) (q : Nat) : State :=
  let x := s.qp q
  match x.rx with
  | none => s
  | some r =>
    let s := s.setQp q { x with rx := none }
    let s := if r.slot then { s with slotRsv := s.slotRsv - 1 } else s
    if r.send then s.stgDrop r.handle else if r.mark then s else s.mrDrop r.mr

/-- Does the journal go on with the other queue pair when this one fails (R176)? -/
def State.jrnMoves (s : State) (q : Nat) : Bool :=
  decide (q = s.jrnQp) && decide (s.jrnOther ≠ q) && decide (s.qpState s.jrnOther = 3)

/-- Move a queue pair to ERROR for a cause of `TRN_RPTQ`. The journal's unacknowledged messages go to the other journal queue
pair when that is in RTS (R176). -/
def State.qpError (s : State) (q cause : Nat) : State :=
  if s.qpState q ≠ 2 ∧ s.qpState q ≠ 3 then s
  else
    let x := s.qp q
    let s := ((s.qpWithdraw q).rxDrop q).wr F.TRN_QP_STATE 4 q
    let move := s.jrnMoves q
    let mine := x.msgs.filter (fun m => move && m.ofJournal)
    let flush := x.msgs.filter (fun m => !(move && m.ofJournal))
    let s := s.setQp q { (s.qp q) with msgs := [], nxt := x.fin, top := x.fin, una := x.fin, rnr := none, stall := none }
    let s := s.ctr F.TRN_QP_ERR_CTR
    let s := s.raise 0x062 (q + cause * 2 ^ 16)
    let s := s.trnReport true (plainItem 0 [q + 5 * 2 ^ 12, cause] 0)
    let s := if q = s.jrnQp ∧ move = true then s.wr F.JRN_CTL_ACTIVE_QP (1 - s.rd F.JRN_CTL_ACTIVE_QP) else s
    let s := foldSt (fun (m : TxMsg) (s : State) => s.qpSend s.jrnQp m.src m.bg m.op m.raddr m.rkey m.imm m.data) mine s
    let s := foldSt (fun (m : TxMsg) (s : State) => s.msgEnd m stMediaTmo 1) flush s
    foldSt (fun id (s : State) =>
      match SMap.find s.trn.chains id with
      | some c => if c.qp = q ∧ c.fired = false then s.fireReport id c stMediaTmo 0 else s
      | none => s) (SMap.keys s.trn.chains) s

/-- A payload cannot be read: the queue pair goes to ERROR (R338) with a cause that the spec does not state (assumption log 92). -/
def State.qpUnread (s : State) (q : Nat) : State := s.nextFree.qpError q (s.freeNat % 256)

/-- End the oldest unacknowledged message with a status, and move the queue pair to ERROR (R338); a message of the journal that the
other journal queue pair takes over ends there instead (R176). -/
def State.qpFail (s : State) (q cause status aux : Nat) : State :=
  let x := s.qp q
  match x.msgs with
  | [] => s.qpError q cause
  | m :: rest =>
    if m.ofJournal && s.jrnMoves q then s.qpError q cause
    else ((s.setQp q { x with msgs := rest }).msgEnd m status aux).qpError q cause

/-! Acknowledgements and timers of the requester. -/

/-- The position that a PSN names among the unacknowledged packets, or none when it is earlier (R337). -/
def Qp.posOf (x : Qp) (psn : Nat) : Option Nat :=
  let d := (psn % 2 ^ 24 + 2 ^ 24 - x.psn x.una) % 2 ^ 24
  if d < 2 ^ 23 ∧ x.una + d < x.top then some (x.una + d) else none

/-- Acknowledge every packet before a position: messages that end there complete DONE. -/
def State.qpAcked (s : State) (q k : Nat) : State :=
  let x := s.qp q
  let fin := x.msgs.filter (fun m => decide (m.lo + m.n ≤ k))
  let s := s.setQp q { x with una := max x.una k, nxt := max x.nxt k, msgs := x.msgs.filter (fun m => decide (k < m.lo + m.n)),
                              retries := if x.una < k then 0 else x.retries,
                              rnrTries := if x.una < k then 0 else x.rnrTries, at_ := s.now }
  (foldSt (fun (m : TxMsg) (s : State) => s.msgEnd m stDone 0) fin s).qpPump q

/-- The RNR timer of an RNR NAK, in ns (R338): the encoding is the transport's (PRESUMED, assumption log 90). -/
def rnrNs (timer : Nat) : Nat :=
  10000 * ([65536, 1, 2, 3, 4, 6, 8, 12, 16, 24, 32, 48, 64, 96, 128, 192, 256, 384, 512, 768, 1024, 1536, 2048, 3072, 4096, 6144, 8192,
    12288, 16384, 24576, 32768, 49152][timer % 32]?.getD 0)

/-- An ACK or NAK (R338). -/
def State.qpAck (s : State) (q psn : Nat) (k : AckKind) : State :=
  let x := s.qp q
  if s.qpState q ≠ 3 then s
  else
    match x.posOf psn with
    | none => s
    | some p =>
      match k with
      | .ack => s.qpAcked q (p + 1)
      | .seqErr => (s.qpAcked q p).qpResend q p
      | .rnr t =>
        let s := s.qpAcked q p
        let x := s.qp q
        let lim := s.rd F.TRN_QP_RNR_RETRY q
        if lim ≠ 7 ∧ lim ≤ x.rnrTries then s.qpFail q 2 stNoSpace 0
        else (s.qpWithdraw q).setQp q { x with rnr := some (p, s.now + rnrNs t), rnrTries := x.rnrTries + 1 }
      | .access => (s.qpAcked q p).qpFail q 3 stRefused 1
      | .invalid => (s.qpAcked q p).qpFail q 3 stRefused 2
      | .operational => (s.qpAcked q p).qpFail q 3 stRefused 3

/-- An ACK or NAK arrives: one that fails its ICRC is dropped and counted (R333). -/
def execTrnRxAck (qp psn : Nat) (k : AckPkt) (s : State) : Res :=
  .next (if k.icrcOk then s.qpAck qp psn k.kind else s.ctr F.TRN_ICRC_DROP_CTR)

/-- The RNR timer ends: resend from the NAKed packet (R338). -/
def execTrnRnrWaitExpiry (qp : Nat) (s : State) : Res :=
  .next (match (s.qp qp).rnr with
    | some (k, t) => if s.qpState qp = 3 ∧ t ≤ s.now then (s.setQp qp { s.qp qp with rnr := none }).qpResend qp k else s
    | none => s)

/-- The local ACK timeout in ns; none for 0. -/
def State.ackTimeout (s : State) (q : Nat) : Option Nat :=
  let t := s.rd F.TRN_QP_TIMEOUT q
  if t = 0 then none else some (4096 * 2 ^ t)

/-- The local ACK timeout expires (R337, R338). -/
def execTrnAckTimeout (qp : Nat) (s : State) : Res :=
  .next (
    let x := s.qp qp
    match s.ackTimeout qp with
    | none => s
    | some t =>
      if s.qpState qp = 3 ∧ x.una < x.nxt ∧ x.rnr.isNone ∧ x.at_ + t ≤ s.now then
        if x.retries < s.rd F.TRN_QP_RETRY qp then (s.setQp qp { x with retries := x.retries + 1 }).qpResend qp x.una
        else s.qpFail qp 1 stMediaTmo 0
      else s)

/-! State writes (R334 to R336). -/

/-- Is the PATH of a queue pair valid (R334)? -/
def State.pathOk (s : State) (q : Nat) : Bool :=
  let p := s.rd F.TRN_QP_PATH q
  if q < s.peerQps then decide (p < s.fuse.variant.quads) else decide (16 ≤ p ∧ p - 16 < 4 * s.fuse.variant.quads)

/-- Are DQPN and addressing valid: a peer queue pair reaches only its own number (R334)? -/
def State.dqpnOk (s : State) (q : Nat) : Bool :=
  if q < s.peerQps then decide (s.rd F.TRN_QP_DQPN q % 2 ^ 24 = 0x010000 + q) else true

/-- A write of STATE that is not allowed. -/
def State.qpBadWrite (s : State) : State := s.setFlag F.TRN_STATUS_QP_ERR_W

/-- The context cleared except RQUEUE and addressing (R335). -/
def State.qpClear (s : State) (q : Nat) : State :=
  let keepW0 := s.rd F.TRN_QP_PATH q
  let rq := s.rd F.TRN_QP_RQUEUE q
  let ip := s.rd F.TRN_QP_IPIF q
  let s := foldSt (fun w (s : State) => s.regSet (F.TRN_QP_STATE.off + 64 * q + 8 * w) (regReset (F.TRN_QP_STATE.off + 64 * q + 8 * w)))
    [0, 1, 2, 3, 7] s
  let s := ((s.wr F.TRN_QP_PATH keepW0 q).wr F.TRN_QP_RQUEUE rq q).wr F.TRN_QP_IPIF ip q
  (s.wr F.TRN_QP_STALL_US (if q < s.peerQps then 20 else 0) q).setQp q Qp.init

/-- A write of STATE (R335). -/
def State.qpWriteState (s : State) (q st : Nat) : State :=
  if !s.qpPresent q then s
  else
    match s.qpState q, st with
    | 0, 1 => s.wr F.TRN_QP_STATE 1 q
    | 1, 2 =>
      if s.pathOk q && s.dqpnOk q then (s.wr F.TRN_QP_STATE 2 q).setQp q Qp.init else s.qpBadWrite
    | 2, 3 =>
      let s := (s.wr F.TRN_QP_STATE 3 q).setQp q { (s.qp q) with base := s.rd F.TRN_QP_SPSN q % 2 ^ 24 }
      if q = s.rd F.JRN_CTL_QP0 % 64 ∨ s.qpState s.jrnQp ≠ 3 ∧ s.isJrnQp q then
        s.wr F.JRN_CTL_ACTIVE_QP (b2n (decide (q ≠ s.rd F.JRN_CTL_QP0 % 64)))
      else s
    | 2, 4 => s.qpError q 6
    | 3, 4 => s.qpError q 6
    | 4, 0 => s.qpClear q
    | _, _ => s.qpBadWrite

/-- STATE = INIT. -/
def execTrnQpInit (qp : Nat) (s : State) : Res := .next (s.qpWriteState qp 1)

/-- STATE = RTR. -/
def execTrnQpRtr (qp : Nat) (s : State) : Res := .next (s.qpWriteState qp 2)

/-- STATE = RTS. -/
def execTrnQpRts (qp : Nat) (s : State) : Res := .next (s.qpWriteState qp 3)

/-- STATE = ERROR. -/
def execTrnQpErrorWrite (qp : Nat) (s : State) : Res := .next (s.qpWriteState qp 4)

/-- STATE = RESET. -/
def execTrnQpReset (qp : Nat) (s : State) : Res := .next (s.qpWriteState qp 0)

/-- A store to `TRN_CFG`: PEER_QPS is taken only while every queue pair is RESET, and sets STALL_US for the new boundary
(R334). -/
def State.trnCfg (s : State) (v : Nat) : State :=
  let n := bitsOf v 0 13
  let idle := (List.range s.fuse.variant.queuePairs).all (fun q => decide (s.qpState q = 0))
  let s := (((s.wr F.TRN_CFG_PRIO (v >>> 13)).wr F.TRN_CFG_ACK_PKTS (v >>> 16)).wr F.TRN_CFG_LINK_MS (v >>> 24)).wr
    F.TRN_CFG_QUAR_US (v >>> 32)
  let s := s.wr F.TRN_CFG_REVOKE_MS (v >>> 48)
  if idle && s.fuse.variant.repl && decide (64 ≤ n ∧ n ≤ 4096) then
    foldSt (fun q (s : State) => s.wr F.TRN_QP_STALL_US (if q < n then 20 else 0) q) (List.range 4096) (s.wr F.TRN_CFG_PEER_QPS n)
  else s

/-- A store to `TRN_CFG`. -/
def execTrnCfgWrite (v : Nat) (s : State) : Res := .next (s.trnCfg v)

/-! Jobs (R106, R338, R339). -/

/-- What a job on a queue pair meets before anything is sent: a status with AUX, or nothing. -/
def State.qpGate (s : State) (q : Nat) : Option (Nat × Nat) :=
  if !s.qpPresent q then some (stAbsent, 0)
  else if s.qpState q = 4 then some (stMediaTmo, 1)
  else if s.qpState q ≠ 3 then some (stBad, 0)
  else none

/-- The checks of R95 for a sending descriptor. -/
def trnCheck (j : Job) (s : State) : Bool :=
  s.flag F.TRN_CTL_EN && j.zero 36 63 && decide (j.fld 2 2 < 4096 ∧ j.fld 4 4 ≤ 2097151) &&
    (if j.fld 8 8 = 0 then decide (j.fld 4 4 = 0) else s.inHandle (j.fld 8 8) (j.fld 16 4) (j.fld 4 4))

/-- Send a job's message, or end it. -/
def trnSendJob (op : Nat) (j : Job) (s : State) : JobDo :=
  let q := j.fld 2 2
  match s.qpGate q with
  | some (st, aux) => .done s 0 { status := st, aux := aux, result := 0 }
  | none =>
    if op = 3 ∧ j.fld 4 4 = 0 then .bad s
    else
      match s.unitRead (hAddr (j.fld 8 8) (j.fld 16 4)) (j.fld 4 4) with
      | (s, none) => .done ((s.memEvent 0x0A 0).qpUnread q) 0 .memErr
      | (s, some d) => .taken (s.qpSend q (.job j) j.bg op (j.fld 24 8) (j.fld 32 4) (if op = 2 then j.fld 20 4 else 0) d)

/-- A job of an OP on a queue pair that the journal does not take. -/
def State.plainOp (s : State) (op : Nat) (j : Job) : Bool := isOp op j && !(s.isJrnQp (j.fld 2 2))

/-- WRITE (R337). -/
def execTrnWrite (cl : Nat) (s : State) : Res := .next (s.runJob 0x0A 0 cl (s.plainOp 1) trnCheck (trnSendJob 1))

/-- WRITE_IMM (R337). -/
def execTrnWriteImm (cl : Nat) (s : State) : Res := .next (s.runJob 0x0A 0 cl (s.plainOp 2) trnCheck (trnSendJob 2))

/-- A CONNECT leaves on a journal queue pair: the engine fills JHEAD and JTAIL (R356). -/
def State.fillConnect (s : State) (q : Nat) (d : List Byte) : List Byte :=
  if s.isJrnQp q ∧ d.head? = some 0x01 ∧ 64 ≤ d.length then
    d.take 40 ++ leBytes 8 (s.rd F.JRN_HEAD_JOFF) ++ leBytes 8 (s.rd F.JRN_TAIL_JOFF) ++ d.drop 56
  else d

/-- Bytes `lo` to `lo + n - 1` of a byte string as a number. -/
def lfld (d : List Byte) (lo n : Nat) : Nat := leNat ((d.drop lo).take n)

/-- The address of a band record (R266). -/
def State.bandAddr (s : State) (n : Nat) : Nat := s.rd F.SEG_BAND_BASE_ADDR * 2 ^ 31 + 128 * n

/-- Send a band record (R355): under the single-head rule, or without a connected queue pair, it is marked instead. -/
def State.bandSend (s : State) (n : Nat) : State :=
  let q := s.rd F.TRN_BANDQP_QP
  if s.qpState q ≠ 3 ∨ s.flag F.JRN_CTL_SINGLE then s.bandMark n
  else
    let x := s.qp q
    let d := leBytes 1 3 ++ leBytes 3 0 ++ leBytes 4 192 ++ leBytes 8 x.mseq ++ leBytes 8 0 ++ leBytes 8 n ++ leBytes 32 0 ++
      s.bytes (s.bandAddr n) 128
    (s.setQp q { x with mseq := x.mseq + 1 }).qpSend q (.band n) false 3 0 0 0 d

/-- What follows a CONNECT (R355, R356): the copy of every record from TAIL to HEAD into the partner's mirror, in JOFF order,
and the marked band records. -/
def State.connectSent (s : State) (q : Nat) (d : List Byte) : State :=
  if d.head? ≠ some 0x01 then s
  else
    let s := { s with trn := { s.trn with verOwn := some (lfld d 34 2, lfld d 36 2) } }
    let s := if q = s.jrnQp then
        let s := State.clrFlag { s with trn := { s.trn with syncing := true } } F.TRN_STATUS_MSYNC
        foldSt (fun j (s : State) =>
          s.qpSend q .copy false 1 (j % ringBytes) (s.rd F.JRN_RKEY_RKEY) 0 (s.bytes (ringAddr s.jrnBase j) (s.recLen s.jrnBase j))) s.jrnRecs s
      else s
    let s := if q = s.rd F.TRN_BANDQP_QP then foldSt (fun n (s : State) => s.bandSend n) s.trn.bandMarks s else s
    s.syncEval

/-- SEND (R337): a CONNECT on a journal queue pair gets the ring positions. -/
def trnSend (j : Job) (s : State) : JobDo :=
  let q := j.fld 2 2
  match s.qpGate q with
  | some (st, aux) => .done s 0 { status := st, aux := aux, result := 0 }
  | none =>
    if j.fld 4 4 = 0 then .bad s
    else
      match s.unitRead (hAddr (j.fld 8 8) (j.fld 16 4)) (j.fld 4 4) with
      | (s, none) => .done ((s.memEvent 0x0A 0).qpUnread q) 0 .memErr
      | (s, some d) =>
        let d := s.fillConnect q d
        .taken ((s.qpSend q (.job j) j.bg 3 0 0 0 d).connectSent q d)

/-- SEND. -/
def execTrnSend (cl : Nat) (s : State) : Res := .next (s.runJob 0x0A 0 cl (isOp 3) trnCheck trnSend)

/-! Latch chains (R352, R353). -/

/-- Armed chains. -/
def State.armed (s : State) : Nat := (s.trn.chains.filter (fun p => !p.2.fired)).length

/-- A chain id not in use: which one is not stated (assumption log 4). -/
def State.pickChain (s : State) : Nat :=
  let rec go : Nat → Nat → Nat
    | 0, k => k % 65536
    | n + 1, k => if SMap.has s.trn.chains (k % 65536) then go n (k + 1) else k % 65536
  go s.trn.chains.length s.freeNat

/-- Is a chain buffer's header valid for a length? -/
def latchOk (d : List Byte) (len : Nat) : Bool :=
  let n := lfld d 0 1
  decide (1 ≤ n ∧ n ≤ 7 ∧ len = 64 * (n + 1) ∧ lfld d 1 1 < 4 ∧ (lfld d 2 1 = 1 ∨ lfld d 2 1 = 2) ∧ lfld d 4 4 < 2 ^ 20) &&
    decide (leNat ((d.drop 28).take 36) = 0) &&
    (List.range n).all (fun i => let o := lfld d (64 * (i + 1)) 1; decide (1 ≤ o ∧ o ≤ 3))

/-- LATCH. -/
def trnLatch (j : Job) (s : State) : JobDo :=
  let q := j.fld 2 2
  if !s.qpPresent q then .done s 0 (.st stAbsent)
  else if s.qpState q = 4 then .done s 0 { status := stMediaTmo, aux := 1, result := 0 }
  else if s.qpState q ≠ 3 then .bad s
  else
    match s.unitRead (hAddr (j.fld 8 8) (j.fld 16 4)) (j.fld 4 4) with
    | (s, none) => .memErr s 0x0A 0
    | (s, some d) =>
      if !latchOk d (j.fld 4 4) then .bad s
      else if 1024 ≤ s.armed then .done s 0 (.st stNoSpace)
      else
        let id := s.pickChain
        let us := lfld d 24 4
        let c : Chain :=
          { qp := q, consume := bitOf (lfld d 1 1) 0, subst := bitOf (lfld d 1 1) 1, kind := lfld d 2 1, type := lfld d 3 1,
            rqueue := lfld d 4 4, match_ := lfld d 8 8, mask := lfld d 16 8,
            expire := if us = 0 then none else some (s.now + 1000 * us),
            wrs := (List.range (lfld d 0 1)).map (fun i => BitVec.ofNat 512 (leNat ((d.drop (64 * (i + 1))).take 64))),
            buf := j.fld 8 8, fired := false, waiting := [], order := s.trn.chainCtr }
        .done (State.nextFree { s with trn := { s.trn with chains := SMap.put s.trn.chains id c, chainCtr := s.trn.chainCtr + 1 } }) 0
          { status := stDone, aux := 0, result := id }

/-- LATCH (R352). -/
def execTrnLatch (cl : Nat) (s : State) : Res := .next (s.runJob 0x0A 0 cl (isOp 4) trnCheck trnLatch)

/-- Start work request `idx` of a chain: its status when it ends at once, none when it is on its way. On a journal queue pair it is sent
as it is (DESIGN CHOICE, assumption log 113). -/
def State.wrStart (s : State) (id idx : Nat) (d : Desc) (imm : Option Nat) : State × Option Nat :=
  let j : Job := { gid := 0, ticket := 0, desc := d, item := none, stamp := 0, dark := false }
  let q := j.fld 2 2
  if !j.flagsOk || !trnCheck j s then (s, some stBad)
  else
    match s.qpGate q with
    | some (st, _) => (s, some st)
    | none =>
      match s.unitRead (hAddr (j.fld 8 8) (j.fld 16 4)) (j.fld 4 4) with
      | (s, none) => ((s.memEvent 0x0A 0).qpUnread q, some stCheck)
      | (s, some b) =>
        let b := if j.op = 3 then s.fillConnect q b else b
        let s := s.qpSend q (.latch id idx) j.bg j.op (j.fld 24 8) (j.fld 32 4) (if j.op = 2 then imm.getD (j.fld 20 4) else 0) b
        (if j.op = 3 then s.connectSent q b else s, none)

/-- Start the work requests of a chain in order until one ends badly. -/
def State.wrAll (s : State) (id : Nat) (imm : Option Nat) : Nat → List Desc → State × Option (Nat × Nat)
  | _, [] => (s, none)
  | i, d :: ds =>
    match s.wrStart id i d imm with
    | (s, some st) => (s, some (i, st))
    | (s, none) => State.wrAll s id imm (i + 1) ds

/-- Fire a chain (R353). -/
def State.fire (s : State) (id : Nat) (c : Chain) (imm : Nat) : State :=
  let c' := { c with fired := true, waiting := List.range c.wrs.length }
  let s := State.ctr { s with trn := { s.trn with chains := SMap.put s.trn.chains id c' } } F.TRN_LATCH_FIRED_CTR
  match s.wrAll id (if c.subst then some (imm % 2 ^ 32) else none) 0 c.wrs with
  | (s, none) => s
  | (s, some (i, st)) =>
    match SMap.find s.trn.chains id with
    | some c => s.fireReport id c st i
    | none => s

/-- The oldest armed chain that a message fires (R353): kind 1 SEND with its TYPE and TAG, 2 WRITE_IMM with its immediate. -/
def State.matching (s : State) (q kind type v : Nat) : Option (Nat × Chain) :=
  minBy (fun p : Nat × Chain => p.2.order) (s.trn.chains.filter (fun p =>
    let c := p.2
    !c.fired && decide (c.qp = q ∧ c.kind = kind ∧ (kind = 2 ∨ c.type = type)) && decide (v &&& c.mask = c.match_ &&& c.mask)))

/-- EXPIRE_US passes (R353). -/
def execLatchExpiry (id : Nat) (s : State) : Res :=
  .next (match SMap.find s.trn.chains id with
    | some c =>
      match c.expire with
      | some t => if c.fired = false ∧ t ≤ s.now then s.fireReport id c stRefused 0 else s
      | none => s
    | none => s)

/-- A chain id is written to `TRN_LATCH_CANCEL` (R353). -/
def State.latchCancel (s : State) (id : Nat) : State :=
  match SMap.find s.trn.chains id with
  | some c => if c.fired then s else s.fireReport id c stRefused 0
  | none => s

/-- A store to `TRN_LATCH_CANCEL`. -/
def execTrnLatchCancelWrite (id : Nat) (s : State) : Res := .next (s.latchCancel (id % 65536))

/-! Regions (R347 to R351). -/

/-- The region entry that REGISTER takes: never used, lowest first; else the one free longest past its quarantine. -/
def State.mrPick (s : State) : Option Nat :=
  let free := (List.range 4096).filter (fun e => decide (s.rd F.TRN_MR_STATE e = 0))
  match free.find? (fun e => !SMap.has s.trn.mrFreed e) with
  | some e => some e
  | none =>
    match minBy (fun e => SMap.findD s.trn.mrFreed e 0) free with
    | some e => if SMap.findD s.trn.mrFreed e 0 + 1000 * s.rd F.TRN_CFG_QUAR_US ≤ s.now then some e else none
    | none => none

/-- REGISTER (R350, R351). -/
def State.mrRegister (s : State) : State :=
  let len := s.rd F.TRN_MR_ARG1_LENGTH
  let odp := s.flag F.TRN_MR_ARG1_ODP
  let fail := (s.setFlag F.TRN_MR_CMD_ERR).wr F.TRN_MR_RESULT_RKEY 0
  if odp ∧ 2 ^ 28 < len then fail
  else
    match s.mrPick with
    | none => fail
    | some e =>
      let gen := (s.rd F.TRN_MR_RKEY e % 256 + 1) % 256
      let rkey := gen + e * 2 ^ 8 + s.rd F.TRN_KEYTAG_KEYTAG * 2 ^ 20
      let s := ((s.wr F.TRN_MR_BASE (s.rd F.TRN_MR_ARG0_BASE) e).wr F.TRN_MR_LENGTH len e).wr F.TRN_MR_FLAGS
        (b2n odp + 2 * s.rd F.TRN_MR_ARG2_ANY_PEER) e
      let s := ((s.wr F.TRN_MR_SCOPE_QP (s.rd F.TRN_MR_ARG2_SCOPE_QP) e).wr F.TRN_MR_RKEY rkey e).wr F.TRN_MR_STATE 1 e
      ((s.wr F.TRN_MR_INFLIGHT 0 e).wr F.TRN_MR_RESULT_RKEY rkey)

/-- The entry that an rkey names when it is VALID (R349 check 1). -/
def State.mrOf (s : State) (rkey : Nat) : Option Nat :=
  let e := bitsOf rkey 8 12
  if bitsOf rkey 20 12 = s.rd F.TRN_KEYTAG_KEYTAG ∧ s.rd F.TRN_MR_STATE e = 1 ∧ s.rd F.TRN_MR_RKEY e % 256 = rkey % 256 then some e
  else none

/-- REVOKE (R350). -/
def State.mrRevoke (s : State) : State :=
  match s.mrOf (s.rd F.TRN_MR_ARG0_BASE % 2 ^ 32) with
  | none => s.setFlag F.TRN_MR_CMD_ERR
  | some e =>
    let s := State.wr { s with trn := { s.trn with revoked := SMap.put s.trn.revoked e s.now } } F.TRN_MR_STATE 2 e
    if s.rd F.TRN_MR_INFLIGHT e = 0 then s.mrFree e else s

/-- REGISTER. -/
def execTrnMrRegister (s : State) : Res := .next s.mrRegister

/-- REVOKE. -/
def execTrnMrRevoke (s : State) : Res := .next s.mrRevoke

/-- REVOKE_MS passes with INFLIGHT above 0 (R350). -/
def execTrnRevokeTimeout (e : Nat) (s : State) : Res :=
  .next (match SMap.find s.trn.revoked e with
    | some t =>
      if t + 1000000 * s.rd F.TRN_CFG_REVOKE_MS ≤ s.now then
        let qs := (s.trn.qps.filter (fun p => match p.2.rx with
          | some r => !r.send && !r.mark && decide (r.mr = e)
          | none => false)).map Prod.fst
        foldSt (fun q (s : State) => s.qpError q 7) qs s
      else s
    | none => s)

/-! Receiving (R340 to R346). -/

/-- Supported opcodes (R333). -/
def opcOk (o : Nat) : Bool := [0, 1, 2, 4, 6, 7, 8, 9, 0x0A, 0x0B].contains o

/-- First or Only packet. -/
def opcStarts (o : Nat) : Bool := [0, 4, 6, 0x0A, 0x0B].contains o

/-- Last or Only packet. -/
def opcEnds (o : Nat) : Bool := [2, 4, 8, 9, 0x0A, 0x0B].contains o

/-- With immediate data. -/
def opcImm (o : Nat) : Bool := o = 9 || o = 0x0B

/-- A SEND opcode. -/
def opcSend (o : Nat) : Bool := decide (o ≤ 4)

/-- EPSN of a queue pair. -/
def State.epsn (s : State) (q : Nat) : Nat := s.rd F.TRN_QP_EPSN q % 2 ^ 24

/-- MSN of a queue pair. -/
def State.msn (s : State) (q : Nat) : Nat := s.rd F.TRN_QP_MSN q % 2 ^ 24

/-- Send an ACK for everything executed. -/
def State.sendAck (s : State) (q : Nat) : State :=
  (s.setQp q { s.qp q with ackPend := 0 }).trnOut q (.ack ((s.epsn q + 2 ^ 24 - 1) % 2 ^ 24) (s.msn q))

/-- Answer with a NAK that ends the connection. -/
def State.nakFatal (s : State) (q : Nat) (k : AckKind) : State :=
  let s := s.trnOut q (.nak k (s.epsn q) (s.msn q))
  let s := if k = .access then s.ctr F.TRN_ACCESS_NAK_CTR else s
  s.qpError q 4

/-- What executing a packet came to. -/
inductive RxDo where
  | ok (s : State)
  | wait (s : State)
  | fatal (s : State) (k : AckKind)

/-- A heartbeat is recorded (R27, R355). -/
def State.hbRx (s : State) (seq st : Nat) : State :=
  let s := ((s.wr F.TRN_HB_SEQ_SEQ seq).wr F.TRN_HB_RXTIME_TIME s.now).wr F.TRN_STATUS_PARTNER_STATE st
  let s := { s with trn := { s.trn with lossAt := none } }
  (s.clrFlag F.TRN_STATUS_PARTNER_LATE).clrFlag F.TRN_STATUS_PARTNER_LOSS

/-- A band record of the partner is written into the band table (R355). -/
def State.bandRx (s : State) (n : Nat) (rec : List Byte) : State := (s.eccWrite (s.bandAddr (n % 2 ^ 24)) (rec.take 128)).1

/-- A heartbeat arrives. -/
def execHeartbeatRx (seq st : Nat) (s : State) : Res := .next (s.hbRx seq st)

/-- A band record arrives. -/
def execBandRx (n : Nat) (rec : List Byte) (s : State) : Res := .next (s.bandRx n rec)

/-- The negotiated version, once both heads' ranges are known and meet (R356). -/
def State.trnVersion (s : State) : Option Nat :=
  match s.trn.verOwn, s.trn.verPeer with
  | some a, some b => if max a.1 b.1 ≤ min a.2 b.2 then some (min a.2 b.2) else none
  | _, _ => none

/-- A CONNECT arrives on a journal queue pair: the mirror takes the sender's positions (R178, R356). -/
def State.connectRx' (s : State) (q : Nat) (d : List Byte) : State :=
  let s := { s with trn := { s.trn with verPeer := some (lfld d 34 2, lfld d 36 2) } }
  if s.isJrnQp q then (s.wr F.JRN_MHEAD_JOFF (lfld d 40 8)).wr F.JRN_MTAIL_JOFF (lfld d 48 8) else s

/-- Deliver an item of a received message: the reserved slot is used. -/
def State.rxDeliver (s : State) (q : Nat) (hdr : List Nat) (handle : Nat) : State :=
  State.trnReport { s with slotRsv := s.slotRsv - 1 } false (plainItem (s.rd F.TRN_QP_RQUEUE q % 2 ^ 20) hdr handle)

/-- A complete SEND (R344, R353 to R356). -/
def State.sendDone (s : State) (q psn : Nat) (r : RxMsg) : RxDo :=
  let d := s.bytes (hAddr r.handle 0) r.len
  let type := lfld d 0 1
  let drop := fun (s : State) => State.stgDrop { s with slotRsv := s.slotRsv - 1 } r.handle
  if type = 0x02 then .ok (drop (s.hbRx (lfld d 24 8) (lfld d 16 8 % 16)))
  else if type = 0x03 then .ok (drop (s.bandRx (lfld d 24 8 % 2 ^ 24) ((d.drop 64).take 128)))
  else if type ≠ 0x01 ∧ type ≠ 0x81 ∧ q < s.peerQps ∧ s.trnVersion.isSome ∧ s.trnVersion ≠ some (lfld d 2 2) then .fatal s .invalid
  else
    let s := if type = 0x01 then s.connectRx' q d else s
    let hdr := [q + 2 ^ 12 + r.len * 2 ^ 32, 0, 0, psn, lfld d 0 8, lfld d 8 8, lfld d 16 8, lfld d 24 8]
    match s.matching q 1 type (lfld d 16 8) with
    | some (id, c) =>
      let s := if c.consume then drop s else s.rxDeliver q hdr r.handle
      .ok (s.fire id c (lfld d 16 8))
    | none => .ok (s.rxDeliver q hdr r.handle)

/-- Detach the ODP pages that a message touched (R348): their handles, in page order, in a staging buffer. -/
def State.odpDetach (s : State) (e off len : Nat) : Option (Nat × State) :=
  let base := s.rd F.TRN_MR_BASE e
  let p0 := off / 65536
  let n := if len = 0 then 0 else (off + len - 1) / 65536 - p0 + 1
  let hs := (rangeFrom p0 n).map (fun p => s.ldMem (base + 8 * p) 8)
  match s.stgAlloc (max 8 (8 * n)) with
  | none => none
  | some (h, s) =>
    let s := s.setBytes (hAddr h 0) ((hs.map (leBytes 8)).flatten)
    some (h, foldSt (fun p (s : State) => s.stMem (base + 8 * p) 8 0) (rangeFrom p0 n) s)

/-- MHEAD follows records placed at it; MTAIL follows (R178). -/
def State.mirrorPlaced (s : State) (q e off len : Nat) : State :=
  if s.isJrnQp q ∧ s.rd F.TRN_MR_BASE e = s.jrnMbase ∧ off = s.rd F.JRN_MHEAD_JOFF % ringBytes then
    (s.wr F.JRN_MHEAD_JOFF (s.rd F.JRN_MHEAD_JOFF + len)).advMtail
  else s

/-- A complete WRITE (R344, R348, R350, R353). -/
def State.writeDone (s : State) (q psn imm : Nat) (withImm : Bool) (r : RxMsg) : RxDo :=
  if r.mark then
    let j := r.off
    if s.rd F.JRN_MTAIL_JOFF ≤ j ∧ j < s.rd F.JRN_MHEAD_JOFF then .ok ((s.setRetired s.jrnMbase j).advMtail) else .ok s
  else
    let odp := s.flag F.TRN_MR_ODP r.mr
    if !withImm then
      if odp then .fatal s .invalid
      else
        let s := (State.mrDrop { s with slotRsv := s.slotRsv - b2n r.slot } r.mr)
        .ok (s.mirrorPlaced q r.mr r.off r.len)
    else
      let page := if odp then s.odpDetach r.mr r.off r.len else some (0, s)
      match page with
      | none => .wait s
      | some (h, s) =>
        let s := s.mrDrop r.mr
        let hdr := [q + 2 * 2 ^ 12 + r.len * 2 ^ 32, imm, r.off, psn, 0, 0, 0, 0]
        match s.matching q 2 0 imm with
        | some (id, c) =>
          let s := if c.consume then State.stgDrop { s with slotRsv := s.slotRsv - 1 } h else s.rxDeliver q hdr h
          .ok (s.fire id c imm)
        | none => .ok (s.rxDeliver q hdr h)

/-- The first packet of a WRITE (R349): the message validated, or why not. -/
def State.writeStart (s : State) (q : Nat) (p : RocePkt) : RxMsg ⊕ AckKind :=
  let mk := fun (mr : Nat) (mark : Bool) =>
    { send := false, handle := 0, mr := mr, off := p.vaddr, len := p.dmaLen, got := 0, first := p.psn, slot := !mark, mark := mark : RxMsg }
  if s.isJrnQp q ∧ opcImm p.opc ∧ p.dmaLen = 0 then .inl (mk 0 true)
  else
    match s.mrOf p.rkey with
    | none => .inr .access
    | some e =>
      if !(decide (s.rd F.TRN_MR_SCOPE_QP e % 4096 = q) || (s.flag F.TRN_MR_ANY_PEER e && decide (q < s.peerQps))) then .inr .access
      else if s.flag F.TRN_MR_ODP e ∧ opcEnds p.opc ∧ !opcImm p.opc then .inr .invalid
      else if s.rd F.TRN_MR_LENGTH e < p.vaddr + p.dmaLen then .inr .access
      else .inl (mk e false)

/-- Back every ODP page that a range touches (R348): none when a buffer is missing. -/
def State.odpBack (s : State) (base off len : Nat) : Option State :=
  let p0 := off / 65536
  let n := if len = 0 then 0 else (off + len - 1) / 65536 - p0 + 1
  (rangeFrom p0 n).foldl (fun (o : Option State) p =>
    match o with
    | none => none
    | some s =>
      if s.ldMem (base + 8 * p) 8 ≠ 0 then some s
      else
        match s.stgAlloc 65536 with
        | none => none
        | some (h, s) => some (s.stMem (base + 8 * p) 8 h)) (some s)

/-- Place payload bytes in an ODP window, page by page. -/
def State.odpPlace (s : State) (base : Nat) : Nat → Nat → List Byte → State
  | 0, _, _ => s
  | k + 1, off, d =>
    if d.isEmpty then s
    else
      let room := 65536 - off % 65536
      let h := s.ldMem (base + 8 * (off / 65536)) 8
      State.odpPlace (s.eccWrite (hAddr h (off % 65536)) (d.take room)).1 base k (off + room) (d.drop room)

/-- Execute the payload and the end of a packet of a message. -/
def State.rxBody (s : State) (q : Nat) (p : RocePkt) (r : RxMsg) : RxDo :=
  let n := p.data.length
  if r.len < r.got + n ∨ (opcEnds p.opc ∧ r.got + n ≠ r.len) then .fatal s .invalid
  else
    let odp := !r.send && !r.mark && s.flag F.TRN_MR_ODP r.mr
    let base := s.rd F.TRN_MR_BASE r.mr
    let backed := if odp then s.odpBack base (r.off + r.got) n else some s
    match backed with
    | none => .wait s
    | some s =>
      let placed : State × Bool :=
        if r.send then s.eccWrite (hAddr r.handle r.got) p.data
        else if r.mark then (s, true)
        else if odp then (s.odpPlace base 3 (r.off + r.got) p.data, true)
        else s.eccWrite (base + r.off + r.got) p.data
      if !placed.2 then .fatal (placed.1.memEvent 0x0A 0) .operational
      else
        let s := placed.1
        let r := { r with got := r.got + n }
        if opcEnds p.opc then
          let res := if r.send then s.sendDone q p.psn r else s.writeDone q p.psn p.imm (opcImm p.opc) r
          match res with
          | .ok s => .ok (s.setQp q { s.qp q with rx := none })
          | .wait s => .wait s
          | .fatal s k => .fatal s k
        else .ok (s.setQp q { s.qp q with rx := some r })

/-- Execute an expected packet (R344, R345, R349). -/
def State.rxExec (s : State) (q : Nat) (p : RocePkt) : RxDo :=
  let x := s.qp q
  if opcStarts p.opc then
    if x.rx.isSome then .fatal s .invalid
    else if opcSend p.opc then
      let mlen := lfld p.data 4 4
      if p.data.length < 32 ∨ mlen < 32 ∨ 2097151 < mlen then .fatal s .invalid
      else if s.poolFree = 0 then .wait s
      else
        match s.stgAlloc mlen with
        | none => .wait s
        | some (h, s') =>
          let r : RxMsg := { send := true, handle := h, mr := 0, off := 0, len := mlen, got := 0, first := p.psn, slot := true, mark := false }
          State.rxBody (State.setQp { s' with slotRsv := s'.slotRsv + 1 } q { x with rx := some r }) q p r
    else
      match s.writeStart q p with
      | .inr k => .fatal s k
      | .inl r =>
        if r.mark then s.rxBody q p r
        else if s.poolFree = 0 then .wait s
        else
          let s' := State.wr { s with slotRsv := s.slotRsv + 1 } F.TRN_MR_INFLIGHT (s.rd F.TRN_MR_INFLIGHT r.mr + 1) r.mr
          match State.rxBody (s'.setQp q { x with rx := some r }) q p r with
          | .wait _ => .wait s
          | o => o
  else
    match x.rx with
    | none => .fatal s .invalid
    | some r => if r.send = opcSend p.opc then s.rxBody q p r else .fatal s .invalid

/-- After an expected packet was executed: EPSN, MSN, response cache and acknowledgement (R340, R342). -/
def State.rxAfter (s : State) (q : Nat) (p : RocePkt) (first : Nat) : State :=
  let s := s.wr F.TRN_QP_EPSN ((p.psn + 1) % 2 ^ 24) q
  let s := s.ctr F.TRN_RX_PKTS_CTR
  let s := if opcEnds p.opc then s.wr F.TRN_QP_MSN ((s.msn q + 1) % 2 ^ 24) q else s
  let x := s.qp q
  let c := if opcEnds p.opc ∧ opcSend p.opc then
      (x.cache ++ [({ first := first, last := p.psn, msn := s.msn q } : SendResp)]).drop ((x.cache.length + 1) - 16)
    else x.cache
  let s := s.setQp q { x with cache := c, ackPend := x.ackPend + 1, nakAt := none,
                              ackAt := if x.ackPend = 0 then s.now else x.ackAt }
  if p.ackReq ∨ max 1 (s.rd F.TRN_CFG_ACK_PKTS) ≤ x.ackPend + 1 then s.sendAck q else s

/-- An RNR NAK (R346). -/
def State.sendRnr (s : State) (q : Nat) : State := (s.trnOut q (.nak (.rnr (s.rd F.TRN_QP_RNR_TIMER q)) (s.epsn q) (s.msn q))).ctr F.TRN_RNR_CTR

/-- Bytes held in the stall buffer of a path. -/
def State.stallUsed (s : State) (path : Nat) : Nat :=
  (s.trn.qps.filter (fun p => decide (s.rd F.TRN_QP_PATH p.1 = path))).foldl (fun n p => match p.2.stall with
    | some (k, _) => n + k.data.length
    | none => n) 0

/-- An expected packet: executed, held, or answered (R340, R346). Packets behind a held one are ahead (DESIGN CHOICE, assumption log 112). -/
def State.rxExpected (s : State) (q : Nat) (p : RocePkt) : State :=
  let first := match (s.qp q).rx with
    | some r => if opcStarts p.opc then p.psn else r.first
    | none => p.psn
  match s.rxExec q p with
  | .ok s => s.rxAfter q p first
  | .fatal s k => s.nakFatal q k
  | .wait _ =>
    if s.rd F.TRN_QP_STALL_US q ≠ 0 ∧ (s.qp q).stall.isNone ∧ s.stallUsed (s.rd F.TRN_QP_PATH q) + p.data.length ≤ 262144 then
      (s.setQp q { s.qp q with stall := some (p, s.now) }).ctr F.TRN_STALL_CTR
    else s.sendRnr q

/-- Is a PSN at or after another, in serial arithmetic (R343)? -/
def psnFrom (a b : Nat) : Bool := decide ((a + 2 ^ 24 - b % 2 ^ 24) % 2 ^ 24 < 2 ^ 23)

/-- A duplicate SEND packet (R342): answered from the cache, or refused when it is older than every message there. One that is
neither, as of a message still arriving, is dropped (DESIGN CHOICE, assumption log 95). -/
def State.rxDupSend (s : State) (q : Nat) (p : RocePkt) : State :=
  let x := s.qp q
  match x.cache.find? (fun c => psnFrom p.psn c.first && psnFrom c.last p.psn) with
  | some c => (s.trnOut q (.ack c.last c.msn)).ctr F.TRN_DUP_SEND_CTR
  | none =>
    let arriving := x.rx.any (fun r => r.send && psnFrom p.psn r.first)
    if !arriving && x.cache.all (fun c => !psnFrom p.psn c.first) then
      (s.trnOut q (.nak .seqErr (s.epsn q) (s.msn q))).ctr F.TRN_SEQ_NAK_CTR
    else s

/-- A packet that is a duplicate (R341, R342). -/
def State.rxDup (s : State) (q : Nat) (p : RocePkt) : State :=
  if opcSend p.opc then s.rxDupSend q p
  else
    let s := s.ctr F.TRN_DUP_WRITE_CTR
    if p.ackReq then s.sendAck q else s

/-- A packet arrives (R333, R335, R340). -/
def State.rxPkt (s : State) (q : Nat) (p : RocePkt) : State :=
  if !p.icrcOk then s.ctr F.TRN_ICRC_DROP_CTR
  else if !s.qpPresent q ∨ (s.qpState q ≠ 2 ∧ s.qpState q ≠ 3) ∨ !s.flag F.TRN_CTL_EN then s
  else
    let d := (p.psn % 2 ^ 24 + 2 ^ 24 - s.epsn q) % 2 ^ 24
    if !opcOk p.opc then s.nakFatal q .invalid
    else if d = 0 then s.rxExpected q { p with psn := p.psn % 2 ^ 24 }
    else if d < 2 ^ 23 then
      if (s.qp q).nakAt = some (s.epsn q) then s
      else ((s.setQp q { s.qp q with nakAt := some (s.epsn q) }).trnOut q (.nak .seqErr (s.epsn q) (s.msn q))).ctr F.TRN_SEQ_NAK_CTR
    else s.rxDup q p

/-- A WRITE packet arrives. -/
def execTrnRxWritePkt (qp : Nat) (p : RocePkt) (s : State) : Res := .next (if opcSend p.opc then s else s.rxPkt qp p)

/-- A SEND packet arrives. -/
def execTrnRxSendPkt (qp : Nat) (p : RocePkt) (s : State) : Res := .next (if opcSend p.opc then s.rxPkt qp p else s)

/-- 2 µs after a packet that is not yet acknowledged (R340). -/
def execTrnRespAckTimer (qp : Nat) (s : State) : Res :=
  .next (if 0 < (s.qp qp).ackPend ∧ (s.qp qp).ackAt + 2000 ≤ s.now ∧ (s.qpState qp = 2 ∨ s.qpState qp = 3) then s.sendAck qp else s)

/-- A held packet tries again (R346). -/
def execTrnStallRetry (qp : Nat) (s : State) : Res :=
  .next (match (s.qp qp).stall with
    | none => s
    | some (p, since) =>
      let s' := s.setQp qp { s.qp qp with stall := none }
      let first := match (s.qp qp).rx with
        | some r => if opcStarts p.opc then p.psn else r.first
        | none => p.psn
      match s'.rxExec qp p with
      | .ok s => s.rxAfter qp p first
      | .fatal s k => s.nakFatal qp k
      | .wait _ => if since + 1000 * s.rd F.TRN_QP_STALL_US qp ≤ s.now then s'.sendRnr qp else s)

/-! Links, heartbeats (R25 to R27, R332, R335). -/

/-- A Transom quad's link goes up or down. -/
def execTrnQuadLinkChange (quad : Nat) (up : Bool) (s : State) : Res :=
  .next (
    let was := bitOf (s.rd F.TRN_STATUS_QUAD_UP) quad
    if s.fuse.variant.quads ≤ quad ∨ was = up ∨ (up ∧ !bitOf (s.rd F.TRN_CTL_QUAD_EN) quad) then s
    else (s.wr F.TRN_STATUS_QUAD_UP (setBitsOf (s.rd F.TRN_STATUS_QUAD_UP) quad 1 (b2n up))).pathLink quad up)

/-- Queue pairs whose context has been written. -/
def State.qpList (s : State) : List Nat :=
  ((SMap.keys s.regs).filter (fun a => decide (F.TRN_QP_STATE.off ≤ a ∧ a < F.TRN_QP_STATE.off + 64 * 4096 ∧ a % 64 = 0))).map
    (fun a => (a - F.TRN_QP_STATE.off) / 64)

/-- Is a path's link up: a quad's, or from 16 a front-end port's? -/
def State.pathUp (s : State) (path : Nat) : Bool :=
  if path < 16 then bitOf (s.rd F.TRN_STATUS_QUAD_UP) path else decide (bitsOf (s.rd F.FE_LINK_PORT) (4 * (path - 16)) 4 ≠ 0)

/-- A path has been down for LINK_MS: its queue pairs in RTS go to ERROR (R335). A link that was never up has been down from the
start. -/
def execTrnLinkDownTimeout (path : Nat) (s : State) : Res :=
  .next (
    if !s.pathUp path ∧ SMap.findD s.trn.down path 0 + 1000000 * s.rd F.TRN_CFG_LINK_MS ≤ s.now then
      foldSt (fun q (s : State) => if s.qpState q = 3 ∧ s.rd F.TRN_QP_PATH q = path then s.qpError q 5 else s) s.qpList s
    else s)

/-- KICK of `TRN_LIVE` (R26). -/
def State.liveKick (s : State) : State := { s with trn := { s.trn with liveUntil := some (s.now + 1000000) } }

/-- A store of 1 to KICK. -/
def execLivenessKick (s : State) : Res := .next s.liveKick

/-- Liveness lapses (R26). -/
def execLivenessExpiry (s : State) : Res :=
  .next (match s.trn.liveUntil with
    | some t => if t ≤ s.now then { s with trn := { s.trn with liveUntil := none } } else s
    | none => s)

/-- The 32 bytes of a heartbeat. -/
def State.hbBytes (s : State) (q seq : Nat) : List Byte :=
  leBytes 1 2 ++ leBytes 1 0 ++ leBytes 2 (s.trnVersion.getD 0) ++ leBytes 4 32 ++ leBytes 8 (s.qp q).mseq ++ leBytes 8 s.life.code ++ leBytes 8 seq

/-- Send a heartbeat on a queue pair in RTS. -/
def State.hbSend (s : State) (q seq : Nat) : State :=
  if s.qpState q = 3 then
    let d := s.hbBytes q seq
    (s.setQp q { s.qp q with mseq := (s.qp q).mseq + 1 }).qpSend q .heartbeat false 3 0 0 0 d
  else s

/-- The heartbeat of every 100 µs (R25, R26, R355). -/
def execHeartbeatSend (s : State) : Res :=
  .next (
    let due := match s.trn.hbAt with
      | some t => decide (t + 100000 ≤ s.now)
      | none => true
    if s.flag F.TRN_HB_EN && due && s.trn.liveUntil.any (fun t => decide (s.now ≤ t)) &&
        decide (s.life = .standby ∨ s.life = .active ∨ s.life = .brace ∨ s.life = .handover) then
      let seq := s.trn.hbSeq + 1
      let s := { s with trn := { s.trn with hbSeq := seq, hbAt := some s.now } }
      (s.hbSend (s.rd F.TRN_HB_QPA) seq).hbSend (s.rd F.TRN_HB_QPB) seq
    else s)

/-- Since when no heartbeat has arrived: the last one, or the moment the watch began with `TRN_HB`.EN (R27, R410). -/
def State.hbSince (s : State) : Nat := max (s.rd F.TRN_HB_RXTIME_TIME) s.trn.hbWatch

/-- 1 ms without a heartbeat (R27): partner-late; it stands in the interval of every promise now running. -/
def execPartnerLate (s : State) : Res :=
  .next (
    if s.flag F.TRN_HB_EN && !s.flag F.TRN_STATUS_PARTNER_LATE && decide (s.hbSince + 1000000 ≤ s.now) then
      let late : Promise → Promise := fun p => if p.st = .live ∨ p.st = .paused then { p with partner := true } else p
      State.raise (State.setFlag { s with prms := s.prms.map (fun p => (p.1, late p.2)), tookOver := false } F.TRN_STATUS_PARTNER_LATE)
        0x060 (s.rd F.TRN_HB_SEQ_SEQ % 2 ^ 32)
    else s)

/-- 2 ms without a heartbeat (R27): partner loss. In HANDOVER the groups revert and the head returns to ACTIVE (R23). -/
def execPartnerLoss (s : State) : Res :=
  .next (
    if s.flag F.TRN_HB_EN && s.flag F.TRN_STATUS_PARTNER_LATE && !s.flag F.TRN_STATUS_PARTNER_LOSS &&
        decide (s.hbSince + 2000000 ≤ s.now) then
      let s := { s with trn := { s.trn with lossAt := some s.now } }
      let s := (s.setFlag F.TRN_STATUS_PARTNER_LOSS).raise 0x061 (s.rd F.TRN_HB_SEQ_SEQ % 2 ^ 32)
      if s.life = .handover then s.moveLife .active else s
    else s)

end Sys2Proof.Machine
end

