-- ==== Sys2Proof/Machine/ArbRows.lean ====
section
/-! DEFINITION. The rows of the arbiters (R375 to R381): decisions, forced requesters, the end of a back-off. -/

namespace Sys2Proof.Machine

/-- A free grant is given (R376). -/
def State.arbDecide (s : State) (ac inst : Nat) : State :=
  let a := s.arbNow ac inst
  if a.holder.isSome then s
  else
    match a.choose s.now with
    | some w => s.arbGrant ac inst a w
    | none => s.setArb ac inst a

/-- A queue pair that has the grant of a quad or port sends, and a command that has its die again goes on. -/
def State.arbSends (s : State) (ac inst : Nat) : State :=
  match (s.arb ac inst).holder with
  | some h => if 7 ≤ ac then s.qpSendNow h.num else if ac = 6 then s.nmlPump (inst / 256) else s
  | none => s

/-- A free grant is given. -/
def State.arbGo (s : State) (ac inst : Nat) : State := (s.arbDecide ac inst).arbSends ac inst

/-- A break point of the holder (R378): digest lanes end the job PARTIAL; parity engines, quads and ports keep the rest of the request,
which resumes later; a die queue has its break points where a part of a command ends, and other units none inside an operation. The
instant of the grant is no break point. A queue pair that keeps its grant sends its next packet. -/
def State.arbBreak (s : State) (ac inst : Nat) : State :=
  let a := s.arbNow ac inst
  match a.holder with
  | none => s
  | some h =>
    if !a.preempts s.now h ∨ s.now ≤ h.mark then (s.setArb ac inst a).arbSends ac inst
    else if ac = 0 then
      match (s.setArb ac inst a).dgPreempt inst h.num h.stamp with
      | some s => (s.ctr F.ARB_PREEMPT_CTR ac).arbGo ac inst
      | none => s.setArb ac inst a
    else if ac = 3 ∨ 6 < ac then (s.arbYield ac inst a h).arbGo ac inst
    else (s.setArb ac inst a).arbSends ac inst

/-- A decision, on a free grant or at a break point. HBM controllers (class 9) are not modelled (assumption log 69). -/
def execArbDecision (ac inst : Nat) (s : State) : Res :=
  .next (
    if 8 < ac then s
    else
      let s := if 7 ≤ ac then s.qpPaced ac inst else s
      if (s.arb ac inst).holder.isSome then s.arbBreak ac inst else s.arbGo ac inst)

/-- A requester has waited WAIT_LIMIT: it becomes forced. -/
def execArbForce (ac inst : Nat) (s : State) : Res := .next (if 8 < ac then s else s.setArb ac inst (s.arbNow ac inst))

/-- A background requester's back-off has passed: it enters again with a new stamp, and takes a parked grant where nobody else
waits. -/
def execArbBackoffExpiry (ac inst num : Nat) (s : State) : Res :=
  .next (
    let a := (s.arb ac inst).accrue s.now
    match a.waiting.find? (fun r => decide (r.num = num)) with
    | none => s
    | some r =>
      if 8 < ac ∨ !(r.until_.any (fun t => decide (t ≤ s.now))) then s
      else
        let r' : ArbReq := { r with until_ := none, stamp := s.now % 2 ^ 32, mark := s.now }
        let rest := a.waiting.filter (fun x => decide (x.num ≠ num))
        if a.holder.isNone ∧ a.parked.isSome ∧ rest.all (fun x => x.until_.isSome) then
          (s.setArb ac inst { a with holder := some { r' with period := s.boMin ac }, byForce := false, parked := none, waiting := rest }).arbSends
            ac inst
        else s.setArb ac inst { a with waiting := rest ++ [r'] })

end Sys2Proof.Machine
end

