-- ==== Sys2Proof/Machine/Band.lean ====
section
/-! DEFINITION. Pools, layouts, bands, the LOST table and segment reports (R255, R264 to R267, R282 to R284), and map entries
(R223, R224). -/

namespace Sys2Proof.Machine

/-! Map entries. -/

/-- ECHK of a word whose bits [3:0] are not looked at (R224). -/
def echk (v : Nat) : Nat := (List.range 15).foldl (fun x i => x ^^^ bitsOf v (4 * (i + 1)) 4) 0xA

/-- Put ECHK into a word. -/
def withEchk (v : Nat) : Nat := setBitsOf v 0 4 (echk v)

/-- A map entry (R223). -/
def mkEntry (seg cell lenm1 : Nat) (raw : Bool) : Nat := withEchk (seg * 2 ^ 32 + cell * 2 ^ 14 + lenm1 * 2 ^ 8 + 16 * b2n raw)

/-- Is ECHK right? -/
def entryOk (v : Nat) : Bool := decide (bitsOf v 0 4 = echk v)

/-- SEGMENT of an entry. -/
def eSeg (e : Nat) : Nat := bitsOf e 32 32
/-- CELL of an entry. -/
def eCell (e : Nat) : Nat := bitsOf e 14 18
/-- LENM1 of an entry. -/
def eLen (e : Nat) : Nat := bitsOf e 8 6
/-- The canonical ZERO entry. -/
def zeroEntry : Nat := 0x28

/-! Segment numbers (R255). -/

/-- SLOT. -/
def segSlot (seg : Nat) : Nat := bitsOf seg 0 8
/-- Index of the band record: HEAD × 2^23 + BAND (R266). -/
def segBand (seg : Nat) : Nat := bitsOf seg 31 1 * 2 ^ 23 + bitsOf seg 8 23
/-- The segment of a slot of a band record. -/
def mkSeg (n slot : Nat) : Nat := n / 2 ^ 23 * 2 ^ 31 + n % 2 ^ 23 * 2 ^ 8 + slot

/-! Band records (R266). -/

/-- A band record. -/
structure BandRec where
  state : Nat
  hasLost : Bool
  stream : Nat
  pool : Nat
  w : Nat
  p : Nat
  em1 : Nat
  epoch : Nat
  birth : Nat
  pst : Nat
  slots : Nat
  pos : List Nat
  deriving DecidableEq, Repr

/-- Read a record from 128 bytes. -/
def bandOf (d : List Byte) : BandRec :=
  { state := lfld d 0 1 % 4, hasLost := bitOf (lfld d 0 1) 2, stream := lfld d 1 1 % 8, pool := lfld d 1 1 / 16
    w := lfld d 2 1 % 32, p := lfld d 2 1 / 32, em1 := lfld d 3 1, epoch := lfld d 4 2, birth := lfld d 6 5, pst := lfld d 11 5
    slots := lfld d 16 32, pos := (List.range 20).map (fun q => lfld d (48 + 4 * q) 4) }

/-- The 128 bytes of a record. -/
def BandRec.bytes (b : BandRec) : List Byte :=
  leBytes 1 (b.state + 4 * b2n b.hasLost) ++ leBytes 1 (b.stream + 16 * b.pool) ++ leBytes 1 (b.w + 32 * b.p) ++ leBytes 1 b.em1 ++
    leBytes 2 b.epoch ++ leBytes 5 b.birth ++ leBytes 5 b.pst ++ leBytes 32 b.slots ++ (b.pos.map (leBytes 4)).flatten

/-- The record of a band index. -/
def State.band (s : State) (n : Nat) : BandRec := bandOf (s.bytes (s.bandAddr n) 128)

/-- Is a band this head's own? -/
def State.ownBand (s : State) (n : Nat) : Bool := decide (n / 2 ^ 23 = s.headId)

/-- Change a band record; a change of an own record goes to the partner (R355). -/
def State.setBand (s : State) (n : Nat) (b : BandRec) : State :=
  let s := s.setBytes (s.bandAddr n) b.bytes
  if s.ownBand n then s.bandSend n else s

/-- State of a position: 0 OK, 1 FAILED, 2 REBUILDING, 3 MOVING. -/
def BandRec.pstate (b : BandRec) (q : Nat) : Nat := bitsOf b.pst (2 * q) 2

/-- Set the state of a position. -/
def BandRec.setPstate (b : BandRec) (q v : Nat) : BandRec := { b with pst := setBitsOf b.pst (2 * q) 2 v }

/-- Positions of the band. -/
def BandRec.n (b : BandRec) : Nat := b.w + b.p

/-- Lane, die and erase unit of a position. -/
def BandRec.at_ (b : BandRec) (q : Nat) : Nat × Nat × Nat :=
  let v := b.pos[q]?.getD 0
  (bitsOf v 0 6, bitsOf v 6 8, bitsOf v 14 18)

/-- Set lane, die and erase unit of a position. -/
def BandRec.setPos (b : BandRec) (q lane die eu : Nat) : BandRec := { b with pos := setAt b.pos q (lane + die * 2 ^ 6 + eu * 2 ^ 14) }

/-- Is a slot opened and not released? -/
def BandRec.liveSlot (b : BandRec) (i : Nat) : Bool := decide (b.state = 1 ∨ b.state = 2) && bitOf b.slots i

/-- The live slots. -/
def BandRec.liveSlots (b : BandRec) : List Nat := (List.range (b.em1 + 1)).filter (fun i => bitOf b.slots i)

/-- Segment birth (R258). -/
def BandRec.segBirth (b : BandRec) (slot : Nat) : Nat := b.birth * 256 + slot

/-- The erase units of a band on own dies: lane, own die, unit. -/
def State.bandUnits (s : State) (b : BandRec) : List (Nat × Nat × Nat) :=
  (List.range b.n).filterMap (fun q =>
    let a := b.at_ q
    if s.ownDie a.2.1 then some (a.1, a.2.1 % 128, a.2.2) else none)

/-! Pools and layouts (R264). -/

/-- First byte of the layout region. -/
def State.layoutBase (s : State) : Nat := s.rd F.SEG_LAYOUT_BASE_ADDR * 2 ^ 23

/-- A pool record. -/
structure PoolRec where
  valid : Bool
  noAlloc : Bool
  cur : Nat
  n : Nat
  layg : Nat
  em1 : Nat
  nrows : Nat
  sleds : Nat
  rowNext : Nat
  deriving DecidableEq, Repr

/-- The record of a pool. -/
def State.pool (s : State) (p : Nat) : PoolRec :=
  let d := s.bytes (s.layoutBase + 64 * p) 64
  { valid := bitOf (lfld d 0 1) 0, noAlloc := bitOf (lfld d 0 1) 1, cur := bitsOf (lfld d 0 1) 2 1, n := lfld d 1 1
    layg := lfld d 2 1 % 4, em1 := lfld d 3 1, nrows := lfld d 4 4, sleds := lfld d 8 8, rowNext := lfld d 16 4 }

/-- Lane at a position of a row. -/
def State.rowLane (s : State) (p table r q : Nat) : Nat := s.ldMem (s.layoutBase + 0x100000 + 0x20000 * (2 * p + table) + 32 * r + q) 1

/-- The table that new bands use: the other one while the pool is being reshaped (R287). -/
def State.tableOf (s : State) (p : Nat) : Nat :=
  let c := (s.pool p).cur
  match s.seg.reshape with
  | some r => if r.pool = p then 1 - c else c
  | none => c

/-! Segment reports (R284). -/

/-- Try to post the reports held, oldest first. -/
def State.segReportFlush (s : State) : State :=
  foldSt (fun (r : List Nat) (s : State) =>
    let keep := fun (s : State) => { s with seg := { s.seg with reports := s.seg.reports ++ [r] } }
    if s.flag F.SEG_RPTQ_VALID then
      match s.enqueue (plainItem (s.rd F.SEG_RPTQ_QUEUE) r 0) with
      | some (_, s) => s
      | none => keep s
    else keep s) s.seg.reports { s with seg := { s.seg with reports := [] } }

/-- Post a report: kind, stream, g2, g3. -/
def State.segReport (s : State) (kind stream g2 g3 : Nat) : State :=
  let s := if kind = 2 then s.ctr F.SEG_SUSPECT_CTR else s
  State.segReportFlush { s with seg := { s.seg with reports := s.seg.reports ++ [[kind + 2 ^ 8 * stream, g2, g3]] } }

/-- A held report is retried (R284). -/
def execSegReportRetry (s : State) : Res := .next s.segReportFlush

/-! The LOST table (R282). -/

/-- Bucket of a segment. -/
def lostBucket (seg : Nat) : Nat := (seg ^^^ (seg >>> 12)) % 4096

/-- Address of an entry of a bucket. -/
def State.lostAddr (s : State) (b i : Nat) : Nat := s.rd F.SEG_LOST_BASE_ADDR * 2 ^ 20 + 256 * b + 16 * i

/-- An entry: segment, stripe, valid, mask. -/
def State.lostEntry (s : State) (b i : Nat) : Nat × Nat × Bool × Nat :=
  let d := s.bytes (s.lostAddr b i) 16
  (lfld d 0 4, lfld d 4 1, bitOf (lfld d 5 1) 0, lfld d 6 3 % 2 ^ 20)

/-- Write an entry. -/
def State.setLost (s : State) (b i seg stripe mask : Nat) : State :=
  s.setBytes (s.lostAddr b i) (leBytes 4 seg ++ leBytes 1 stripe ++ leBytes 1 1 ++ leBytes 3 mask ++ leBytes 7 0)

/-- Clear an entry. -/
def State.clearLost (s : State) (b i : Nat) : State := s.setBytes (s.lostAddr b i) (List.replicate 16 0)

/-- Entries of a bucket that belong to a segment. -/
def State.lostOf (s : State) (seg : Nat) : List Nat :=
  (List.range 16).filter (fun i => (s.lostEntry (lostBucket seg) i).2.2.1 && decide ((s.lostEntry (lostBucket seg) i).1 = seg))

/-- Is a position of a stripe LOST? -/
def State.isLost (s : State) (seg stripe q : Nat) : Bool :=
  (s.lostOf seg).any (fun i =>
    let e := s.lostEntry (lostBucket seg) i
    decide (e.2.1 = stripe ∨ e.2.1 = 0xFF) && bitOf e.2.2.2 q)

/-- The entry of the LOST table that covers a stripe. -/
def State.lostFind (s : State) (seg stripe : Nat) : Option Nat :=
  (s.lostOf seg).find? (fun i => decide ((s.lostEntry (lostBucket seg) i).2.1 = stripe ∨ (s.lostEntry (lostBucket seg) i).2.1 = 0xFF))

/-- Enter a stripe in the LOST table (R282), with STRIPE and MASK of its entry: none when its bucket holds 16 different segments. -/
def State.lostPut (s : State) (seg stripe mask : Nat) : Option (State × Nat × Nat) :=
  let b := lostBucket seg
  match s.lostFind seg stripe with
  | some i =>
    let e := s.lostEntry b i
    some (s.setLost b i seg e.2.1 (e.2.2.2 ||| mask), e.2.1, e.2.2.2 ||| mask)
  | none =>
    match (List.range 16).find? (fun i => !(s.lostEntry b i).2.2.1) with
    | some i => some (s.setLost b i seg stripe mask, stripe, mask)
    | none =>
      match s.lostOf seg with
      | [] => none
      | i :: rest =>
        let all := (i :: rest).foldl (fun m k => m ||| (s.lostEntry b k).2.2.2) mask
        some (foldSt (fun k (s : State) => s.clearLost b k) rest (s.setLost b i seg 0xFF all), 0xFF, all)

/-- A LOST stripe finds its bucket full (R282): LOST_FULL and the FAULT event; the rebuild is HELD, and what depends on the stripe waits
(R283) until a segment of the bucket is released. -/
def State.lostFull (s : State) (seg : Nat) : State :=
  if s.seg.heldBy.contains (lostBucket seg) then s
  else
    (State.setFlag { s with seg := { s.seg with heldBy := s.seg.heldBy ++ [lostBucket seg] } } F.SEG_STATUS_LOST_FULL).raise 0x089 (lostBucket seg)

/-- Declare a stripe LOST (R280, R283): LOST table, HAS_LOST, the counter, and one LOST report with what the table's entry says; none when
its bucket is full. A stripe that the table already covers is neither counted nor reported again. -/
def State.declareLost (s : State) (seg stripe mask : Nat) : Option State :=
  (s.lostPut seg stripe mask).map (fun r =>
    let b := s.band (segBand seg)
    let s' := if b.hasLost then r.1 else r.1.setBand (segBand seg) { b with hasLost := true }
    if (s.lostFind seg stripe).isSome then s' else (s'.ctr F.SEG_LOST_STRIPES_CTR).segReport 1 b.stream seg (r.2.1 + r.2.2 * 2 ^ 8))

/-- Remove a segment's LOST entries (R267); a rebuild held by the bucket goes on (R282). -/
def State.lostClear (s : State) (seg : Nat) : State :=
  let l := s.lostOf seg
  let s := foldSt (fun i (s : State) => s.clearLost (lostBucket seg) i) l s
  if l.isEmpty then s else { s with seg := { s.seg with heldBy := s.seg.heldBy.filter (fun k => decide (k ≠ lostBucket seg)) } }

/-! Release of units (R267, R315, R318). -/

/-- A unit goes to the Mule for erasure. -/
def State.unitDirty (s : State) (u : Nat × Nat × Nat) : State :=
  if eutState (s.eut u.1 u.2.1 u.2.2) = 5 then s else s.eutMove u.1 u.2.1 u.2.2 3

/-- A unit of a die, where this head owns the die, goes to the Mule. -/
def State.unitGone (s : State) (u : Nat × Nat × Nat) : State := if s.ownDie u.2.1 then s.unitDirty (u.1, u.2.1 % 128, u.2.2) else s

/-- Does a band have a slot that a stream holds open? -/
def State.bandOpenSeg (s : State) (n : Nat) : Bool :=
  s.seg.streams.any (fun p => match p.2.seg with
    | some g => decide (segBand g = n)
    | none => false)

/-- A SEALED band with no live slot becomes RELEASED (R267): its units on own dies go to the Mule, behind the journal's HEAD (R318); a band of
the partner with units on its dies waits RELEASED (R315). Rebuilds and copies of its positions are abandoned (R275, R287). -/
def State.tryRelease (s : State) (n : Nat) : State :=
  let b := s.band n
  if b.state = 2 ∧ b.slots = 0 then
    let us := (s.bandUnits b).filter (fun u => decide (eutState (s.eut u.1 u.2.1 u.2.2) ≠ 5))
    let moving := s.seg.rebuild ++ s.seg.reshape.elim [] (fun r => r.moving)
    let drop := ((moving.filter (fun m => decide (m.band = n))).filter (fun m => s.ownDie m.die)).map (fun m => (m.lane, m.die % 128, m.eu))
    let s := s.setBand n { b with state := if us.isEmpty ∧ s.ownBand n then 0 else 3 }
    let s := foldSt (fun u (s : State) => s.unitDirty u) (us ++ drop) s
    let left := fun (m : PosMove) => decide (m.band ≠ n)
    { s with seg := { s.seg with
        failed := s.seg.failed.filter (fun x => decide (x.1 ≠ n)), rebuild := s.seg.rebuild.filter left
        reshape := s.seg.reshape.map (fun r => { r with moving := r.moving.filter left })
        released := if us.isEmpty then s.seg.released else SMap.put s.seg.released n { fence := s.rd F.JRN_HEAD_JOFF, units := us } } }
  else s

end Sys2Proof.Machine
end

