-- ==== Sys2Proof/Machine/Ddx.lean ====
section
/-! DEFINITION. The de-duplication index (R206 to R215). -/

namespace Sys2Proof.Machine

/-- Buckets of the index. -/
def ddxBuckets : Nat := 100663296

/-- First byte of the region. -/
def State.ddxBase (s : State) : Nat := s.rd F.DDX_BASE_ADDR * 2 ^ 30

/-- The first 32 bits of a fingerprint. -/
def ddxX (fp : Nat) : Nat := fp % 2 ^ 32

/-- The bucket of a fingerprint (R207). -/
def ddxBucket (fp : Nat) : Nat := (bitsOf (ddxX fp) 25 7 * 3 / 128) * 2 ^ 25 + bitsOf (ddxX fp) 0 25

/-- An entry of the index (R208). -/
structure DdxEntry where
  tag : Nat
  hi : Nat
  valid : Bool
  age : Nat
  refcnt : Nat
  entry : Nat
  deriving DecidableEq, Repr

/-- Read an entry from its 32 bytes. -/
def ddxOf (l : List Byte) : DdxEntry :=
  let f := fun lo n => leNat ((l.drop lo).take n)
  { tag := f 0 16, hi := f 16 1 % 128, valid := bitOf (f 16 1) 7, age := f 18 2, refcnt := f 20 4, entry := f 24 8 }

/-- The 32 bytes of an entry. -/
def DdxEntry.bytes (e : DdxEntry) : List Byte :=
  leBytes 16 e.tag ++ leBytes 1 (e.hi + 128 * b2n e.valid) ++ leBytes 1 0 ++ leBytes 2 e.age ++ leBytes 4 e.refcnt ++ leBytes 8 e.entry

/-- A count that has reached its largest value. -/
def DdxEntry.pinned (e : DdxEntry) : Bool := decide (e.refcnt = 0xFFFFFFFF)

/-- Is an entry that of a fingerprint? -/
def DdxEntry.isFp (e : DdxEntry) (fp : Nat) : Bool := e.valid && decide (e.tag = fp / 2 ^ 32 ∧ e.hi = bitsOf (ddxX fp) 25 7)

/-- The eight entries of a bucket's bytes. -/
def ddxWays (l : List Byte) : List DdxEntry := (List.range 8).map (fun w => ddxOf ((l.drop (32 * w)).take 32))

/-- The way INSERT evicts: REFCNT 1, oldest AGE, lowest way on a tie (R211). -/
def ddxVictim (now : Nat) (ws : List DdxEntry) : Option Nat :=
  (minBy (fun p : Nat × DdxEntry => 65536 - (now + 65536 - p.2.age) % 65536)
    (((List.range 8).zip ws).filter (fun p => decide (p.2.refcnt = 1)))).map Prod.fst

/-- Store an entry in a way of a bucket. -/
def State.ddxPut (s : State) (b w : Nat) (e : DdxEntry) : State := s.setBytes (s.ddxBase + 256 * b + 32 * w) e.bytes

/-- Does a map entry name cells (R209)? Not with ZERO, nor in band 0, where no segment is (R255), nor with cells beyond the largest
segment: 64 stripes of 16 data pages of 248 cells (R261). -/
def namesCells (e : Nat) : Bool :=
  !bitOf e 5 && decide (bitsOf e 40 23 ≠ 0) && decide (bitsOf e 14 18 + bitsOf e 8 6 + 1 ≤ 253952)

/-- The checks of R95 and R214; a job issued while EN was 0 fails them, whatever EN is when it runs (R215). -/
def ddxCheck (j : Job) (s : State) : Bool :=
  !j.dark && j.zero 2 7 && j.zero 28 31 && j.zero 48 63 && !(decide (j.op = 2) && s.flag F.DDX_CTL_VERIFY) &&
    (decide (j.op ≠ 4) || namesCells (j.fld 32 8))

/-- End an operation: AUX flags HIT, PINNED, CHANGED, FREED, EVICTED and RESULT. -/
def ddxEnd (s : State) (hit pinned changed freed evicted : Bool) (result : Nat) : JobDo :=
  let s := if hit then s.ctr F.DDX_HIT_CTR else s
  .done s 0 { status := stDone, aux := b2n hit + 2 * b2n pinned + 4 * b2n changed + 8 * b2n freed + 16 * b2n evicted, result := result }

/-- INSERT of a fingerprint that is not in the bucket (R211). -/
def ddxInsert (s : State) (b fp entry : Nat) (ws : List DdxEntry) : JobDo :=
  let now := s.rd F.DDX_AGE_NOW
  let e : DdxEntry := { tag := fp / 2 ^ 32, hi := bitsOf (ddxX fp) 25 7, valid := true, age := now, refcnt := 1, entry := entry }
  match ((List.range 8).zip ws).find? (fun p => !p.2.valid) with
  | some (w, _) =>
    let s := (s.ddxPut b w e).wr F.DDX_OCC_VALID (s.rd F.DDX_OCC_VALID + 1)
    ddxEnd (s.ctr F.DDX_INSERT_CTR) false false true false false 0
  | none =>
    match ddxVictim now ws with
    | some w => ddxEnd (((s.ddxPut b w e).ctr F.DDX_INSERT_CTR).ctr F.DDX_EVICT_CTR) false false true false true ((ws[w]?.map (·.entry)).getD 0)
    | none => .done (s.ctr F.DDX_FULL_CTR) 0 (.st stNoSpace)

/-- An operation that hits way `w` with entry `e` (R209, R210): AGE is updated in every case; REPOINT treats a pinned
entry as any other. -/
def ddxHit (s : State) (op b w : Nat) (e : DdxEntry) (entry expect : Nat) : JobDo :=
  let e := { e with age := s.rd F.DDX_AGE_NOW }
  let p := e.pinned
  let same := decide (expect = e.entry)
  let s := if !same && decide (op = 3 ∨ op = 5 ∨ op = 6) then s.ctr F.DDX_NOMATCH_CTR else s
  let keep := s.ddxPut b w e
  let take := fun (s : State) =>
    let e' := { e with refcnt := e.refcnt + 1 }
    let s := s.ddxPut b w e'
    if e'.pinned then s.ctr F.DDX_PINNED_CTR else s
  match op with
  | 1 => ddxEnd keep true p false false false e.entry
  | 2 => if p then ddxEnd keep true p false false false e.entry else ddxEnd (take s) true false true false false e.entry
  | 3 => if p ∨ !same then ddxEnd keep true p false false false e.entry else ddxEnd (take s) true false true false false e.entry
  | 4 => ddxEnd keep true p false false false 0
  | 5 =>
    if p ∨ !same then ddxEnd keep true p false false false 0
    else if e.refcnt ≤ 1 then
      let s := (s.setBytes (s.ddxBase + 256 * b + 32 * w) (List.replicate 32 0)).wr F.DDX_OCC_VALID (s.rd F.DDX_OCC_VALID - 1)
      ddxEnd (s.ctr F.DDX_FREED_CTR) true false true true false 0
    else ddxEnd (s.ddxPut b w { e with refcnt := e.refcnt - 1 }) true false true false false 0
  | _ =>
    if same then ddxEnd (s.ddxPut b w { e with entry := entry }) true false true false false 0
    else ddxEnd keep true false false false false 0

/-- Run an operation (R209). -/
def ddxRun (j : Job) (s : State) : JobDo :=
  let fp := j.fld 8 20
  let b := ddxBucket fp
  match s.unitRead (s.ddxBase + 256 * b) 256 with
  | (s, none) => .memErr s 0x04 0
  | (s, some l) =>
    let ws := ddxWays l
    let s := if j.op = 1 ∨ j.op = 2 then s.ctr F.DDX_LOOKUP_CTR else s
    match ((List.range 8).zip ws).find? (fun p => p.2.isFp fp) with
    | some (w, e) => ddxHit s j.op b w e (j.fld 32 8) (j.fld 40 8)
    | none => if j.op = 4 then ddxInsert s b fp (j.fld 32 8) ws else ddxEnd s false false false false false 0

/-- Run the operation of an OP at the head of a ring. -/
def State.ddxJob (s : State) (op cl : Nat) : State := s.runJob 0x04 0 cl (isOp op) ddxCheck ddxRun

/-- LOOKUP. -/
def execDdxLookup (cl : Nat) (s : State) : Res := .next (s.ddxJob 1 cl)
/-- LOOKUP_REF. -/
def execDdxLookupRef (cl : Nat) (s : State) : Res := .next (s.ddxJob 2 cl)
/-- REF. -/
def execDdxRef (cl : Nat) (s : State) : Res := .next (s.ddxJob 3 cl)
/-- INSERT. -/
def execDdxInsert (cl : Nat) (s : State) : Res := .next (s.ddxJob 4 cl)
/-- UNREF. -/
def execDdxUnref (cl : Nat) (s : State) : Res := .next (s.ddxJob 5 cl)
/-- REPOINT. -/
def execDdxRepoint (cl : Nat) (s : State) : Res := .next (s.ddxJob 6 cl)

/-- INIT is written (R215). -/
def State.ddxInit (s : State) : State :=
  if s.flag F.DDX_CTL_EN ∨ !s.fuse.variant.ddx then s
  else State.clrFlag { s with ddx := { s.ddx with clearing := true } } F.DDX_CTL_INIT_DONE

/-- A store of 1 to INIT. -/
def execDdxInit (s : State) : Res := .next s.ddxInit

/-- The clear ends: every entry is cleared (R215). -/
def execDdxInitDone (s : State) : Res :=
  .next (if s.ddx.clearing then
      let b := s.ddxBase
      let e := b + 256 * ddxBuckets
      let out := fun (a : Nat) => decide (a < b ∨ e ≤ a)
      let s := { s with mem := s.mem.filter (fun c => out c.1), eccBad := s.eccBad.filter (fun g => out (8 * g))
                        eccFix := s.eccFix.filter (fun g => out (8 * g)), ddx := { s.ddx with clearing := false } }
      (s.setFlag F.DDX_CTL_INIT_DONE).wr F.DDX_OCC_VALID 0
    else s)

/-- PERIOD_MS within its bounds. -/
def State.ddxPeriod (s : State) : Nat := max 100 (min 60000 (s.rd F.DDX_AGE_PERIOD_MS))

/-- NOW advances (R212). -/
def execDdxAgeTick (s : State) : Res :=
  .next (if s.fuse.variant.ddx ∧ s.ddx.nowAt + 1000000 * s.ddxPeriod ≤ s.now then
      State.wr { s with ddx := { s.ddx with nowAt := s.now } } F.DDX_AGE_NOW ((s.rd F.DDX_AGE_NOW + 1) % 65536)
    else s)

/-- The sweep reads the next bucket and rewrites to NOW − 2^15 any AGE whose age exceeds 2^15 (R212). A bucket that cannot be
read is passed over. -/
def State.ddxSweep (s : State) : State :=
  let b := s.rd F.DDX_OCC_SWEEP_AT
  let now := s.rd F.DDX_AGE_NOW
  let s := s.wr F.DDX_OCC_SWEEP_AT ((b + 1) % ddxBuckets)
  match s.unitRead (s.ddxBase + 256 * b) 256 with
  | (s, none) => s
  | (s, some l) =>
    foldSt (fun (p : Nat × DdxEntry) (s : State) =>
      if p.2.valid ∧ 32768 < (now + 65536 - p.2.age) % 65536 then s.ddxPut b p.1 { p.2 with age := (now + 32768) % 65536 } else s)
      ((List.range 8).zip (ddxWays l)) s

/-- DDX_SWEEP_VISIT: the sweep is a background requester of the index arbiter (R212, R383), number 8 (assumption log 89): it asks,
and visits a bucket when it holds the grant. -/
def execDdxSweepVisit (s : State) : Res :=
  .next (if s.fuse.variant.ddx && s.flag F.DDX_CTL_SWEEP_EN && s.flag F.DDX_CTL_INIT_DONE then s.asClient 5 0 8 true State.ddxSweep else s)

/-- A store to `DDX_CTL`. -/
def State.ddxCtl (s : State) (v : Nat) : State :=
  let s := if bitOf v 2 then s.ddxInit else s
  let en := bitOf v 0 && (s.flag F.DDX_CTL_EN || (s.flag F.DDX_CTL_INIT_DONE && s.locked.contains F.DDX_BASE_ADDR.off))
  ((s.wr F.DDX_CTL_EN (b2n en)).wr F.DDX_CTL_VERIFY (v >>> 1)).wr F.DDX_CTL_SWEEP_EN (v >>> 4)

end Sys2Proof.Machine
end

