-- ==== Sys2Proof/Machine/HatchOps.lean ====
section
/-! DEFINITION. The banks of the Hatch (R402, R403) and the Vault's windows and key slots as other units use them. -/

namespace Sys2Proof.Machine

/-- Fill a range of memory with zeros, with fresh check bits. -/
def State.zeroMem (s : State) (a n : Nat) : State :=
  { s with mem := s.mem.filter (fun c => !(decide (a ≤ c.1 ∧ c.1 < a + n)))
           eccFix := s.eccFix.filter (fun g => !(wholeGranule a n g))
           eccBad := s.eccBad.filter (fun g => !(wholeGranule a n g)) }

/-- Bytes of a bank. -/
def bankBytes : Nat := 2 ^ 27

/-- First address of a bank. -/
def State.bankBase (s : State) (b : Nat) : Nat := s.hatchBase + b * bankBytes

/-- STATE of a bank: 0 EMPTY, 1 OPEN, 2 CLOSED, 3 VERIFYING, 4 VERIFIED, 5 FAILED. -/
def State.bankState (s : State) (b : Nat) : Nat := s.rd F.HCH_BSTATE_STATE b

/-- Is a bank NEXT? -/
def State.isNext (s : State) (b : Nat) : Bool := s.flag F.HCH_NEXT_VALID && decide (s.rd F.HCH_NEXT_BANK = b)

/-- A bank is NEXT no more. -/
def State.dropNext (s : State) (b : Nat) : State := if s.isNext b then s.clrFlag F.HCH_NEXT_VALID else s

/-- BAR0 offset of word `k` of a bank's `HCH_MAP`. -/
def hchMapOff (b k : Nat) : Nat := 0x101000 + 0x100 * b + 8 * k

/-- Is a block's map bit set? -/
def State.blockIn (s : State) (b k : Nat) : Bool :=
  decide (k < 2048) && bitOf (s.regGet (hchMapOff b (k / 64))).toNat (k % 64)

/-- Set or clear a block's map bit, and BLOCKS with it. -/
def State.blockSet (s : State) (b k : Nat) (v : Bool) : State :=
  let off := hchMapOff b (k / 64)
  let old := s.blockIn b k
  let s := s.regSet off (BitVec.ofNat 64 (setBitsOf (s.regGet off).toNat (k % 64) 1 (b2n v)))
  s.wr F.HCH_BSTATE_BLOCKS (s.rd F.HCH_BSTATE_BLOCKS b + b2n v - b2n old) b

/-- Clear a bank's map. -/
def State.mapEmpty (s : State) (b : Nat) : State :=
  (foldSt (fun k (s : State) => s.regSet (hchMapOff b k) 0) (List.range 32) s).wr F.HCH_BSTATE_BLOCKS 0 b

/-- Clear the registers that show the manifest of a VERIFIED bank. -/
def State.bankHide (s : State) (b : Nat) : State :=
  foldSt (fun o (s : State) => s.regSet (0x100000 + o + 0x40 * b) 0) [0x48, 0x50, 0x58, 0x60] s

/-- The running image's bank no longer holds it. -/
def RunImage.leave (b : Nat) (r : RunImage) : RunImage := { r with bank := if r.bank = some b then none else r.bank }

/-- A bank is zeroed: contents, map, what it showed (R403). -/
def State.bankZero (s : State) (b : Nat) : State :=
  let s := ((s.zeroMem (s.bankBase b) bankBytes).mapEmpty b).bankHide b
  let s := s.wr F.HCH_BSTATE_DONE 0 b
  { s with vlt := { s.vlt with run := s.vlt.run.map (RunImage.leave b) } }

/-- Set a bank's state and REASON. -/
def State.bankTo (s : State) (b st reason : Nat) : State :=
  (s.wr F.HCH_BSTATE_STATE st b).wr F.HCH_BSTATE_REASON reason b

/-- No image is being verified. -/
def State.verifyEnd (s : State) (b : Nat) : State :=
  if s.bankState b = 3 then s.clrFlag F.VLT_STATUS_VERIFYING else s

/-- A bank becomes FAILED with a REASON, zeroed (R403). -/
def State.bankFail (s : State) (b reason : Nat) : State := (((s.verifyEnd b).bankZero b).dropNext b).bankTo b 5 reason

/-- A check of the image the head waits for in VERIFY fails: the head returns to BOOT (R23). Any other failure is an event that R23
does not list. -/
def State.bootReturn (s : State) (b : Nat) : State :=
  if s.vlt.bootBank = some b then
    let s := { s with vlt := { s.vlt with bootBank := none } }
    if s.life = .verify then s.moveLife .boot else s.unlisted
  else s.unlisted

/-- The bank that the head waits for in VERIFY is zeroed before its verification ends: R23 lists no such event. -/
def State.bootDrop (s : State) (b : Nat) : State :=
  if s.vlt.bootBank = some b then
    let s := { s with vlt := { s.vlt with bootBank := none } }
    if s.life = .verify then s.unlisted else s
  else s

/-- A bank becomes EMPTY, zeroed. -/
def State.bankEmpty (s : State) (b : Nat) : State :=
  ((((s.verifyEnd b).bankZero b).dropNext b).bankTo b 0 0).bootDrop b

/-- SVN of a VERIFIED bank's manifest is below the floor (REASON 6), or its MEDIA_READ lacks the generation (7) (R404). -/
def State.unbootable (s : State) (b : Nat) : Nat :=
  if s.rd F.HCH_INFO_SVN b < s.vlt.otp.svn then 6
  else if bitOf (s.rd F.HCH_MEDIA_MEDIA_READ b) s.vlt.otp.mediaGen then 0
  else 7

/-- After a commit every VERIFIED bank that is unbootable fails (R407). -/
def State.recheckBanks (s : State) : State :=
  foldSt (fun b (s : State) =>
    if s.bankState b = 4 ∧ s.unbootable b ≠ 0 then s.bankFail b (s.unbootable b) else s) [0, 1] s

/-- Warm reset: a bank in OPEN, CLOSED or VERIFYING fails ABORTED (R403). -/
def State.abortBanks (s : State) : State :=
  foldSt (fun b (s : State) =>
    if 1 ≤ s.bankState b ∧ s.bankState b ≤ 3 then s.bankFail b 10 else s) [0, 1]
    { s with vlt := { s.vlt with bootBank := none } }

/-! The Vault's ports. -/

/-- A port nothing has used. -/
def VltPort.init : VltPort :=
  { cmd := none, fin := none, inw := [], outw := [], done := false, result := 0, outLen := 0, ignored := false }

/-- A command port: 0 H, 1 K. -/
def State.port (s : State) (p : Nat) : VltPort := SMap.findD s.vlt.ports p VltPort.init

/-- Change a port. -/
def State.updPort (s : State) (p : Nat) (f : VltPort → VltPort) : State :=
  { s with vlt := { s.vlt with ports := SMap.upd s.vlt.ports p VltPort.init f } }

/-- A write of `VLT_CMD` on a port (R389): taken unless the port is BUSY; no command before the boot ROM has finished (R388). -/
def State.vltCmd (s : State) (p v : Nat) : State :=
  if !s.flag F.VLT_STATUS_READY then s
  else if (s.port p).cmd.isSome then s.updPort p (fun (q : VltPort) => { q with ignored := true })
  else s.updPort p (fun (q : VltPort) => { q with cmd := some (v % 2 ^ 43) })

/-- A write of word `k` of a port's input window. -/
def State.vltIn (s : State) (p k : Nat) (v : Word) : State :=
  s.updPort p (fun (q : VltPort) => { q with inw := SMap.putD q.inw k v 0 })

/-- DONE is cleared: the output window is cleared with it (R389). -/
def State.vltDoneClear (s : State) (p : Nat) : State :=
  if (s.port p).done then s.updPort p (fun (q : VltPort) => { q with done := false, outw := [] }) else s

/-- Random bytes of the Vault's source, 8 for each of `n` requests (R385). -/
def State.random (s : State) (n : Nat) : List Byte × State :=
  ((List.range n).flatMap (fun i => leBytes 8 (Config.random (s.freeCtr + i)).toNat), { s with freeCtr := s.freeCtr + n })

/-- Every VK slot and every media key slot is cleared (R397). -/
def State.clearKeys (s : State) : State := { s with xtsKeys := [], vlt := { s.vlt with keys := [] } }

/-- SERIAL as 16 bytes. -/
def State.serialBytes (s : State) : List Byte := leBytes 16 s.vlt.otp.serial

end Sys2Proof.Machine
end

