-- ==== Sys2Proof/Machine/P521.lean ====
section
/-! DEFINITION. The curve P-521 (FIPS 186-5, SP 800-56A), ECDSA and ECDH on it (R385, R395), in SEC 1 byte order. -/

namespace Sys2Proof.Machine

/-- The prime of the field. -/
def p521P : Nat := 2 ^ 521 - 1

/-- The order of the base point. -/
def p521N : Nat :=
  (2 ^ 265 - 6) * 2 ^ 256 + 0x51868783BF2F966B7FCC0148F709A5D03BB5C9B8899C47AEBB6FB71E91386409

/-- The coefficient b; a is −3. -/
def p521B : Nat :=
  0x51953EB9618E1C9A1F929A21A0B68540EEA2DA725B99B315F3B8B489918EF109 * 2 ^ 264 +
    0xE156193951EC7E937B1652C0BD3BB1BF073573DF883D2C34F1EF451FD46B503F00

/-- A point, none at infinity. -/
abbrev EcPoint := Option (Nat × Nat)

/-- The base point. -/
def p521G : EcPoint :=
  some (0xC6858E06B70404E9CD9E3ECB662395B4429C648139053FB521F828AF606B4D3D * 2 ^ 264 +
          0xBAA14B5E77EFE75928FE1DC127A2FFA8DE3348B3C1856A429BF97E7E31C2E5BD66,
        0x11839296A789A3BC0045C8A5FB42C7D1BD998F54449579B446817AFBD17273E66 * 2 ^ 264 +
          0x2C97EE72995EF42640C550B9013FAD0761353C7086A272C24088BE94769FD16650)

/-- Power modulo `m`, over `n` bits of the exponent. -/
def powMod (m : Nat) : Nat → Nat → Nat → Nat
  | 0, _, _ => 1
  | n + 1, b, e =>
    let h := powMod m n (b * b % m) (e / 2)
    if e % 2 = 1 then h * b % m else h

/-- Inverse modulo a prime below 2^521. -/
def invMod (m a : Nat) : Nat := powMod m 521 (a % m) (m - 2)

/-- Does a pair of coordinates lie on the curve? -/
def onCurve (x y : Nat) : Bool :=
  decide (x < p521P ∧ y < p521P ∧ y * y % p521P = (x * x * x + (p521P - 3) * x + p521B) % p521P)

/-- Sum of points with slope `l`. -/
def ecLine (l x1 y1 x2 : Nat) : EcPoint :=
  let x3 := (l * l + (2 * p521P - x1 - x2)) % p521P
  some (x3, (l * (x1 + p521P - x3) + p521P - y1) % p521P)

/-- Sum of two points. -/
def ecAdd : EcPoint → EcPoint → EcPoint
  | none, q => q
  | p, none => p
  | some (x1, y1), some (x2, y2) =>
    if x1 = x2 then
      if (y1 + y2) % p521P = 0 then none
      else ecLine ((3 * x1 * x1 + p521P - 3) * invMod p521P (2 * y1) % p521P) x1 y1 x2
    else ecLine ((y2 + p521P - y1) * invMod p521P (x2 + p521P - x1) % p521P) x1 y1 x2

/-- A multiple of a point, over `n` bits of the factor. -/
def ecMul : Nat → Nat → EcPoint → EcPoint
  | 0, _, _ => none
  | n + 1, k, p =>
    let h := ecMul n (k / 2) (ecAdd p p)
    if k % 2 = 1 then ecAdd p h else h

/-- The 133 bytes of a point. -/
def ecBytes : EcPoint → List Byte
  | none => List.replicate 133 0
  | some (x, y) => 4 :: beBytes 66 x ++ beBytes 66 y

/-- The point of 133 bytes; none when they name no point of the curve. -/
def ecPoint (l : List Byte) : Option (Nat × Nat) :=
  let x := beNat ((l.drop 1).take 66)
  let y := beNat ((l.drop 67).take 66)
  if l.length = 133 ∧ l.head? = some 4 ∧ onCurve x y = true then some (x, y) else none

/-- The public key of a private key. -/
def ecPublic (d : Nat) : List Byte := ecBytes (ecMul 521 d p521G)

/-- Verify an ECDSA signature (two halves of 66 bytes) of a 64-byte digest. -/
def ecdsaVerify (pub digest sig : List Byte) : Bool :=
  let r := beNat (sig.take 66)
  let t := beNat ((sig.drop 66).take 66)
  match ecPoint pub with
  | none => false
  | some q =>
    if r = 0 ∨ p521N ≤ r ∨ t = 0 ∨ p521N ≤ t then false
    else
      let w := invMod p521N t
      match ecAdd (ecMul 521 (beNat digest * w % p521N) p521G) (ecMul 521 (r * w % p521N) (some q)) with
      | none => false
      | some (x, _) => decide (x % p521N = r)

/-- Sign a 64-byte digest with private key `d` and per-message number `k`. -/
def ecdsaSign (d k : Nat) (digest : List Byte) : List Byte :=
  let r := match ecMul 521 k p521G with
    | some (x, _) => x % p521N
    | none => 0
  let t := invMod p521N k * (beNat digest + r * d) % p521N
  beBytes 66 r ++ beBytes 66 t

/-- The shared secret of R395: the X coordinate, 66 bytes. -/
def ecdhZ (d : Nat) (q : Nat × Nat) : List Byte :=
  match ecMul 521 d (some q) with
  | some (x, _) => beBytes 66 x
  | none => List.replicate 66 0

end Sys2Proof.Machine
end

