-- ==== Sys2Proof/Machine/ThreadOps.lean ====
section
/-! DEFINITION. Queue, staging, system and wait instructions (R85 to R93), wake-up and completions (R60 to R68, R92), the
dispatcher (R58, R59) and the stores to cluster registers that act at once. -/

namespace Sys2Proof.Machine

/-! Waiting and ending. -/

/-- The queue of an item. -/
def State.itemQueue (s : State) (k : Nat) : Nat :=
  match SMap.find s.items k with
  | some it => it.queue
  | none => 0

/-- End a handler whose tickets are drained (R60): completions discarded and counted, item released, thread FREE. -/
def State.endHandler (s : State) (t : Nat) : State :=
  let s := s.dropTickets t
  let s := match (s.thread t).item with
    | some k => (s.queueEnd (s.itemQueue k)).releaseItem k
    | none => s
  s.freeThread t

/-- Q.FWD of a thread whose tickets are drained (R60); the item may wake a cluster (R68). The second component says that the queue
took the item. -/
def State.forward (s : State) (t q : Nat) : State × Bool :=
  let s := s.dropTickets t
  match (s.thread t).item with
  | none => (s, false)
  | some k =>
    if (s.queue q).accepts then
      let s := s.queueEnd (s.itemQueue k)
      let s := s.updItem k (fun it => { it with queue := q, stamp := s.now })
      let s := (s.updQueue q (fun w => { w with items := w.items ++ [k] })).wakeFor q
      (s.freeThread t, true)
    else (s, false)

/-- Look whether the wake condition of a waiting thread, or the end of a drain, holds, and if so complete the stalled
instruction. -/
def State.waitEval (s : State) (t : Nat) : State :=
  let th := s.thread t
  match th.st, th.wait with
  | .wait, some (.wait rd _ _) =>
    match th.firstArrived with
    | some k => (s.setG t rd (BitVec.ofNat 64 k.val)).resumeW t
    | none => s
  | .wait, some (.waitT rd v) =>
    match (th.ticket v).bind (·.comp) with
    | some c => (s.consume t rd v c).resumeW t
    | none => s
  | .run, some .drainDone => if th.drained then s.endHandler t else s
  | .run, some (.drainFwd rd q) =>
    if th.drained then
      match s.forward t q with
      | (s, true) => s
      | (s, false) => (s.setG t rd 0).resumeW t
    else s
  | _, _ => s

/-- Completion `k` of those on their way reaches its thread's ticket table (R66). -/
def execJobCompletion (k : Nat) (s : State) : Res :=
  .next (match s.comps[k]? with
    | some c => (State.arrive { s with comps := delAt s.comps k } c.gid c.ticket c).waitEval c.gid
    | none => s)

/-- WAIT (R92). -/
def execWait (t : BitVec 8) (rd rs1 : BitVec 5) (s : State) : Res :=
  .next (s.issue t.toNat (fun s =>
    match (s.thread t.toNat).firstArrived with
    | some k => s.put t.toNat rd.toNat (BitVec.ofNat 64 k.val)
    | none => .stay (s.updThread t.toNat (fun th =>
        { th with st := .wait, wait := some (.wait rd.toNat s.now (s.g t.toNat rs1.toNat).toNat) }))))

/-- WAIT.T (R65). -/
def execWaitT (t : BitVec 8) (rd rs1 : BitVec 5) (s : State) : Res :=
  .next (s.issue t.toNat (fun s =>
    let v := (s.g t.toNat rs1.toNat).toNat % 65536
    match (s.thread t.toNat).ticket v with
    | none => .trap s vecTicket (BitVec.ofNat 64 v)
    | some k =>
      match k.comp with
      | some c => .next (s.consume t.toNat rd.toNat v c)
      | none => .stay (s.updThread t.toNat (fun th => { th with st := .wait, wait := some (.waitT rd.toNat v) }))))

/-- POLL.T (R91). -/
def execPollT (t : BitVec 8) (rd rs1 : BitVec 5) (s : State) : Res :=
  .next (s.issue t.toNat (fun s =>
    let v := (s.g t.toNat rs1.toNat).toNat % 65536
    match (s.thread t.toNat).ticket v with
    | none => .trap s vecTicket (BitVec.ofNat 64 v)
    | some k => s.put t.toNat rd.toNat (bw k.comp.isSome)))

/-- DONE (R60, R86): while tickets are still live the thread stays in RUN and drains them. -/
def execDone (t : BitVec 8) (s : State) : Res :=
  .next (s.issue t.toNat (fun s =>
    if (s.thread t.toNat).drained then .stay (s.endHandler t.toNat)
    else .stay (s.updThread t.toNat (fun th => { th with wait := some .drainDone }))))

/-- Q.FWD (R60, R85); it drains live tickets as DONE does. -/
def execQFwd (t : BitVec 8) (rd rs1 : BitVec 5) (s : State) : Res :=
  .next (s.issue t.toNat (fun s =>
    let q := (s.g t.toNat rs1.toNat).toNat % 2 ^ 20
    if (s.thread t.toNat).drained then
      match s.forward t.toNat q with
      | (s, true) => .stay s
      | (s, false) => s.put t.toNat rd.toNat 0
    else .stay (s.updThread t.toNat (fun th => { th with wait := some (.drainFwd rd.toNat q) }))))

/-- The timeout of a WAIT passes (R92): rd receives 0. -/
def execWaitTimeout (t : BitVec 8) (s : State) : Res :=
  .next (match (s.thread t.toNat).st, (s.thread t.toNat).wait with
    | .wait, some (.wait rd since tmo) =>
      if tmo ≠ 0 ∧ since + tmo ≤ s.now then (s.setG t.toNat rd 0).resumeW t.toNat else s
    | _, _ => s)

/-- The watchdog of a handler fires (R61): a waiting thread is woken to take WATCHDOG at its next instruction. It is a wake of WAIT,
which completes with rd = 0 (R92); any other stalled instruction does not complete, and WATCHDOG is taken at it. -/
def execWatchdog (t : BitVec 8) (s : State) : Res :=
  .next (
    let th := s.thread t.toNat
    if th.wdog && decide (th.st = .run ∨ th.st = .wait) then
      let s := s.updThread t.toNat (fun th => { th with wdog := false })
      let s := match th.st, th.wait with
        | .wait, some (.wait rd _ _) => (s.setG t.toNat rd 0).resumeW t.toNat
        | _, _ => s.domWake (2 + clusterOf t.toNat)
      s.trap t.toNat vecWatchdog 0 (s.thread t.toNat).pc
    else s)

/-! Starting. -/

/-- A thread right after a start: general registers as given, PC, privilege, budget. -/
def Thread.start (th : Thread) (g : SMap Word) (pc : Word) (keeper : Bool) (budget : Option Nat) (item : Option Nat) : Thread :=
  { th with st := .run, g := g, pc := pc, keeper := keeper, exc := false, pkeeper := false, cycle := 0, item := item,
            budget := budget, wdog := false, pwrmode := 0, tickets := [], wait := none, iter := none }

/-- The registers g1 to g9 of an item (R59). -/
def Item.regs (it : Item) : SMap Word :=
  let l := ((List.range 8).map (fun i => (i + 1, it.hdr[i]?.getD 0))) ++ [(9, it.handle)]
  l.filter (fun p => decide (p.2 ≠ 0))

/-- `MQ_BUDGET` in CORE cycles; none when 0 (R61). -/
def State.startBudget (s : State) (cl : Nat) : Option Nat :=
  let u := s.rd F.MQ_BUDGET_UNITS cl
  if u = 0 then none else some (1024 * u)

/-- Where the handler table of a cluster holds an entry. -/
def State.entrySlot (s : State) (cl entry : Nat) : Nat := 64 * s.rd F.MQ_ENTRY_BASE_ADDR cl + 8 * entry

/-- The handler address that ENTRY selects (R56). -/
def State.entryAddr (s : State) (cl entry : Nat) : Word := BitVec.ofNat 64 (s.ldMem (s.entrySlot cl entry) 8)

/-- The stamp of the head item of a queue. -/
def State.headStamp (s : State) (q : HwQueue) : Nat :=
  match q.items with
  | k :: _ => ((SMap.find s.items k).map (·.stamp)).getD 0
  | [] => 0

/-- Which candidate the dispatcher prefers (R58): PRIO, then the oldest head item, then the lowest queue id. -/
def State.better (s : State) (a b : Nat × HwQueue) : Bool :=
  if a.2.prio ≠ b.2.prio then decide (b.2.prio < a.2.prio)
  else decide (s.headStamp a.2 ≤ s.headStamp b.2)

/-- The queue a cluster's dispatcher takes next. -/
def State.dispatchPick (s : State) (cl : Nat) : Option (Nat × HwQueue) :=
  (s.queues.filter (fun p => p.2.candidate cl)).foldl
    (fun m p => match m with
      | none => some p
      | some b => if s.better b p then some b else some p) none

/-- May the dispatcher use a cluster thread: FREE, on an enabled core, not marked in `MQ_KEEPER` (R58)? -/
def State.dispatchable (s : State) (cl thr : Nat) : Bool :=
  decide (cl < 8 ∧ thr < 32) && decide ((s.thread (32 * cl + thr)).st = .free) && !bitOf (s.rd F.MQ_KEEPER_KMASK cl) thr &&
    bitOf (s.rd F.MQ_RUN_CORE_EN cl) (thr / 4) && decide (s.rd F.PWR_DOM_STATE (2 + cl) ≠ 3)

/-- The dispatcher of a cluster starts a handler on a FREE thread (R58, R59); a cluster that has no candidate any more may settle. -/
def execDispatch (cl thr : Nat) (s : State) : Res :=
  .next (
    if s.dispatchable cl thr then
      match s.dispatchPick cl with
      | none => s
      | some (q, w) =>
        match w.items with
        | [] => s
        | k :: rest =>
          match SMap.find s.items k with
          | none => s
          | some it =>
            let s := s.updQueue q (fun w => { w with items := rest, running := w.running + 1 })
            let b := s.startBudget cl
            let s := s.eccCorrect 0 (s.entrySlot cl w.entry) 8
            let s := s.updThread (32 * cl + thr) (fun th => th.start it.regs (s.entryAddr cl w.entry) false b (some k))
            let s := s.ctr F.MQ_DISPATCHED_COUNT cl
            ((s.evtStarted k).domWake (2 + cl)).settleAll
    else s)

/-- START (R93). -/
def execStart (t : BitVec 8) (rd rs1 : BitVec 5) (imm : BitVec 12) (s : State) : Res :=
  let w := encS 0x9 rd rs1 imm
  .next (s.issue t.toNat (fun s =>
    if !(s.thread t.toNat).keeper then .priv s w
    else if !groupOk rs1.toNat 3 ∨ 2 ≤ imm.toNat then .illegal s w
    else
      let u := (s.g t.toNat rs1.toNat).toNat % 256
      if (s.thread u).st = .free ∧ bitOf (s.rd F.MQ_KEEPER_KMASK (clusterOf u)) (u % 32) = true then
        let g1 := s.g t.toNat (rs1.toNat + 2)
        let pc := s.g t.toNat (rs1.toNat + 1)
        ((s.updThread u (fun th => th.start (SMap.putD [] 1 g1 0) pc (bitOf imm.toNat 0) none none)).domWake (2 + clusterOf u)).put
          t.toNat rd.toNat 1
      else s.put t.toNat rd.toNat 0))

/-! Queue and staging operations (R85 to R87). -/

/-- Q.PUSH. -/
def execQPush (t : BitVec 8) (inherit : Bool) (rd rs1 rs2 : BitVec 5) (s : State) : Res :=
  .next (s.issue t.toNat (fun s =>
    if !groupOk rs1.toNat 9 then .illegal s (encQ 0x30 rd rs1 rs2 0x00 (b2n inherit))
    else
      let cur := if inherit then (s.thread t.toNat).item else none
      let src := cur.bind (fun k => SMap.find s.items k)
      let it : Item :=
        { hdr := (List.range 8).map (fun i => s.g t.toNat (rs1.toNat + i)), handle := s.g t.toNat (rs1.toNat + 8),
          queue := (s.g t.toNat rs2.toNat).toNat % 2 ^ 20,
          deadline := (match cur with
            | some k => s.itemDeadline k
            | none => 0)
          stamp := 0, hasDl := (src.map (·.hasDl)).getD false, source := 0, cls := (src.map (·.cls)).getD 0,
          tenant := (src.map (·.tenant)).getD 0 }
      match s.enqueue it with
      | none => s.put t.toNat rd.toNat 0
      | some (_, s) => s.put t.toNat rd.toNat 1))

/-- Q.TAKE (R86). -/
def execQTake (t : BitVec 8) (rd rs1 : BitVec 5) (s : State) : Res :=
  let w := encQ 0x30 rd rs1 0 0x01 0
  .next (s.issue t.toNat (fun s =>
    if !(s.thread t.toNat).keeper then .priv s w
    else if (s.thread t.toNat).item.isSome then .illegal s w
    else
      let q := (s.g t.toNat rs1.toNat).toNat % 2 ^ 20
      let hq := s.queue q
      if hq.cmask ≠ 0 then s.put t.toNat rd.toNat 2
      else if hq.state = 2 ∨ (hq.serial ∧ hq.running ≠ 0) then s.put t.toNat rd.toNat 0
      else
        match hq.items with
        | [] => s.put t.toNat rd.toNat 0
        | k :: rest =>
          match SMap.find s.items k with
          | none => s.put t.toNat rd.toNat 0
          | some it =>
            let s := s.updQueue q (fun w => { w with items := rest, running := w.running + 1 })
            let s := s.updThread t.toNat (fun th => { (th.setGs 1 (it.hdr ++ [it.handle])) with item := some k, iter := none })
            (s.evtStarted k).put t.toNat rd.toNat 1))

/-- Q.FREE (R86). -/
def execQFree (t : BitVec 8) (rd rs1 : BitVec 5) (s : State) : Res :=
  .next (s.issue t.toNat (fun s =>
    if !(s.thread t.toNat).keeper then .priv s (encQ 0x30 rd rs1 0 0x02 0)
    else
      let k := (s.g t.toNat rs1.toNat).toNat % 2 ^ 18
      let halted := (s.threads.filter (fun p => decide (p.2.item = some k ∧ p.2.st = .halt))).map Prod.fst
      let owners := if (s.thread t.toNat).item = some k then [t.toNat] else halted
      if owners.isEmpty then s.put t.toNat rd.toNat 0
      else
        let s := (s.queueEnd (s.itemQueue k)).releaseItem k
        (foldSt (fun u (s : State) => s.updThread u (fun th => { th with item := none })) owners s).put t.toNat rd.toNat 1))

/-- Q.BIND (R56, R70). -/
def execQBind (t : BitVec 8) (rd rs1 rs2 : BitVec 5) (s : State) : Res :=
  .next (s.issue t.toNat (fun s =>
    if !(s.thread t.toNat).keeper then .priv s (encQ 0x30 rd rs1 rs2 0x04 0)
    else
      let b := (s.g t.toNat rs2.toNat).toNat
      let bad := decide (bitsOf b 19 2 = 3 ∨ bitsOf b 21 3 ≠ 0 ∨ bitsOf b 42 22 ≠ 0)
      if bad || !s.locked.contains F.MQ_QTAB_BASE_ADDR.off then s.put t.toNat rd.toNat 0
      else
        let q := (s.g t.toNat rs1.toNat).toNat % 2 ^ 20
        (((s.updQueue q (fun w => { w with bind := b })).wakeFor q).settleAll).put t.toNat rd.toNat 1))

/-- Q.STAT (R85). -/
def execQStat (t : BitVec 8) (rd rs1 : BitVec 5) (s : State) : Res :=
  .next (s.issue t.toNat (fun s =>
    let q := s.queue ((s.g t.toNat rs1.toNat).toNat % 2 ^ 20)
    s.put t.toNat rd.toNat
      (BitVec.ofNat 64 (q.items.length + q.state * 2 ^ 18 + b2n (decide (q.running ≠ 0)) * 2 ^ 20))))

/-- STG.ALLOC (R87). -/
def execStgAlloc (t : BitVec 8) (rd rs1 : BitVec 5) (s : State) : Res :=
  .next (s.issue t.toNat (fun s =>
    match s.stgAlloc ((s.g t.toNat rs1.toNat).toNat % 2 ^ 21) with
    | some (h, s) => s.put t.toNat rd.toNat (BitVec.ofNat 64 h)
    | none => s.put t.toNat rd.toNat 0))

/-- STG.FREE (R87). -/
def execStgFree (t : BitVec 8) (rd rs1 : BitVec 5) (s : State) : Res :=
  .next (s.issue t.toNat (fun s =>
    match s.stgFree (s.g t.toNat rs1.toNat).toNat with
    | some s => s.put t.toNat rd.toNat 1
    | none => s.put t.toNat rd.toNat 0))

/-! Control registers (R38, R39). -/

/-- Control registers that R38 lists. -/
def csrListed (n : Nat) : Bool :=
  decide (n ≤ 0x07 ∨ (0x10 ≤ n ∧ n ≤ 0x12) ∨ (0x18 ≤ n ∧ n ≤ 0x1B) ∨ (0x20 ≤ n ∧ n ≤ 0x23))

/-- Control registers marked K-read. -/
def csrKRead (n : Nat) : Bool := decide (2 ≤ n ∧ n ≤ 7)

/-- Control registers marked K-read or K-write. -/
def csrKeeper (n : Nat) : Bool := decide (1 ≤ n ∧ n ≤ 7)

/-- The value of a control register. -/
def State.csrRead (s : State) (t n : Nat) : Word :=
  let th := s.thread t
  let ofItem := fun (f : Nat → Nat) => match th.item with
    | some k => BitVec.ofNat 64 (f k)
    | none => 0
  match n with
  | 0x00 => BitVec.ofNat 64 (t + coreOf t * 2 ^ 8 + (t % 4) * 2 ^ 14)
  | 0x01 => BitVec.ofNat 64 (b2n th.keeper + 2 * b2n th.exc + 4 * b2n th.pkeeper)
  | 0x02 => th.epc
  | 0x03 => BitVec.ofNat 64 th.ecause
  | 0x04 => th.eval
  | 0x05 => th.evec
  | 0x06 => th.kscr0
  | 0x07 => th.kscr1
  | 0x10 => BitVec.ofNat 64 s.now
  | 0x11 => BitVec.ofNat 64 s.calNow
  | 0x12 => BitVec.ofNat 64 th.cycle
  | 0x18 => ofItem (fun k => ((SMap.find s.items k).map (·.queue)).getD 0)
  | 0x19 => ofItem (fun k => k)
  | 0x1A => ofItem (fun k => s.itemDeadline k + (((SMap.find s.items k).map (fun it => b2n it.hasDl)).getD 0) * 2 ^ 32)
  | 0x1B => match th.budget with
    | some b => BitVec.ofNat 64 b
    | none => BitVec.allOnes 64
  | 0x20 => BitVec.ofNat 64 th.pwrmode
  | 0x21 => BitVec.ofNat 64 th.live
  | 0x22 => BitVec.ofNat 64 th.tktNext
  | 0x23 => th.lastjob
  | _ => 0

/-- CSR.R. -/
def execCsrR (t : BitVec 8) (rd : BitVec 5) (csr : BitVec 12) (s : State) : Res :=
  let w := encS 0x0 rd 0 csr
  .next (s.issue t.toNat (fun s =>
    if !csrListed csr.toNat then .illegal s w
    else if !(s.thread t.toNat).keeper && csrKRead csr.toNat then .priv s w
    else s.put t.toNat rd.toNat (s.csrRead t.toNat csr.toNat)))

/-- A thread after a write to a control register that takes it. -/
def Thread.csrWrite (th : Thread) (n : Nat) (v : Word) : Thread :=
  match n with
  | 0x01 => { th with keeper := bitOf v.toNat 0, exc := bitOf v.toNat 1, pkeeper := bitOf v.toNat 2 }
  | 0x02 => { th with epc := v }
  | 0x05 => { th with evec := BitVec.ofNat 64 (v.toNat / 4096 * 4096) }
  | 0x06 => { th with kscr0 := v }
  | 0x07 => { th with kscr1 := v }
  | 0x20 => { th with pwrmode := v.toNat % 4 }
  | _ => th

/-- CSR.W. -/
def execCsrW (t : BitVec 8) (rs1 : BitVec 5) (csr : BitVec 12) (s : State) : Res :=
  let w := encS 0x1 0 rs1 csr
  .next (s.issue t.toNat (fun s =>
    let v := s.g t.toNat rs1.toNat
    let k := (s.thread t.toNat).keeper
    if !csrListed csr.toNat then .illegal s w
    else if !k && csrKeeper csr.toNat then .priv s w
    else if csr.toNat = 0x20 ∧ v.toNat % 4 = 3 then .illegal s w
    else if csr.toNat = 0x20 ∧ v.toNat % 4 = 2 ∧ k = false then .priv s w
    else .next (s.updThread t.toNat (fun th => th.csrWrite csr.toNat v))))

/-- ERET (R41). -/
def execEret (t : BitVec 8) (s : State) : Res :=
  let w := encS 0x2 0 0 0
  .next (s.issue t.toNat (fun s =>
    let th := s.thread t.toNat
    if !th.keeper then .priv s w
    else if !th.exc then .illegal s w
    else .jump (s.updThread t.toNat (fun th => { th with keeper := th.pkeeper, exc := false })) th.epc))

/-- SYSC (R91). -/
def execSysc (t : BitVec 8) (imm : BitVec 12) (s : State) : Res :=
  .next (s.issue t.toNat (fun s => .trapNext s vecSyscall (imm.setWidth 64)))

/-- BRK (R91). -/
def execBrk (t : BitVec 8) (imm : BitVec 12) (s : State) : Res :=
  .next (s.issue t.toNat (fun s => .trapNext s vecBreak (imm.setWidth 64)))

/-- FENCE (R47): every earlier access has reached memory, as it always has here. -/
def execFence (t : BitVec 8) (s : State) : Res := .next (s.issue t.toNat .next)

/-- Bit of a core in an eight-core field. -/
def coreBit (t : Nat) : Nat := 2 ^ (coreOf t % 8)

/-- DINV (R91): the line that holds an address of HBM. -/
def execDinv (t : BitVec 8) (rs1 : BitVec 5) (s : State) : Res :=
  .next (s.issue t.toNat (fun s =>
    let a := (s.g t.toNat rs1.toNat).toNat / 64 * 64
    .next { s with dcache := SMap.upd s.dcache (coreOf t.toNat) [] (fun l => l.filter (fun d => decide (d.addr ≠ a))) }))

/-- DINV.ALL (R51, R91). -/
def execDinvAll (t : BitVec 8) (s : State) : Res :=
  .next (s.issue t.toNat (fun s =>
    if !(s.thread t.toNat).keeper then .priv s (encS 0x7 0 0 0)
    else
      let cl := clusterOf t.toNat
      .next (State.wr { s with dcache := SMap.del s.dcache (coreOf t.toNat) } F.MQ_CACHE_CTL_D_INVD
        (s.rd F.MQ_CACHE_CTL_D_INVD cl ||| coreBit t.toNat) cl)))

/-- IINV.ALL (R51, R91). -/
def execIinvAll (t : BitVec 8) (s : State) : Res :=
  .next (s.issue t.toNat (fun s =>
    if !(s.thread t.toNat).keeper then .priv s (encS 0x8 0 0 0)
    else
      let cl := clusterOf t.toNat
      .next (s.wr F.MQ_CACHE_CTL_I_INVD (s.rd F.MQ_CACHE_CTL_I_INVD cl ||| coreBit t.toNat) cl)))

/-- An undefined encoding takes ILLEGAL (R71). A word that is defined is another row's. -/
def execUndefinedEncoding (t : BitVec 8) (w : BitVec 32) (s : State) : Res :=
  .next (match decodeMeq t w with
    | some _ => s
    | none => s.issue t.toNat (fun s => .illegal s w))

/-! Stores to cluster registers. -/

/-- A store to `MQ_WAKE` of a cluster (R68): it wakes the cluster, and of the threads named those that are in a WAIT. -/
def State.mqWake (s : State) (cl v : Nat) : State :=
  let l := (List.range 32).filter (bitOf v)
  if l.isEmpty then s else foldSt (fun i (s : State) => s.wake (32 * cl + i)) l (s.domWake (2 + cl))

/-- A store to `MQ_WAKE`. -/
def execMqWakeWrite (cl value : Nat) (s : State) : Res := .next (if cl < 8 then s.mqWake cl value else s)

/-- A thread whose core is enabled again (R37). -/
def restartThread (th : Thread) : Thread := if th.st = .stop then { th with st := th.held } else th

/-- Set the enable bit of a core: threads in STOP return to the state they held, and waits are looked at again. -/
def State.startCore (s : State) (core : Nat) : State :=
  let en := s.rd F.MQ_RUN_CORE_EN (core / 8)
  if bitOf en (core % 8) then s
  else
    let s := s.wr F.MQ_RUN_CORE_EN (en ||| 2 ^ (core % 8)) (core / 8)
    let s := foldSt (fun i (s : State) => s.updThread (4 * core + i) restartThread) [0, 1, 2, 3] s
    foldSt (fun i (s : State) => s.waitEval (4 * core + i)) [0, 1, 2, 3] s

/-- A store to `MQ_RUN` of a cluster (R37). -/
def State.mqRun (s : State) (cl v : Nat) : State :=
  (foldSt (fun i (s : State) => if bitOf v i then s.startCore (8 * cl + i) else s.stopCore (8 * cl + i)) (List.range 8) s).clusterSettle cl

/-- A store to `MQ_RUN`. -/
def execMqRunWrite (cl value : Nat) (s : State) : Res := .next (if cl < 8 then s.mqRun cl value else s)

/-- A store to `MQ_CACHE_CTL` of a cluster (R51): an enable is refused while its INVD flag is 0; clearing one clears the flag. -/
def State.mqCacheCtl (s : State) (cl v : Nat) : State :=
  let oldI := s.rd F.MQ_CACHE_CTL_I_EN cl
  let oldD := s.rd F.MQ_CACHE_CTL_D_EN cl
  let invI := s.rd F.MQ_CACHE_CTL_I_INVD cl
  let invD := s.rd F.MQ_CACHE_CTL_D_INVD cl
  let wI := bitsOf v 0 8
  let wD := bitsOf v 8 8
  let newI := wI &&& (oldI ||| invI)
  let newD := wD &&& (oldD ||| invD)
  let err := decide (newI ≠ wI ∨ newD ≠ wD)
  let s := (s.wr F.MQ_CACHE_CTL_I_EN newI cl).wr F.MQ_CACHE_CTL_D_EN newD cl
  let s := s.wr F.MQ_CACHE_CTL_I_INVD (maskOff invI (maskOff oldI newI)) cl
  let s := s.wr F.MQ_CACHE_CTL_D_INVD (maskOff invD (maskOff oldD newD)) cl
  let s := if bitOf v 32 then s.clrFlag F.MQ_CACHE_CTL_EN_ERR cl else s
  let s := if err then s.setFlag F.MQ_CACHE_CTL_EN_ERR cl else s
  let off := maskOff oldD newD
  { s with dcache := s.dcache.filter (fun p => !(decide (p.1 / 8 = cl) && bitOf off (p.1 % 8))) }

/-- A store to `MQ_CACHE_CTL`. -/
def execMqCacheCtlWrite (cl value : Nat) (s : State) : Res := .next (if cl < 8 then s.mqCacheCtl cl value else s)

/-- REARM of `MQ_POOL_FREE` (R53): MIN becomes FREE. -/
def execMqPoolRearm (s : State) : Res := .next (s.wr F.MQ_POOL_FREE_MIN s.poolFree)

end Sys2Proof.Machine
end

