-- ==== Sys2Proof/Machine/Hatch.lean ====
section
/-! DEFINITION. The Hatch's commands, the verification of an image and LOAD (R402 to R405, R40). -/

namespace Sys2Proof.Machine

/-- A refused command of `HCH_CMD`. -/
def State.hchRefuse (s : State) : State := s.setFlag F.HCH_STATUS_CMD_ERR

/-- OPEN of a bank. -/
def State.hchOpen (s : State) (b : Nat) : State :=
  let st := s.bankState b
  if s.isNext b then s.hchRefuse
  else if st = 0 then (s.mapEmpty b).bankTo b 1 0
  else if st = 4 ∨ st = 5 then (s.bankZero b).bankTo b 1 0
  else s.hchRefuse

/-- CLOSE of a bank: in BOOT the head goes to VERIFY; in any other state it is an event that R23 does not list. In VERIFY, when the
bank awaited has been discarded, the head awaits this one (DESIGN CHOICE, assumption log 77). -/
def State.hchClose (s : State) (b : Nat) : State :=
  if s.bankState b = 1 then
    let s := s.bankTo b 2 0
    if s.life = .boot then State.moveLife { s with vlt := { s.vlt with bootBank := some b } } .verify
    else if s.life = .verify ∧ s.vlt.bootBank = none then State.unlisted { s with vlt := { s.vlt with bootBank := some b } }
    else s.unlisted
  else s.hchRefuse

/-- DISCARD of a bank. -/
def State.hchDiscard (s : State) (b : Nat) : State := if s.isNext b then s.hchRefuse else s.bankEmpty b

/-- HCH_OPEN. -/
def execHchOpen (b : Nat) (s : State) : Res := .next (s.hchOpen (b % 2))
/-- HCH_CLOSE. -/
def execHchClose (b : Nat) (s : State) : Res := .next (s.hchClose (b % 2))
/-- HCH_DISCARD. -/
def execHchDiscard (b : Nat) (s : State) : Res := .next (s.hchDiscard (b % 2))

/-- A store of `HCH_CMD`. -/
def State.hchCmd (s : State) (v : Nat) : State :=
  let b := bitsOf v 4 1
  match bitsOf v 0 2 with
  | 1 => s.hchOpen b
  | 2 => s.hchClose b
  | 3 => s.hchDiscard b
  | _ => s

/-- A store of `HCH_NEXT`: refused unless it names a VERIFIED bank. -/
def State.hchNext (s : State) (v : Nat) : State :=
  if s.bankState (v % 2) = 4 then (s.wr F.HCH_NEXT_BANK (v % 2)).setFlag F.HCH_NEXT_VALID else s

/-- HCH_NEXT_WRITE. -/
def execHchNextWrite (v : Nat) (s : State) : Res := .next (s.hchNext v)

/-- BAR2_WRITE of bytes at an offset (R402, R462): into an OPEN bank, with the map bit of each block touched cleared. -/
def execBar2Write (off : Nat) (data : List Byte) (s : State) : Res :=
  let b := off / bankBytes
  .next (
    if b < 2 ∧ s.bankState b = 1 ∧ off % bankBytes + data.length ≤ bankBytes then
      let o := off % bankBytes
      let ks := if data = [] then [] else rangeFrom (o / 65536) ((o + data.length - 1) / 65536 - o / 65536 + 1)
      foldSt (fun k (s : State) => s.blockSet b k false) ks (s.eccWrite (s.bankBase b + o) data).1
    else s.setFlag F.HCH_STATUS_WR_DROP)

/-! Verification (R404). -/

/-- A field of a manifest. -/
def manNat (m : List Byte) (off n : Nat) : Nat := leNat ((m.drop off).take n)

/-- Are `n` bytes of a manifest zero from an offset? -/
def manZero (m : List Byte) (off n : Nat) : Bool := ((m.drop off).take n).all (fun x => decide (x = 0))

/-- MISSING: block 0 or a block of the image is absent. -/
def State.imgMissing (s : State) (b len : Nat) : Bool :=
  !s.blockIn b 0 || decide (2048 < ceilDiv len 65536) ||
    !((List.range (min 2048 (ceilDiv len 65536))).all (fun k => s.blockIn b k))

/-- BAD_MANIFEST: magic, format, a length, an alignment or a reserved byte is wrong, the Code region leaves HBM or meets the
Hatch, or the entry is not inside the payload. -/
def State.manBad (s : State) (m : List Byte) : Bool :=
  let len := manNat m 12 4
  let base := manNat m 16 8
  let entry := manNat m 24 4
  !(decide (manNat m 0 8 = 0x53464E414D4E4644 ∧ manNat m 8 2 = 1 ∧ len % 64 = 0 ∧ 8192 ≤ len ∧ len ≤ 134217728 ∧
      base % 2 ^ 21 = 0 ∧ entry % 4 = 0 ∧ hbmBase ≤ base ∧ base + len - 4096 ≤ s.hatchBase ∧ entry + 4096 < len) &&
    manZero m 44 4 && manZero m 309 3643 && manZero m 4084 12)

/-- SIGNER: the key slot may not sign this image. -/
def State.signerBad (s : State) (m : List Byte) : Bool :=
  let o := s.vlt.otp
  let k := manNat m 10 1
  let at_ := SMap.findD o.attrs k 0
  !(decide (k < 4) && bitOf at_ 0 && !bitOf at_ 2 && !(o.ownerLock && decide (k = 0)) &&
    decide (SMap.find o.hash k = some (sha 3 ((m.drop 176).take 133))))

/-- The payload key: none with KEYSRC 2; the outer option is none when KEY fails. -/
def State.payloadKey (s : State) (m : List Byte) : Option (Option (List Byte)) :=
  let o := s.vlt.otp
  let wrapped := (m.drop 136).take 40
  match manNat m 11 1 with
  | 0 => (kwUnwrap o.kek0 wrapped).map some
  | 1 => o.kek1.bind (fun k => (kwUnwrap k wrapped).map some)
  | 2 => if o.plainOk then some none else none
  | _ => none

/-- CTR mode: the whole 128-bit counter block rises by one per block. -/
def aesCtr (key : List Nat) : Nat → Nat → List Nat → List Nat
  | 0, _, _ => []
  | n + 1, ctr, l =>
    xorNats (l.take 16) (aesEncBlock key (natsOf (beBytes 16 (ctr % 2 ^ 128)))) ++ aesCtr key n (ctr + 1) (l.drop 16)

/-- The plaintext payload. -/
def imgPlain (key : Option (List Byte)) (m payload : List Byte) : List Byte :=
  match key with
  | none => payload
  | some k => bytesOf (aesCtr (natsOf k) (payload.length / 16) (beNat ((m.drop 120).take 16)) (natsOf payload))

/-- The checks of R404 in order: REASON (0 when all pass) and the plaintext payload. -/
def State.imgCheck (s : State) (b : Nat) : Nat × List Byte :=
  let m := s.bytes (s.bankBase b) 4096
  let len := manNat m 12 4
  if s.imgMissing b len then (1, [])
  else if s.manBad m then (2, [])
  else if bitOf (manNat m 41 1) (match s.fuse.variant with
      | .dfn7140 => 0
      | .dfn7132 => 1
      | .dfn7124 => 2) = false then (3, [])
  else if s.signerBad m then (4, [])
  else if ecdsaVerify ((m.drop 176).take 133) (sha 3 (m.take 3952)) ((m.drop 3952).take 132) = false ∨
      s.badIn (s.bankBase b) 4096 = true then (5, [])
  else if manNat m 28 4 < s.vlt.otp.svn then (6, [])
  else if bitOf (manNat m 36 4) s.vlt.otp.mediaGen = false then (7, [])
  else
    match s.payloadKey m with
    | none => (8, [])
    | some k =>
      let plain := imgPlain k m (s.bytes (s.bankBase b + 4096) (len - 4096))
      if sha 3 plain = (m.drop 56).take 64 ∧ s.badIn (s.bankBase b + 4096) (len - 4096) = false then (0, plain) else (9, [])

/-- The manifest fields shown for a VERIFIED bank. -/
def State.bankShow (s : State) (b : Nat) : State :=
  let m := s.bytes (s.bankBase b) 4096
  let put := fun (o v : Nat) (s : State) => s.regSet (0x100000 + o + 0x40 * b) (BitVec.ofNat 64 v)
  let s := put 0x48 (manNat m 28 1 + manNat m 40 1 * 2 ^ 8 + manNat m 42 2 * 2 ^ 16 + manNat m 32 2 * 2 ^ 32 + manNat m 34 2 * 2 ^ 48) s
  let s := put 0x50 (manNat m 36 4 + manNat m 41 1 % 8 * 2 ^ 32 + manNat m 10 1 % 4 * 2 ^ 40 + manNat m 11 1 % 4 * 2 ^ 42) s
  put 0x60 (manNat m 12 4) (put 0x58 (manNat m 48 8) s)

/-- HCH_VERIFY_START: a CLOSED bank is taken when no bank is VERIFYING. -/
def execHchVerifyStart (b : Nat) (s : State) : Res :=
  .next (
    if b < 2 ∧ s.bankState b = 2 ∧ s.bankState (1 - b) ≠ 3 then (s.bankTo b 3 0).setFlag F.VLT_STATUS_VERIFYING else s)

/-- A pass of the image the head waits for in VERIFY: the bank becomes NEXT and the head goes to LOAD (R403). Any other pass is an
event that R23 does not list. -/
def State.bootPass (s : State) (b : Nat) : State :=
  if s.vlt.bootBank = some b then
    let s := { s with vlt := { s.vlt with bootBank := none } }
    if s.life = .verify then
      let s := ((s.wr F.HCH_NEXT_BANK b).setFlag F.HCH_NEXT_VALID).moveLife .load
      { s with vlt := { s.vlt with loadDue := true } }
    else s.unlisted
  else s.unlisted

/-- HCH_VERIFY_DONE (R403, R404): the payload is decrypted in place; a failure zeroes the bank and raises HATCH_FAIL. -/
def execHchVerifyDone (b : Nat) (s : State) : Res :=
  .next (
    if b < 2 ∧ s.bankState b = 3 then
      let r := s.imgCheck b
      let s := s.eccCorrect 0 (s.bankBase b) 4096
      let s := if r.1 = 0 ∨ r.1 = 9 then s.eccCorrect 0 (s.bankBase b + 4096) (manNat (s.bytes (s.bankBase b) 4096) 12 4 - 4096) else s
      if r.1 = 0 then
        let s := (s.eccWrite (s.bankBase b + 4096) r.2).1
        let s := ((s.verifyEnd b).bankTo b 4 0).wr F.HCH_BSTATE_DONE (ceilDiv (r.2.length + 4096) 65536) b
        (s.bankShow b).bootPass b
      else ((s.bankFail b r.1).raise 0x002 (b + 16 * r.1)).bootReturn b
    else s)

/-! LOAD (R405, R40). -/

/-- Power every cluster domain that firmware holds OFF (R40). -/
def State.loadPower (s : State) : State :=
  foldSt (fun cl (s : State) =>
    let d := 2 + cl
    if s.heldOff d then
      ((s.wr F.PWR_DOM_MODE 0 d).wr F.PWR_DOM_STATE 0 d).wr F.PWR_DOM_WAKES (min (2 ^ 32 - 1) (s.rd F.PWR_DOM_WAKES d + 1)) d
    else s) (List.range 8) s

/-- Set the Code region of every cluster and start its keeper: thread 0 of core 0 at the entry, every other thread FREE. -/
def State.startKeepers (s : State) (base limit entry : Nat) : State :=
  foldSt (fun cl (s : State) =>
    let s := (s.wr F.MQ_CODE_BASE_ADDR base cl).wr F.MQ_CODE_LIMIT_ADDR limit cl
    let s := s.wr F.MQ_RUN_CORE_EN (s.rd F.MQ_RUN_CORE_EN cl ||| 1) cl
    s.updThread (32 * cl) (fun (th : Thread) => th.start [] (BitVec.ofNat 64 entry) true none none)) (List.range 8)
    { s with threads := [] }

/-- LOAD_START (R405): in LOAD, with a NEXT bank still to be copied. -/
def execLoadStart (s : State) : Res :=
  .next (
    let b := s.rd F.HCH_NEXT_BANK
    if s.life = .load ∧ s.vlt.loadDue = true ∧ s.isNext b = true ∧ s.bankState b = 4 then
      let m := s.bytes (s.bankBase b) 4096
      let len := manNat m 12 4
      let base := manNat m 16 8
      let s := (s.loadPower.eccCorrect 0 (s.bankBase b) 4096).eccCorrect 0 (s.bankBase b + 4096) (len - 4096)
      let s := (s.eccWrite base (s.bytes (s.bankBase b + 4096) (len - 4096))).1
      let s := (s.wr F.HCH_STATUS_LOADED_BANK b).setFlag F.HCH_STATUS_LOADED_VALID
      let run : RunImage := { bank := some b, hash := sha 3 m, svn := manNat m 28 4, mediaRead := manNat m 36 4 }
      let s := { s with vlt := { s.vlt with run := some run, loadDue := false } }
      s.startKeepers base (base + len - 4097) (base + manNat m 24 4)
    else s)

end Sys2Proof.Machine
end

