-- ==== Sys2Proof/Machine/OxFmt.lean ====
section
/-! DEFINITION. The Ox block format (R217). -/

namespace Sys2Proof.Machine

/-- A length extension: an unsigned LEB128 number of one or two bytes; none when it is longer or cut off. -/
def oxExt : List Byte → Option (Nat × List Byte)
  | a :: l =>
    if a.toNat < 128 then some (a.toNat, l)
    else
      match l with
      | b :: l' => if b.toNat < 128 then some (a.toNat - 128 + 128 * b.toNat, l') else none
      | [] => none
  | [] => none

/-- Copy literals to the output (newest byte first, `n` bytes so far): the output, the input left, and whether all went well. -/
def oxLit : Nat → List Byte → List Byte → Nat → List Byte × List Byte × Bool
  | 0, inp, out, _ => (out, inp, true)
  | k + 1, inp, out, n =>
    match inp with
    | [] => (out, [], false)
    | b :: l => if n < 4096 then oxLit k l (b :: out) (n + 1) else (out, inp, false)

/-- Copy a match of a distance byte by byte. -/
def oxMatch : Nat → Nat → List Byte → Nat → List Byte × Bool
  | 0, _, out, _ => (out, true)
  | k + 1, d, out, n =>
    match out[d - 1]? with
    | some b => if n < 4096 then oxMatch k d (b :: out) (n + 1) else (out, false)
    | none => (out, false)

/-- Decode sequences; `fuel` bounds their number. Answers the output, newest byte first, and whether the block is valid. -/
def oxSeqs : Nat → List Byte → List Byte → List Byte × Bool
  | 0, _, out => (out, false)
  | fuel + 1, inp, out =>
    match inp with
    | [] => (out, false)
    | t :: l =>
      let lit := t.toNat / 16
      let m := t.toNat % 16
      match (if lit = 15 then (oxExt l).map (fun p => (15 + p.1, p.2)) else some (lit, l)) with
      | none => (out, false)
      | some (ln, l) =>
        match oxLit ln l out out.length with
        | (out, _, false) => (out, false)
        | (out, l, true) =>
          if m = 0 then (out, decide (out.length = 4096) && l.all (fun b => decide (b = 0)))
          else
            match (if m = 15 then (oxExt l).map (fun p => (17 + p.1, p.2)) else some (m + 2, l)) with
            | none => (out, false)
            | some (mn, l) =>
              match l with
              | a :: b :: l =>
                let d := a.toNat + 256 * b.toNat
                if d < 1 ∨ 4095 < d ∨ out.length < d then (out, false)
                else
                  match oxMatch mn d out out.length with
                  | (out, true) => oxSeqs fuel l out
                  | (out, false) => (out, false)
              | _ => (out, false)

/-- Decode whole cells: the bytes produced, and whether the block is valid. -/
def oxDecode (cells : List Byte) : List Byte × Bool :=
  match cells with
  | b :: l => if b = 0xA1 then (let r := oxSeqs cells.length l []; (r.1.reverse, r.2)) else ([], false)
  | [] => ([], false)

/-- Fill up to a multiple of 64 bytes with zeros. -/
def padCells (l : List Byte) : List Byte := l ++ List.replicate ((64 - l.length % 64) % 64) 0

end Sys2Proof.Machine
end

