-- ==== Sys2Proof/Machine/Reduce.lean ====
section
/-! DEFINITION. Ox units (R216 to R219), XTS lanes (R220, R221) and parity engines (R102). -/

namespace Sys2Proof.Machine

/-! Ox. -/

/-- The checks of R95 and R100. -/
def oxCheck (j : Job) (s : State) : Bool :=
  let g := j.fld 29 1
  j.zero 3 3 && j.zero 30 63 && s.inHandle (j.fld 16 8) (64 * j.fld 26 2) 4096 &&
    (if j.op = 1 then
      decide (1 ≤ j.fld 2 1 ∧ j.fld 2 1 ≤ 9 ∧ j.fld 4 4 = 0) && s.inHandle (j.fld 8 8) (64 * j.fld 24 2) 4096
    else
      decide (j.fld 2 1 = 0 ∧ j.fld 28 1 < 64 ∧ g < 3) &&
        (decide (g = 2) || s.inHandle (j.fld 8 8) (64 * j.fld 24 2) (if g = 1 then 4096 else 64 * (j.fld 28 1 + 1))))

/-- The block of a grain at a level, when it fits 4,032 bytes: the encoder's choice is not given (R219), so the block is a free
value that decodes to the grain. -/
def oxBlock (level : Nat) (grain : List Byte) : Option (List Byte) :=
  let b := Config.oxEncode level grain
  if b.length ≤ 4032 ∧ oxDecode (padCells b) = (grain, true) then some (padCells b) else none

/-- COMPRESS (R216). -/
def oxCompress (inst : Nat) (j : Job) (s : State) : JobDo :=
  match s.unitRead (hAddr (j.fld 8 8) (64 * j.fld 24 2)) 4096 with
  | (s, none) => .memErr s 0x03 inst
  | (s, some g) =>
    let c := crc32c g
    let out := hAddr (j.fld 16 8) (64 * j.fld 26 2)
    let s := s.ctr F.OX_COMPRESS_CTR inst
    if g.all (fun b => decide (b = 0)) then
      .done (s.ctr F.OX_ZERO_CTR inst) (j.fld 8 8) { status := stDone, aux := 0, result := c + 2 ^ 32 }
    else
      match oxBlock (j.fld 2 1) g with
      | some b => .done (((s.eccWrite out b).1).ctr F.OX_CELLS_CTR inst (b.length / 64)) (j.fld 8 8)
          { status := stDone, aux := b.length / 64, result := c }
      | none => .done ((((s.eccWrite out g).1).ctr F.OX_CELLS_CTR inst 64).ctr F.OX_RAW_CTR inst) (j.fld 8 8)
          { status := stDoneRaw, aux := 64, result := c }

/-- DECOMPRESS (R100, R218). -/
def oxDecompress (inst : Nat) (j : Job) (s : State) : JobDo :=
  let g := j.fld 29 1
  let src := hAddr (j.fld 8 8) (64 * j.fld 24 2)
  let r := if g = 2 then (s, some []) else s.unitRead src (if g = 1 then 4096 else 64 * (j.fld 28 1 + 1))
  match r with
  | (s, none) => .memErr s 0x03 inst
  | (s, some cells) =>
    let d : List Byte × Bool := if g = 2 then (List.replicate 4096 0, true) else if g = 1 then (cells, true) else oxDecode cells
    let c := crc32c d.1
    let s := (s.eccWrite (hAddr (j.fld 16 8) (64 * j.fld 26 2)) d.1).1
    if d.2 ∧ c = j.fld 4 4 then .done (s.ctr F.OX_DECOMPRESS_CTR inst) (j.fld 8 8) { status := stDone, aux := 4096, result := c }
    else .done (s.ctr F.OX_CHECK_FAIL_CTR inst) 0 { status := stCheck, aux := d.1.length, result := c }

/-- COMPRESS at the head of a ring. -/
def execOxCompress (inst cl : Nat) (s : State) : Res := .next (s.runJob 0x03 inst cl (isOp 1) oxCheck (oxCompress inst))

/-- DECOMPRESS at the head of a ring. -/
def execOxDecompress (inst cl : Nat) (s : State) : Res := .next (s.runJob 0x03 inst cl (isOp 2) oxCheck (oxDecompress inst))

/-! XTS. -/

/-- The checks of R95 and R101. -/
def xtsCheck (j : Job) (s : State) : Bool :=
  let n := j.fld 12 4
  j.zero 3 3 && j.zero 28 31 && j.zero 44 63 && decide (j.fld 2 1 < 64 ∧ j.fld 8 4 < 2 ^ 18 ∧ n % 64 = 0 ∧ 64 ≤ n ∧ n ≤ 4096) &&
    s.inHandle (j.fld 16 8) (j.fld 24 4) n && s.inHandle (j.fld 32 8) (j.fld 40 4) n

/-- Encrypt or decrypt one data unit (R220, R221). -/
def xtsRun (enc : Bool) (inst : Nat) (j : Job) (s : State) : JobDo :=
  let n := j.fld 12 4
  match SMap.find s.xtsKeys (j.fld 2 1) with
  | none => .bad (s.ctr F.XTS_NOKEY_CTR inst)
  | some key =>
    match s.unitRead (hAddr (j.fld 16 8) (j.fld 24 4)) n with
    | (s, none) => .memErr s 0x05 inst
    | (s, some d) =>
      let s := (s.eccWrite (hAddr (j.fld 32 8) (j.fld 40 4)) (xts enc key (j.fld 4 4 * 2 ^ 18 + j.fld 8 4) d))
      if !s.2 then .memErr s.1 0x05 inst
      else
        let s := s.1.ctr (if enc then F.XTS_ENC_BYTES_CTR else F.XTS_DEC_BYTES_CTR) inst n
        .done (s.ctr F.XTS_JOBS_CTR inst) (j.fld 16 8) (.st stDone)

/-- ENCRYPT at the head of a ring. -/
def execXtsEncrypt (inst cl : Nat) (s : State) : Res := .next (s.runJob 0x05 inst cl (isOp 1) xtsCheck (xtsRun true inst))

/-- DECRYPT at the head of a ring. -/
def execXtsDecrypt (inst cl : Nat) (s : State) : Res := .next (s.runJob 0x05 inst cl (isOp 2) xtsCheck (xtsRun false inst))

/-! Parity. -/

/-- W, P and LENGTH of a parity job. -/
def rdnW (j : Job) : Nat := j.fld 2 1
/-- P. -/
def rdnP (j : Job) : Nat := j.fld 3 1
/-- LENGTH. -/
def rdnLen (j : Job) : Nat := j.fld 4 4
/-- Is position i in MISS? -/
def rdnMiss (j : Job) (i : Nat) : Bool := bitOf (j.fld 16 4) i
/-- Is position i in SKIP? -/
def rdnSkip (j : Job) (i : Nat) : Bool := bitOf (j.fld 20 4) i

/-- Number of positions of a mask. -/
def maskCount (m n : Nat) : Nat := ((List.range n).filter (fun i => bitOf m i)).length

/-- The checks of R95 and R102 on the descriptor itself. -/
def rdnCheck (j : Job) (s : State) : Bool :=
  let n := rdnW j + rdnP j
  let miss := j.fld 16 4
  let skip := j.fld 20 4
  j.zero 24 63 && decide (4 ≤ rdnW j ∧ rdnW j ≤ 16 ∧ 1 ≤ rdnP j ∧ rdnP j ≤ 4) &&
    decide (rdnLen j % 64 = 0 ∧ 64 ≤ rdnLen j ∧ rdnLen j ≤ 1048576 ∧ miss < 2 ^ n ∧ skip < 2 ^ n ∧ miss &&& skip = 0) &&
    (match j.op with
     | 1 => decide (miss = 2 ^ n - 2 ^ rdnW j)
     | 2 => decide (1 ≤ maskCount miss n ∧ maskCount miss n ≤ rdnP j)
     | _ => decide (miss = 0)) &&
    s.inHandle (j.fld 8 8) 0 (8 * n)

/-- Read positions in order: none at the first that cannot be read. -/
def rdnReads (len : Nat) : List (Nat × Nat) → State → State × Option (List (Nat × List Byte))
  | [], s => (s, some [])
  | (i, h) :: l, s =>
    match s.unitRead (hAddr h 0) len with
    | (s, none) => (s, none)
    | (s, some d) =>
      match rdnReads len l s with
      | (s, some r) => (s, some ((i, d) :: r))
      | (s, none) => (s, none)

/-- Write positions. -/
def rdnWrites (l : List (Nat × List Byte)) (s : State) : State :=
  foldSt (fun (p : Nat × List Byte) (s : State) => (s.eccWrite (hAddr p.1 0) p.2).1) l s

/-- Bytes whose value the manual leaves open. -/
def State.freeBytes (s : State) (n : Nat) : List Byte := leBytes n s.freeNat

/-- Count the bytes an ENCODE or a DECODE has read. -/
def rdnCount (inst : Nat) (j : Job) (n : Nat) (s : State) : State :=
  if j.op = 1 then s.ctr F.RDN_ENC_BYTES_CTR inst n else if j.op = 2 then s.ctr F.RDN_DEC_BYTES_CTR inst n else s

/-- Count a VERIFY that completes. -/
def rdnVerdict (inst bad : Nat) (s : State) : State :=
  let s := s.ctr F.RDN_VERIFY_CTR inst
  if bad = 0 then s else s.ctr F.RDN_VERIFY_FAIL_CTR inst

/-- A parity job whose list has been read as handles. -/
def rdnWork (inst : Nat) (j : Job) (hs : List Nat) (s : State) : JobDo :=
  let w := rdnW j
  let n := w + rdnP j
  let len := rdnLen j
  let pos := (List.range n).zip hs
  let used := pos.filter (fun p => !rdnSkip j p.1)
  let dataGone := (List.range w).any (fun i => rdnSkip j i)
  let inputs := used.filter (fun p => !rdnMiss j p.1)
  let missing := used.filter (fun p => rdnMiss j p.1)
  if !used.all (fun p => s.inHandle p.2 0 len) then .bad s
  else if j.op = 2 ∧ rdnP j < maskCount (j.fld 16 4 ||| j.fld 20 4) n then .done (s.ctr F.RDN_LOST_CTR inst) 0 (.st stLost)
  else
    match rdnReads len inputs s with
    | (s, none) => .memErr s 0x06 inst
    | (s, some got) =>
      let s := rdnCount inst j (len * got.length) s
      if j.op ≠ 2 ∧ dataGone then
        if j.op = 1 then .done (rdnWrites (missing.map (fun p => (p.2, s.freeBytes len))) s).nextFree 0 (.st stDone)
        else
          let bad := s.freeNat &&& (2 ^ n - 2 ^ w) &&& maskOff (2 ^ n - 1) (j.fld 20 4)
          .done (rdnVerdict inst bad s.nextFree) 0 { status := if bad = 0 then stDone else stCheck, aux := 0, result := bad }
      else
        let data := rsData w got
        if j.op = 3 then
          let bad := got.foldl (fun m p => if rsPos w len p.1 data = p.2 then m else m + 2 ^ p.1) 0
          .done (rdnVerdict inst bad s) 0 { status := if bad = 0 then stDone else stCheck, aux := 0, result := bad }
        else .done (rdnWrites (missing.map (fun p => (p.2, rsPos w len p.1 data))) s) 0 (.st stDone)

/-- Run a parity job (R102): read the list of handles, then work. -/
def rdnRun (inst : Nat) (j : Job) (s : State) : JobDo :=
  let n := rdnW j + rdnP j
  match s.unitRead (hAddr (j.fld 8 8) 0) (8 * n) with
  | (s, none) => .memErr s 0x06 inst
  | (s, some l) => rdnWork inst j ((List.range n).map (fun i => leNat ((l.drop (8 * i)).take 8))) s

/-- ENCODE at the head of a ring. -/
def execRdnEncode (inst cl : Nat) (s : State) : Res := .next (s.runJob 0x06 inst cl (isOp 1) rdnCheck (rdnRun inst))

/-- DECODE at the head of a ring. -/
def execRdnDecode (inst cl : Nat) (s : State) : Res := .next (s.runJob 0x06 inst cl (isOp 2) rdnCheck (rdnRun inst))

/-- VERIFY at the head of a ring. -/
def execRdnVerify (inst cl : Nat) (s : State) : Res := .next (s.runJob 0x06 inst cl (isOp 3) rdnCheck (rdnRun inst))

end Sys2Proof.Machine
end

