-- ==== Sys2Proof/Machine/Seg.lean ====
section
/-! DEFINITION. The segment manager (chapter 9): pages, streams, the segment jobs, the census. What it does on the media is part
of its rows (assumption log 21). -/

namespace Sys2Proof.Machine

/-! Pages (R257 to R259). -/

/-- The head of a page (R258). -/
structure PageTag where
  seg : Nat
  birth : Nat
  stripe : Nat
  pos : Nat
  w : Nat
  p : Nat
  stream : Nat
  layg : Nat
  move : Nat
  fill : Bool
  deriving DecidableEq, Repr

/-- The 16 bytes of a head. -/
def PageTag.bytes (t : PageTag) : List Byte :=
  let h := leBytes 4 t.seg ++ leBytes 6 t.birth ++ leBytes 1 (t.stripe % 64) ++
    leBytes 1 (t.pos % 32 + 32 * b2n t.fill + 128 * b2n (decide (t.w ≤ t.pos))) ++ leBytes 1 (t.w % 32 + 32 * t.p) ++
    leBytes 1 (t.stream % 8 + 8 * (t.layg % 4) + 32 * (t.move % 8))
  h ++ leBytes 2 (crc32c h)

/-- Read a head. -/
def tagOf (d : List Byte) : PageTag :=
  { seg := lfld d 0 4, birth := lfld d 4 6, stripe := lfld d 10 1 % 64, pos := lfld d 11 1 % 32, w := lfld d 12 1 % 32
    p := lfld d 12 1 / 32, stream := lfld d 13 1 % 8, layg := bitsOf (lfld d 13 1) 3 2, move := lfld d 13 1 / 32
    fill := bitOf (lfld d 11 1) 5 }

/-- HEADCHK. -/
def headOk (d : List Byte) : Bool := decide (lfld d 14 2 = crc32c (d.take 14) % 2 ^ 16)

/-- A grain descriptor (R259). -/
structure GDesc where
  vol : Nat
  lba : Nat
  seq : Nat
  epoch : Nat
  cell : Nat
  lenm1 : Nat
  flags : Nat
  crc : Nat
  deriving DecidableEq, Repr

/-- The 24 bytes of a descriptor. -/
def GDesc.bytes (g : GDesc) : List Byte :=
  leBytes 2 g.vol ++ leBytes 5 g.lba ++ leBytes 8 g.seq ++ leBytes 2 g.epoch ++ leBytes 1 g.cell ++ leBytes 1 g.lenm1 ++
    leBytes 1 g.flags ++ leBytes 4 g.crc

/-- Read a descriptor. -/
def gdescOf (d : List Byte) : GDesc :=
  { vol := lfld d 0 2, lba := lfld d 2 5, seq := lfld d 7 8, epoch := lfld d 15 2, cell := lfld d 17 1, lenm1 := lfld d 18 1 % 64
    flags := lfld d 19 1, crc := lfld d 20 4 }

/-- The descriptors of a page. -/
def pageDescs (d : List Byte) : List GDesc :=
  (List.range (min 20 (lfld d 498 1))).map (fun i => gdescOf ((d.drop (16 + 24 * i)).take 24))

/-- HCHECK. -/
def hcheckOk (d : List Byte) : Bool := decide (lfld d 500 4 = crc32c ((d.drop 16).take 484))

/-- The cells of a page from `c`, `n` of them. -/
def pageCells (d : List Byte) (c n : Nat) : List Byte := (d.drop (512 + 64 * c)).take (64 * n)

/-- Pages of a whole stripe's positions with bytes 0 to 15 taken as 0 (R260). -/
def headless (d : List Byte) : List Byte := List.replicate 16 0 ++ d.drop 16

/-- Reports and unit numbers of a position: how often it was rebuilt or moved. -/
def moveKey (n q : Nat) : Nat := n * 32 + q

/-- MOVE of a position. -/
def State.moveOf (s : State) (n q : Nat) : Nat := SMap.findD s.seg.moves (moveKey n q) 0

/-- Set MOVE of a position. -/
def State.setMove (s : State) (n q v : Nat) : State := { s with seg := { s.seg with moves := SMap.putD s.seg.moves (moveKey n q) (v % 8) 0 } }

/-- The head that a position's page of a stripe carries. -/
def State.tagAt (s : State) (seg stripe q : Nat) : PageTag :=
  let b := s.band (segBand seg)
  { seg := seg, birth := b.segBirth (segSlot seg), stripe := stripe, pos := q, w := b.w, p := b.p, stream := b.stream
    layg := (s.pool b.pool).layg, move := s.moveOf (segBand seg) q, fill := false }

/-- HEADCHK and reference tag of a page against the band record and the stripe (R268 step 6). -/
def State.tagOk (s : State) (seg stripe q : Nat) (d : List Byte) : Bool :=
  let t := tagOf d
  headOk d && decide (t.seg = seg ∧ t.birth = (s.band (segBand seg)).segBirth (segSlot seg) ∧ t.stripe = stripe ∧ t.pos = q) && !t.fill

/-- The whole check of a data page, but for the descriptor asked for (R268 step 6). -/
def State.dataPageOk (s : State) (seg stripe q : Nat) (d : List Byte) : Bool :=
  s.tagOk seg stripe q d && hcheckOk d && decide (lfld d 496 2 = (s.band (segBand seg)).epoch)

/-! Streams and their buffers (R261, R262). -/

/-- A stream that has opened nothing. -/
def SegStream.init : SegStream :=
  { band := 0, slotNext := 0, pool := 0, w := 0, p := 0, seg := none, page := 0, cell := 0, ndesc := 0, begun := false, closed := 0
    ended := 0, flight := [], syncs := [], lost := false }

/-- A stream. -/
def State.stream (s : State) (x : Nat) : SegStream := SMap.findD s.seg.streams x SegStream.init

/-- Set a stream. -/
def State.setStream (s : State) (x : Nat) (y : SegStream) : State :=
  { s with seg := { s.seg with streams := SMap.putD s.seg.streams x y SegStream.init } }

/-- Change a stream. -/
def State.updStream (s : State) (x : Nat) (f : SegStream → SegStream) : State := s.setStream x (f (s.stream x))

/-- Address of page q of stripe number `num` in a stream's segment buffer (assumption log 22). -/
def State.bufPage (s : State) (x num q : Nat) : Nat := s.rd F.SEG_BUF_BASE_ADDR * 2 ^ 25 + x * 2 ^ 25 + num % 64 * 2 ^ 19 + q * pageBytes

/-- Where a grain of `n` cells goes (R261): data page, cell, and whether the current stripe closes first. -/
def SegStream.place (x : SegStream) (n : Nat) : Option (Nat × Nat × Bool) :=
  if x.page < 64 * x.w ∧ x.cell + n ≤ 248 ∧ x.ndesc < 20 then some (x.page, x.cell, false)
  else if x.page < 64 * x.w ∧ x.page % x.w + 1 < x.w then some (x.page + 1, 0, false)
  else if x.page / x.w + 1 < 64 then some ((x.page / x.w + 1) * x.w, 0, true)
  else none

/-- A sync that waits has its stripes: complete its job, a SEG.SYNC (OP 4) as a segment job (R96), a MOVE as a job of the Mule. -/
def State.syncEnd (s : State) (w : SyncWait) : State :=
  match w.job with
  | some j =>
    let e : JobEnd := { status := if w.bad then stMediaErr else w.status, aux := w.aux, result := w.result }
    if j.op = 4 then s.completeP j 0 0 e else s.complete j 0 0 e
  | none => if w.bad then { s with map := { s.map with syncBad := true } } else s

/-- Complete the syncs whose stripes have all ended. -/
def State.syncsEval (s : State) (x : Nat) : State :=
  let y := s.stream x
  let done := y.syncs.filter (fun w => decide (w.upTo ≤ y.ended))
  let s := s.setStream x { y with syncs := y.syncs.filter (fun w => !decide (w.upTo ≤ y.ended)) }
  foldSt (fun (w : SyncWait) (s : State) => s.syncEnd w) done s

/-- A stripe of a stream was LOST: each sync that waits for it ends MEDIA_ERR; the next one, when none waits (R263). -/
def SegStream.markLost (y : SegStream) (num : Nat) : SegStream :=
  if y.syncs.any (fun w => decide (num < w.upTo)) then
    { y with syncs := y.syncs.map (fun w => if num < w.upTo then { w with bad := true } else w) }
  else { y with lost := true }

/-- Finish the data pages of a closing stripe (R257, R262): heads, EPOCH and HCHECK; empty ones are counted. -/
def State.finishPages (s : State) (x num seg stripe : Nat) (qs : List Nat) : State :=
  foldSt (fun q (s : State) =>
    let a := s.bufPage x num q
    let s := if s.ldMem (a + 498) 1 = 0 then s.ctr F.SEG_PAD_PAGES_CTR else s
    let s := (s.setBytes a (s.tagAt seg stripe q).bytes).stMem (a + 496) 2 (s.band (segBand seg)).epoch
    s.stMem (a + 500) 4 (crc32c (s.bytes (a + 16) 484))) qs s

/-- Encode the parity pages of a closing stripe into the buffer (R260). -/
def State.encodeParity (s : State) (x num seg stripe w p : Nat) : State :=
  let data := (List.range w).map (fun q => headless (s.bytes (s.bufPage x num q) pageBytes))
  foldSt (fun j (s : State) =>
    s.setBytes (s.bufPage x num (w + j)) ((s.tagAt seg stripe (w + j)).bytes ++ (rsParity pageBytes j data).drop 16)) (List.range p) s

/-- Can the data pages of a stripe be read from the buffer (R97)? -/
def State.bufReadable (s : State) (x num w : Nat) : Bool := (List.range w).all (fun q => !s.badIn (s.bufPage x num q) pageBytes)

/-- Declare a stripe LOST, or find its bucket full (R282, R283). -/
def State.declareOrHold (s : State) (seg stripe mask : Nat) : State := (s.declareLost seg stripe mask).getD (s.lostFull seg)

/-- Close the current stripe of a stream, if it holds a grain (R262). A page of the buffer that cannot be read makes the stripe
LOST and ends the segment (R97). -/
def State.closeStripe (s : State) (x : Nat) : State :=
  let y := s.stream x
  match y.seg with
  | none => s
  | some seg =>
    if !y.begun then s
    else
      let t := y.page / y.w
      let y' := { y with page := (t + 1) * y.w, cell := 0, ndesc := 0, begun := false, closed := y.closed + 1 }
      if s.bufReadable x y.closed y.w then
        let s := s.finishPages x y.closed seg t (List.range y.w)
        let s := s.encodeParity x y.closed seg t y.w y.p
        s.setStream x { y' with flight := y.flight ++ [{ seg := seg, stripe := t, num := y.closed, w := y.w, p := y.p, dead := false, sent := !s.mediaHold }] }
      else
        ((s.memEvent 0x08 0).declareOrHold seg t (2 ^ (y.w + y.p) - 1)).setStream x
          { y'.markLost y.closed with seg := none
                                      flight := y.flight ++ [{ seg := seg, stripe := t, num := y.closed, w := y.w, p := y.p, dead := true, sent := true }] }

/-- End the open segment of a stream. -/
def State.endSeg (s : State) (x : Nat) : State := (s.closeStripe x).updStream x (fun y => { y with seg := none })

/-- Seal a band: its open segments end as SEG.SEAL ends one, the current stripe closed (R262, R263; DEDUCED, assumption log 99). -/
def State.sealBand (s : State) (n : Nat) : State :=
  let b := s.band n
  if b.state = 1 then
    let s := foldSt (fun x (s : State) =>
      match (s.stream x).seg with
      | some g => if segBand g = n then s.endSeg x else s
      | none => s) (List.range 5) s
    (s.setBand n { s.band n with state := 2 }).tryRelease n
  else s

/-! Positions that fail (R274, R275). -/

/-- Drop the copy or rebuild of a position: its new unit goes to the Mule. -/
def State.dropMove (s : State) (n q : Nat) : State :=
  let gone := fun (m : PosMove) => decide (m.band = n ∧ m.pos = q)
  let units := (s.seg.rebuild ++ s.seg.reshape.elim [] (fun r => r.moving)).filter gone
  let s := { s with seg := { s.seg with
      rebuild := s.seg.rebuild.filter (fun m => !gone m)
      reshape := s.seg.reshape.map (fun r => { r with moving := r.moving.filter (fun m => !gone m) }) } }
  foldSt (fun (m : PosMove) (s : State) => s.unitGone (m.lane, m.die, m.eu)) units s

/-- Does this head answer for a band: its own, or one of the partner whose dies it has taken over (R274)? -/
def State.answersFor (s : State) (n : Nat) : Bool := s.ownBand n || s.tookOver

/-- A FAILED position is queued for rebuild and reported (R274), once. -/
def State.queueFailed (s : State) (n q : Nat) : State :=
  if s.answersFor n && !s.seg.failed.contains (n, q) then
    State.segReport { s with seg := { s.seg with failed := s.seg.failed ++ [(n, q)] } } 3 (s.band n).stream n q
  else s

/-- A position becomes FAILED: an OPEN band is sealed; the position is queued and reported where this head answers for it. One that is
FAILED already and not queued, as the partner left it, is queued. -/
def State.failPos (s : State) (n q : Nat) : State :=
  let b := s.band n
  if (b.state = 1 ∨ b.state = 2) ∧ q < b.n then
    if b.pstate q = 1 then s.queueFailed n q
    else
      let s := s.dropMove n q
      ((s.setBand n (b.setPstate q 1)).sealBand n).queueFailed n q
  else s

/-! SEG.OPEN (R265). -/

/-- The band records of the table that are not FREE, by index. -/
def State.bandsListed (s : State) : List Nat :=
  let base := s.rd F.SEG_BAND_BASE_ADDR * 2 ^ 31
  s.mem.filterMap (fun c =>
    if base ≤ c.1 ∧ c.1 < base + 2 ^ 31 ∧ (c.1 - base) % 128 = 0 ∧ c.2.toNat % 4 ≠ 0 then some ((c.1 - base) / 128) else none)

/-- The lowest free band number from `k` up, within `fuel` tries. -/
def State.freeBand (s : State) : Nat → Nat → Option Nat
  | 0, _ => none
  | fuel + 1, k =>
    if 2 ^ 23 ≤ k then none
    else if (s.band (s.headId * 2 ^ 23 + k)).state = 0 then some (s.headId * 2 ^ 23 + k)
    else s.freeBand fuel (k + 1)

/-- Are the lanes of a row fit for a band: distinct, in the pool, and present? -/
def State.rowOk (s : State) (lanes : List Nat) (sleds : Nat) : Bool :=
  decide lanes.Nodup && lanes.all (fun l => decide (l < s.fuse.variant.lanes) && bitOf sleds l)

/-- A unit for each lane of a row. -/
def State.rowUnits (s : State) (stream : Nat) (lanes : List Nat) : Option (List (Nat × Nat × Nat)) :=
  lanes.foldr (fun l acc =>
    match acc, s.chooseUnit l stream with
    | some us, some (d, u) => some ((l, d, u) :: us)
    | _, _ => none) (some [])

/-- Count a row that cannot be used, with one WARN event for each row. -/
def State.rowBad (s : State) (pool r : Nat) : State :=
  let s := s.ctr F.SEG_ROW_BAD_CTR
  let k := pool * 4096 + r
  if s.seg.rowWarned.contains k then s
  else State.note { s with seg := { s.seg with rowWarned := s.seg.rowWarned ++ [k] } } 0x08A (r + pool * 2 ^ 12)

/-- ROWNEXT of a pool. -/
def State.setRowNext (s : State) (pool r : Nat) : State := s.stMem (s.layoutBase + 64 * pool + 16) 4 r

/-- Try rows until one gives units: the state with ROWNEXT advanced, and the units. -/
def State.findRow (s : State) (pool stream n : Nat) : Nat → State × Option (List (Nat × Nat × Nat))
  | 0 => (s, none)
  | fuel + 1 =>
    let pr := s.pool pool
    let r := pr.rowNext % max 1 pr.nrows
    let s := s.setRowNext pool ((r + 1) % max 1 pr.nrows)
    let lanes := (List.range n).map (fun q => s.rowLane pool (s.tableOf pool) r q)
    if !s.rowOk lanes pr.sleds then (s.rowBad pool r).findRow pool stream n fuel
    else
      match s.rowUnits stream lanes with
      | some us => (s, some us)
      | none => s.findRow pool stream n fuel

/-- Write the record of a new band and take its units. -/
def State.newBand (s : State) (n pool stream w p : Nat) (us : List (Nat × Nat × Nat)) : State :=
  let s := foldSt (fun (u : Nat × Nat × Nat) (s : State) => s.takeUnit u.1 u.2.1 u.2.2 (n % 2 ^ 23)) us s
  let birth := s.rd F.SEG_BIRTH_NEXT
  let rec0 : BandRec := { state := 1, hasLost := false, stream := stream, pool := pool, w := w, p := p, em1 := (s.pool pool).em1
                          epoch := s.rd F.SEG_EPOCH_EPOCH, birth := birth, pst := 0, slots := 1, pos := List.replicate 20 0 }
  let b := (us.zip (List.range us.length)).foldl (fun (b : BandRec) u => b.setPos u.2 u.1.1 (s.physDie u.1.2.1) u.1.2.2) rec0
  let s := { s with seg := { s.seg with moves := s.seg.moves.filter (fun m => decide (m.1 / 32 ≠ n)) } }
  (s.wr F.SEG_BIRTH_NEXT (birth + 1)).setBand n b

/-- Allocate a band (R265): its index, or none for NO_SPACE. -/
def State.allocBand (s : State) (pool stream w p : Nat) : State × Option Nat :=
  let pr := s.pool pool
  if pr.noAlloc ∨ !s.flag F.MUL_CTL_LOADED then (s, none)
  else
    match s.findRow pool stream (w + p) pr.nrows with
    | (s, none) => (s, none)
    | (s, some us) =>
      match s.freeBand (s.bandsListed.length + 1) 1 with
      | none => ((s.ctr F.SEG_BAND_FULL_CTR).setFlag F.SEG_STATUS_BAND_FULL, none)
      | some n => (s.newBand n pool stream w p us, some n)

/-- The stream begins a segment. -/
def State.beginSeg (s : State) (x n slot pool w p : Nat) : State :=
  s.updStream x (fun y => { y with band := n, slotNext := slot + 1, pool := pool, w := w, p := p, seg := some (mkSeg n slot), page := 0
                                   cell := 0, ndesc := 0, begun := false })

/-- Is the stream's current band fit for one more segment? -/
def State.bandFits (s : State) (x pool w p : Nat) : Bool :=
  let y := s.stream x
  let b := s.band y.band
  decide (y.band ≠ 0 ∧ b.state = 1 ∧ b.stream = x ∧ y.slotNext ≤ b.em1 ∧ y.pool = pool ∧ y.w = w ∧ y.p = p)

/-- Open a segment: the segment and whether its band is new; none for NO_SPACE. -/
def State.openSeg (s : State) (x pool w p : Nat) : State × Option (Nat × Bool) :=
  let y := s.stream x
  if s.bandFits x pool w p then
    let b := s.band y.band
    ((s.setBand y.band { b with slots := b.slots ||| 2 ^ y.slotNext }).beginSeg x y.band y.slotNext pool w p, some (mkSeg y.band y.slotNext, false))
  else
    let s := if y.band ≠ 0 ∧ (s.band y.band).stream = x then s.sealBand y.band else s
    match s.allocBand pool x w p with
    | (s, none) => (s, none)
    | (s, some n) => (s.beginSeg x n 0 pool w p, some (mkSeg n 0, true))

/-- The checks of R95, R104 and R265. -/
def segOpenCheck (j : Job) (s : State) : Bool :=
  let x := j.fld 2 1
  let pool := j.fld 3 1
  let w := j.fld 4 1
  let p := j.fld 5 1
  s.flag F.SEG_CTL_EN && j.zero 6 63 && decide (x ≤ 4 ∧ pool ≤ 15 ∧ 4 ≤ w ∧ w ≤ 16 ∧ 1 ≤ p ∧ p ≤ (if x = 4 then 4 else 3)) &&
    (s.stream x).seg.isNone && (s.pool pool).valid && decide (w + p ≤ (s.pool pool).n)

/-- SEG.OPEN. -/
def segOpen (j : Job) (s : State) : JobDo :=
  match s.openSeg (j.fld 2 1) (j.fld 3 1) (j.fld 4 1) (j.fld 5 1) with
  | (s, none) => .done s 0 (.st stNoSpace)
  | (s, some (g, fresh)) =>
    if fresh ∧ !s.flag F.JRN_CTL_SINGLE then
      .taken { s with seg := { s.seg with opens := s.seg.opens ++ [{ job := some j, band := segBand g, seg := g }] } }
    else .done s 0 { status := stDone, aux := 0, result := g }

/-- SEG.OPEN at the head of a ring. -/
def execSegOpen (cl : Nat) (s : State) : Res := .next (s.runJob 0x08 0 cl (isOp 1) segOpenCheck segOpen)

/-! SEG.APPEND (R261). -/

/-- How a placement ends: no open segment, full, no room in the buffer yet, or done with the map entry. -/
inductive Placed where
  | noSeg (s : State)
  | full (s : State)
  | wait
  | ok (s : State) (entry : Nat)

/-- Place a grain on a stream: `g` gives VOL, LBA, SEQ, EPOCH, FLAGS and CRC. Under rule 4 of R261 the current stripe closes too (R262). -/
def State.placeGrain (s : State) (x : Nat) (g : GDesc) (cells : List Byte) : Placed :=
  let y := s.stream x
  let n := cells.length / 64
  match y.seg with
  | none => .noSeg s
  | some seg =>
    match y.place n with
    | none => .full (s.closeStripe x)
    | some (k, c, close) =>
      if 64 ≤ y.flight.length ∨ (close ∧ y.begun ∧ 63 ≤ y.flight.length) then .wait
      else
        let s := if close then s.closeStripe x else s
        let y := s.stream x
        if y.seg = none then .noSeg s
        else
          let s := if y.begun then s else s.setBytes (s.bufPage x y.closed 0) (List.replicate (2 ^ 19) 0)
          let a := s.bufPage x y.closed (k % y.w)
          let nd := if k = y.page ∧ y.begun then y.ndesc else 0
          let s := s.setBytes (a + 16 + 24 * nd) ({ g with cell := c, lenm1 := n - 1 } : GDesc).bytes
          let s := (s.stMem (a + 498) 1 (nd + 1)).setBytes (a + 512 + 64 * c) cells
          .ok (s.setStream x { y with page := k, cell := c + n, ndesc := nd + 1, begun := true })
            (mkEntry seg (k * 248 + c) (n - 1) (bitOf g.flags 0))

/-- The checks of R95, R104 and R261. -/
def segAppendCheck (j : Job) (s : State) : Bool :=
  s.flag F.SEG_CTL_EN && j.zero 5 5 && j.zero 29 31 && j.zero 40 63 && decide (j.fld 2 1 ≤ 4 ∧ j.fld 3 1 < 64 ∧ j.fld 4 1 ≤ 1) &&
    decide (j.fld 6 2 < 16384 ∨ 65534 ≤ j.fld 6 2) && s.inHandle (j.fld 8 8) (j.fld 16 4) (64 * (j.fld 3 1 + 1))

/-- SEG.APPEND. -/
def segAppend (j : Job) (s : State) : JobDo :=
  match s.unitRead (hAddr (j.fld 8 8) (j.fld 16 4)) (64 * (j.fld 3 1 + 1)) with
  | (s, none) => .memErr s 0x08 0
  | (s, some d) =>
    match s.placeGrain (j.fld 2 1) { vol := j.fld 6 2, lba := j.fld 24 5, seq := j.fld 32 8, epoch := s.rd F.SEG_EPOCH_EPOCH, cell := 0
                                     lenm1 := 0, flags := j.fld 4 1, crc := j.fld 20 4 } d with
    | .noSeg s => .done s 0 { status := stNoSpace, aux := 2, result := 0 }
    | .full s => .done s 0 { status := stNoSpace, aux := 1, result := 0 }
    | .wait => .held s
    | .ok s e => .done (s.ctr F.SEG_APPENDS_CTR) (j.fld 8 8) { status := stDone, aux := 0, result := e }

/-- SEG.APPEND at the head of a ring. -/
def execSegAppend (cl : Nat) (s : State) : Res := .next (s.runJob 0x08 0 cl (isOp 2) segAppendCheck segAppend)

/-! SEG.SEAL and SEG.SYNC (R262). -/

/-- The checks of both. -/
def segStreamCheck (j : Job) (s : State) : Bool := s.flag F.SEG_CTL_EN && j.zero 3 63 && decide (j.fld 2 1 ≤ 4)

/-- SEG.SEAL; with no open segment it has nothing to close. -/
def segSeal (j : Job) (s : State) : JobDo := .done (s.endSeg (j.fld 2 1)) 0 (.st stDone)

/-- Close the current stripe of a stream and wait for its stripes; `job` is none for the device's own sync. -/
def State.syncStream (s : State) (x : Nat) (job : Option Job) (status : Nat := stDone) (aux : Nat := 0) (result : Nat := 0) :
    State :=
  let s := s.closeStripe x
  let y := s.stream x
  (s.setStream x { y with syncs := y.syncs ++ [{ job := job, status := status, aux := aux, result := result, upTo := y.closed, bad := y.lost }], lost := false }).syncsEval x

/-- SEG.SEAL at the head of a ring. -/
def execSegSeal (cl : Nat) (s : State) : Res := .next (s.runJob 0x08 0 cl (isOp 3) segStreamCheck segSeal)

/-- SEG.SYNC at the head of a ring. -/
def execSegSync (cl : Nat) (s : State) : Res :=
  .next (s.runJob 0x08 0 cl (isOp 4) segStreamCheck (fun j s => .taken (s.syncStream (j.fld 2 1) (some j))))

/-! The programs of a closed stripe (R262, R263). -/

/-- A program of a unit has failed: the unit is RETIRED (R315). -/
def State.unitFailed (s : State) (u : Nat × Nat × Nat) : State := if s.ownDie u.2.1 then s.eutRetire u.1 (u.2.1 % 128) u.2.2 else s

/-- Program one page of a stripe: positions missing so far, and whether a sled answered LEASE_STALE. -/
def State.programPos (s : State) (x : Nat) (f : Flight) (bad q : Nat) : State × Bool × Bool :=
  let n := segBand f.seg
  let b := s.band n
  if b.pstate q ≠ 0 then (s, true, false)
  else
    let u := b.at_ q
    match s.mediaProgram u.1 u.2.1 u.2.2 (64 * segSlot f.seg + f.stripe) false (bitOf bad q) (s.bytes (s.bufPage x f.num q) pageBytes) with
    | .ok s => (s, false, false)
    | .stale s => (s.staleDown u.1, true, true)
    | .refused s => (s.failPos n q, true, false)
    | .fail s => ((s.unitFailed u).failPos n q, true, false)

/-- Program the pages of a stripe: the mask of positions missing, and LEASE_STALE. -/
def State.programAll (s : State) (x : Nat) (f : Flight) (bad : Nat) : List Nat → State × Nat × Bool
  | [] => (s, 0, false)
  | q :: qs =>
    let r := s.programPos x f bad q
    if r.2.2 then (r.1, 0, true)
    else
      let t := r.1.programAll x f bad qs
      (t.1, t.2.1 + (if r.2.1 then 2 ^ q else 0), t.2.2)

/-- The oldest stripe of a stream has ended. -/
def State.flightEnd (s : State) (x : Nat) : State :=
  (s.updStream x (fun y => { y with flight := y.flight.tail, ended := y.ended + 1 })).syncsEval x

/-- Number of bits of a mask of positions. -/
def countBits (m n : Nat) : Nat := ((List.range n).filter (fun i => bitOf m i)).length

/-- The programs of the oldest closed stripe of a stream complete; `bad` names the positions whose program the sled reports
failed. A stripe waits while the partner has not acknowledged its band's record (R265), or
while media writes are held and its programs had not been issued (R424). One that is LOST ends when it is in the LOST table (R283). -/
def State.stripeDone (s : State) (x bad : Nat) : State :=
  match (s.stream x).flight with
  | [] => s
  | f :: _ =>
    let lost := fun (s : State) (mask : Nat) (g : State → State) =>
      if (s.lostFind f.seg f.stripe).isSome ∧ f.dead then g s
      else
        match s.declareLost f.seg f.stripe mask with
        | some s => g s
        | none => (s.lostFull f.seg).updStream x (fun y => { y with flight := { f with dead := true } :: y.flight.tail })
    if f.dead then lost s (2 ^ (f.w + f.p) - 1) (fun s => s.flightEnd x)
    else if s.mediaHold ∧ (f.sent = false ∨ s.life = .down ∨ s.life = .cold) then s
    else if s.seg.opens.any (fun o => decide (o.band = segBand f.seg)) then s
    else
      let r := s.programAll x f bad (List.range (f.w + f.p))
      if r.2.2 then r.1
      else
        let s := r.1
        if countBits r.2.1 (f.w + f.p) ≤ f.p then (s.ctr F.SEG_STRIPES_CTR).flightEnd x
        else lost (s.updStream x (fun y => y.markLost f.num)) r.2.1 (fun s => s.flightEnd x)

/-! SEG.READ (R118, R268 to R270). -/

/-- The stripe number of a stream's buffer that still holds a stripe of a segment. -/
def State.inBuffer (s : State) (seg stripe : Nat) : Option (Nat × Nat) :=
  let x := (s.band (segBand seg)).stream
  let y := s.stream x
  match y.flight.find? (fun f => decide (f.seg = seg ∧ f.stripe = stripe) && !f.dead) with
  | some f => some (x, f.num)
  | none => if y.seg = some seg ∧ y.begun ∧ y.page / max 1 y.w = stripe then some (x, y.closed) else none

/-- The descriptor of a page that starts at a cell with a length. -/
def findDesc (d : List Byte) (cell lenm1 : Nat) : Option GDesc :=
  (pageDescs d).find? (fun g => decide (g.cell = cell ∧ g.lenm1 = lenm1))

/-- Page index of a stripe in its erase units. -/
def pageIndex (seg stripe : Nat) : Nat := 64 * segSlot seg + stripe

/-- What the media holds of a position of a stripe; `bad` names the positions whose page the sled finds uncorrectable. -/
def State.readPos (s : State) (seg stripe q bad : Nat) : MediaRead :=
  let u := (s.band (segBand seg)).at_ q
  s.mediaRead u.1 u.2.1 u.2.2 (pageIndex seg stripe) (bitOf bad q)

/-- T − now of the die of a position: its horizon, none for a foreign die, and at least the rest of a background read in progress
there (R270). -/
def State.posHzn (s : State) (n q : Nat) : Nat :=
  let u := (s.band n).at_ q
  max (if s.ownDie u.2.1 then s.hzn (ownIndex u.1 u.2.1) else 0) (s.bgLeft u.1 u.2.1)

/-- Book a read of a position's die (R118): BOOKED becomes TREAD after the later of now, REPORTED and BOOKED, on the suspend path too
(DESIGN CHOICE, assumption log 88). -/
def State.bookRead (s : State) (n q : Nat) : State :=
  let u := (s.band n).at_ q
  if s.ownDie u.2.1 then s.book (ownIndex u.1 u.2.1) (s.hzn (ownIndex u.1 u.2.1) + s.tread) else s

/-- Sort positions by horizon, lowest position first on a tie. -/
def State.insertPos (s : State) (n q : Nat) : List Nat → List Nat
  | [] => [q]
  | r :: l => if s.posHzn n q < s.posHzn n r then q :: r :: l else r :: s.insertPos n q l

/-- The positions of a band that can be read, but for `not`: OK, on a lane that is UP; the earliest horizon first (R118, R269). -/
def State.okPositions (s : State) (n not : Nat) : List Nat :=
  let b := s.band n
  ((List.range b.n).filter (fun q => decide (q ≠ not ∧ b.pstate q = 0) && s.laneUp (b.at_ q).1)).foldl (fun acc q => s.insertPos n q acc) []

/-- Send the read of a position's page: a foreground one is booked; a background one books nothing (R116, R118, R270). -/
def State.posRead (s : State) (seg stripe q : Nat) (susp bg : Bool) : State :=
  let n := segBand seg
  let u := (s.band n).at_ q
  let s := if bg then s else s.bookRead n q
  s.readStart u.1 u.2.1 u.2.2 (pageIndex seg stripe) susp bg

/-- Pages read for a decode: the state, the positions whose page passed its head check, those whose page could not be read or failed
it, and the lane of a LEASE_STALE, which ends the reading. -/
structure Gathered where
  s : State
  good : List Nat
  failed : List Nat
  stale : Option Nat

/-- Read pages of a stripe from a list of positions until `need` of them have passed (R269, R277). -/
def State.gather (seg stripe bad : Nat) (bg : Bool) : List Nat → Nat → State → Gathered
  | [], _, s => { s := s, good := [], failed := [], stale := none }
  | _ :: _, 0, s => { s := s, good := [], failed := [], stale := none }
  | q :: qs, need + 1, s =>
    let s' := s.posRead seg stripe q false bg
    match s.readPos seg stripe q bad with
    | .stale => { s := s', good := [], failed := [], stale := some ((s.band (segBand seg)).at_ q).1 }
    | .page d =>
      if s.tagOk seg stripe q d then
        let r := State.gather seg stripe bad bg qs need s'
        { r with good := q :: r.good }
      else
        let r := State.gather seg stripe bad bg qs (need + 1) s'
        { r with failed := q :: r.failed }
    | _ =>
      let r := State.gather seg stripe bad bg qs (need + 1) s'
      { r with failed := q :: r.failed }

/-- Read for a decode of a stripe without position `not`: W pages, from the earliest horizons. -/
def State.gatherFor (s : State) (seg stripe bad not : Nat) (bg : Bool) : Gathered :=
  State.gather seg stripe bad bg (s.okPositions (segBand seg) not) (s.band (segBand seg)).w s

/-- Does a background read of some position of a list have to wait (R270)? -/
def State.bgBusy (s : State) (n : Nat) (qs : List Nat) : Bool :=
  qs.any (fun q => let u := (s.band n).at_ q; s.bgWaits u.1 u.2.1)

/-- The bytes of a position's page, where it can be read. -/
def State.posBytes (s : State) (seg stripe q bad : Nat) : List Byte :=
  match s.readPos seg stripe q bad with
  | .page d => d
  | _ => []

/-- The data of a stripe from W positions. -/
def State.stripeData (s : State) (seg stripe bad : Nat) (qs : List Nat) : List (List Byte) :=
  rsData (s.band (segBand seg)).w (qs.map (fun q => (q, headless (s.posBytes seg stripe q bad))))

/-- A page of a position rebuilt from the data of its stripe, with its head. -/
def State.rebuiltPage (s : State) (seg stripe q : Nat) (data : List (List Byte)) : List Byte :=
  (s.tagAt seg stripe q).bytes ++ (rsPos (s.band (segBand seg)).w pageBytes q data).drop 16

/-- HCHECK and EPOCH of a data page as reconstructed (R268 step 6). -/
def State.rebuiltOk (s : State) (seg q : Nat) (d : List Byte) : Bool :=
  let b := s.band (segBand seg)
  decide (b.w ≤ q) || (hcheckOk d && decide (lfld d 496 2 = b.epoch))

/-- The mask of positions of a stripe but those that were read. -/
def BandRec.missMask (b : BandRec) (good : List Nat) : Nat :=
  (List.range b.n).foldl (fun m q => if good.contains q then m else m + 2 ^ q) 0

/-- The parity engine that a decode is booked to: the one whose horizon is earliest, the lowest number on a tie (R112, R269). -/
def State.parityEngine (s : State) : Nat := (minBy (fun e => s.hzn (8256 + e)) (List.range 4)).getD 0

/-- Book a decode to a parity engine's horizon: TDECODE after the later of now and that horizon (R118, R269). -/
def State.bookDecode (s : State) : State :=
  let i := 8256 + s.parityEngine
  s.book i (s.hzn i + s.rd F.WKT_RDPOL_TDECODE)

/-- The path of a read (R118): 0 direct, 1 reconstruct, 2 suspend and read. MODE 2 with fewer than W other positions OK reads directly
(DESIGN CHOICE, assumption log 100). -/
def State.readPath (s : State) (mode seg q : Nat) : Nat :=
  let n := segBand seg
  let b := s.band n
  let u := b.at_ q
  let others := s.okPositions n q
  let canRecon := decide (b.w ≤ others.length)
  let canSusp := s.flag F.WKT_CTL_SUSP_EN && (s.dieOp u.1 u.2.1).any (fun o => decide (o.susps < s.rd F.WKT_RDPOL_SUSP_MAX))
  if b.pstate q ≠ 0 then 1
  else if mode = 1 then 0
  else if mode = 3 then 2
  else if mode = 2 then b2n canRecon
  else if !s.ownDie u.2.1 then 2
  else
    let tDirect := s.posHzn n q + s.tread
    let tRecon := ((others.take b.w).map (s.posHzn n)).foldl max 0 + s.tread + s.rd F.WKT_RDPOL_TDECODE
    let tSusp := s.tsusp + s.tread
    if tDirect ≤ 1000 * s.rd F.WKT_RDPOL_DIRECT_OK then 0
    else if canRecon && s.flag F.WKT_CTL_RECON_EN then if canSusp && decide (tSusp < tRecon) then 2 else 1
    else if canSusp then 2
    else 0

/-- How the reading of a page ends: the page; LOST; its checks fail; a LEASE_STALE; or it waits for room in the LOST table. -/
inductive PageGot where
  | page (s : State) (d : List Byte)
  | lost (s : State)
  | tagFail (s : State)
  | stale (s : State)
  | wait (s : State)

/-- How a reconstruction ends: a page; too few pages, with those that were read; or a LEASE_STALE. -/
inductive Recon where
  | ok (s : State) (d : List Byte)
  | few (s : State) (good : List Nat)
  | stale (s : State)

/-- Reconstruct a page of a position (R269). -/
def State.recon (s : State) (seg stripe q bad : Nat) (bg : Bool) : Recon :=
  let g := s.gatherFor seg stripe bad q bg
  match g.stale with
  | some l => .stale (g.s.staleDown l)
  | none =>
    if g.good.length < (s.band (segBand seg)).w then .few g.s g.good
    else
      let d := s.rebuiltPage seg stripe q (s.stripeData seg stripe bad g.good)
      .ok ((if bg then g.s else g.s.bookDecode).ctr F.SEG_RECON_CTR) d

/-- A stripe has too few pages: LOST, once it is in the table (R283). -/
def State.pageLost (s : State) (seg stripe : Nat) (good : List Nat) : PageGot :=
  match s.declareLost seg stripe ((s.band (segBand seg)).missMask good) with
  | some s => .lost s
  | none => .wait (s.lostFull seg)

/-- Read by reconstruction after a direct read that failed (R269): the page is reported SUSPECT. `ok` is the rest of step 6. -/
def State.retryPage (s : State) (seg stripe q bad : Nat) (bg : Bool) (ok : List Byte → Bool) : PageGot :=
  let b := s.band (segBand seg)
  match s.recon seg stripe q bad bg with
  | .stale s => .stale s
  | .few s good => s.pageLost seg stripe good
  | .ok s d => if s.rebuiltOk seg q d && ok d then .page (s.segReport 2 b.stream seg (stripe * b.w + q)) d else .tagFail s

/-- Read directly, or with a suspension (R268 steps 5 and 6); `retry` follows a read that fails. -/
def State.directPage (s : State) (seg stripe q bad : Nat) (susp bg : Bool) (ok : List Byte → Bool) (retry : State → PageGot) : PageGot :=
  let s' := s.posRead seg stripe q susp bg
  match s.readPos seg stripe q bad with
  | .stale => .stale (s'.staleDown ((s.band (segBand seg)).at_ q).1)
  | .page d => if s.dataPageOk seg stripe q d && ok d then .page s' d else retry s'
  | _ => retry s'

/-- Read a data page by the path chosen; a reconstruction that finds too few pages leaves a position that is OK to a direct read. -/
def State.getPage (s : State) (mode seg stripe q bad : Nat) (bg : Bool) (ok : List Byte → Bool) : PageGot :=
  let path := s.readPath mode seg q
  if path = 1 then
    match s.recon seg stripe q bad bg with
    | .stale s => .stale s
    | .ok s d => if s.rebuiltOk seg q d && ok d then .page s d else .tagFail s
    | .few s good =>
      if (s.band (segBand seg)).pstate q = 0 then s.directPage seg stripe q bad false bg ok (fun s => s.pageLost seg stripe good)
      else s.pageLost seg stripe good
  else s.directPage seg stripe q bad (decide (path = 2)) bg ok (fun s => s.retryPage seg stripe q bad bg ok)

/-- The checks of R95 and R104. -/
def segReadCheck (j : Job) (s : State) : Bool :=
  let seg := j.fld 4 4
  let b := s.band (segBand seg)
  s.flag F.SEG_CTL_EN && j.zero 12 15 && j.zero 28 63 && decide (j.fld 2 1 ≤ 3 ∧ j.fld 3 1 < 64 ∧ j.fld 8 4 < 2 ^ 18) &&
    s.inHandle (j.fld 16 8) (j.fld 24 4) (64 * (j.fld 3 1 + 1)) && decide (j.fld 8 4 % 248 + j.fld 3 1 ≤ 247) &&
    (decide (b.state = 0) || decide (j.fld 8 4 < 64 * b.w * 248))

/-- How the reading of a grain ends: its descriptor and cells; a status; or it waits for room in the LOST table. -/
inductive GrainGot where
  | grain (s : State) (g : GDesc) (cells : List Byte)
  | ends (s : State) (status : Nat)
  | wait (s : State)

/-- The grain of a page at a cell. -/
def State.cutGrain (s : State) (d : List Byte) (cell lenm1 : Nat) : GrainGot :=
  match findDesc d cell lenm1 with
  | some g => .grain s g (pageCells d cell (lenm1 + 1))
  | none => .ends (s.ctr F.SEG_TAG_FAIL_CTR) stTag

/-- Read the cells of a grain (R268). -/
def State.readGrain (s : State) (mode seg cellNo lenm1 bad : Nat) : GrainGot :=
  let b := s.band (segBand seg)
  let k := cellNo / 248
  let cell := cellNo % 248
  let t := k / max 1 b.w
  let q := k % max 1 b.w
  if !b.liveSlot (segSlot seg) then .ends s stRefused
  else if s.isLost seg t q then .ends s stLost
  else
    match s.inBuffer seg t with
    | some (x, num) =>
      match s.unitRead (s.bufPage x num q) pageBytes with
      | (s, none) => .ends s stCheck
      | (s, some d) => s.cutGrain d cell lenm1
    | none =>
      match s.getPage mode seg t q bad false (fun d => (findDesc d cell lenm1).isSome) with
      | .lost s => .ends s stLost
      | .tagFail s => .ends (s.ctr F.SEG_TAG_FAIL_CTR) stTag
      | .stale s => .ends s stLease
      | .wait s => .wait s
      | .page s d => s.cutGrain d cell lenm1

/-- Does a read of a grain wait for room in the LOST table (R283)? -/
def State.grainWaits (s : State) (seg cellNo : Nat) : Bool :=
  let w := max 1 (s.band (segBand seg)).w
  s.seg.heldBy.contains (lostBucket seg) && !s.isLost seg (cellNo / 248 / w) (cellNo / 248 % w)

/-- SEG.READ; `bad` names the positions whose page the sled finds uncorrectable. -/
def segRead (bad : Nat) (j : Job) (s : State) : JobDo :=
  match s.readGrain (j.fld 2 1) (j.fld 4 4) (j.fld 8 4) (j.fld 3 1) bad with
  | .wait s => .held s
  | .ends s c => if c = stCheck then .memErr s 0x08 0 else .done s 0 { status := c, aux := b2n (decide (c = stRefused)), result := 0 }
  | .grain s g cells =>
    let r := s.eccWrite (hAddr (j.fld 16 8) (j.fld 24 4)) cells
    if r.2 then .done r.1 0 { status := stDone, aux := 0, result := g.crc + g.epoch * 2 ^ 32 } else .memErr r.1 0x08 0

/-- SEG.READ at the head of a ring. -/
def execSegRead (cl bad : Nat) (s : State) : Res := .next (s.runJob 0x08 0 cl (isOp 5) segReadCheck (segRead bad))

/-! SEG.RELEASE (R267). -/

/-- Is a segment a stream's open segment? -/
def State.segOpenNow (s : State) (seg : Nat) : Bool := s.seg.streams.any (fun p => decide (p.2.seg = some seg))

/-- The checks of R95 and R267. -/
def segReleaseCheck (j : Job) (s : State) : Bool :=
  let seg := j.fld 4 4
  s.flag F.SEG_CTL_EN && j.zero 2 3 && j.zero 8 63 && (s.band (segBand seg)).liveSlot (segSlot seg) && !s.segOpenNow seg

/-- Release a slot. -/
def State.releaseSlot (s : State) (seg : Nat) : State :=
  let n := segBand seg
  let b := s.band n
  ((s.setBand n { b with slots := setBitsOf b.slots (segSlot seg) 1 0 }).lostClear seg).tryRelease n

/-- SEG.RELEASE; it waits while stripes of the segment are in flight. -/
def segRelease (j : Job) (s : State) : JobDo :=
  if s.seg.streams.any (fun p => p.2.flight.any (fun f => decide (f.seg = j.fld 4 4))) then .held s
  else .done (s.releaseSlot (j.fld 4 4)) 0 (.st stDone)

/-- SEG.RELEASE at the head of a ring. -/
def execSegRelease (cl : Nat) (s : State) : Res := .next (s.runJob 0x08 0 cl (isOp 6) segReleaseCheck segRelease)

/-! Failed lanes and positions (R274). -/

/-- A write of `SEG_LANE`. -/
def State.segLane (s : State) (v : Nat) : State :=
  let newly := maskOff v (s.rd F.SEG_LANE_FAILED)
  let s := s.wr F.SEG_LANE_FAILED v
  foldSt (fun n (s : State) =>
    foldSt (fun q (s : State) => if bitOf newly ((s.band n).at_ q).1 then s.failPos n q else s) (List.range (s.band n).n) s) s.bandsListed s

/-- A write of `SEG_LANE`. -/
def execSegLaneWrite (v : Nat) (s : State) : Res := .next (s.segLane (v % 2 ^ 64))

/-- A write of `SEG_RBLD_ADD`. -/
def State.segRbldAdd (s : State) (v : Nat) : State := s.failPos (bitsOf v 0 24) (bitsOf v 24 5)

/-- A write of `SEG_RBLD_ADD`. -/
def execSegRbldAddWrite (v : Nat) (s : State) : Res := .next (s.segRbldAdd v)

/-! The census (R271, R272). -/

/-- Have the four bases been written (R289)? -/
def State.segBases (s : State) : Bool :=
  [F.SEG_BAND_BASE_ADDR.off, F.SEG_LAYOUT_BASE_ADDR.off, F.SEG_LOST_BASE_ADDR.off, F.SEG_BUF_BASE_ADDR.off].all (fun o => s.locked.contains o)

/-- The census starts. -/
def State.segCensus (s : State) : State :=
  if !s.flag F.SEG_CTL_EN ∧ s.segBases then State.setFlag { s with seg := { s.seg with census := true } } F.SEG_STATUS_CENSUS_BUSY else s

/-- The census starts. -/
def execSegCensus (s : State) : Res := .next s.segCensus

/-- An erase unit the census found: lane, die, unit and the head of its page 0. -/
structure Found where
  lane : Nat
  die : Nat
  eu : Nat
  tag : PageTag
  epoch : Nat
  deriving DecidableEq, Repr

/-- Does a header read of the census come back UNCORRECTABLE? A free value (assumption log 101). -/
def State.censusBad (s : State) (lane die eu page : Nat) : Bool := Config.headerBad s.freeCtr (2 ^ 40 * lane + pageKey die eu page)

/-- The erase units of a lane whose page 0 has a head that passes, from NEU upward. -/
def State.headsOn (s : State) (lane : Nat) : List Found :=
  if s.laneUp lane then
    (s.sled lane).pages.filterMap (fun p =>
      let eu := p.1 / 2 ^ 16 % 2 ^ 32
      if p.1 % 2 ^ 16 = 0 ∧ s.rd F.JRN_VGEOM_NEU ≤ eu ∧ headOk p.2 then
        some { lane := lane, die := p.1 / 2 ^ 48, eu := eu, tag := tagOf p.2, epoch := lfld p.2 496 2 }
      else none)
  else []

/-- Those of them whose header the census can read. -/
def State.foundOn (s : State) (lane : Nat) : List Found := (s.headsOn lane).filter (fun f => !s.censusBad lane f.die f.eu 0)

/-- Does a header read find a page whose head passes at an index of a found unit? A fenced port may issue it (R307). -/
def State.foundPage (s : State) (f : Found) (i : Nat) : Bool :=
  match s.mediaHeader f.lane f.die f.eu i (s.censusBad f.lane f.die f.eu i) with
  | .page d => headOk d
  | _ => false

/-- The one of two units of one position that the census keeps, and the other (R272). -/
def State.keepFound (s : State) (a b : Found) : Found × Found :=
  let (hi, lo) := if laterThan 3 a.tag.move b.tag.move then (a, b) else (b, a)
  if s.foundPage hi ((((s.sled lo.lane).eu lo.die lo.eu).top) - 1) then (hi, lo) else (lo, hi)

/-- Enter a found unit: units kept and units handed to the Mule. -/
def State.enterFound (s : State) (acc : List Found × List Found) (f : Found) : List Found × List Found :=
  match acc.1.find? (fun g => decide (segBand g.tag.seg = segBand f.tag.seg ∧ g.tag.pos = f.tag.pos)) with
  | none => (acc.1 ++ [f], acc.2)
  | some g =>
    let r := s.keepFound g f
    (acc.1.map (fun x => if x = g then r.1 else x), acc.2 ++ [r.2])

/-- The highest slot whose stripe 0 head passes on some position, by binary search between `lo` and `hi` (R271). -/
def State.topSlot (s : State) (us : List Found) : Nat → Nat → Nat → Nat
  | 0, lo, _ => lo
  | fuel + 1, lo, hi =>
    if hi ≤ lo then lo
    else
      let mid := (lo + hi + 1) / 2
      if us.any (fun f => s.foundPage f (64 * mid)) then s.topSlot us fuel mid hi else s.topSlot us fuel lo (mid - 1)

/-- The record of a band from its units. Its pool is the lowest VALID one that holds a lane of it; a position with no unit is
FAILED, and so queued for rebuild and reported (assumption log 23). -/
def State.censusRec (s : State) (us : List Found) (f : Found) : BandRec :=
  let em1 := (s.sled f.lane).geo.emib - 1
  let pool := ((List.range 16).find? (fun p => (s.pool p).valid && bitOf (s.pool p).sleds f.lane)).getD 0
  let dataEpoch := ((us.find? (fun u => decide (u.tag.pos < u.tag.w))).map (fun u => u.epoch)).getD 0
  let top := s.topSlot us 9 0 em1
  let miss := (List.range (f.tag.w + f.tag.p)).filter (fun q => !us.any (fun u => decide (u.tag.pos = q)))
  let b : BandRec := { state := 2, hasLost := false, stream := f.tag.stream, pool := pool, w := f.tag.w, p := f.tag.p, em1 := em1
                       epoch := dataEpoch, birth := f.tag.birth / 256, pst := 0, slots := 2 ^ (top + 1) - 1, pos := List.replicate 20 0 }
  let b := us.foldl (fun (b : BandRec) u => b.setPos u.tag.pos u.lane u.die u.eu) b
  miss.foldl (fun (b : BandRec) q => b.setPstate q 1) b

/-- Enter one band; its FAILED positions are queued. -/
def State.censusBand (s : State) (all : List Found) (f : Found) : State :=
  let n := segBand f.tag.seg
  let us := all.filter (fun u => decide (segBand u.tag.seg = n))
  let b := s.censusRec us f
  let s := s.setBytes (s.bandAddr n) b.bytes
  let s := foldSt (fun (u : Found) (s : State) => s.setMove n u.tag.pos u.tag.move) us s
  let s := foldSt (fun q (s : State) => if b.pstate q = 1 then s.queueFailed n q else s) (List.range b.n) s
  if s.rd F.SEG_BIRTH_NEXT ≤ b.birth then s.wr F.SEG_BIRTH_NEXT (b.birth + 1) else s

/-- The first found unit of every band. -/
def firstOfBands : List Found → List Found
  | [] => []
  | f :: l => f :: (firstOfBands l).filter (fun g => decide (segBand g.tag.seg ≠ segBand f.tag.seg))

/-- The census: the band table from the media. -/
def State.censusDo (s : State) : State :=
  let base := s.rd F.SEG_BAND_BASE_ADDR * 2 ^ 31
  let r := ((List.range s.fuse.variant.lanes).flatMap s.foundOn).foldl s.enterFound ([], [])
  let s := { s with mem := s.mem.filter (fun c => !decide (base ≤ c.1 ∧ c.1 < base + 2 ^ 31)), seg := { s.seg with moves := [], streams := [], failed := [], noRepl := [] } }
  let s := foldSt (fun (f : Found) (s : State) => s.censusBand r.1 f) (firstOfBands r.1) s
  if s.flag F.MUL_CTL_LOADED then
    foldSt (fun (f : Found) (s : State) => if s.ownDie f.die then s.unitDirty (f.lane, f.die % 128, f.eu) else s) r.2 s
  else s

/-- The census completes. -/
def execSegCensusDone (s : State) : Res :=
  .next (if s.seg.census then
      let s := s.censusDo.nextFree
      (State.clrFlag { s with seg := { s.seg with census := false } } F.SEG_STATUS_CENSUS_BUSY).setFlag F.SEG_CTL_CENSUS_DONE
    else s)

/-- A write of `SEG_CTL` (R271, R289). -/
def State.segCtl (s : State) (v : Nat) : State :=
  let s := if bitOf v 0 ∧ s.flag F.SEG_CTL_CENSUS_DONE ∧ s.segBases then s.setFlag F.SEG_CTL_EN
    else if bitOf v 0 then s else s.clrFlag F.SEG_CTL_EN
  if bitOf v 1 then s.segCensus else s

end Sys2Proof.Machine
end

