-- ==== Sys2Proof/Machine/MapLine.lean ====
section
/-! DEFINITION. The map cache's lines (R225 to R236): view records, set headers, replacement, the victim buffer, node reads. -/

namespace Sys2Proof.Machine

/-! Geometry and view records (R228, R231, R232). -/

/-- SETS. -/
def State.mapSets (s : State) : Nat := s.fuse.variant.mapGib * 16384

/-- Address of line `n` = 16 × set + way. -/
def State.lineAddr (s : State) (n : Nat) : Nat := s.rd F.MAP_BASE_ADDR * 2 ^ 30 + 4096 * n

/-- Address of a set's header. -/
def State.hdrAddr (s : State) (set : Nat) : Nat := s.rd F.MAP_HDR_BASE_ADDR * 2 ^ 26 + 256 * set

/-- Address of a view record. -/
def State.recAddr (s : State) (v : Nat) : Nat := s.rd F.MAP_VIEW_BASE_ADDR * 2 ^ 26 + 32 * v

/-- A field of a view record. -/
def State.vrec (s : State) (v off n : Nat) : Nat := s.ldMem (s.recAddr v + off) n

/-- Write a field of a view record; its page has changed. -/
def State.setVrec (s : State) (v off n x : Nat) : State :=
  let s := s.stMem (s.recAddr v + off) n x
  { s with map := { s.map with viewDirty := addNat s.map.viewDirty (v / 128) } }

/-- ROOT. -/
def State.vRoot (s : State) (v : Nat) : Nat := s.vrec v 0 8
/-- LINEAGE of a volume. -/
def State.lineage (s : State) (vol : Nat) : Nat := s.vrec vol 24 2 % 2 ^ 14
/-- NEWEST_VALID of a volume. -/
def State.newestValid (s : State) (vol : Nat) : Bool := bitOf (s.vrec vol 24 2) 14
/-- CLONE of a volume. -/
def State.isClone (s : State) (vol : Nat) : Bool := bitOf (s.vrec vol 24 2) 15
/-- NEWEST of a volume. -/
def State.newest (s : State) (vol : Nat) : Nat := s.vrec vol 16 4
/-- BASEGEN of a volume. -/
def State.baseGen (s : State) (vol : Nat) : Nat := s.vrec vol 20 4
/-- NVIEWS of a volume. -/
def State.nviews (s : State) (vol : Nat) : Nat := s.vrec vol 26 2
/-- LGEN of a volume's lineage. -/
def State.lgen (s : State) (vol : Nat) : Nat := s.vrec (s.lineage vol) 8 4

/-- The 32 bytes of the live record of a volume never written (R229). -/
def emptyRec (vol : Nat) : List Byte :=
  leBytes 8 zeroEntry ++ leBytes 4 1 ++ leBytes 4 1 ++ leBytes 8 0 ++ leBytes 2 vol ++ leBytes 6 0

/-- The frozen records in use. -/
def State.frozenUsed (s : State) : List Nat :=
  let base := s.recAddr 0
  s.mem.filterMap (fun c =>
    if base + 16384 * 32 ≤ c.1 ∧ c.1 < base + 2 ^ 25 ∧ (c.1 - base) % 32 = 0 ∧ c.2 ≠ 0 then some ((c.1 - base) / 32) else none)

/-- VOL of a frozen record. -/
def State.fVol (s : State) (v : Nat) : Nat := s.vrec v 12 4 % 2 ^ 14
/-- VIEW of a frozen record. -/
def State.fView (s : State) (v : Nat) : Nat := s.vrec v 12 4 / 2 ^ 16
/-- GEN of a frozen record. -/
def State.fGen (s : State) (v : Nat) : Nat := s.vrec v 8 4
/-- BASE of a frozen record. -/
def State.fBase (s : State) (v : Nat) : Bool := bitOf (s.vrec v 16 4) 16
/-- DELETING of a frozen record. -/
def State.fDeleting (s : State) (v : Nat) : Bool := bitOf (s.vrec v 16 4) 17
/-- CLONEVOL of a frozen record. -/
def State.fClone (s : State) (v : Nat) : Nat := s.vrec v 16 4 % 2 ^ 14

/-- The record of a frozen view of a volume. -/
def State.frozenRec (s : State) (vol view : Nat) : Option Nat := s.frozenUsed.find? (fun v => decide (s.fVol v = vol ∧ s.fView v = view))

/-- The set of a key (R232). -/
def State.mapSet (s : State) : MKey → Nat
  | .live vol level index => (index ^^^ (vol * 40503) ^^^ (level * 2 ^ 29)) % s.mapSets
  | .frozen seg cell => (((seg * 4099 + cell) % 2 ^ 32) ^^^ 0x80000000) % s.mapSets

/-- KEY field of a tag. -/
def MKey.bits : MKey → Nat
  | .live vol level index => vol + level * 2 ^ 14 + index * 2 ^ 16
  | .frozen seg cell => seg + cell * 2 ^ 32

/-- Is a key a frozen one? -/
def MKey.isFrozen : MKey → Bool
  | .live _ _ _ => false
  | .frozen _ _ => true

/-- The live key of a level for a grain (R225). -/
def liveKey (vol level g : Nat) : MKey := .live vol level (g >>> (9 * (level + 1)))

/-- Position within the node of a level for a grain. -/
def nodePos (level g : Nat) : Nat := (g >>> (9 * level)) % 512

/-! Set headers (R233). -/

/-- A tag. -/
structure MTag where
  valid : Bool
  dirty : Bool
  frozen : Bool
  isNew : Bool
  key : Nat
  pgen : Nat
  deriving DecidableEq, Repr

/-- The number a tag is. -/
def MTag.num (t : MTag) : Nat :=
  b2n t.valid + 2 * b2n t.dirty + 4 * b2n t.frozen + 8 * b2n t.isNew + t.key % 2 ^ 50 * 2 ^ 8 + t.pgen % 2 ^ 32 * 2 ^ 58

/-- Read a tag. -/
def mtagOf (v : Nat) : MTag :=
  { valid := bitOf v 0, dirty := bitOf v 1, frozen := bitOf v 2, isNew := bitOf v 3, key := bitsOf v 8 50, pgen := bitsOf v 58 32 }

/-- The tag of a line. -/
def State.mtag (s : State) (n : Nat) : MTag := mtagOf (s.ldMem (s.hdrAddr (n / 16) + 16 + 14 * (n % 16)) 14)

/-- Does a set header pass its check? -/
def State.hdrOk (s : State) (set : Nat) : Bool :=
  !s.badIn (s.hdrAddr set) 256 && decide (s.ldMem (s.hdrAddr set + 240) 4 = crc32c (s.bytes (s.hdrAddr set) 240))

/-- Write HCHECK. -/
def State.hdrSum (s : State) (set : Nat) : State := s.stMem (s.hdrAddr set + 240) 4 (crc32c (s.bytes (s.hdrAddr set) 240))

/-- Write the tag of a line. -/
def State.setMtag (s : State) (n : Nat) (t : MTag) : State :=
  (s.stMem (s.hdrAddr (n / 16) + 16 + 14 * (n % 16)) 14 t.num).hdrSum (n / 16)

/-- The key a tag names. -/
def MTag.mkey (t : MTag) : MKey :=
  if t.frozen then .frozen (bitsOf t.key 0 32) (bitsOf t.key 32 18) else .live (bitsOf t.key 0 14) (bitsOf t.key 14 2) (bitsOf t.key 16 27)

/-- Cleans of lost lines complete CHECK_FAIL with MEM_ERR (R97). -/
def State.failCleans (s : State) (p : MKey → Bool) : State :=
  let l := s.map.cleans.filter (fun c => p c.1)
  foldSt (fun (c : MKey × Job) (s : State) => (s.memEvent 0x07 0).complete c.2 0 0 .memErr) l
    { s with map := { s.map with cleans := s.map.cleans.filter (fun c => !p c.1) } }

/-- Read a set's header: single-bit errors are corrected (R487). A header whose check fails is a set with no valid way (R233): it is
written empty, its dirty lines are lost, and the FATAL event is raised. -/
def State.hdrFix (s : State) (set : Nat) : State :=
  let s := s.eccCorrect 0 (s.hdrAddr set) 256
  if s.hdrOk set then s
  else
    let r := s.eccWrite (s.hdrAddr set) (List.replicate 256 0)
    ((r.1.hdrSum set).failCleans (fun k => decide (s.mapSet k = set) && !s.map.vb.any (fun e => decide (e.key = k)))).raise 0x081 set

/-! Replacement (R234). -/

/-- PLRU bits after a use of a way. -/
def plruTouch (bits w : Nat) : Nat :=
  let step := fun (acc : Nat × Nat) (lvl : Nat) =>
    let b := w / 2 ^ lvl % 2
    (setBitsOf acc.1 (acc.2 - 1) 1 (1 - b), 2 * acc.2 + b)
  ([3, 2, 1, 0].foldl step (bits, 1)).1

/-- The way the PLRU bits point at. -/
def plruVictim (bits : Nat) : Nat :=
  ([0, 1, 2, 3].foldl (fun n (_ : Nat) => 2 * n + bitsOf bits (n - 1) 1) 1) - 16

/-- PLRU bits of a set. -/
def State.plru (s : State) (set : Nat) : Nat := s.ldMem (s.hdrAddr set) 2 % 2 ^ 15

/-- A line has been used. -/
def State.touch (s : State) (n : Nat) : State := (s.stMem (s.hdrAddr (n / 16)) 2 (plruTouch (s.plru (n / 16)) (n % 16))).hdrSum (n / 16)

/-- Is a key being written by a commit? -/
def State.mapWriting (s : State) (k : MKey) : Bool :=
  match s.map.commit with
  | some c => c.nodes.any (fun x => decide (x.key = k))
  | none => false

/-- Can a way be reused as the PLRU victim? -/
def State.wayFree (s : State) (n : Nat) : Bool :=
  let t := s.mtag n
  !SMap.has s.map.fills n && !(t.valid && s.mapWriting t.mkey) && !(t.valid && t.dirty && decide (448 < s.map.vb.length))

/-- Is a line CLEAN (R236)? -/
def State.wayClean (s : State) (n : Nat) : Bool :=
  let t := s.mtag n
  t.valid && !t.dirty && !SMap.has s.map.fills n && !s.mapWriting t.mkey

/-- The way for a new line of a set: the PLRU victim, else the lowest-numbered CLEAN one (R234). -/
def State.chooseWay (s : State) (set : Nat) : Option Nat :=
  let n := 16 * set + plruVictim (s.plru set)
  if s.wayFree n then some n else (rangeFrom (16 * set) 16).find? s.wayClean

/-- Content of a line. -/
def State.lineData (s : State) (n : Nat) : List Byte := s.bytes (s.lineAddr n) 4096

/-- A line that cannot be read is dropped; a dirty one is lost: the jobs that wait to clean it fail, and the FATAL event is raised
(R97). -/
def State.dropLine (s : State) (n : Nat) : State :=
  let t := s.mtag n
  let s := s.setMtag n { t with valid := false }
  if t.dirty then (s.failCleans (fun k => decide (k = t.mkey))).raise 0x08E (n / 16) else s

/-- Move a line to the victim buffer (R234): a clean one stays until the fill of `fill` completes, and is dropped where no fill
follows or the buffer is full. -/
def State.evict (s : State) (n : Nat) (fill : Option Nat) : State :=
  let s := s.eccCorrect 0 (s.lineAddr n) 4096
  let t := s.mtag n
  let s' := s.setMtag n { t with valid := false }
  if !t.valid then s
  else if s.badIn (s.lineAddr n) 4096 then s.dropLine n
  else if !t.dirty ∧ (fill.isNone ∨ 512 ≤ s.map.vb.length) then s'
  else
    let e : VbLine := { key := t.mkey, data := s.lineData n, dirty := t.dirty, isNew := t.isNew, pgen := t.pgen
                        fill := if t.dirty then none else fill }
    { s' with map := { s'.map with vb := s'.map.vb ++ [e] } }

/-- Put content into a line. -/
def State.putLine (s : State) (n : Nat) (k : MKey) (data : List Byte) (dirty isNew : Bool) (pgen : Nat) : State :=
  let s := (s.eccWrite (s.lineAddr n) data).1
  (s.setMtag n { valid := true, dirty := dirty, frozen := k.isFrozen, isNew := isNew, key := k.bits, pgen := pgen }).touch n

/-- The clean lines of the victim buffer that waited for a fill leave it. -/
def State.vbFilled (s : State) (n : Nat) : State :=
  { s with map := { s.map with vb := s.map.vb.filter (fun e => decide (e.fill ≠ some n)) } }

/-- Install a line of the victim buffer again (R236). -/
def State.reinstall (s : State) (e : VbLine) : Option State :=
  match s.chooseWay (s.mapSet e.key) with
  | none => none
  | some n =>
    let s := { s with map := { s.map with vb := s.map.vb.filter (fun x => decide (x ≠ e)) } }
    some (((s.evict n none).putLine n e.key e.data e.dirty e.isNew e.pgen).ctr F.MAP_VB_HIT_CTR)

/-! Where a key is. -/

/-- What a look-up of a key finds. -/
inductive Probe where
  | line (n : Nat)
  | vb (e : VbLine)
  | filling (n : Nat)
  | memErr
  | none

/-- The line among the ways of a set that holds a key. -/
def State.lineIn (s : State) (k : MKey) : Option Nat :=
  (rangeFrom (16 * s.mapSet k) 16).find? (fun n =>
    let t := s.mtag n
    t.valid && decide (t.frozen = k.isFrozen ∧ t.key = k.bits))

/-- The line that holds a key: none in a set whose header fails its check (R233). -/
def State.lineOf (s : State) (k : MKey) : Option Nat := if s.hdrOk (s.mapSet k) then s.lineIn k else none

/-- Look a key up: in its set, among the fills, in the victim buffer. A line that cannot be read is dropped (R97). A line that is
filled for a key is found whether its fill is poisoned or not (R236). -/
def State.probe (s : State) (k : MKey) : State × Probe :=
  let s := s.hdrFix (s.mapSet k)
  let miss := fun (s : State) =>
    match s.map.fills.find? (fun p => decide (p.2.key = k)) with
    | some p => (s, Probe.filling p.1)
    | none =>
      match s.map.vb.find? (fun e => decide (e.key = k)) with
      | some e => (s, .vb e)
      | none => (s, .none)
  match s.lineIn k with
  | some n =>
    let s := s.eccCorrect 0 (s.lineAddr n) 4096
    if s.badIn (s.lineAddr n) 4096 then (if (s.mtag n).dirty then (s.dropLine n, .memErr) else miss (s.dropLine n)) else (s, .line n)
  | none => miss s

/-- Content and PGEN of a key's line, in the cache or in the victim buffer. -/
def State.keyGet (s : State) (k : MKey) : State × Option (List Byte × Nat) :=
  match s.probe k with
  | (s, .line n) => (s, some (s.lineData n, (s.mtag n).pgen))
  | (s, .vb e) => (s, some (e.data, e.pgen))
  | (s, _) => (s, none)

/-! Page pointers and node reads (R226, R227). -/

/-- ZERO of a pointer or entry. -/
def eZero (e : Nat) : Bool := bitOf e 5
/-- SHARED of an entry. -/
def eShared (e : Nat) : Bool := bitOf e 6
/-- LOST of a pointer or entry. -/
def eLost (e : Nat) : Bool := bitOf e 7
/-- Set or clear SHARED, with ECHK recomputed (R224). -/
def setShared (e : Nat) (b : Bool) : Nat := withEchk (setBitsOf e 6 1 (b2n b))
/-- Entry without SHARED and ECHK. -/
def eMasked (e : Nat) : Nat := setBitsOf (setBitsOf e 6 1 0) 0 4 0

/-- A word of a line. -/
def State.lineWord (s : State) (n pos : Nat) : Nat := s.ldMem (s.lineAddr n + 8 * pos) 8

/-- What a read of something that a pointer names gives: nothing, where the pointer is ZERO; the thing; a node that cannot be read or
fails its check; or it must wait. -/
inductive Got (α : Type) where
  | zero
  | got (x : α)
  | lost
  | wait

/-- Read a node from media: its content and PGEN. `hi` is LBA[39:32]: the level of a node, or the kind of page times 4 (R227, R273). -/
def State.readNode (s : State) (ptr hi bad : Nat) : State × Got (List Byte × Nat) :=
  match s.readGrain 0 (eSeg ptr) (eCell ptr) 63 bad, SMap.find s.xtsKeys (s.rd F.MAP_CTL_KEYSLOT) with
  | .grain s g cells, some key =>
    let d := xts false key (eSeg ptr * 2 ^ 18 + eCell ptr) cells
    if g.vol = 0xFFFE ∧ g.crc = crc32c d ∧ bitsOf g.lba 32 8 = hi then (s, .got (d, g.lba % 2 ^ 32)) else (s, .lost)
  | .grain s _ _, none => (s, .lost)
  | .ends s c, _ => (if c = stCheck then s.memEvent 0x08 0 else s, .lost)
  | .wait s, _ => (s, .wait)

/-- Start a fill of a key (R236): a way, its old line to the victim buffer. -/
def State.startFill (s : State) (k : MKey) (ptr level : Nat) (waiters : List Job) : Option State :=
  match s.chooseWay (s.mapSet k) with
  | none => none
  | some n =>
    let s := (s.evict n (some n)).ctr F.MAP_MISS_CTR
    some { s with map := { s.map with fills := SMap.put s.map.fills n { key := k, ptr := ptr, level := level, poison := false, waiters := waiters } } }

/-- Put a node into the cache, clean: none where no way is free. -/
def State.install (s : State) (k : MKey) (d : List Byte) (pgen : Nat) : Option (State × Nat) :=
  (s.chooseWay (s.mapSet k)).map (fun n => ((s.evict n none).putLine n k d false false pgen, n))

/-- Read a node into the cache at once, for the device's own walks: its line, or a wait where no way is free. -/
def State.fillNow (s : State) (k : MKey) (ptr level : Nat) : State × Got Nat :=
  match s.chooseWay (s.mapSet k) with
  | none => (s, .wait)
  | some _ =>
    match (s.ctr F.MAP_MISS_CTR).readNode ptr level 0 with
    | (s, .got (d, pgen)) =>
      match s.install k d pgen with
      | some (s, n) => (s, .got n)
      | none => (s, .wait)
    | (s, .wait) => (s, .wait)
    | (s, _) => (s, .lost)

end Sys2Proof.Machine
end

