-- ==== Sys2Proof/Machine/MapReq.lean ====
section
/-! DEFINITION. Requests to the map cache (R236, R242, R243): the walk down a view's tree, GET, SET and SETIF, copy-on-write. -/

namespace Sys2Proof.Machine

/-! The walk (R242). -/

/-- Where a walk ends. -/
inductive MPath where
  /-- The line of the node asked for. -/
  | at_ (n : Nat)
  /-- The node of a level, named by a ZERO pointer. -/
  | zero (level : Nat)
  | lost
  | memErr
  /-- A node that must be read: key, page pointer, level. -/
  | need (k : MKey) (ptr level : Nat)
  | filling (n : Nat)
  | vb (e : VbLine)

/-- A bad ECHK read from a line or a record: LOST, with the FAULT event (R224). -/
def State.echkBad (s : State) (k : MKey) : State := s.raise 0x082 (s.mapSet k)

/-- A pointer to a node that is not in the cache. -/
def State.pathPtr (s : State) (k : MKey) (ptr level : Nat) : State × MPath :=
  if !entryOk ptr then (s.echkBad k, .lost)
  else if eLost ptr then (s, .lost)
  else if eZero ptr then (s, .zero level)
  else (s, .need k ptr level)

/-- The node of a key, named by a pointer where it is not in the cache. -/
def State.pathAt (s : State) (k : MKey) (ptr level : Nat) : State × MPath :=
  match s.probe k with
  | (s, .line n) => (s, .at_ n)
  | (s, .vb e) => (s, .vb e)
  | (s, .filling n) => (s, .filling n)
  | (s, .memErr) => (s, .memErr)
  | (s, .none) => s.pathPtr k ptr level

/-- Walk the live view of a volume from a level and its pointer down to level `stop`. -/
def State.liveDown (vol g stop : Nat) : Nat → Nat → State → State × MPath
  | 0, ptr, s => s.pathAt (liveKey vol 0 g) ptr 0
  | l + 1, ptr, s =>
    match s.pathAt (liveKey vol (l + 1) g) ptr (l + 1) with
    | (s, .at_ n) => if l + 1 = stop then (s, .at_ n) else State.liveDown vol g stop l (s.lineWord n (nodePos (l + 1) g)) (s.touch n)
    | r => r

/-- The lowest level from `stop` up, of those listed, whose node the cache knows. -/
def State.liveKnown (s : State) (vol g : Nat) : List Nat → Option Nat
  | [] => none
  | l :: ls =>
    match (s.probe (liveKey vol l g)).2 with
    | .none => s.liveKnown vol g ls
    | _ => some l

/-- Find the node of level `stop` of a live view: from the lowest node on the path that the cache holds, else from the root. -/
def State.livePath (s : State) (vol g stop : Nat) : State × MPath :=
  match s.liveKnown vol g (rangeFrom stop (4 - stop)) with
  | some l => State.liveDown vol g stop l zeroEntry s
  | none => State.liveDown vol g stop 3 (s.vRoot vol) s

/-- Walk a frozen view from a level and its pointer down to level 0. -/
def State.frozenDown (g : Nat) : Nat → Nat → State → State × MPath
  | 0, ptr, s =>
    if entryOk ptr && !eZero ptr && !eLost ptr then s.pathAt (.frozen (eSeg ptr) (eCell ptr)) ptr 0
    else s.pathPtr (.frozen (eSeg ptr) (eCell ptr)) ptr 0
  | l + 1, ptr, s =>
    let k := MKey.frozen (eSeg ptr) (eCell ptr)
    if entryOk ptr && !eZero ptr && !eLost ptr then
      match s.pathAt k ptr (l + 1) with
      | (s, .at_ n) => State.frozenDown g l (s.lineWord n (nodePos (l + 1) g)) (s.touch n)
      | r => r
    else s.pathPtr k ptr (l + 1)

/-! Requests. -/

/-- A request: OP 1 GET, 2 SET, 3 SETIF. -/
structure MReq where
  op : Nat
  vol : Nat
  view : Nat
  g : Nat
  count : Nat
  entry : Nat
  expect_ : Nat
  deriving DecidableEq, Repr

/-- How a request ends, or what it waits for: a fill, or a commit's end. -/
inductive MOut where
  | end_ (e : JobEnd) (entries : List Nat)
  | fill (n : Nat)
  | stall

/-- An end without entries. -/
def MOut.st (e : JobEnd) : MOut := .end_ e []

/-- What a walk that did not end at a node means: go on at once, or the outcome. `sync` is for the device's own walks, which read
at once. -/
def State.pathGo (s : State) (sync : Bool) (p : MPath) : State × Option MOut :=
  match p with
  | .lost => (s, some (.st (.st stLost)))
  | .memErr => (s, some (.st .memErr))
  | .vb e =>
    match s.reinstall e with
    | some s => (s, none)
    | none => (s, some .stall)
  | .filling n => (s, some (.fill n))
  | .need k ptr level =>
    if sync then
      match s.fillNow k ptr level with
      | (s, .got _) => (s, none)
      | (s, .lost) => (s, some (.st (.st stLost)))
      | (s, _) => (s, some .stall)
    else
      match s.startFill k ptr level [] with
      | none => (s, some .stall)
      | some s =>
        match s.map.fills.find? (fun f => decide (f.2.key = k)) with
        | some f => (s, some (.fill f.1))
        | none => (s, some .stall)
  | _ => (s, none)

/-- Answer a GET from entries: one in RESULT, more in a list. -/
def getEnd (l : List Nat) : MOut :=
  .end_ { status := stDone, aux := 0, result := if l.length = 1 then l[0]?.getD 0 else 0 } (if l.length = 1 then [] else l)

/-- GET (R242). -/
def State.mapGet (sync : Bool) (r : MReq) : Nat → State → State × MOut
  | 0, s => (s, .stall)
  | fuel + 1, s =>
    let fr := s.frozenRec r.vol r.view
    if r.view ≠ 0 ∧ !(fr.any (fun v => !s.fDeleting v)) then (s, .st { status := stRefused, aux := 2, result := 0 })
    else
      let w := if r.view = 0 then s.livePath r.vol r.g 0 else State.frozenDown r.g 3 (s.vRoot (fr.getD 0)) s
      match w with
      | (s, .at_ n) =>
        let es := (List.range r.count).map (fun i => s.lineWord n (nodePos 0 r.g + i))
        let s := (s.touch n).ctr F.MAP_HIT_CTR
        if es.all entryOk then (s, getEnd es) else (s.raise 0x082 (n / 16), .st (.st stLost))
      | (s, .zero _) => (s, getEnd (List.replicate r.count zeroEntry))
      | (s, p) =>
        match s.pathGo sync p with
        | (s, some o) => (s, o)
        | (s, none) => State.mapGet sync r fuel s

/-! SET and SETIF (R243). -/

/-- Must a line be copied before it is written? -/
def State.needCow (s : State) (vol n : Nat) : Bool := s.newestValid vol && !laterThan 32 (s.mtag n).pgen (s.newest vol)

/-- A line becomes DIRTY; while a commit writes it, it is written AGAIN. -/
def State.markDirty (s : State) (n : Nat) : State :=
  let t := s.mtag n
  let s := s.setMtag n { t with dirty := true }
  if s.mapWriting t.mkey then
    { s with map := { s.map with commit := s.map.commit.map (fun (c : MCommit) =>
        { c with again := if c.again.contains t.mkey then c.again else c.again ++ [t.mkey] }) } }
  else s

/-- Set SHARED on every entry of a level 0 line that is not ZERO. -/
def State.shareAll (s : State) (n : Nat) : State :=
  foldSt (fun i (s : State) =>
    let e := s.lineWord n i
    if eZero e then s else s.stMem (s.lineAddr n + 8 * i) 8 (setShared e true)) (List.range 512) s

/-- Copy a line on write: a new version at LGEN. -/
def State.cowLine (s : State) (vol level n : Nat) : State :=
  let s := (s.setMtag n { s.mtag n with pgen := s.lgen vol, isNew := true }).markDirty n
  (if level = 0 then s.shareAll n else s).ctr F.MAP_COW_CTR

/-- Does every entry of a line pass its check? -/
def State.lineOk (s : State) (n : Nat) : Bool := (List.range 512).all (fun i => entryOk (s.lineWord n i))

/-- A new node of ZERO entries for a live key; none where no way is free. -/
def State.newNode (s : State) (vol level g : Nat) : Option State :=
  let k := liveKey vol level g
  match s.chooseWay (s.mapSet k) with
  | none => none
  | some n => some ((s.evict n none).putLine n k (List.replicate 512 (leBytes 8 zeroEntry)).flatten true true (s.lgen vol))

/-- What preparing a path gives: the path stands, no way is free, or an entry to be marked SHARED fails its check. -/
inductive Prep where
  | ok (s : State)
  | stall
  | lost (s : State)

/-- Copy or create the nodes of a grain's path, from the root down (R243). A level 0 node is copied only where the entries it reads pass
their checks (R224). -/
def State.preparePath (s : State) (vol g : Nat) : List Nat → Prep
  | [] => .ok s
  | l :: ls =>
    let s := s.hdrFix (s.mapSet (liveKey vol l g))
    match s.lineOf (liveKey vol l g) with
    | some n =>
      if !s.needCow vol n then s.preparePath vol g ls
      else if l = 0 ∧ !s.lineOk n then .lost (s.raise 0x082 (n / 16))
      else (s.cowLine vol l n).preparePath vol g ls
    | none =>
      match s.newNode vol l g with
      | none => .stall
      | some s => s.preparePath vol g ls

/-- Write an entry of a level 0 line. -/
def State.writeEntry (s : State) (n g e : Nat) : State := ((s.stMem (s.lineAddr n + 8 * nodePos 0 g) 8 e).markDirty n).touch n

/-- What SET or SETIF does with the current entry: none to write, else how the job ends (R243). `shared` says that a frozen view
holds the entry: HELD, whether it matches EXPECT or not. -/
def setVerdict (r : MReq) (cur : Nat) (shared : Bool) : Option JobEnd :=
  if r.op = 2 then none
  else if shared then some { status := stDone, aux := 2, result := setShared cur true }
  else if eMasked r.expect_ ≠ eMasked cur then some { status := stDone, aux := 0, result := cur }
  else none

/-- SET and SETIF (R243). -/
def State.mapSetReq (sync : Bool) (r : MReq) : Nat → State → State × MOut
  | 0, s => (s, .stall)
  | fuel + 1, s =>
    match s.livePath r.vol r.g 0 with
    | (s, .at_ n) =>
      let cur := s.lineWord n (nodePos 0 r.g)
      let cow := s.needCow r.vol n
      if !entryOk cur then (s.raise 0x082 (n / 16), .st (.st stLost))
      else
        match setVerdict r cur (eShared cur || (cow && !eZero cur)) with
        | some e => ((s.touch n).ctr F.MAP_HIT_CTR, .st e)
        | none =>
          if s.flag F.MAP_STATUS_COMMIT_ERR ∧ (cow ∨ !(s.mtag n).dirty) then (s, .st (.st stNoSpace))
          else if !cow then
            ((s.writeEntry n r.g r.entry).ctr F.MAP_HIT_CTR, .st { status := stDone, aux := b2n (decide (r.op = 3)), result := cur })
          else
            match State.liveDown r.vol r.g 0 3 (s.vRoot r.vol) s with
            | (s, .at_ _) =>
              match s.preparePath r.vol r.g [3, 2, 1, 0] with
              | .stall => (s, .stall)
              | .lost s => (s, .st (.st stLost))
              | .ok s => State.mapSetReq sync r fuel s
            | (s, p) =>
              match s.pathGo sync p with
              | (s, some o) => (s, o)
              | (s, none) => State.mapSetReq sync r fuel s
    | (s, .zero _) =>
      match setVerdict r zeroEntry false with
      | some e => (s, .st e)
      | none =>
        if s.flag F.MAP_STATUS_COMMIT_ERR then (s, .st (.st stNoSpace))
        else
          match State.liveDown r.vol r.g 0 3 (s.vRoot r.vol) s with
          | (s, .at_ _) => State.mapSetReq sync r fuel s
          | (s, .zero _) =>
            match s.preparePath r.vol r.g [3, 2, 1, 0] with
            | .stall => (s, .stall)
            | .lost s => (s, .st (.st stLost))
            | .ok s => State.mapSetReq sync r fuel s
          | (s, p) =>
            match s.pathGo sync p with
            | (s, some o) => (s, o)
            | (s, none) => State.mapSetReq sync r fuel s
    | (s, p) =>
      match s.pathGo sync p with
      | (s, some o) => (s, o)
      | (s, none) => State.mapSetReq sync r fuel s

/-- Steps a request may take without waiting. -/
def mapFuel : Nat := 24

/-- Can the view records that a job reads be read (R97): those of its volume and its lineage, and that of its frozen view? -/
def State.viewsOk (s : State) (vol view : Nat) : Bool :=
  !s.badIn (s.recAddr vol) 32 && !s.badIn (s.recAddr (s.lineage vol)) 32 && !(decide (view ≠ 0) && (s.frozenRec vol view).any (fun v => s.badIn (s.recAddr v) 32))

/-- A request. -/
def State.mapReq (s : State) (sync : Bool) (r : MReq) : State × MOut :=
  let s := s.eccCorrect 0 (s.recAddr r.vol) 32
  if !s.viewsOk r.vol r.view then (s, .st .memErr)
  else if r.op = 1 then State.mapGet sync r mapFuel s else State.mapSetReq sync r mapFuel s

/-- The request of a job. -/
def mreqOf (j : Job) : MReq :=
  { op := j.op, vol := j.fld 2 2, view := j.fld 4 2, g := j.fld 8 8, count := j.fld 6 2, entry := j.fld 16 8, expect_ := j.fld 24 8 }

/-- Complete a request: the entries of a long GET go to OUT. -/
def State.mapEnd (s : State) (j : Job) (e : JobEnd) (es : List Nat) : State :=
  if es.isEmpty then (if e = .memErr then s.memEvent 0x07 0 else s).complete j 0 0 e
  else
    let r := s.eccWrite (hAddr (j.fld 32 8) 0) (es.map (leBytes 8)).flatten
    if r.2 then r.1.complete j 0 0 e else (r.1.memEvent 0x07 0).complete j 0 0 .memErr

/-- Serve a GET, SET or SETIF job: it ends, queues on a line, or waits for a commit's end. A SET of a volume that a snapshot holds
waits for it (R247). -/
def State.mapServe (s : State) (j : Job) : State :=
  if j.op ≠ 1 ∧ s.map.holdVol = some (j.fld 2 2) then { s with map := { s.map with held := s.map.held ++ [j] } }
  else
    match s.mapReq false (mreqOf j) with
    | (s, .end_ e es) => s.mapEnd j e es
    | (s, .fill n) =>
      { s with map := { s.map with fills := SMap.modify s.map.fills n (fun (f : MFill) => { f with waiters := f.waiters ++ [j] }) } }
    | (s, .stall) => State.ctr { s with map := { s.map with stalled := s.map.stalled ++ [j] } } F.MAP_EVICT_WAIT_CTR

/-- The fields every map job obeys (R95, R103, R225). -/
def mapFields (j : Job) (s : State) : Bool :=
  s.flag F.MAP_CTL_EN && j.zero 48 63 && decide (j.fld 2 2 < 16384 ∧ j.fld 8 8 < 2 ^ 36)

/-- GET's fields. -/
def mapGetCheck (j : Job) (s : State) : Bool :=
  let n := j.fld 6 2
  mapFields j s && j.zero 40 47 && decide (1 ≤ n ∧ n ≤ 512 ∧ j.fld 8 8 % 512 + n ≤ 512) &&
    (decide (n = 1) || s.inHandle (j.fld 32 8) 0 (8 * n))

/-- SET's and SETIF's fields: the checks of ENTRY and EXPECT hold for both (R224). -/
def mapSetCheck (j : Job) (s : State) : Bool :=
  mapFields j s && j.zero 40 47 && j.zero 6 7 && entryOk (j.fld 16 8) && !eShared (j.fld 16 8) && entryOk (j.fld 24 8)

/-- A SET or SETIF on a frozen view is refused READ_ONLY. -/
def mapSetJob (j : Job) (s : State) : JobDo :=
  if j.fld 4 2 ≠ 0 then .done s 0 { status := stRefused, aux := 1, result := 0 } else .taken (s.mapServe j)

/-- The node read of a filling line completes (R236); `bad` names positions whose page cannot be read. -/
def State.nodeRead (s : State) (n bad : Nat) : State :=
  match SMap.find s.map.fills n with
  | none => s
  | some f =>
    let r := s.readNode f.ptr f.level bad
    let s := State.vbFilled { r.1 with map := { r.1.map with fills := SMap.del r.1.map.fills n } } n
    let again := fun (s : State) => foldSt (fun j (s : State) => s.mapServe j) f.waiters s
    match r.2, f.poison with
    | .wait, _ => r.1
    | _, true => again (s.ctr F.MAP_POISON_CTR)
    | .got (d, pgen), false => again (s.putLine n f.key d false false pgen)
    | _, false => foldSt (fun j (s : State) => s.complete j 0 0 (.st stLost)) f.waiters s

end Sys2Proof.Machine
end

