-- ==== Sys2Proof/Machine/MapCommit.lean ====
section
/-! DEFINITION. Commits (R238 to R241): capture, append, the view pages, table pages and commit page, and the end. -/

namespace Sys2Proof.Machine

/-- The sets of which memory lists a byte of the header, or an error in it. -/
def State.hdrSets (s : State) : List Nat :=
  let base := s.hdrAddr 0
  let here := fun (a : Nat) => if base ≤ a ∧ a < base + 256 * s.mapSets then some ((a - base) / 256) else none
  (s.mem.filterMap (fun c => here c.1) ++ (s.eccBad ++ s.eccFix).filterMap (fun g => here (8 * g))).foldl addNat []

/-- Read every such header, for what looks at all of them (R233). -/
def State.hdrFixAll (s : State) : State := foldSt (fun set (s : State) => s.hdrFix set) s.hdrSets s

/-- The lines whose tags the headers list as VALID and DIRTY. -/
def State.dirtyLines (s : State) : List Nat :=
  let base := s.hdrAddr 0
  s.mem.filterMap (fun c =>
    let o := (c.1 - base) % 256
    let n := (c.1 - base) / 256 * 16 + (o - 16) / 14
    if base ≤ c.1 ∧ c.1 < base + 256 * s.mapSets ∧ 16 ≤ o ∧ o < 240 ∧ (o - 16) % 14 = 0 ∧ (s.mtag n).valid ∧ (s.mtag n).dirty then some n else none)

/-- The keys of every dirty live line, in the cache and in the victim buffer. -/
def State.dirtyKeys (s : State) : List MKey :=
  (s.dirtyLines.map (fun n => (s.mtag n).mkey)) ++ (s.map.vb.filter (fun e => e.dirty)).map (fun e => e.key)

/-- Does a want name a key? -/
def MWant.names : MWant → MKey → Bool
  | .all, _ => true
  | .vol v, .live x _ _ => decide (v = x)
  | .range v lo hi, .live x level index => decide (v = x ∧ level = 0 ∧ lo / 512 ≤ index ∧ index ≤ hi / 512)
  | .key k, x => decide (k = x)
  | _, .frozen _ _ => false

/-- The parent of a live key. -/
def MKey.parent : MKey → Option MKey
  | .live vol level index => if level < 3 then some (.live vol (level + 1) (index / 512)) else none
  | .frozen _ _ => none

/-- The ancestors of a key. -/
def MKey.ancestors (k : MKey) : List MKey :=
  let p1 := k.parent
  let p2 := p1.bind MKey.parent
  [p1, p2, p2.bind MKey.parent].filterMap id

/-- Level of a key. -/
def MKey.level : MKey → Nat
  | .live _ level _ => level
  | .frozen _ _ => 0

/-- The batch of a commit (R239 step 4). -/
def State.batch (s : State) (wants : List MWant) : List MKey :=
  let dirty := s.dirtyKeys
  let vb := (s.map.vb.filter (fun e => e.dirty)).map (fun e => e.key)
  let named := dirty.filter (fun k => wants.any (fun w => w.names k) || s.map.cleans.any (fun c => decide (c.1 = k)))
  let l := vb ++ named
  let up := l.flatMap MKey.ancestors
  dirty.filter (fun k => l.contains k || up.contains k)

/-- Change the commit that runs. -/
def State.updCommit (s : State) (f : MCommit → MCommit) : State := { s with map := { s.map with commit := s.map.commit.map f } }

/-- Capture a key's line. -/
def State.capture (s : State) (k : MKey) : State :=
  match s.keyGet k with
  | (s, some (d, g)) => s.updCommit (fun c =>
      if c.nodes.any (fun x => decide (x.key = k)) then c else { c with nodes := c.nodes ++ [{ key := k, data := d, pgen := g, done := false }] })
  | (s, none) => s

/-- How an append of the device to stream 3 ends. -/
inductive MApp where
  | ok (s : State) (ptr : Nat)
  | wait (s : State)
  | fail (s : State)

/-- Append a 4 KiB node or page to stream 3 (R227), encrypted for its location; `hi` is LBA[39:32]. The next segment is opened with
the same POOL, W and P. -/
def State.mapAppend (s : State) (hi pgen c : Nat) (data : List Byte) : MApp :=
  let y := s.stream 3
  let s := if y.seg.isSome ∧ (y.place 64).isNone then s.endSeg 3 else s
  let y := s.stream 3
  let o : State × Bool :=
    if y.seg.isSome then (s, true)
    else if y.w = 0 then (s, false)
    else
      match s.openSeg 3 y.pool y.w y.p with
      | (s, none) => (s, false)
      | (s, some (g, fresh)) =>
        (if fresh ∧ !s.flag F.JRN_CTL_SINGLE then
          { s with seg := { s.seg with opens := s.seg.opens ++ [{ job := none, band := segBand g, seg := g }] } } else s, true)
  let s := o.1
  let y := s.stream 3
  match o.2, y.seg, y.place 64, SMap.find s.xtsKeys (s.rd F.MAP_CTL_KEYSLOT) with
  | true, some seg, some (k, cell, _), some key =>
    let cells := xts true key (seg * 2 ^ 18 + (k * 248 + cell)) data
    match s.placeGrain 3 { vol := 0xFFFE, lba := pgen + hi * 2 ^ 32, seq := c, epoch := s.rd F.SEG_EPOCH_EPOCH, cell := 0, lenm1 := 0, flags := 1
                           crc := crc32c data } cells with
    | .ok s e => .ok s e
    | .wait => .wait s
    | _ => .fail s
  | _, _, _, _ => .fail s

/-- Replace a word of a node. -/
def putWord (d : List Byte) (pos v : Nat) : List Byte := d.take (8 * pos) ++ leBytes 8 v ++ d.drop (8 * pos + 8)

/-- A node as the device's own walks read it. -/
structure MNode where
  key : MKey
  data : List Byte
  pgen : Nat

/-- A word of a node. -/
def nodeWord (d : List Byte) (pos : Nat) : Nat := leNat ((d.drop (8 * pos)).take 8)

/-- The node a pointer names, from the cache or from media. -/
def State.ptrNode (s : State) (ptr level : Nat) : State × Got MNode :=
  let k := MKey.frozen (eSeg ptr) (eCell ptr)
  if !entryOk ptr then (s.echkBad k, .lost)
  else if eLost ptr then (s, .lost)
  else if eZero ptr then (s, .zero)
  else
    match s.keyGet k with
    | (s, some x) => (s, .got { key := k, data := x.1, pgen := x.2 })
    | (s, none) =>
      match (s.ctr F.MAP_MISS_CTR).readNode ptr level 0 with
      | (s, .got x) => (s, .got { key := k, data := x.1, pgen := x.2 })
      | (s, .wait) => (s, .wait)
      | (s, _) => (s, .lost)

/-- The node of a live view at a level and index, `ptr` naming it where the cache does not hold it. -/
def State.liveNode (s : State) (vol level index ptr : Nat) : State × Got MNode :=
  let k := MKey.live vol level index
  match s.keyGet k with
  | (s, some x) => (s, .got { key := k, data := x.1, pgen := x.2 })
  | (s, none) =>
    match s.ptrNode ptr level with
    | (s, .got x) => (s, .got { x with key := k })
    | r => r

/-- The node of a live view on a grain's path, from a level and the pointer to its node there. -/
def State.liveGet (vol g stop : Nat) : Nat → Nat → State → State × Got MNode
  | 0, ptr, s => s.liveNode vol 0 (g >>> 9) ptr
  | l + 1, ptr, s =>
    match s.liveNode vol (l + 1) (g >>> (9 * (l + 2))) ptr with
    | (s, .got x) => if l + 1 = stop then (s, .got x) else State.liveGet vol g stop l (nodeWord x.data (nodePos (l + 1) g)) s
    | r => r

/-- Have the line of a live key at hand, in the cache or, where no way is free, in the victim buffer, from which a commit writes it: 0
ready, 1 wait, 2 its node is lost. -/
def State.atHand (s : State) (k : MKey) : State × Nat :=
  match k, s.probe k with
  | .live vol level index, (s, .none) =>
    match State.liveGet vol (index * 2 ^ (9 * (level + 1))) level 3 (s.vRoot vol) s with
    | (s, .got x) =>
      match s.install k x.data x.pgen with
      | some (s, _) => (s, 0)
      | none =>
        ({ s with map := { s.map with vb := s.map.vb ++ [{ key := k, data := x.data, dirty := true, isNew := false, pgen := x.pgen, fill := none }] } }, 0)
    | (s, .wait) => (s, 1)
    | (s, _) => (s, 2)
  | _, (s, .filling _) => (s, 1)
  | _, (s, .memErr) => (s, 2)
  | _, (s, _) => (s, 0)

/-- Have the parent of a node at hand, into which its media location goes (R239 step 5). -/
def State.parentAtHand (s : State) (k : MKey) : State × Nat := (k.parent.map s.atHand).getD (s, 0)

/-- Record the media location of a node in its parent, which is at hand and is thereby captured too; the root's goes into its view record
(R239 step 5). -/
def State.recordPtr (s : State) (k : MKey) (ptr : Nat) : State :=
  match k, k.parent with
  | .live vol _ _, none => s.setVrec vol 0 8 ptr
  | .live _ _ index, some pk =>
    let pos := index % 512
    let s := match s.lineOf pk with
      | some n => (s.stMem (s.lineAddr n + 8 * pos) 8 ptr).setMtag n { s.mtag n with dirty := true }
      | none => { s with map := { s.map with vb := s.map.vb.map (fun (e : VbLine) => if e.key = pk then { e with data := putWord e.data pos ptr, dirty := true } else e) } }
    let s := s.capture pk
    s.updCommit (fun c => { c with nodes := c.nodes.map (fun (x : CNode) => if x.key = pk then { x with data := putWord x.data pos ptr } else x) })
  | _, _ => s

/-- The captured node appended next: the lowest level first. -/
def MCommit.nextNode (c : MCommit) : Option CNode := minBy (fun (x : CNode) => x.key.level) (c.nodes.filter (fun x => !x.done))

/-- Append captured nodes until none is left: 0 done, 1 wait, 2 fail. -/
def State.appendNodes : Nat → State → State × Nat
  | 0, s => (s, 1)
  | fuel + 1, s =>
    match s.map.commit.bind MCommit.nextNode with
    | none => (s, 0)
    | some x =>
      match s.parentAtHand x.key with
      | (s, 0) =>
        match s.mapAppend x.key.level x.pgen ((s.map.commit.map (fun c => c.c)).getD 0) x.data with
        | .wait s => (s, 1)
        | .fail s => (s, 2)
        | .ok s ptr =>
          let s := s.ctr F.MAP_NODES_WRITTEN_CTR
          State.appendNodes fuel
            ((s.updCommit (fun c => { c with nodes := c.nodes.map (fun (y : CNode) => if y.key = x.key then { y with done := true } else y) })).recordPtr x.key ptr)
      | r => r

/-- A table page: 512 pointers. -/
def State.tablePage (s : State) (t : Nat) : List Byte :=
  ((List.range 512).map (fun i => leBytes 8 (SMap.findD s.map.viewLoc (512 * t + i) zeroEntry))).flatten

/-- The commit page (R239). -/
def State.commitPage (s : State) (c : Nat) : List Byte :=
  let d := leBytes 8 0x54494D4350414D47 ++ leBytes 8 c ++ ((List.range 16).map (fun t => leBytes 8 (SMap.findD s.map.tableLoc t zeroEntry))).flatten ++
    leBytes 8 (s.rd F.MAP_COMMIT_LOC) ++ leBytes 8 s.calNow
  d ++ leBytes 8 (crc64 d) ++ List.replicate (4096 - 168) 0

/-- Append the view pages that the commit has yet to append: 0 done, 1 wait, 2 fail, as also where a page cannot be read (DESIGN CHOICE,
assumption log 106). -/
def State.appendViews (c : Nat) : List Nat → State → State × Nat
  | [], s => (s, 0)
  | p :: ps, s =>
    match s.unitRead (s.recAddr (128 * p)) 4096 with
    | (s, none) => (s.memEvent 0x07 0, 2)
    | (s, some page) =>
    match s.mapAppend 4 0 c page with
    | .wait s => (s, 1)
    | .fail s => (s, 2)
    | .ok s ptr =>
      let s : State := { s with map := { s.map with viewLoc := SMap.put s.map.viewLoc p ptr } }
      State.appendViews c ps (s.updCommit (fun c => { c with pages := ps }))

/-- Append the table pages that the commit has yet to append. -/
def State.appendTables (c : Nat) : List Nat → State → State × Nat
  | [], s => (s, 0)
  | t :: ts, s =>
    match s.mapAppend 8 0 c (s.tablePage t) with
    | .wait s => (s, 1)
    | .fail s => (s, 2)
    | .ok s ptr =>
      let s : State := { s with map := { s.map with tableLoc := SMap.put s.map.tableLoc t ptr } }
      State.appendTables c ts (s.updCommit (fun c => { c with tables := ts }))

/-- The table pages of a list of view pages. -/
def tablesOf (l : List Nat) : List Nat := (List.range 16).filter (fun t => l.any (fun p => decide (p / 512 = t)))

/-- Step 6 begins: the changed view pages, and the table pages they lie in, are to be appended. -/
def State.pagesStart (s : State) : State :=
  let l := s.map.viewDirty
  State.updCommit { s with map := { s.map with viewDirty := [] } }
    (fun c => { c with step := 6, views := l, pages := l, tables := tablesOf l })

/-- Step 6 (R239): view pages, table pages, commit page, as far as it goes; 0 done, 1 wait, 2 fail, and the location of the commit
page. -/
def State.appendPages (s : State) (c : MCommit) : State × Nat × Nat :=
  match State.appendViews c.c c.pages s with
  | (s, 0) =>
    match State.appendTables c.c c.tables s with
    | (s, 0) =>
      match s.mapAppend 12 0 c.c (s.commitPage c.c) with
      | .ok s ptr => (s, 0, ptr)
      | .wait s => (s, 1, 0)
      | .fail s => (s, 2, 0)
    | (s, r) => (s, r, 0)
  | (s, r) => (s, r, 0)

/-- Do syncs of the map itself wait on a stream? -/
def State.mapSyncs (s : State) (x : Nat) : Bool := (s.stream x).syncs.any (fun w => w.job.isNone)

/-- Join what is asked of the next commit. -/
def State.askNext (s : State) (wants : List MWant) (bg : Bool) : State :=
  let n := s.map.next.getD ([], false)
  { s with map := { s.map with next := some (n.1 ++ wants, n.2 || bg) } }

/-- Drop the line of a key that an invalidate named while it was being written (R236). -/
def State.dropWritten (s : State) (k : MKey) : State :=
  match s.lineOf k with
  | some n => s.setMtag n { s.mtag n with valid := false }
  | none => s

/-- A commit stops (R241): its lines are DIRTY again, COMMIT_ERR, and the FAULT event with the failing step. What it was asked for, the
lines it captured and the view pages it took are asked of the next one, since what it wrote may not be on media. -/
def State.commitFail (s : State) (step : Nat) : State :=
  match s.map.commit with
  | none => s
  | some c =>
    let s := { s with map := { s.map with commit := none, syncBad := false, cleans := c.cleans ++ s.map.cleans, lastEnd := s.now
                                          viewDirty := c.views.foldl addNat s.map.viewDirty } }
    let s := foldSt (fun k (s : State) => s.dropWritten k) c.drops s
    (((s.askNext (c.wants ++ c.nodes.map (fun x => .key x.key)) c.bg).clrFlag F.MAP_STATUS_COMMIT_BUSY).setFlag F.MAP_STATUS_COMMIT_ERR).raise 0x083 step

/-- A captured line at the end of its commit (R236). -/
def State.lineDone (s : State) (c : MCommit) (x : CNode) : State :=
  let again := c.again.contains x.key
  let s := match s.lineOf x.key with
    | some n =>
      let t := s.mtag n
      if c.drops.contains x.key then s.dropWritten x.key else s.setMtag n { t with dirty := again, isNew := false }
    | none => s
  { s with map := { s.map with vb := s.map.vb.filter (fun e => decide (e.key ≠ x.key)) } }

/-- A commit completes (R239 step 7): lines clean, waiting cleans done, `MAP_COMMIT`. -/
def State.commitEnd (s : State) (c : MCommit) : State :=
  let s := { s with map := { s.map with commit := none, lastEnd := s.now } }
  let s := foldSt (fun (x : CNode) (s : State) => s.lineDone c x) c.nodes s
  let s := ((s.wr F.MAP_COMMIT_SEQ_C c.c).wr F.MAP_COMMIT_LOC c.ptr).clrFlag F.MAP_STATUS_COMMIT_BUSY
  let s := foldSt (fun (p : MKey × Job) (s : State) => s.complete p.2 0 0 { status := stDone, aux := 1, result := 0 }) c.cleans s
  s.ctr F.MAP_COMMITS_CTR

/-- Step 4: the lines of the batch are captured, with the cleans that name them. -/
def State.captureBatch (s : State) (c : MCommit) : State :=
  let s := s.hdrFixAll
  let batch := s.batch c.wants
  let mine := s.map.cleans.filter (fun p => batch.contains p.1)
  let s : State := { s with map := { s.map with cleans := s.map.cleans.filter (fun p => !batch.contains p.1) } }
  foldSt (fun k (s : State) => s.capture k) batch (s.updCommit (fun c => { c with step := 5, cleans := mine }))

/-- Does a commit have work at the map cache, for which it is a requester of the cache's arbiter (R383)? -/
def State.commitWorks (s : State) (c : MCommit) : Bool :=
  decide (c.step = 5 ∨ c.step = 6) || (decide (c.step = 3) && !s.mapSyncs 0 && !s.mapSyncs 1 && !s.mapSyncs 2 && !s.map.syncBad)

/-- Steps 4 to 6 as far as they go, while the commit holds the cache. -/
def State.commitWork : Nat → State → State
  | 0, s => s
  | fuel + 1, s =>
    match s.map.commit with
    | none => s
    | some c =>
      if c.step = 3 then State.commitWork fuel (s.captureBatch c)
      else if c.step = 5 then
        match State.appendNodes (4 * c.nodes.length + 8) s with
        | (s, 0) => State.commitWork fuel s.pagesStart
        | (s, 1) => s
        | (s, _) => s.commitFail 5
      else
        match s.appendPages c with
        | (s, 0, ptr) => (s.updCommit (fun c => { c with step := 7, ptr := ptr })).syncStream 3 none
        | (s, 1, _) => s
        | (s, _, _) => s.commitFail 6

/-- Carry a commit on as far as its waits allow: some commit when it has just completed. It is a foreground requester of the map cache,
number 8 (R375, R383; assumption log 89). -/
def State.commitGo : Nat → State → State × Option MCommit
  | 0, s => (s, none)
  | fuel + 1, s =>
    match s.map.commit with
    | none => (s, none)
    | some c =>
      if c.step = 2 then
        if c.c < s.ldMem (s.rd F.MAP_WM_ADDR_ADDR * 8) 8 then
          State.commitGo fuel ((((s.updCommit (fun c => { c with step := 3 })).syncStream 0 none).syncStream 1 none).syncStream 2 none)
        else (s, none)
      else if s.commitWorks c then
        let s := s.asClient 4 0 8 false (State.commitWork 3)
        if (s.map.commit.map (·.step)) = some 7 then State.commitGo fuel s else (s, none)
      else if c.step = 3 then (if s.map.syncBad && !s.mapSyncs 0 && !s.mapSyncs 1 && !s.mapSyncs 2 then s.commitFail 3 else s, none)
      else if s.mapSyncs 3 then (s, none)
      else if s.map.syncBad then (s.commitFail 7, none)
      else (s.commitEnd c, some c)

/-- Start a commit, or ask for the next one while one runs or COMMIT_ERR stands (R238, R241). -/
def State.commitStart (s : State) (wants : List MWant) (bg : Bool) : State :=
  if s.map.commit.isSome ∨ s.flag F.MAP_STATUS_COMMIT_ERR then s.askNext wants bg
  else
    let seq := s.ldMem (s.rd F.MAP_SEQ_ADDR_ADDR * 8) 8
    let c : MCommit := { step := 2, c := (seq + 2 ^ 64 - 1) % 2 ^ 64, since := s.now, warned := false, nodes := [], again := []
                         drops := [], wants := wants, bg := bg, cleans := [], views := [], pages := [], tables := []
                         ptr := 0 }
    State.setFlag { s with map := { s.map with commit := some c } } F.MAP_STATUS_COMMIT_BUSY

/-- The wait at step 2 has exceeded WM_MS: one WARN event for the wait (R241). -/
def State.wmTimeout (s : State) : State :=
  match s.map.commit with
  | some c =>
    if c.step = 2 ∧ !c.warned ∧ 1000000 * s.rd F.MAP_COMMIT_CFG_WM_MS < s.now - c.since then
      (s.updCommit (fun c => { c with warned := true })).note 0x084 ((s.now - c.since) / 1000000)
    else s
  | none => s

/-- The watermark wait exceeds WM_MS. -/
def execMapWmTimeout (s : State) : Res := .next s.wmTimeout

end Sys2Proof.Machine
end

