-- ==== Sys2Proof/Machine/MapBg.lean ====
section
/-! DEFINITION. The map's maintenance and its background engine: invalidates, snapshots, clones, deletion, release reports (R245 to
R251). -/

namespace Sys2Proof.Machine

/-! Invalidates (R236, R245). -/

/-- The jobs queued on a FILLING line. -/
def State.fillJobs (s : State) (n : Nat) : List Job := ((SMap.find s.map.fills n).map (·.waiters)).getD []

/-- Drop a line of the cache: AUX 2 when dirty changes are lost, and the requests that the invalidate must not overtake (R237). A line
being written is dropped at the end of its commit. -/
def State.invalLine (s : State) (n : Nat) : State × Nat × List Job :=
  let t := s.mtag n
  if SMap.has s.map.fills n then
    ({ s with map := { s.map with fills := SMap.modify s.map.fills n (fun (f : MFill) => { f with poison := true }) } }, 0, s.fillJobs n)
  else if !t.valid then (s, 0, [])
  else
    match s.map.commit with
    | some c =>
      if c.nodes.any (fun x => decide (x.key = t.mkey)) then
        (s.updCommit (fun c => { c with drops := c.drops ++ [t.mkey] }), if c.again.contains t.mkey then 2 else 0, [])
      else (s.setMtag n { t with valid := false }, if t.dirty then 2 else 0, [])
    | none => (s.setMtag n { t with valid := false }, if t.dirty then 2 else 0, [])

/-- Drop the line of a key, wherever it is. -/
def State.mapInval (s : State) (k : MKey) : State × Nat × List Job :=
  let s := s.hdrFix (s.mapSet k)
  match s.lineOf k with
  | some n => s.invalLine n
  | none =>
    match s.map.fills.find? (fun p => decide (p.2.key = k)) with
    | some p => s.invalLine p.1
    | none =>
      match s.map.vb.find? (fun e => decide (e.key = k)) with
      | some e => ({ s with map := { s.map with vb := s.map.vb.filter (fun x => decide (x.key ≠ k)) } }, if e.dirty then 2 else 0, [])
      | none => (s, 0, [])

/-- The map jobs that wait in the unit. -/
def State.mapWaiting (s : State) : List Job := (SMap.vals s.map.fills).flatMap (fun f => f.waiters) ++ s.map.stalled ++ s.map.held

/-- Invalidates that waited complete once the requests before them have (R237). -/
def State.maintDone (s : State) : State :=
  let busy := s.mapWaiting
  let ready := fun (m : MMaint) => !m.behind.any (fun j => busy.contains j)
  let l := s.map.maint.filter ready
  foldSt (fun (m : MMaint) (s : State) => s.complete m.job 0 0 (.st stDone)) l
    { s with map := { s.map with maint := s.map.maint.filter (fun m => !ready m) } }

/-- The keys of every valid line and of the lines being filled or in the victim buffer. -/
def State.knownKeys (s : State) : List MKey :=
  let base := s.hdrAddr 0
  let lines := s.mem.filterMap (fun c =>
    let o := (c.1 - base) % 256
    let n := (c.1 - base) / 256 * 16 + (o - 16) / 14
    if base ≤ c.1 ∧ c.1 < base + 256 * s.mapSets ∧ 16 ≤ o ∧ o < 240 ∧ (o - 16) % 14 = 0 ∧ (s.mtag n).valid then some (s.mtag n).mkey else none)
  lines ++ (SMap.vals s.map.fills).map (fun f => f.key) ++ s.map.vb.map (fun e => e.key)

/-- Drop every known line that a test picks. -/
def State.invalAll (s : State) (p : MKey → Bool) : State :=
  let s := s.hdrFixAll
  foldSt (fun k (s : State) => (s.mapInval k).1) (s.knownKeys.filter p) s

/-- Content of a key's line that the cache holds, read without effect. -/
def State.keyData (s : State) (k : MKey) : Option (List Byte) :=
  match s.lineOf k with
  | some n => if s.badIn (s.lineAddr n) 4096 then none else some (s.lineData n)
  | none => (s.map.vb.find? (fun e => decide (e.key = k))).map (fun e => e.data)

/-- The frozen key of level 0 for a grain, from cached ancestors only (R245). -/
def State.frozenKeyOf (g : Nat) : Nat → Nat → State → Option MKey
  | l, ptr, s =>
    if !entryOk ptr ∨ eZero ptr ∨ eLost ptr then none
    else
      let k := MKey.frozen (eSeg ptr) (eCell ptr)
      match l with
      | 0 => some k
      | l + 1 =>
        match s.keyData k with
        | some d => State.frozenKeyOf g l (leNat ((d.drop (8 * nodePos (l + 1) g)).take 8)) s
        | none => none

/-! Nodes as the engine reads them. -/

/-- A view as a neighbour: the live view of a volume, or a frozen record. -/
inductive VRef where
  | live (vol : Nat)
  | frozen (v : Nat)

/-- A node of a neighbour. -/
def State.refNode (s : State) (r : VRef) (level index ptr : Nat) : State × Got MNode :=
  match r with
  | .live vol => s.liveNode vol level index ptr
  | .frozen _ => s.ptrNode ptr level

/-- Root pointer of a neighbour. -/
def State.refRoot (s : State) : VRef → Nat
  | .live vol => s.vRoot vol
  | .frozen v => s.vRoot v

/-- A word of an optional node; ZERO where there is none. -/
def optWord (d : Option MNode) (pos : Nat) : Nat := match d with
  | some x => nodeWord x.data pos
  | none => zeroEntry

/-- A node where there is one: none for a ZERO pointer. -/
def Got.opt (g : Got MNode) : Got (Option MNode) :=
  match g with
  | .got x => .got (some x)
  | .zero => .got none
  | .lost => .lost
  | .wait => .wait

/-- A node of an optional neighbour. -/
def State.optNode (s : State) (r : Option VRef) (level index ptr : Nat) : State × Got (Option MNode) :=
  match r with
  | some r => let x := s.refNode r level index ptr; (x.1, x.2.opt)
  | none => (s, .got none)

/-- Does every entry of a node pass its check? -/
def MNode.ok (n : MNode) : Bool := (List.range 512).all (fun i => entryOk (nodeWord n.data i))

/-- The FAULT event for the first of some nodes of which an entry fails its check (R224): none where all are good. -/
def State.nodesBad (s : State) (l : List (Option MNode)) : Option State := ((l.filterMap id).find? (fun n => !n.ok)).map (fun n => s.echkBad n.key)

/-- Entries and node pointers released. -/
structure Released where
  entries : List Nat
  ptrs : List Nat

/-- Join. -/
def Released.add (a b : Released) : Released := { entries := a.entries ++ b.entries, ptrs := a.ptrs ++ b.ptrs }

/-- Walk the positions of a node in turn: what each releases is joined, and the first that is lost or must wait ends the walk. -/
def walkAll (f : Nat → State → State × Got Released) (r : Released) (s : State) : State × Got Released :=
  (List.range 512).foldl (fun (acc : State × Got Released) i =>
    match acc.2 with
    | .got r =>
      match f i acc.1 with
      | (s, .got x) => (s, .got (r.add x))
      | (s, .zero) => (s, .got r)
      | e => e
    | _ => acc) (s, .got r)

/-- What deletion of a frozen view releases below one of its nodes (R249): `w` and `u` are the neighbours' nodes at its place. A node that
is LOST or cannot be read, or an entry that fails its check, ends the walk (R224, R226). -/
def State.delWalk (wr : VRef) (ur : Option VRef) (uGen : Option Nat) : Nat → Nat → Nat → MNode → Option MNode → Option MNode → State →
    State × Got Released
  | l, index, ptr, v, w, u, s =>
    if w.any (fun x => decide (x.pgen = v.pgen)) ∨ uGen.any (fun g => !laterThan 32 v.pgen g) then (s, .zero)
    else
      match s.nodesBad [some v, w, u] with
      | some s => (s, .lost)
      | none =>
        match l with
        | 0 =>
          let es := ((List.range 512).filter (fun i =>
            let e := nodeWord v.data i
            !eZero e && decide (eMasked e ≠ eMasked (optWord u i) ∧ eMasked e ≠ eMasked (optWord w i)))).map (nodeWord v.data)
          (s, .got { entries := es, ptrs := [ptr] })
        | l + 1 =>
          walkAll (fun i s =>
            let p := nodeWord v.data i
            match s.ptrNode p l with
            | (s, .got v') =>
              let w' := s.optNode (some wr) l (512 * index + i) (optWord w i)
              let u' := w'.1.optNode ur l (512 * index + i) (optWord u i)
              match w'.2, u'.2 with
              | .got w'', .got u'' => State.delWalk wr ur uGen l (512 * index + i) p v' w'' u'' u'.1
              | .wait, _ => (u'.1, .wait)
              | _, .wait => (u'.1, .wait)
              | _, _ => (u'.1, .lost)
            | (s, .zero) => (s, .zero)
            | (s, .lost) => (s, .lost)
            | (s, .wait) => (s, .wait)) { entries := [], ptrs := [ptr] } s

/-- What deletion of a volume releases below one of its live nodes (R249). -/
def State.volWalk (vol : Nat) (base : Option Nat) : Nat → Nat → Nat → MNode → State → State × Got Released
  | l, index, ptr, v, s =>
    if base.any (fun g => !laterThan 32 v.pgen g) then (s, .zero)
    else
      match s.nodesBad [some v] with
      | some s => (s, .lost)
      | none =>
        let own : List Nat := if eZero ptr then [] else [ptr]
        match l with
        | 0 => (s, .got { entries := ((List.range 512).map (nodeWord v.data)).filter (fun e => !eZero e && !eShared e), ptrs := own })
        | l + 1 =>
          walkAll (fun i s =>
            match s.liveNode vol l (512 * index + i) (nodeWord v.data i) with
            | (s, .got v') => State.volWalk vol base l (512 * index + i) (nodeWord v.data i) v' s
            | (s, .zero) => (s, .zero)
            | (s, .lost) => (s, .lost)
            | (s, .wait) => (s, .wait)) { entries := [], ptrs := own } s

/-- Clear SHARED in a level 0 line where its entries differ from a frozen node's, or everywhere where there is none (R251). -/
def State.clearShared (s : State) (n : Nat) (node : Option MNode) (any : Bool) : State :=
  foldSt (fun i (s : State) =>
    let e := s.lineWord n i
    if eShared e ∧ (!any ∨ eMasked e ≠ eMasked (optWord node i)) then (s.stMem (s.lineAddr n + 8 * i) 8 (setShared e false)).markDirty n else s)
    (List.range 512) s

/-- Bring the line of a node into the cache, to be written there: a wait where no way is free, or while it is FILLING. -/
def State.bringLine (s : State) (v : MNode) : State × Got Nat :=
  match s.probe v.key with
  | (s, .line n) => (s, .got n)
  | (s, .vb e) =>
    match s.reinstall e with
    | some s => (s, ((s.lineOf v.key).map Got.got).getD .wait)
    | none => (s, .wait)
  | (s, .none) =>
    match s.install v.key v.data v.pgen with
    | some (s, n) => (s, .got n)
    | none => (s, .wait)
  | (s, .memErr) => (s, .lost)
  | (s, .filling _) => (s, .wait)

/-- The walk of R251 below a live node; `nv` is the newest frozen view, `gen` its GEN and `f` its node at this place. -/
def State.sharedWalk (vol : Nat) (nv : Option Nat) (gen : Option Nat) : Nat → Nat → MNode → Option MNode → State → State × Got Released
  | l, index, v, f, s =>
    if gen.any (fun g => !laterThan 32 v.pgen g) then (s, .zero)
    else
      match s.nodesBad [some v, f] with
      | some s => (s, .lost)
      | none =>
        match l with
        | 0 =>
          if (List.range 512).any (fun i => let e := nodeWord v.data i; eShared e && (nv.isNone || decide (eMasked e ≠ eMasked (optWord f i)))) then
            match s.bringLine v with
            | (s, .got n) => (s.clearShared n f nv.isSome, .zero)
            | (s, .wait) => (s, .wait)
            | (s, _) => (s, .lost)
          else (s, .zero)
        | l + 1 =>
          walkAll (fun i s =>
            match s.liveNode vol l (512 * index + i) (nodeWord v.data i) with
            | (s, .got v') =>
              match s.ptrNode (optWord f i) l with
              | (s, .got f') => State.sharedWalk vol nv gen l (512 * index + i) v' (some f') s
              | (s, .zero) => State.sharedWalk vol nv gen l (512 * index + i) v' none s
              | (s, .lost) => (s, .lost)
              | (s, .wait) => (s, .wait)
            | (s, .zero) => (s, .zero)
            | (s, .lost) => (s, .lost)
            | (s, .wait) => (s, .wait)) { entries := [], ptrs := [] } s

/-! View records. -/

/-- The living frozen views of a volume. -/
def State.livingViews (s : State) (vol : Nat) : List Nat := s.frozenUsed.filter (fun v => decide (s.fVol v = vol) && !s.fDeleting v)

/-- The one of a list of records with the latest GEN. -/
def State.newestOf (s : State) (vol : Nat) (l : List Nat) : Option Nat := minBy (fun v => (s.lgen vol + 2 ^ 32 - s.fGen v) % 2 ^ 32) l

/-- Recompute NEWEST and NEWEST_VALID of a volume. -/
def State.setNewest (s : State) (vol : Nat) : State :=
  let put := fun (s : State) (g : Nat) (ok : Bool) => (s.setVrec vol 16 4 g).setVrec vol 24 2 (setBitsOf (s.vrec vol 24 2) 14 1 (b2n ok))
  match s.newestOf vol (s.livingViews vol) with
  | some v => put s (s.fGen v) true
  | none => if s.isClone vol then put s (s.baseGen vol) true else put s 0 false

/-- Recompute OLDEST of a volume's lineage (R230). -/
def State.setOldest (s : State) (vol : Nat) : State :=
  let root := s.lineage vol
  let lg := s.vrec root 8 4
  let gens := (s.frozenUsed.filter (fun v => decide (s.lineage (s.fVol v) = root))).map s.fGen
  let bases := ((s.frozenUsed.filter (fun v => s.fBase v && decide (s.lineage (s.fVol v) = root))).map (fun v => s.baseGen (s.fClone v)))
  match minBy (fun g => 2 ^ 32 - (lg + 2 ^ 32 - g) % 2 ^ 32) (gens ++ bases) with
  | some g => s.setVrec root 12 4 g
  | none => s.setVrec root 12 4 lg

/-- The first number from `k` up that a list does not hold, within `n` tries. -/
def firstFree (l : List Nat) : Nat → Nat → Nat
  | 0, k => k
  | n + 1, k => if l.contains k then firstFree l n (k + 1) else k

/-- Create a frozen view of a volume: its view number. -/
def State.newView (s : State) (vol root gen : Nat) (cloneOf : Option Nat) : State × Nat :=
  let used := s.frozenUsed
  let views := (used.filter (fun v => decide (s.fVol v = vol))).map s.fView
  let view := firstFree views views.length 1
  let v := firstFree used used.length 16384
  let s := (s.eccWrite (s.recAddr v) (List.replicate 32 0)).1
  let s := ((s.setVrec v 0 8 root).setVrec v 8 4 gen).setVrec v 12 4 (vol + view * 2 ^ 16)
  let s := (s.setVrec v 16 8 (match cloneOf with
    | some c => c + 2 ^ 16
    | none => 0)).setVrec v 24 8 s.calNow
  (s.setVrec vol 26 2 (s.nviews vol + 1), view)

/-- Refusal of a new view that would increment LGEN (R230, R244). -/
def State.viewGate (s : State) (vol : Nat) (incr : Bool) : Option Nat :=
  if incr ∧ 2 ^ 31 ≤ (s.lgen vol + 1 + 2 ^ 32 - s.vrec (s.lineage vol) 12 4) % 2 ^ 32 then some 3
  else if s.nviews vol = 65535 ∨ 1032192 ≤ s.frozenUsed.length then some 7
  else none

/-- Make a volume a clone of a base view (R248). -/
def State.makeClone (s : State) (target src root gen view : Nat) : State :=
  let s := ((s.setVrec target 0 8 root).setVrec target 16 4 gen).setVrec target 20 4 gen
  let s := (s.setVrec target 24 2 (s.lineage src + 2 ^ 14 + 2 ^ 15)).setVrec target 26 2 0
  (s.setVrec target 28 2 src).setVrec target 30 2 view

/-- Freeze the live view (R247 phase 2): view number and GEN. -/
def State.freeze (s : State) (vol : Nat) (cloneOf : Option Nat) : State × Nat × Nat :=
  let gen := s.lgen vol
  let root := s.vRoot vol
  let r := s.newView vol root gen cloneOf
  let s := r.1.setVrec (r.1.lineage vol) 8 4 ((gen + 1) % 2 ^ 32)
  let s := (s.setVrec vol 16 4 gen).setVrec vol 24 2 (setBitsOf (s.vrec vol 24 2) 14 1 1)
  let s := s.setOldest vol
  (match cloneOf with
    | some c => s.makeClone c vol root gen r.2
    | none => s, r.2, gen)

/-- Is a volume empty: its record as never written, and no line of it known? -/
def State.volEmpty (s : State) (vol : Nat) : Bool :=
  decide (s.bytes (s.recAddr vol) 32 = emptyRec vol) && !s.knownKeys.any (fun k => (MWant.vol vol).names k)

/-! Release reports (R250). -/

/-- Cut released entries and pointers into reports of at most 512. -/
def relChunks (vol view : Nat) : Nat → List Nat → List Nat → List RelReport
  | 0, _, _ => []
  | fuel + 1, es, ps =>
    if es.isEmpty ∧ ps.isEmpty then []
    else
      let a := es.take 512
      let b := ps.take (512 - a.length)
      { vol := vol, view := view, entries := a, ptrs := b } :: relChunks vol view fuel (es.drop 512) (ps.drop b.length)

/-- Post the reports that wait, as far as pool, queue and buffers allow. -/
def State.relFlush : Nat → State → State
  | 0, s => s
  | fuel + 1, s =>
    match s.map.relq with
    | [] => s
    | r :: rest =>
      if !s.flag F.MAP_RELQ_VALID then s
      else
        match s.stgAlloc 4096 with
        | none => s
        | some (h, s') =>
          let s' := s'.setBytes (hAddr h 0) ((r.entries ++ r.ptrs).map (leBytes 8)).flatten
          match s'.enqueue (plainItem (s.rd F.MAP_RELQ_QUEUE) [r.vol + r.view * 2 ^ 16, r.entries.length, r.ptrs.length] h) with
          | none => s
          | some (_, s') => State.relFlush fuel (State.ctr { s' with map := { s'.map with relq := rest } } F.MAP_RELEASED_CTR 0 r.entries.length)

/-! Deletion (R249). -/

/-- Mark a frozen view DELETING: NVIEWS falls and NEWEST follows. -/
def State.markDeleting (s : State) (v : Nat) : State :=
  let vol := s.fVol v
  let s := (s.setVrec v 16 4 (s.vrec v 16 4 ||| 2 ^ 17)).setVrec vol 26 2 (s.nviews vol - 1)
  s.setNewest vol

/-- The older neighbour U of a frozen view (R249): the next older living view of its volume, or the base view of a clone. -/
def State.olderView (s : State) (v : Nat) : Option Nat :=
  let vol := s.fVol v
  let age := fun (g : Nat) => (s.lgen vol + 2 ^ 32 - g) % 2 ^ 32
  match s.newestOf vol ((s.livingViews vol).filter (fun x => decide (age (s.fGen v) < age (s.fGen x)))) with
  | some x => some x
  | none => if s.isClone vol then s.frozenRec (s.vrec vol 28 2 % 2 ^ 14) (s.vrec vol 30 2) else none

/-- The newer neighbour W of a frozen view, where it is a frozen one: the next newer living view of its volume. A base view made from the
view has its GEN, and counts as newer (DEDUCED, assumption log 105). -/
def State.newerView (s : State) (v : Nat) : Option Nat :=
  let vol := s.fVol v
  let age := fun (g : Nat) => (s.lgen vol + 2 ^ 32 - g) % 2 ^ 32
  minBy (fun x => 2 ^ 32 - age (s.fGen x)) ((s.livingViews vol).filter (fun x => decide (age (s.fGen x) ≤ age (s.fGen v))))

/-- What a frozen view releases against its neighbours (R249). -/
def State.viewReleases (s : State) (v : Nat) : State × Got Released :=
  let ur := s.olderView v
  let w : VRef := ((s.newerView v).map VRef.frozen).getD (.live (s.fVol v))
  match s.ptrNode (s.vRoot v) 3 with
  | (s, .got n) =>
    let wn := s.optNode (some w) 3 0 (s.refRoot w)
    let un := wn.1.optNode (ur.map VRef.frozen) 3 0 ((ur.map wn.1.vRoot).getD zeroEntry)
    match wn.2, un.2 with
    | .got wn', .got un' => State.delWalk w (ur.map VRef.frozen) (ur.map un.1.fGen) 3 0 (un.1.vRoot v) n wn' un' un.1
    | .wait, _ => (un.1, .wait)
    | _, .wait => (un.1, .wait)
    | _, _ => (un.1, .lost)
  | (s, .zero) => (s, .zero)
  | (s, .lost) => (s, .lost)
  | (s, .wait) => (s, .wait)

/-- The walk of R251 over the live view of a volume whose newest frozen view has gone. -/
def State.clearWalk (s : State) (vol : Nat) : State × Got Released :=
  let nv := match s.newestOf vol (s.livingViews vol) with
    | some x => some x
    | none => if s.isClone vol then s.frozenRec (s.vrec vol 28 2 % 2 ^ 14) (s.vrec vol 30 2) else none
  match s.liveNode vol 3 0 (s.vRoot vol) with
  | (s, .got root) =>
    match s.ptrNode ((nv.map s.vRoot).getD zeroEntry) 3 with
    | (s, .got f) => State.sharedWalk vol nv (nv.map s.fGen) 3 0 root (some f) s
    | (s, .zero) => State.sharedWalk vol nv (nv.map s.fGen) 3 0 root none s
    | (s, .lost) => (s, .lost)
    | (s, .wait) => (s, .wait)
  | (s, .zero) => (s, .zero)
  | (s, .lost) => (s, .lost)
  | (s, .wait) => (s, .wait)

/-- Queue the reports of what was released (R250). -/
def State.queueReports (s : State) (vol view : Nat) (g : Got Released) : State :=
  match g with
  | .got r => { s with map := { s.map with relq := s.map.relq ++ relChunks vol view (r.entries.length + r.ptrs.length) r.entries r.ptrs } }
  | _ => s

/-- How the walks of a deletion end. -/
inductive WalkEnd where
  | done
  | lost
  | wait
  deriving DecidableEq, Repr

/-- Release the nodes of a frozen view against its neighbours, and clear SHARED where it was the newest (R249, R251). Reports are queued
when both walks are done. -/
def State.deleteView (s : State) (v : Nat) : State × WalkEnd :=
  let vol := s.fVol v
  let newest := (s.newerView v).isNone
  match s.viewReleases v with
  | (s, .wait) => (s, .wait)
  | (s, .lost) => (s, .lost)
  | (s, r) =>
    if newest then
      match s.clearWalk vol with
      | (s, .wait) => (s, .wait)
      | (s, .lost) => (s, .lost)
      | (s, _) => (s.queueReports vol (s.fView v) r, .done)
    else (s.queueReports vol (s.fView v) r, .done)

/-- A frozen record becomes free. -/
def State.freeView (s : State) (v : Nat) : State :=
  let vol := s.fVol v
  let s := ((s.setVrec v 0 8 0).eccWrite (s.recAddr v) (List.replicate 32 0)).1
  s.setOldest vol

/-- Release a volume's live nodes, and empty its record (R249). -/
def State.deleteVol (s : State) (vol : Nat) : State × WalkEnd :=
  let base := if s.isClone vol then some (s.baseGen vol) else none
  let r : State × Got Released :=
    match s.liveNode vol 3 0 (s.vRoot vol) with
    | (s, .got n) => State.volWalk vol base 3 0 (s.vRoot vol) n s
    | (s, .zero) => (s, .zero)
    | (s, .lost) => (s, .lost)
    | (s, .wait) => (s, .wait)
  match r with
  | (s, .wait) => (s, .wait)
  | (s, .lost) => (s, .lost)
  | (s, g) =>
    let s := s.invalAll (fun k => (MWant.vol vol).names k)
    (State.queueReports ((s.setVrec vol 0 8 zeroEntry).eccWrite (s.recAddr vol) (emptyRec vol)).1 vol 0 g, .done)

/-! The engine (R246). -/

/-- The running operation ends. -/
def State.bgDone (s : State) (e : JobEnd) : State :=
  match s.map.bg with
  | [] => s
  | op :: rest =>
    let s := { s with map := { s.map with bg := rest, phase := 0, holdVol := none } }
    match op with
    | .job j => s.complete j 0 0 e
    | .cleanAll => s

/-- It is refused. -/
def State.bgRefuse (s : State) (reason : Nat) : State := s.bgDone { status := stRefused, aux := reason, result := 0 }

/-- It waits for a commit. -/
def State.bgCommit (s : State) (phase : Nat) (wants : List MWant) : State :=
  State.commitStart { s with map := { s.map with phase := phase } } wants true

/-- SETs held by a snapshot are served (R247). -/
def State.mapReleaseHeld (s : State) : State :=
  let l := s.map.held
  foldSt (fun j (s : State) => s.mapServe j) l { s with map := { s.map with held := [], holdVol := none } }

/-- The result of SNAP and CLONE. -/
def viewEnd (view gen : Nat) : JobEnd := { status := stDone, aux := 0, result := view + gen * 2 ^ 32 }

/-- Start CLONE (R248). -/
def State.bgClone (s : State) (j : Job) : State :=
  let vol := j.fld 2 2
  let view := j.fld 4 2
  let target := j.fld 40 2
  if !s.volEmpty target then s.bgRefuse 6
  else if view = 0 then
    match s.viewGate vol true with
    | some r => s.bgRefuse r
    | none => s.bgCommit 1 [.vol vol]
  else
    match s.frozenRec vol view with
    | none => s.bgRefuse 2
    | some v =>
      if s.fDeleting v then s.bgRefuse 2
      else
        match s.viewGate vol false with
        | some r => s.bgRefuse r
        | none =>
          let gen := s.fGen v
          let r := s.newView vol (s.vRoot v) gen (some target)
          (r.1.makeClone target vol (r.1.vRoot v) gen r.2).bgDone (viewEnd r.2 gen)

/-- Start SNAP_DEL (R249). -/
def State.bgDel (s : State) (j : Job) : State :=
  let vol := j.fld 2 2
  let view := j.fld 4 2
  if view = 0 then (if s.nviews vol ≠ 0 then s.bgRefuse 4 else s.bgCommit 1 [.vol vol])
  else
    match s.frozenRec vol view with
    | none => s.bgRefuse 2
    | some v =>
      if s.fDeleting v then s.bgRefuse 2
      else if s.fBase v ∧ !s.volEmpty (s.fClone v) then s.bgRefuse 5
      else (s.markDeleting v).bgCommit 1 [.vol vol]

/-- The engine's work at the cache: a background requester of the cache's arbiter, number 9 (R375, R383; assumption log 89). One grant
covers a whole walk (DESIGN CHOICE, assumption log 106). -/
def State.asEngine (s : State) (f : State → State) : State := s.asClient 4 0 9 true f

/-- Start the first operation. -/
def State.bgStart (s : State) : State :=
  match s.map.bg with
  | [] => s
  | .cleanAll :: _ => s.bgCommit 1 [.all]
  | .job j :: _ =>
    let vol := j.fld 2 2
    let s := s.eccCorrect 0 (s.recAddr vol) 32
    if !s.viewsOk vol (j.fld 4 2) then (s.memEvent 0x07 0).bgDone .memErr
    else
    match j.op with
    | 8 => s.bgCommit 1 [.range vol (j.fld 8 8) (j.fld 40 8)]
    | 9 => s.asEngine (fun s => (s.invalAll (fun k => (MWant.range vol (j.fld 8 8) (j.fld 40 8)).names k)).bgDone (.st stDone))
    | 0x0A =>
      match s.viewGate vol true with
      | some r => s.bgRefuse r
      | none => s.bgCommit 1 [.vol vol]
    | 0x0B => s.bgClone j
    | _ => s.bgDel j

/-- Delete the volume of a job and, for a clone, its base view, with CLONEVOL cleared first (R249). -/
def State.volDeletion (s : State) (vol : Nat) : State × WalkEnd :=
  let base := if s.isClone vol then s.frozenRec (s.vrec vol 28 2 % 2 ^ 14) (s.vrec vol 30 2) else none
  match s.deleteVol vol, base with
  | (s', .done), some v =>
    let s' := s'.markDeleting v
    match (s'.setVrec v 16 4 (s'.vrec v 16 4 - s'.vrec v 16 4 % 2 ^ 14)).deleteView v with
    | (s', .done) => (s'.freeView v, .done)
    | (s', .lost) => (s', .lost)
    | (_, .wait) => (s, .wait)
  | r, _ => r

/-- The walks of a deletion (phase 3), then its reports: phase 4 where every node could be read, phase 5 where the job ends LOST (R226),
which leaves a frozen view DELETING (DESIGN CHOICE, assumption log 106). -/
def State.bgWalk (s : State) (j : Job) : State :=
  let vol := j.fld 2 2
  let view := j.fld 4 2
  let r : State × WalkEnd :=
    if view = 0 then s.volDeletion vol
    else
      match s.frozenRec vol view with
      | some v => s.deleteView v
      | none => (s, .done)
  match r with
  | (s, .done) => { s with map := { s.map with phase := 4 } }
  | (s, .lost) => { s with map := { s.map with phase := 5 } }
  | (s, .wait) => s

/-- Finish a deletion whose reports have gone out. -/
def State.bgFinish (s : State) (j : Job) : State :=
  let s := State.relFlush s.map.relq.length s
  if !s.map.relq.isEmpty then s
  else if s.map.phase = 5 then s.bgDone (.st stLost)
  else
    match (if j.fld 4 2 = 0 then none else s.frozenRec (j.fld 2 2) (j.fld 4 2)) with
    | some v => (s.freeView v).bgDone (.st stDone)
    | none => s.bgDone (.st stDone)

/-- Carry the engine on as far as it can go. -/
def State.bgStep : Nat → State → State
  | 0, s => s
  | fuel + 1, s =>
    match s.map.bg with
    | [] => s
    | op :: _ =>
      if s.map.phase = 0 then
        let n := s.map.bg.length
        let s := s.bgStart
        if s.map.phase ≠ 0 ∨ s.map.bg.length < n then State.bgStep fuel s else s
      else
        match op with
        | .job j =>
          if s.map.phase = 3 then
            let s := s.asEngine (fun s => s.bgWalk j)
            if s.map.phase = 4 ∨ s.map.phase = 5 then State.bgStep fuel s else s
          else if s.map.phase = 4 ∨ s.map.phase = 5 then
            let n := s.map.bg.length
            let s := s.bgFinish j
            if s.map.bg.length < n then State.bgStep fuel s else s
          else s
        | .cleanAll => s

/-- A commit the engine waited for has ended. -/
def State.bgCommitted (s : State) : State :=
  match s.map.bg with
  | [] => s
  | .cleanAll :: _ => s.bgDone (.st stDone)
  | .job j :: _ =>
    let vol := j.fld 2 2
    if j.op = 8 then s.bgDone (.st stDone)
    else if j.op = 0x0C then { s with map := { s.map with phase := 3 } }
    else if s.map.phase = 1 then State.bgCommit { s with map := { s.map with holdVol := some vol } } 2 [.vol vol]
    else
      let r := s.freeze vol (if j.op = 0x0B then some (j.fld 40 2) else none)
      (r.1.bgDone (viewEnd r.2.1 r.2.2)).mapReleaseHeld

/-- Carry commits and the engine on. -/
def State.mapPump : Nat → State → State
  | 0, s => s
  | fuel + 1, s =>
    let s := if s.map.commit.isNone ∧ s.map.next.isSome ∧ !s.flag F.MAP_STATUS_COMMIT_ERR then
        let n := s.map.next.getD ([], false)
        State.commitStart { s with map := { s.map with next := none } } n.1 n.2
      else s
    match State.commitGo 8 s with
    | (s, none) => s
    | (s, some c) =>
      let l := s.map.stalled
      let s := foldSt (fun j (s : State) => s.mapServe j) l { s with map := { s.map with stalled := [] } }
      let s := if c.bg then s.bgCommitted else s
      State.mapPump fuel (State.bgStep 8 s)

/-- Dirty entries of the victim buffer. -/
def State.vbDirty (s : State) : Nat := (s.map.vb.filter (fun e => e.dirty)).length

/-- After any map work: the engine, the VB_HI trigger, commits. -/
def State.mapKick (s : State) : State :=
  let s := State.bgStep 8 s
  let s := if s.rd F.MAP_COMMIT_CFG_VB_HI < s.vbDirty ∧ s.map.commit.isNone ∧ s.map.next.isNone then s.commitStart [] false else s
  (State.mapPump 8 s).maintDone

end Sys2Proof.Machine
end

