-- ==== Sys2Proof/Machine/Mule.lean ====
section
/-! DEFINITION. The Mule's table load, its erases, and JLOAD (R313, R315, R318, R320). An erase is one row on the media
(assumption log 21). -/

namespace Sys2Proof.Machine

/-! The table load. -/

/-- LOAD of `MUL_CTL`; refused until the base and STRIDE are written (R331). -/
def State.mulLoad (s : State) : State :=
  if s.locked.contains F.MUL_EUT_BASE_ADDR.off ∧ s.rd F.MUL_GEOM_STRIDE ≠ 0 then { s with seg := { s.seg with load := true } } else s

/-- The load starts. -/
def execMulLoad (s : State) : Res := .next s.mulLoad

/-- The units of the band records on own dies: lane, own die, unit and band number. -/
def State.unitsInBands (s : State) : List ((Nat × Nat × Nat) × Nat) :=
  s.bandsListed.flatMap (fun n => (s.bandUnits (s.band n)).map (fun u => (u, n % 2 ^ 23)))

/-- State, band and erase count of a unit, from the sled and the band records (R313). -/
def State.loadEntry (s : State) (inBand : List ((Nat × Nat × Nat) × Nat)) (lane d u : Nat) : Nat × Nat × Nat :=
  let x := s.sled lane
  let die := s.physDie d
  let e := x.eu die u
  if !s.laneUp lane ∨ x.geo.dies ≤ die ∨ x.geo.eus ≤ u then (6, 0, 0)
  else if e.bad then (5, 0, e.erases)
  else if u < s.rd F.JRN_VGEOM_NEU then (1, 0, e.erases)
  else
    match inBand.find? (fun b => decide (b.1 = (lane, d, u))) with
    | some b => (2, b.2, e.erases)
    | none => if (x.page die u 0).isNone ∧ (x.page die u (x.geo.ppe false - 1)).isNone then (0, 0, e.erases) else (3, 0, e.erases)

/-- Fill the entries of a list of units: the state, and the FREE, RETIRED and DIRTY units among them. -/
def State.loadUnits (s : State) (inBand : List ((Nat × Nat × Nat) × Nat)) : List (Nat × Nat × Nat) → State × Nat × Nat × Nat
  | [] => (s, 0, 0, 0)
  | (lane, d, u) :: l =>
    let e := s.loadEntry inBand lane d u
    let s := s.stMem (s.eutAddr lane d u) 8 (min (2 ^ 32 - 1) e.2.2 + e.1 * 2 ^ 32 + e.2.1 * 2 ^ 36)
    let r := s.loadUnits inBand l
    (r.1, r.2.1 + b2n (decide (e.1 = 0)), r.2.2.1 + b2n (decide (e.1 = 5)), r.2.2.2 + b2n (decide (e.1 = 3)))

/-- Fill the entries of a lane. -/
def State.loadLane (s : State) (inBand : List ((Nat × Nat × Nat) × Nat)) (lane : Nat) : State :=
  let units := (List.range 128).flatMap (fun d => (List.range s.eutStride).map (fun u => (lane, d, u)))
  let r := s.loadUnits inBand units
  let s := (r.1.wr F.MUL_LANE_FREE r.2.1 lane).wr F.MUL_LANE_RETIRED (min 65535 r.2.2.1) lane
  let s := s.wr F.MUL_STATUS_DIRTY (s.rd F.MUL_STATUS_DIRTY + r.2.2.2)
  if (0 < r.2.2.1 ∧ s.rd F.MUL_LANE_SPARE lane ≤ r.2.2.1) ∨ (s.sled lane).ro then s.laneReadonly lane else s

/-- The load completes: LOADED. -/
def execMulLoadDone (s : State) : Res :=
  .next (if s.seg.load then
      let inBand := s.unitsInBands
      let s := (s.wr F.MUL_STATUS_DIRTY 0).wr F.MUL_STATUS_ERASING 0
      let s := foldSt (fun lane (s : State) => s.loadLane inBand lane) (List.range s.fuse.variant.lanes) s
      State.setFlag { s with seg := { s.seg with load := false } } F.MUL_CTL_LOADED
    else s)

/-- A write of `MUL_CTL`. -/
def State.mulCtl (s : State) (v : Nat) : State :=
  let s := if !bitOf v 0 then s.clrFlag F.MUL_CTL_EN else if s.flag F.MUL_CTL_LOADED then s.setFlag F.MUL_CTL_EN else s
  let s := s.wr F.MUL_CTL_ERASE_EN (b2n (bitOf v 1))
  if bitOf v 2 then s.mulLoad else s

/-! Erasure (R315, R318). -/

/-- The JOFFs of appends that have not completed on both heads: on their way, or ended otherwise and not copied since (R318). -/
def State.appendsOpen (s : State) : List Nat :=
  s.trn.undone ++ s.trn.qps.flatMap (fun p => p.2.msgs.filterMap TxMsg.joff)

/-- Is the fence of a released band met (R318)? Under the single-head rule the own ring, which holds every append, is enough
(assumption log 93). -/
def State.fenceMet (s : State) (fence : Nat) : Bool := s.flag F.JRN_CTL_SINGLE || s.appendsOpen.all (fun j => decide (fence ≤ j))

/-- The released band that holds a unit. -/
def State.releasedBy (s : State) (u : Nat × Nat × Nat) : Option (Nat × RelBand) := s.seg.released.find? (fun p => p.2.units.contains u)

/-- A unit of a released band has been erased or retired; the band becomes FREE with its last (R267). -/
def State.relDone (s : State) (u : Nat × Nat × Nat) : State :=
  match s.releasedBy u with
  | none => s
  | some (n, r) =>
    let us := r.units.filter (fun x => decide (x ≠ u))
    if us.isEmpty then
      let s := { s with seg := { s.seg with released := SMap.del s.seg.released n } }
      if s.ownBand n then s.setBand n { s.band n with state := 0 } else s
    else { s with seg := { s.seg with released := SMap.put s.seg.released n { r with units := us } } }

/-- An erase that the fence holds: FENCE_WAIT, counted once for each unit. -/
def State.fenceHold (s : State) (u : Nat × Nat × Nat) : State :=
  let k := s.eutAddr u.1 u.2.1 u.2.2
  let s := s.setFlag F.MUL_STATUS_FENCE_WAIT
  if s.seg.fenceHeld.contains k then s
  else State.ctr { s with seg := { s.seg with fenceHeld := s.seg.fenceHeld ++ [k] } } F.MUL_FENCE_HOLDS_CTR

/-- The fence no longer holds a unit. -/
def State.fenceFree (s : State) (u : Nat × Nat × Nat) : State :=
  let l := s.seg.fenceHeld.filter (fun k => decide (k ≠ s.eutAddr u.1 u.2.1 u.2.2))
  let s := { s with seg := { s.seg with fenceHeld := l } }
  if l.isEmpty then s.clrFlag F.MUL_STATUS_FENCE_WAIT else s

/-- Erase a DIRTY unit; `bad` says that the sled reports a failed erase. Only that retires the unit (R315): one whose erase is refused or not
answered stays DIRTY. -/
def State.eraseUnit (s : State) (u : Nat × Nat × Nat) (bad : Bool) : State :=
  let s := (s.fenceFree u).eutMove u.1 u.2.1 u.2.2 4
  match s.mediaErase u.1 (s.physDie u.2.1) u.2.2 bad with
  | .ok s =>
    let e := ((s.sled u.1).eu (s.physDie u.2.1) u.2.2).erases
    ((s.setEut u.1 u.2.1 u.2.2 0 0 e).ctr F.MUL_ERASES_CTR).relDone u
  | .fail s => ((s.ctr F.MUL_ERASE_FAIL_CTR).eutRetire u.1 u.2.1 u.2.2).relDone u
  | .refused s => s.eutMove u.1 u.2.1 u.2.2 3
  | .stale s => (s.eutMove u.1 u.2.1 u.2.2 3).staleDown u.1

/-- The Mule's erase of a unit: lane, own die, unit. -/
def State.muleErase (s : State) (u : Nat × Nat × Nat) (bad : Bool) : State :=
  if s.mediaHold ∨ !s.flag F.MUL_CTL_ERASE_EN ∨ !s.flag F.MUL_CTL_LOADED ∨ 128 ≤ u.2.1 ∨ s.eutStride ≤ u.2.2 ∨
      eutState (s.eut u.1 u.2.1 u.2.2) ≠ 3 ∨ s.flag F.MUL_LANE_READONLY u.1 ∨ !s.laneUp u.1 then s
  else
    match s.releasedBy u with
    | some (_, r) => if s.fenceMet r.fence then s.eraseUnit u bad else s.fenceHold u
    | none => s.eraseUnit u bad

/-- The Mule erases a DIRTY unit. -/
def execMuleEraseStart (lane die unit : Nat) (bad : Bool) (s : State) : Res := .next (s.muleErase (lane, die, unit) bad)

/-! JLOAD (R320). -/

/-- The JOFFs of the records of the own ring or of the mirror. -/
def State.ringRecs (s : State) (mirror : Bool) : List Nat :=
  if mirror then
    s.recsFrom s.jrnMbase (s.rd F.JRN_MHEAD_JOFF) ((s.rd F.JRN_MHEAD_JOFF - s.rd F.JRN_MTAIL_JOFF) / 64) (s.rd F.JRN_MTAIL_JOFF)
  else s.jrnRecs

/-- CHECK of a record (R173): CRC-64 with FLAGS and CHECK as 0. -/
def recSum (d : List Byte) : Nat := crc64 (d.take 1 ++ [0] ++ (d.drop 2).take 46 ++ List.replicate 8 0 ++ d.drop 56)

/-- The checks of R95 and R316. -/
def jloadCheck (j : Job) (s : State) : Bool :=
  s.flag F.MUL_CTL_EN && j.zero 3 7 && j.zero 16 23 && j.zero 32 63 && decide (j.fld 2 1 ≤ 1) && s.current (j.fld 8 8)

/-- JLOAD. -/
def muleJload (j : Job) (s : State) : JobDo :=
  let mirror := decide (j.fld 2 1 = 1)
  let joff := j.fld 24 8
  let base := if mirror then s.jrnMbase else s.jrnBase
  if !(s.ringRecs mirror).contains joff then .done s 0 (.st stRefused)
  else
    let len := s.recLen base joff
    if !s.inHandle (j.fld 8 8) 0 len then .bad s
    else
      match s.unitRead (ringAddr base joff) len with
      | (s, none) => .memErr s 0x0B 0
      | (s, some d) =>
        let r := s.eccWrite (hAddr (j.fld 8 8) 0) d
        if !r.2 then .memErr r.1 0x0B 0
        else .done r.1 0 (.st (if lfld d 48 8 = recSum d then stDone else stCheck))

/-- JLOAD at the head of a ring. -/
def execMuleJload (cl : Nat) (s : State) : Res := .next (s.runJob 0x0B 0 cl (isOp 2) jloadCheck muleJload)

end Sys2Proof.Machine
end

