-- ==== Sys2Proof/Machine/Rebuild.lean ====
section
/-! DEFINITION. The rebuild engine and the reshape engine (R275 to R288). A stripe of a rebuild, and the copy of a moved position,
are one row each (assumption log 21). -/

namespace Sys2Proof.Machine

/-! Rebuild. -/

/-- Positions that may be in flight. -/
def State.rbldDepth (s : State) : Nat := max 1 (min 4096 (s.rd F.SEG_RBLD_CTL_DEPTH))

/-- May the engine take a position? -/
def State.rbldRuns (s : State) : Bool :=
  s.flag F.SEG_RBLD_CTL_EN && !s.flag F.SEG_RBLD_CTL_PAUSE && s.seg.heldBy.isEmpty && decide (s.seg.rebuild.length < s.rbldDepth)

/-- Lanes that a band uses, but for a position. -/
def BandRec.lanesBut (b : BandRec) (q : Nat) : List Nat := ((List.range b.n).filter (fun i => decide (i ≠ q))).map (fun i => (b.at_ i).1)

/-- The lane and unit that replace a position (R276). -/
def State.replacement (s : State) (n q : Nat) : Option (Nat × Nat × Nat) :=
  let b := s.band n
  let used := b.lanesBut q
  let lanes := (List.range 64).filter (fun l =>
    bitOf (s.pool b.pool).sleds l && !used.contains l && s.laneGood l && (s.chooseUnit l 5).isSome)
  match minBy (fun l => SMap.findD s.seg.taken l 0) lanes with
  | none => none
  | some l => (s.chooseUnit l 5).map (fun u => (l, u.1, u.2))

/-- Do stripes of a band wait to be programmed? -/
def State.bandInFlight (s : State) (n : Nat) : Bool :=
  s.seg.streams.any (fun p => p.2.flight.any (fun f => decide (segBand f.seg = n)))

/-- Take a FAILED position into rebuild with a replacement unit (R275). -/
def State.rbldTake (s : State) (n q lane d u : Nat) : State :=
  let b := s.band n
  let s := s.takeUnit lane d u (n % 2 ^ 23)
  let s := (s.setBand n ((b.setPos q lane (s.physDie d) u).setPstate q 2)).setMove n q (s.moveOf n q + 1)
  { s with seg := { s.seg with
      failed := s.seg.failed.filter (fun x => decide (x ≠ (n, q)))
      noRepl := s.seg.noRepl.filter (fun x => decide (x ≠ (n, q)))
      taken := SMap.putD s.seg.taken lane (SMap.findD s.seg.taken lane 0 + 1) 0
      rebuild := s.seg.rebuild ++ [{ band := n, pos := q, lane := lane, die := s.physDie d, eu := u, slot := 0, stripe := 0, old := b.at_ q }] } }

/-- Take a position into rebuild; without a replacement it goes to the end, with one report. -/
def State.rbldTry (s : State) (n q : Nat) : State :=
  match s.replacement n q with
  | some (l, d, u) => s.rbldTake n q l d u
  | none =>
    let told := s.seg.noRepl.contains (n, q)
    let rest := s.seg.failed.filter (fun x => decide (x ≠ (n, q)))
    let s := { s with seg := { s.seg with failed := rest ++ [(n, q)], noRepl := if told then s.seg.noRepl else s.seg.noRepl ++ [(n, q)] } }
    if told then s else s.segReport 5 (s.band n).stream n q

/-- The engine takes the position that waits longest, and with it the other FAILED positions of its band, which are rebuilt in one pass
(R275). -/
def State.rbldStart (s : State) : State :=
  if !s.rbldRuns then s
  else
    match s.seg.failed with
    | [] => s
    | (n, q) :: rest =>
      if s.bandInFlight n then s
      else foldSt (fun x (s : State) => s.rbldTry x.1 x.2) ((n, q) :: rest.filter (fun x => decide (x.1 = n))) s

/-- The rebuild engine takes a position. -/
def execRebuildPositionStart (s : State) : Res := .next s.rbldStart

/-- Stripes of a slot that have been programmed: one more than the last index at which an OK position holds a page. -/
def State.stripesOf (s : State) (n slot : Nat) : Nat :=
  let b := s.band n
  let has := fun t => (List.range b.n).any (fun q => decide (b.pstate q = 0) &&
    (let u := b.at_ q
     ((s.sled u.1).page u.2.1 u.2.2 (64 * slot + t)).isSome))
  ((List.range 64).filter has).foldl (fun m t => max m (t + 1)) 0

/-- The slot and stripe a rebuild does next; none when every live slot is done (R277). -/
def State.rbldNext (s : State) (m : PosMove) : Option (Nat × Nat) :=
  let b := s.band m.band
  let from_ := fun i => if i = m.slot then m.stripe else 0
  ((b.liveSlots.filter (fun i => decide (m.slot ≤ i ∧ from_ i < s.stripesOf m.band i))).head?).map (fun i => (i, from_ i))

/-- A filler page (R280). -/
def State.fillPage (s : State) (seg stripe q : Nat) : List Byte :=
  let b := s.band (segBand seg)
  let body := List.replicate 480 0 ++ leBytes 2 b.epoch ++ [0, 0]
  let head := ({ s.tagAt seg stripe q with fill := true } : PageTag).bytes
  if q < b.w then head ++ body ++ leBytes 4 (crc32c body) ++ List.replicate (pageBytes - 504) 0
  else head ++ List.replicate (pageBytes - 16) 0

/-- Report the pages that could not be read though the stripe is rebuilt (R281). -/
def State.suspects (s : State) (seg stripe : Nat) (qs : List Nat) : State :=
  let b := s.band (segBand seg)
  foldSt (fun q (s : State) => s.segReport 2 b.stream seg (if q < b.w then stripe * b.w + q else 0x8000 + q)) qs s

/-- Change a rebuild in progress. -/
def State.updRebuild (s : State) (m m' : PosMove) : State :=
  { s with seg := { s.seg with rebuild := s.seg.rebuild.map (fun x => if x.band = m.band ∧ x.pos = m.pos then m' else x) } }

/-- Program a rebuilt page, and go on to the next stripe; a program that fails makes the position FAILED again (R275). -/
def State.rbldProgram (s : State) (m : PosMove) (slot stripe : Nat) (progBad : Bool) (d : List Byte) : State :=
  match s.mediaProgram m.lane m.die m.eu (64 * slot + stripe) false progBad d with
  | .ok s => (s.ctr F.SEG_RBLD_BYTES_CTR 0 pageBytes).updRebuild m { m with slot := slot, stripe := stripe + 1 }
  | .stale s => s.staleDown m.lane
  | .refused s => s.failPos m.band m.pos
  | .fail s => (s.unitFailed (m.lane, m.die, m.eu)).failPos m.band m.pos

/-- The positions of a band in rebuild that stand at a stripe: the MISS positions that one decode gives (R275). -/
def State.rbldGroup (s : State) (n slot stripe : Nat) : List PosMove :=
  s.seg.rebuild.filter (fun m => decide (m.band = n ∧ s.rbldNext m = some (slot, stripe)))

/-- Rebuild a stripe for a group of positions from the pages read: each page is checked (R277), and one that fails, as a stripe with too few
pages, is LOST and gets a FILL page once the stripe is in the LOST table (R280, R283). -/
def State.rbldWrite (s : State) (seg stripe bad : Nat) (good : List Nat) (progBad : PosMove → Bool) (ms : List PosMove) : State :=
  let b := s.band (segBand seg)
  let data := s.stripeData seg stripe bad good
  let page := fun (m : PosMove) => s.rebuiltPage seg stripe m.pos data
  let fit := fun (m : PosMove) => decide (b.w ≤ good.length) && s.rebuiltOk seg m.pos (page m)
  let fill := ms.filter (fun m => !fit m)
  let put := fun (s : State) =>
    foldSt (fun (m : PosMove) (s : State) =>
      s.rbldProgram m (segSlot seg) stripe (progBad m) (if fit m then page m else s.fillPage seg stripe m.pos)) ms s
  if fill.all (fun m => s.isLost seg stripe m.pos) then put s
  else
    let mask := if b.w ≤ good.length then fill.foldl (fun k m => k + 2 ^ m.pos) 0 else b.missMask good
    match s.declareLost seg stripe mask with
    | some s => put s
    | none => s.lostFull seg

/-- The stripe that a position in rebuild needs next, for all positions of its band that stand there: a pass of the engine, whose reads
give way to others (R270, R277). -/
def State.rbldPass (s : State) (m : PosMove) (slot stripe bad : Nat) (progBad : Bool) : State :=
  let seg := mkSeg m.band slot
  let qs := s.okPositions m.band 32
  if s.bgBusy m.band (qs.take (s.band m.band).w) then s
  else
    let g := s.gatherFor seg stripe bad 32 true
    match g.stale with
    | some l => g.s.staleDown l
    | none =>
      let s := if (s.band m.band).w ≤ g.good.length then g.s.suspects seg stripe g.failed else g.s
      s.rbldWrite seg stripe bad g.good (fun x => progBad && decide (x.pos = m.pos)) (s.rbldGroup m.band slot stripe)

/-- The parity engine that rebuilds a band (R278; DESIGN CHOICE, assumption log 102). -/
def rbldEngine (n : Nat) : Nat := n % 4

/-- The next stripe of the i-th position in rebuild; `bad` names the positions whose page cannot be read. The rebuild engine is requester 9
of its parity engine, in the background (R278, R383). -/
def State.rbldStripe (s : State) (i bad : Nat) (progBad : Bool) : State :=
  match s.seg.rebuild[i]? with
  | none => s
  | some m =>
    if s.mediaHold || !s.seg.heldBy.isEmpty || !s.flag F.SEG_RBLD_CTL_EN then s
    else
      match s.rbldNext m with
      | none => s
      | some (slot, stripe) => s.asClient 3 (rbldEngine m.band) 9 true (fun s => s.rbldPass m slot stripe bad progBad)

/-- The next stripe of a position in rebuild. -/
def execRebuildStripe (i bad : Nat) (progBad : Bool) (s : State) : Res := .next (s.rbldStripe i bad progBad)

/-- When nothing waits and nothing is in flight, the engine is idle again: its NOTE event. -/
def State.rbldIdle (s : State) : State :=
  if s.seg.failed.isEmpty ∧ s.seg.rebuild.isEmpty then
    State.note { s with seg := { s.seg with rebuilt := 0, taken := [] } } 0x08B (min (2 ^ 32 - 1) s.seg.rebuilt)
  else s

/-- The i-th position in rebuild is done (R275): OK, its REBUILT report, its old unit to the Mule. -/
def State.rbldDone (s : State) (i : Nat) : State :=
  match s.seg.rebuild[i]? with
  | none => s
  | some m =>
    if (s.rbldNext m).isSome then s
    else
      let b := s.band m.band
      let s := { s with seg := { s.seg with rebuild := delAt s.seg.rebuild i, rebuilt := s.seg.rebuilt + 1 } }
      let s := (s.setBand m.band (b.setPstate m.pos 0)).segReport 4 b.stream m.band m.pos
      (s.unitGone m.old).rbldIdle

/-- A position is rebuilt. -/
def execRebuildPositionDone (i : Nat) (s : State) : Res := .next (s.rbldDone i)

/-! Reshape. -/

/-- Set CUR of a pool to the table that new bands use during the reshape, and end the reshape. -/
def State.reshapeEnd (s : State) (pool : Nat) : State :=
  let a := s.layoutBase + 64 * pool
  let t := s.tableOf pool
  let s := s.stMem a 1 (setBitsOf (s.ldMem a 1) 2 1 t)
  State.clrFlag { s with seg := { s.seg with reshape := none } } F.SEG_RSHP_CTL_BUSY

/-- Move the boundary, with a checkpoint event every CKPT bands (R288). -/
def State.rshpAt (s : State) (n : Nat) : State :=
  match s.seg.reshape with
  | none => s
  | some r =>
    let since := r.since + (n - s.rd F.SEG_RSHP_AT_BOUNDARY)
    let s := s.wr F.SEG_RSHP_AT_BOUNDARY n
    let ckpt := max 1 (s.rd F.SEG_RSHP_CTL_CKPT)
    let s := { s with seg := { s.seg with reshape := some { r with since := if ckpt ≤ since then since % ckpt else since } } }
    if ckpt ≤ since then s.note 0x08C n else s

/-- A position of a band that must move, and where to: lane, die, unit (R287). -/
def State.rshpNeed (s : State) (pool n : Nat) : Option (Nat × Nat × Nat × Nat) :=
  let b := s.band n
  let row := n % 2 ^ 23 % max 1 (s.pool pool).nrows
  let lanes := (List.range (s.pool pool).n).map (fun q => s.rowLane pool (s.tableOf pool) row q)
  let used := (List.range b.n).map (fun q => (b.at_ q).1)
  let free := lanes.filter (fun l => !used.contains l && s.laneGood l && (s.chooseUnit l 5).isSome)
  let q := (List.range b.n).find? (fun q => !lanes.contains (b.at_ q).1 && decide (b.pstate q = 0))
  match q, free with
  | some q, l :: _ => (s.chooseUnit l 5).map (fun u => (q, l, u.1, u.2))
  | _, _ => none

/-- Start the copy of a position. -/
def State.rshpMove (s : State) (r : Reshape) (n q lane d u : Nat) : State :=
  let b := s.band n
  let s := (s.takeUnit lane d u (n % 2 ^ 23)).setBand n (b.setPstate q 3)
  let m : PosMove := { band := n, pos := q, lane := lane, die := s.physDie d, eu := u, slot := 0, stripe := 0, old := b.at_ q }
  let r' : Reshape := { r with moving := r.moving ++ [m] }
  { s with seg := { s.seg with reshape := some r' } }

/-- Visit one band: some state when a copy starts or the engine must wait. -/
def State.rshpVisit (s : State) (n : Nat) : Option State :=
  match s.seg.reshape with
  | none => some s
  | some r =>
    let b := s.band n
    if b.state = 2 ∧ b.pool = r.pool then
      if s.bandInFlight n then some s
      else
        match s.rshpNeed r.pool n with
        | some (q, l, d, u) => some (s.rshpMove r n q l d u)
        | none => none
    else none

/-- Go on with the bands of a list, the boundary following. -/
def State.rshpWalk (s : State) : List Nat → State
  | [] => s
  | n :: l =>
    match s.rshpVisit n with
    | some s => s
    | none =>
      let b := s.band n
      let s := match s.seg.reshape with
        | some r => if b.state = 1 ∧ b.pool = r.pool then { s with seg := { s.seg with reshape := some { r with again := r.again ++ [n] } } } else s
        | none => s
      (s.rshpAt (n % 2 ^ 23 + 1)).rshpWalk l

/-- Visit a band that was OPEN when the boundary passed it, if it has sealed. -/
def State.rshpAgain (s : State) : List Nat → State
  | [] => s
  | n :: l =>
    if (s.band n).state = 1 then s.rshpAgain l
    else
      match s.rshpVisit n with
      | some s => s
      | none =>
        let s := { s with seg := { s.seg with reshape := s.seg.reshape.map (fun (r : Reshape) => { r with again := r.again.filter (fun x => decide (x ≠ n)) }) } }
        s.rshpAgain l

/-- The engine goes on: the bands from the boundary up, then those that were OPEN; when none is left it sets CUR and ends, with
its NOTE event. -/
def State.rshpGo (s : State) : State :=
  let idle := fun (s : State) => match s.seg.reshape with
    | some r => r.moving.isEmpty
    | none => false
  let rest := s.bandsListed.filter (fun n => s.ownBand n && decide (s.rd F.SEG_RSHP_AT_BOUNDARY ≤ n % 2 ^ 23))
  let s := if idle s then s.rshpWalk rest else s
  let s := if idle s then (match s.seg.reshape with
    | some r => s.rshpAgain r.again
    | none => s) else s
  match s.seg.reshape with
  | some r =>
    if r.moving.isEmpty ∧ r.again.isEmpty ∧
        !(s.bandsListed.any (fun n => s.ownBand n && decide (s.rd F.SEG_RSHP_AT_BOUNDARY ≤ n % 2 ^ 23))) then
      (s.reshapeEnd r.pool).note 0x08C (s.rd F.SEG_RSHP_AT_BOUNDARY + 2 ^ 31)
    else s
  | none => s

/-- START of `SEG_RSHP_CTL`. -/
def State.rshpStart (s : State) : State :=
  if s.seg.reshape.isSome then s
  else
    (State.setFlag { s with seg := { s.seg with reshape := some { pool := s.rd F.SEG_RSHP_CTL_POOL, since := 0, moving := [], again := [] } } }
      F.SEG_RSHP_CTL_BUSY).rshpGo

/-- The reshape starts. -/
def execReshapeStart (s : State) : Res := .next s.rshpStart

/-- ABORT: copies in flight are dropped, their positions OK again; new bands keep the new table. -/
def State.rshpAbort (s : State) : State :=
  match s.seg.reshape with
  | none => s
  | some r =>
    let s := foldSt (fun (m : PosMove) (s : State) => (s.dropMove m.band m.pos).setBand m.band ((s.band m.band).setPstate m.pos 0)) r.moving s
    s.reshapeEnd r.pool

/-- The reshape is aborted. -/
def execReshapeAbort (s : State) : Res := .next s.rshpAbort

/-- Change the copy that comes first. -/
def State.updMove (s : State) (m : PosMove) : State :=
  { s with seg := { s.seg with reshape := s.seg.reshape.map (fun (r : Reshape) => { r with moving := m :: r.moving.tail }) } }

/-- A copy is complete: the position switches to its new unit, and the old one goes to the Mule (R287). -/
def State.copyDone (s : State) (m : PosMove) : State :=
  let b := s.band m.band
  let s := { s with seg := { s.seg with reshape := s.seg.reshape.map (fun (r : Reshape) => { r with moving := r.moving.tail }) } }
  let s := (s.setMove m.band m.pos (s.moveOf m.band m.pos + 1)).setBand m.band ((b.setPos m.pos m.lane m.die m.eu).setPstate m.pos 0)
  ((s.unitGone m.old).ctr F.SEG_MOVES_CTR).rshpGo

/-- Write a copied page to the new unit with its new MOVE; a program that fails makes the position FAILED. -/
def State.copyWrite (s : State) (m : PosMove) (page : Nat) (bad : Bool) (d : List Byte) : State :=
  let t : PageTag := { tagOf d with layg := (s.pool (s.band m.band).pool).layg, move := s.moveOf m.band m.pos + 1 }
  match s.mediaProgram m.lane m.die m.eu page false bad (t.bytes ++ d.drop 16) with
  | .ok s => s.updMove { m with stripe := page + 1 }
  | .stale s => s.staleDown m.lane
  | .refused s => (s.failPos m.band m.pos).rshpGo
  | .fail s => ((s.unitFailed (m.lane, m.die, m.eu)).failPos m.band m.pos).rshpGo

/-- Copy the next page of a moving position, read in the background (R270, R287): a read or a program that fails makes the position FAILED, and
the copy is abandoned. With no page left the copy is complete. `bad` says what the sleds report of the page. -/
def State.copyStep (s : State) (m : PosMove) (bad : PageFault) : State :=
  let (lane, die, eu) := m.old
  let x := s.sled lane
  let rest := (rangeFrom m.stripe ((x.eu die eu).top - m.stripe)).filter (fun i => (x.page die eu i).isSome)
  match rest with
  | [] => s.copyDone m
  | page :: _ =>
    if s.bgWaits lane die then s
    else
      let s' := s.readStart lane die eu page false true
      match s.mediaRead lane die eu page (decide (bad = .read)) with
      | .stale => s'.staleDown lane
      | .page d => if headOk d then s'.copyWrite m page (decide (bad = .program)) d else (s'.failPos m.band m.pos).rshpGo
      | _ => (s'.failPos m.band m.pos).rshpGo

/-- The copy of the moving position goes on by a page, or completes (R287; assumption log 102). With nothing moving, the engine goes on with
bands that have sealed. -/
def State.rshpMoveDone (s : State) (bad : PageFault) : State :=
  match s.seg.reshape with
  | none => s
  | some r =>
    match r.moving with
    | [] => s.rshpGo
    | m :: _ => if s.mediaHold then s else s.copyStep m bad

/-- The copy of a moving position completes. -/
def execReshapeMoveDone (bad : PageFault) (s : State) : Res := .next (s.rshpMoveDone bad)

/-- A write of `SEG_RSHP_CTL`. -/
def State.rshpCtl (s : State) (v : Nat) : State :=
  let s := (s.wr F.SEG_RSHP_CTL_POOL (bitsOf v 0 4)).wr F.SEG_RSHP_CTL_CKPT (bitsOf v 16 16)
  let s := if bitOf v 5 then s.rshpAbort else s
  if bitOf v 4 then s.rshpStart else s

end Sys2Proof.Machine
end

