-- ==== Sys2Proof/Machine/Map.lean ====
section
/-! DEFINITION. The rows of the map cache unit (chapter 8), the end of a stripe's programs, and the Mule's MOVE (R317). -/

namespace Sys2Proof.Machine

/-! Requests. -/

/-- GET at the head of a ring. -/
def execMapGet (cl : Nat) (s : State) : Res :=
  .next (s.runJob 0x07 0 cl (isOp 1) mapGetCheck (fun j s => .taken (s.mapServe j))).mapKick

/-- SET at the head of a ring. -/
def execMapSet (cl : Nat) (s : State) : Res := .next (s.runJob 0x07 0 cl (isOp 2) mapSetCheck mapSetJob).mapKick

/-- SETIF at the head of a ring. -/
def execMapSetif (cl : Nat) (s : State) : Res := .next (s.runJob 0x07 0 cl (isOp 3) mapSetCheck mapSetJob).mapKick

/-- A filling line's node read completes. -/
def execMapNodeReadComplete (n bad : Nat) (s : State) : Res := .next (s.nodeRead n bad).mapKick

/-! Maintenance (R245). -/

/-- The fields of CLEAN and INVAL. -/
def mapMaintCheck (j : Job) (s : State) : Bool := mapFields j s && j.zero 6 7 && j.zero 40 47

/-- Clean the line of a key: it completes with a commit that writes it, at once where there is nothing to write. -/
def State.cleanKey (s : State) (k : MKey) (j : Job) : JobDo :=
  let s := s.hdrFix (s.mapSet k)
  let writing := match s.map.commit with
    | some c => c.nodes.any (fun x => decide (x.key = k)) && !c.again.contains k
    | none => false
  if writing then .taken (s.updCommit (fun c => { c with cleans := c.cleans ++ [(k, j)] }))
  else if s.dirtyKeys.contains k then .taken { s with map := { s.map with cleans := s.map.cleans ++ [(k, j)] } }
  else .done s 0 (.st stDone)

/-- CLEAN. -/
def mapClean (j : Job) (s : State) : JobDo :=
  if j.fld 4 2 ≠ 0 then .done s 0 (.st stDone) else s.cleanKey (liveKey (j.fld 2 2) 0 (j.fld 8 8)) j

/-- CLEAN at the head of a ring. -/
def execMapClean (cl : Nat) (s : State) : Res := .next (s.runJob 0x07 0 cl (isOp 4) mapMaintCheck mapClean).mapKick

/-- How an invalidate ends: at once, or after the requests that were queued on its FILLING line before it (R237). -/
def invalEnd (j : Job) (r : State × Nat × List Job) : JobDo :=
  if r.2.2.isEmpty then .done r.1 0 { status := stDone, aux := r.2.1, result := 0 }
  else .taken { r.1 with map := { r.1.map with maint := r.1.map.maint ++ [{ job := j, behind := r.2.2 }] } }

/-- INVAL: on a frozen view that does not exist or is being deleted it is refused NO_VIEW (R244). -/
def mapInvalJob (j : Job) (s : State) : JobDo :=
  let vol := j.fld 2 2
  let view := j.fld 4 2
  let g := j.fld 8 8
  if view = 0 then invalEnd j (s.mapInval (liveKey vol 0 g))
  else if !s.viewsOk vol view then .memErr s 0x07 0
  else
    match s.frozenRec vol view with
    | none => .done s 0 { status := stRefused, aux := 2, result := 0 }
    | some v =>
      if s.fDeleting v then .done s 0 { status := stRefused, aux := 2, result := 0 }
      else
        match State.frozenKeyOf g 3 (s.vRoot v) s with
        | none => .done s 0 (.st stDone)
        | some k => invalEnd j (s.mapInval k)

/-- INVAL at the head of a ring. -/
def execMapInval (cl : Nat) (s : State) : Res := .next (s.runJob 0x07 0 cl (isOp 5) mapMaintCheck mapInvalJob).mapKick

/-- The fields of the _SW operations. -/
def mapSwCheck (j : Job) (s : State) : Bool :=
  s.flag F.MAP_CTL_EN && j.zero 48 63 && j.zero 6 7 &&
    decide (j.fld 2 2 < 16384 ∧ j.fld 8 8 < 2 ^ 36 ∧ bitsOf (j.fld 40 8) 0 21 < s.mapSets ∧ bitsOf (j.fld 40 8) 21 3 = 0 ∧ j.fld 40 8 < 2 ^ 28)

/-- The line an _SW operation names. -/
def swLine (j : Job) : Nat := 16 * bitsOf (j.fld 40 8) 0 21 + bitsOf (j.fld 40 8) 24 4

/-- CLEAN_SW. -/
def mapCleanSw (j : Job) (s : State) : JobDo :=
  let n := swLine j
  let s := s.hdrFix (n / 16)
  if SMap.has s.map.fills n ∨ !(s.mtag n).valid then .done s 0 (.st stDone) else s.cleanKey (s.mtag n).mkey j

/-- CLEAN_SW at the head of a ring. -/
def execMapCleanSw (cl : Nat) (s : State) : Res := .next (s.runJob 0x07 0 cl (isOp 6) mapSwCheck mapCleanSw).mapKick

/-- INVAL_SW. -/
def mapInvalSw (j : Job) (s : State) : JobDo :=
  invalEnd j ((s.hdrFix (swLine j / 16)).invalLine (swLine j))

/-- INVAL_SW at the head of a ring. -/
def execMapInvalSw (cl : Nat) (s : State) : Res := .next (s.runJob 0x07 0 cl (isOp 7) mapSwCheck mapInvalSw).mapKick

/-! The background engine (R246). -/

/-- The fields of an operation of the engine: ARG by OP. -/
def mapBgCheck (j : Job) (s : State) : Bool :=
  mapFields j s && j.zero 6 7 &&
    (match j.op with
     | 8 => decide (j.fld 8 8 ≤ j.fld 40 8 ∧ j.fld 40 8 < 2 ^ 36)
     | 9 => decide (j.fld 8 8 ≤ j.fld 40 8 ∧ j.fld 40 8 < 2 ^ 36)
     | 0x0A => j.zero 40 47 && decide (j.fld 4 2 = 0)
     | 0x0B => decide (j.fld 40 8 < 16384)
     | _ => j.zero 40 47)

/-- An operation joins the engine's queue; a 17th that would wait completes NO_SPACE. -/
def mapBg (j : Job) (s : State) : JobDo :=
  if 17 ≤ s.map.bg.length then .done s 0 (.st stNoSpace) else .taken { s with map := { s.map with bg := s.map.bg ++ [.job j] } }

/-- RANGE_CLEAN at the head of a ring. -/
def execMapRangeClean (cl : Nat) (s : State) : Res := .next (s.runJob 0x07 0 cl (isOp 8) mapBgCheck mapBg).mapKick
/-- RANGE_INVAL at the head of a ring. -/
def execMapRangeInval (cl : Nat) (s : State) : Res := .next (s.runJob 0x07 0 cl (isOp 9) mapBgCheck mapBg).mapKick
/-- SNAP at the head of a ring. -/
def execMapSnap (cl : Nat) (s : State) : Res := .next (s.runJob 0x07 0 cl (isOp 0x0A) mapBgCheck mapBg).mapKick
/-- CLONE at the head of a ring. -/
def execMapClone (cl : Nat) (s : State) : Res := .next (s.runJob 0x07 0 cl (isOp 0x0B) mapBgCheck mapBg).mapKick
/-- SNAP_DEL at the head of a ring; also carries on a deletion whose reports wait. -/
def execMapSnapDel (cl : Nat) (s : State) : Res := .next (s.runJob 0x07 0 cl (isOp 0x0C) mapBgCheck mapBg).mapKick

/-- CLEANALL of `MAP_CTL`. -/
def State.mapCleanAll (s : State) : State :=
  if 17 ≤ s.map.bg.length then s else State.mapKick { s with map := { s.map with bg := s.map.bg ++ [.cleanAll] } }

/-- CLEANALL. -/
def execMapCleanall (s : State) : Res := .next s.mapCleanAll

/-! Commits. -/

/-- The commit period has passed with a dirty line waiting (R238). -/
def execMapCommitPeriod (s : State) : Res :=
  .next (if s.map.commit.isNone ∧ 1000 * s.rd F.MAP_COMMIT_CFG_PERIOD_US ≤ s.now - s.map.lastEnd ∧ (s.vbDirty ≠ 0 ∨ !s.map.cleans.isEmpty) then
      (s.commitStart [] false).mapKick
    else s)

/-- COMMIT of `MAP_CTL`. -/
def State.mapCommitReq (s : State) : State := (s.commitStart [] false).mapKick

/-- COMMIT. -/
def execMapCommitRequest (s : State) : Res := .next s.mapCommitReq

/-- A commit goes on as far as its waits allow, and completes with its final sync. -/
def execMapCommitComplete (s : State) : Res := .next s.mapKick

/-- The programs of the oldest closed stripe of a stream complete (R262, R263); a commit that waited for it goes on (R239). -/
def execStripeProgramComplete (stream bad : Nat) (s : State) : Res := .next (s.stripeDone stream bad).mapKick

/-- Firmware clears COMMIT_ERR: the next commit may start (R241). -/
def State.mapErrClear (s : State) : State := (s.clrFlag F.MAP_STATUS_COMMIT_ERR).mapKick

/-! Enable, invalidate, mount (R235, R252, R253). -/

/-- Have the three bases been written? -/
def State.mapBases (s : State) : Bool :=
  [F.MAP_BASE_ADDR.off, F.MAP_HDR_BASE_ADDR.off, F.MAP_VIEW_BASE_ADDR.off].all (fun o => s.locked.contains o)

/-- INVALL of `MAP_CTL`. -/
def State.mapInvAll (s : State) : State :=
  if !s.flag F.MAP_CTL_EN ∧ s.mapBases then { s with map := { s.map with invall := true } } else s

/-- INVALL. -/
def execMapInvall (s : State) : Res := .next s.mapInvAll

/-- Every set header written empty, which clears the errors it held (R487). -/
def State.clearHeaders (s : State) : State :=
  let base := s.hdrAddr 0
  let out := fun (a : Nat) => !decide (base ≤ a ∧ a < base + 256 * s.mapSets)
  let s := { s with mem := s.mem.filter (fun c => out c.1), eccBad := s.eccBad.filter (fun g => out (8 * g))
                    eccFix := s.eccFix.filter (fun g => out (8 * g)) }
  let sum := crc32c (List.replicate 240 0)
  foldSt (fun i (s : State) => s.stMem (s.hdrAddr i + 240) 4 sum) (List.range s.mapSets) s

/-- INVALL completes: INVD. A node read still under way is poisoned, as by an invalidate (R236). -/
def execMapInvallDone (s : State) : Res :=
  .next (if s.map.invall then
      let s := s.clearHeaders
      let poison := fun (f : MFill) => { f with poison := true }
      State.setFlag { s with map := { s.map with invall := false, fills := s.map.fills.map (fun p => (p.1, poison p.2)), vb := [] } } F.MAP_CTL_INVD
    else s)

/-- A write of EN of `MAP_CTL`. -/
def State.mapEn (s : State) (b : Bool) : State :=
  if !b then s.clrFlag F.MAP_CTL_EN
  else if s.flag F.MAP_CTL_EN then s
  else if s.flag F.MAP_CTL_INVD ∧ s.flag F.MAP_CTL_MOUNTED ∧ s.mapBases then s.setFlag F.MAP_CTL_EN
  else s.setFlag F.MAP_STATUS_EN_ERR

/-- A write of EN. -/
def execMapCtlEnWrite (en : Bool) (s : State) : Res := .next (s.mapEn en)

/-- MOUNT or FORMAT of `MAP_CTL`. -/
def State.mapMount (s : State) (format : Bool) : State :=
  if s.mapBases then { s with map := { s.map with mounting := some format } } else s

/-- MOUNT. -/
def execMapMount (s : State) : Res := .next (s.mapMount false)
/-- FORMAT. -/
def execMapFormat (s : State) : Res := .next (s.mapMount true)

/-- An empty view region: the live record of every volume as never written, no frozen view. -/
def State.formatViews (s : State) : State :=
  let base := s.recAddr 0
  let out := fun (a : Nat) => !decide (base ≤ a ∧ a < base + 2 ^ 25)
  let s := { s with mem := s.mem.filter (fun c => out c.1), eccBad := s.eccBad.filter (fun g => out (8 * g))
                    eccFix := s.eccFix.filter (fun g => out (8 * g)), map := { s.map with viewLoc := [], tableLoc := [], viewDirty := [] } }
  foldSt (fun v (s : State) => s.setBytes (s.recAddr v) (emptyRec v)) (List.range 16384) s

/-- Read a page of the map stream of a kind; ZERO pointers name no page. -/
def State.mountPage (s : State) (ptr kind : Nat) : State × Option (List Byte) :=
  if entryOk ptr && !eZero ptr && !eLost ptr then
    match s.readNode ptr kind 0 with
    | (s, .got (d, _)) => (s, some d)
    | (s, _) => (s, none)
  else (s, none)

/-- Read the view pages of one table page. -/
def State.mountTable (t : Nat) (d : List Byte) : List Nat → State → Option State
  | [], s => some s
  | i :: is, s =>
    let p := nodeWord d i
    if p = zeroEntry then State.mountTable t d is s
    else
      match s.mountPage p 4 with
      | (s, some page) =>
        let n := 512 * t + i
        let s := (s.eccWrite (s.recAddr (128 * n)) page).1
        State.mountTable t d is { s with map := { s.map with viewLoc := SMap.put s.map.viewLoc n p } }
      | _ => none

/-- Read the table pages of a commit page. -/
def State.mountTables (d : List Byte) : List Nat → State → Option State
  | [], s => some s
  | t :: ts, s =>
    let p := lfld d (16 + 8 * t) 8
    if p = zeroEntry then State.mountTables d ts s
    else
      match s.mountPage p 8 with
      | (s, some page) =>
        match State.mountTable t page (List.range 512) { s with map := { s.map with tableLoc := SMap.put s.map.tableLoc t p } } with
        | some s => State.mountTables d ts s
        | none => none
      | _ => none

/-- Mount from `MAP_ANCHOR`: none where a page fails its check. -/
def State.mountDo (s : State) : Option State :=
  let loc := s.rd F.MAP_ANCHOR_LOC
  match s.mountPage loc 12 with
  | (s, some d) =>
    if lfld d 0 8 = 0x54494D4350414D47 ∧ lfld d 160 8 = crc64 (d.take 160) then
      (State.mountTables d (List.range 16) s.formatViews).map (fun s => (s.wr F.MAP_COMMIT_LOC loc).wr F.MAP_COMMIT_SEQ_C (lfld d 8 8))
    else none
  | _ => none

/-- The mount or format completes: MOUNTED, or MOUNT_ERR. -/
def execMapMountDone (s : State) : Res :=
  .next (match s.map.mounting with
    | none => s
    | some format =>
      let s := { s with map := { s.map with mounting := none } }
      if format then s.formatViews.setFlag F.MAP_CTL_MOUNTED
      else
        match s.mountDo with
        | some s => s.setFlag F.MAP_CTL_MOUNTED
        | none => s.setFlag F.MAP_STATUS_MOUNT_ERR)

/-- A write of `MAP_CTL`. -/
def State.mapCtl (s : State) (v : Nat) : State :=
  let s := (s.wr F.MAP_CTL_KEYSLOT (bitsOf v 8 6)).mapEn (bitOf v 0)
  let s := if bitOf v 1 then s.mapInvAll else s
  let s := if bitOf v 4 then s.mapMount true else if bitOf v 3 then s.mapMount false else s
  let s := if bitOf v 6 then s.mapCommitReq else s
  if bitOf v 7 then s.mapCleanAll else s

/-- A write of `MAP_VQ_KEY` (R228): FOUND and the record. -/
def State.mapVqKey (s : State) (v : Nat) : State :=
  let vol := bitsOf v 0 14
  let view := bitsOf v 16 16
  let s := (s.wr F.MAP_VQ_KEY_VOL vol).wr F.MAP_VQ_KEY_VIEW view
  let r := if view = 0 then some vol else s.frozenRec vol view
  let s := s.wr F.MAP_VQ_KEY_FOUND (b2n r.isSome)
  foldSt (fun k (s : State) => s.wr F.MAP_VQ_DATA0_BYTES ((r.map (fun r => s.vrec r (8 * k) 8)).getD 0) k) (List.range 4) s

/-- A write of `MAP_VQ_KEY`. -/
def execMapVqKeyWrite (v : Nat) (s : State) : Res := .next (s.mapVqKey v)

/-! MOVE (R317). -/

/-- What MOVE does with one descriptor. -/
inductive MoveStep where
  /-- Dead, or its SETIF was not applied. -/
  | skip (s : State)
  | held (s : State)
  | moved (s : State) (old new : Nat)
  /-- No room or no way now: later. -/
  | wait (s : State)
  /-- Stream 2 cannot open a segment. -/
  | noSpace (s : State)

/-- Does the index hold a fingerprint with an entry that more than one map entry shares? -/
def State.dupHeld (s : State) (fp e : Nat) : Bool :=
  (ddxWays (s.bytes (s.ddxBase + 256 * ddxBucket fp) 256)).any (fun x =>
    x.isFp fp && decide (x.entry = e) && (x.pinned || decide (1 < x.refcnt)))

/-- Open the next segment of stream 2 where it has none that takes `n` cells (R317). -/
def State.moveOpen (s : State) (n : Nat) : State × Bool :=
  let y := s.stream 2
  if y.seg.isSome ∧ (y.place n).isSome then (s, true)
  else if y.w = 0 then (s, false)
  else
    let s := if y.seg.isSome then s.endSeg 2 else s
    match s.openSeg 2 y.pool y.w y.p with
    | (s, none) => (s, false)
    | (s, some (g, fresh)) =>
      (if fresh ∧ !s.flag F.JRN_CTL_SINGLE then
        { s with seg := { s.seg with opens := s.seg.opens ++ [{ job := none, band := segBand g, seg := g }] } } else s, true)

/-- Append the moved grain and set its entry; it waits while every SETIF of its volume is held (R247). -/
def State.moveGrain (s : State) (oldKey newKey : List Byte) (seg k e : Nat) (page : List Byte) (g : GDesc) : MoveStep :=
  let n := g.lenm1 + 1
  match s.moveOpen n with
  | (s, false) => .noSpace s
  | (s, true) =>
    let y := s.stream 2
    match y.seg, y.place n with
    | some seg2, some (k2, c2, _) =>
      let plain := xts false oldKey (seg * 2 ^ 18 + (k * 248 + g.cell)) (pageCells page g.cell n)
      let cells := xts true newKey (seg2 * 2 ^ 18 + (k2 * 248 + c2)) plain
      if s.map.holdVol = some g.vol then .wait s
      else
      match s.placeGrain 2 { g with flags := (g.flags % 2) + 2 } cells with
      | .ok s' new =>
        match s'.mapReq true { op := 3, vol := g.vol, view := 0, g := g.lba, count := 0, entry := new, expect_ := e } with
        | (s', .end_ x _) => if x.status = stDone ∧ x.aux = 1 then .moved s' e new else .skip (s'.ctr F.MUL_DEAD_COPIES_CTR)
        | _ => .wait s
      | .wait => .wait s
      | .noSeg s => .noSpace s
      | .full s => .noSpace s
    | _, _ => .noSpace s

/-- One descriptor of a page (R317). -/
def State.moveDesc (s : State) (j : Job) (seg k : Nat) (page : List Byte) (g : GDesc) : MoveStep :=
  if 16384 ≤ g.vol ∨ 2 ^ 36 ≤ g.lba then .skip s
  else
    match s.mapReq true { op := 1, vol := g.vol, view := 0, g := g.lba, count := 1, entry := 0, expect_ := 0 } with
    | (s, .end_ x _) =>
      let e := x.result
      if x.status ≠ stDone ∨ eZero e ∨ eSeg e ≠ seg ∨ eCell e ≠ 248 * k + g.cell ∨ eLen e ≠ g.lenm1 then .skip s
      else if eShared e then .held s
      else
        match SMap.find s.xtsKeys (j.fld 2 1), SMap.find s.xtsKeys (j.fld 3 1) with
        | some ok, some nk =>
          let plain := xts false ok (seg * 2 ^ 18 + (k * 248 + g.cell)) (pageCells page g.cell (g.lenm1 + 1))
          let grain := if bitOf g.flags 0 then plain else (oxDecode plain).1
          let alg := bitsOf (j.fld 16 1) 1 3
          if bitOf (j.fld 16 1) 0 ∧ s.dupHeld (leNat ((sha alg grain).take 20)) e then .held s
          else s.moveGrain ok nk seg k e page g
        | _, _ => .skip s
    | (s, _) => .wait s

/-- A delta (R174). -/
def deltaOf (g : GDesc) (new : Nat) : List Byte := leBytes 8 (g.lba + g.vol * 2 ^ 40) ++ leBytes 8 new ++ leBytes 8 g.seq ++ leBytes 2 g.epoch ++ leBytes 6 0

/-- Write the i-th delta and old entry to OUT. -/
def State.moveOut (s : State) (j : Job) (i : Nat) (g : GDesc) (old new : Nat) : State :=
  ((s.eccWrite (hAddr (j.fld 8 8) (32 * i)) (deltaOf g new)).1.eccWrite (hAddr (j.fld 8 8) (655360 + 8 * i)) (leBytes 8 old)).1

/-- How a pass of MOVE ends: it waits, stream 2 is full, a page of a stream buffer cannot be read, or every page is done. -/
inductive MoveEnd where
  | wait
  | noSpace
  | memErr
  | done
  deriving DecidableEq, Repr

/-- The descriptors of a page from index `d`, in turn. -/
def State.moveDescs (j : Job) (seg k : Nat) (page : List Byte) : List GDesc → MoveSt → State → State × MoveSt × MoveEnd
  | [], m, s => (s, { m with page := m.page + 1, desc := 0 }, .done)
  | g :: gs, m, s =>
    let m' : MoveSt := { m with desc := m.desc + 1 }
    match s.moveDesc j seg k page g with
    | .skip s => State.moveDescs j seg k page gs m' s
    | .held s => State.moveDescs j seg k page gs { m' with held := m.held + 1 } (s.ctr F.MUL_HELD_CTR)
    | .moved s old new =>
      State.moveDescs j seg k page gs { m' with moved := m.moved + 1, cells := m.cells + g.lenm1 + 1 }
        (((s.moveOut j m.moved g old new).ctr F.MUL_MOVED_CTR).ctr F.MUL_MOVED_CELLS_CTR 0 (g.lenm1 + 1))
    | .wait s => (s, m, .wait)
    | .noSpace s => (s, m, .noSpace)

/-- What MOVE finds at a data page: one never programmed; one that is LOST, or whose checks fail when it is reconstructed; the page; or it stops
there. -/
inductive MovePage where
  | none (s : State)
  | lost (s : State)
  | page (s : State) (d : List Byte)
  | stop (s : State) (e : MoveEnd)

/-- Read a data page of the segment for the Mule, in the background (R270, R317). A LEASE_STALE leaves the head DOWN, where the job stays. A
reconstructed page that fails its checks counts as LOST (DESIGN CHOICE, assumption log 103). -/
def State.movePage (s : State) (seg k bad : Nat) : MovePage :=
  let n := segBand seg
  let b := s.band n
  let t := k / max 1 b.w
  let q := k % max 1 b.w
  if s.isLost seg t q then .lost s
  else
    match s.inBuffer seg t with
    | some (x, num) =>
      match s.unitRead (s.bufPage x num q) pageBytes with
      | (s, some d) => .page s d
      | (s, none) => .stop s .memErr
    | none =>
      if s.stripesOf n (segSlot seg) ≤ t then .none s
      else if s.bgBusy n (if b.pstate q = 0 then [q] else (s.okPositions n q).take b.w) then .stop s .wait
      else
        match s.getPage 1 seg t q bad true (fun _ => true) with
        | .page s d => .page s d
        | .lost s => .lost s
        | .tagFail s => .lost s
        | .stale s => .stop s .wait
        | .wait s => .stop s .wait

/-- The data pages from the one the move has reached, `fuel` of them. -/
def State.movePages (j : Job) (seg bad : Nat) : Nat → MoveSt → State → State × MoveSt × MoveEnd
  | 0, m, s => (s, m, .done)
  | fuel + 1, m, s =>
    let on : MoveSt := { m with page := m.page + 1, desc := 0 }
    match s.movePage seg m.page bad with
    | .none s => State.movePages j seg bad fuel on s
    | .lost s => State.movePages j seg bad fuel { on with lost := m.lost + 1 } s
    | .stop s e => (s, m, e)
    | .page s d =>
      match State.moveDescs j seg m.page d ((pageDescs d).drop m.desc) m s with
      | (s, m, .done) => State.movePages j seg bad fuel m s
      | r => r

/-- The checks of R95 and R316. -/
def moveCheck (j : Job) (s : State) : Bool :=
  let dd := j.fld 16 1
  s.flag F.MUL_CTL_EN && j.zero 17 63 && decide (j.fld 2 1 < 64 ∧ j.fld 3 1 < 64 ∧ dd < 16 ∧ (dd % 2 = 0 ∨ dd / 2 = 1 ∨ dd / 2 = 4)) &&
    s.inHandle (j.fld 8 8) 0 819200

/-- The end of a MOVE: stream 2 is synced, then the job completes. -/
def State.moveEnd (s : State) (j : Job) (m : MoveSt) (status : Nat) : State :=
  let s := { s with seg := { s.seg with move := none } }
  (s.clrFlag F.MUL_STATUS_MOVING).syncStream 2 (some j) status m.moved
    (m.cells % 2 ^ 32 + min 65535 m.held * 2 ^ 32 + min 65535 m.lost * 2 ^ 48)

/-- Where the Mule is a background requester for a MOVE (R278, R383): requester 9 of an XTS lane, and 8 of an Ox unit to check the index; both
follow the band number (DESIGN CHOICE, assumption log 102). -/
def State.muleArbs (s : State) (j : Job) : List (Nat × Nat × Nat) :=
  let i := segBand (j.fld 4 4) % s.fuse.variant.engines
  (2, i, 9) :: if bitOf (j.fld 16 1) 0 then [(1, i, 8)] else []

/-- The Mule asks where it does not yet. -/
def State.muleAsk (s : State) (j : Job) : State :=
  foldSt (fun (a : Nat × Nat × Nat) (s : State) => if (s.arb a.1 a.2.1).requests a.2.2 then s else s.arbArrive a.1 a.2.1 a.2.2 true none)
    (s.muleArbs j) s

/-- The Mule's grants end. -/
def State.muleFree (s : State) (j : Job) : State :=
  foldSt (fun (a : Nat × Nat × Nat) (s : State) => s.arbWithdraw a.1 a.2.1 a.2.2) (s.muleArbs j) s

/-- A pass of MOVE over the pages it can reach, with its grants. -/
def State.movePass (s : State) (bad : Nat) (j : Job) : JobDo :=
  let seg := j.fld 4 4
  let m := s.seg.move.getD { job := j, page := 0, desc := 0, moved := 0, cells := 0, held := 0, lost := 0 }
  match State.movePages j seg bad (64 * (s.band (segBand seg)).w - m.page) m s with
  | (s, m, .wait) => .held (State.setFlag { s.muleFree j with seg := { s.seg with move := some m } } F.MUL_STATUS_MOVING)
  | (s, _, .memErr) => .memErr (State.clrFlag { s.muleFree j with seg := { s.seg with move := none } } F.MUL_STATUS_MOVING) 0x0B 0
  | (s, m, .noSpace) => .taken ((s.muleFree j).moveEnd j m stNoSpace)
  | (s, m, .done) => .taken ((s.muleFree j).moveEnd j m stDone)

/-- MOVE; `bad` names the positions whose pages the sleds find uncorrectable. It goes on later where it must wait. -/
def muleMove (bad : Nat) (j : Job) (s : State) : JobDo :=
  let seg := j.fld 4 4
  let b := s.band (segBand seg)
  if s.seg.move.any (fun m => decide (m.job ≠ j)) then .held s
  else if !b.liveSlot (segSlot seg) then .done s 0 { status := stRefused, aux := 1, result := 0 }
  else if 2 < b.stream then .done s 0 { status := stRefused, aux := 2, result := 0 }
  else
    let s := s.muleAsk j
    if (s.muleArbs j).all (fun a => s.holds a.1 a.2.1 a.2.2) then s.movePass bad j else .held s

/-- MOVE at the head of a ring. -/
def execMuleMove (cl bad : Nat) (s : State) : Res := .next (s.runJob 0x0B 0 cl (isOp 1) moveCheck (muleMove bad)).mapKick

end Sys2Proof.Machine
end

