-- ==== Sys2Proof/Machine/Modes.lean ====
section
/-! DEFINITION. The commands of the power domains (R415 to R420): `PWR_DOM` stores, idle entries, and the end of a wake. -/

namespace Sys2Proof.Machine

/-- The class and instances of the units in a domain (R415). -/
def domUnits (d : Nat) : Option (Nat × List Nat) :=
  if 10 ≤ d ∧ d ≤ 25 then some (0x03, [d - 10])
  else if 26 ≤ d ∧ d ≤ 33 then some (0x02, [2 * (d - 26), 2 * (d - 26) + 1])
  else if 34 ≤ d ∧ d ≤ 37 then some (0x05, rangeFrom (4 * (d - 34)) 4)
  else if 38 ≤ d ∧ d ≤ 39 then some (0x06, rangeFrom (2 * (d - 38)) 2)
  else none

/-- The front-end quad or the media lanes in a domain, which may go OFF with jobs on their rings (R415). -/
def domPorts (d : Nat) : Option (Nat × List Nat) :=
  if 44 ≤ d ∧ d ≤ 47 then some (0x01, [d - 44])
  else if 52 ≤ d ∧ d ≤ 59 then some (0x09, rangeFrom (8 * (d - 52)) 8)
  else none

/-- End the jobs of a domain that firmware puts OFF (R8). -/
def State.domOffJobs (s : State) (d : Nat) : State :=
  match domPorts d with
  | some (cls, l) => foldSt (fun i (s : State) => s.offJobs cls i) l s
  | none => s

/-- Are the rings of every unit in a domain empty? A domain without rings has none to hold it. -/
def State.domIdle (s : State) (d : Nat) : Bool :=
  match domUnits d with
  | some u => u.2.all (fun i => s.ringsEmpty u.1 i)
  | none => true

/-- The condition of the column `OFF needs` of R415. -/
def State.offOk (s : State) (d : Nat) : Bool :=
  if 3 ≤ d ∧ d ≤ 9 then decide (s.rd F.MQ_RUN_CORE_EN (d - 2) = 0)
  else if 26 ≤ d ∧ d ≤ 33 then
    s.domIdle d && !s.flag F.DG_CTL_PORT_EN (2 * (d - 26)) && !s.flag F.DG_CTL_PORT_EN (2 * (d - 26) + 1)
  else if 44 ≤ d ∧ d ≤ 47 then
    !bitOf (s.rd F.FE_CTL_QUAD_EN) (d - 44) && decide (bitsOf (s.rd F.FE_PORTMODE_MODE) (4 * (d - 44)) 4 = 0)
  else if 48 ≤ d ∧ d ≤ 51 then !bitOf (s.rd F.TRN_CTL_QUAD_EN) (d - 48)
  else if 52 ≤ d ∧ d ≤ 59 then decide (bitsOf (s.rd F.NML_CTL_LANE_EN) (8 * (d - 52)) 8 = 0)
  else s.domIdle d

/-- Put every register word of a range that is no counter back at its reset value, unlocked. -/
def State.regsReset (s : State) (lo hi : Nat) : State :=
  let hit := fun (off : Nat) => decide (lo ≤ off ∧ off < hi) && !isCtr' off
  { s with regs := s.regs.filter (fun p => !hit p.1), locked := s.locked.filter (fun o => !hit o) }
where
  /-- Is a register word a counter? -/
  isCtr' (off : Nat) : Bool :=
    match regDesc off with
    | some d => d.ctr
    | none => false

/-- Drop the bytes of a memory range. -/
def State.memDrop (s : State) (lo hi : Nat) : State :=
  { s with mem := s.mem.filter (fun c => !(decide (lo ≤ c.1 ∧ c.1 < hi)))
           eccFix := s.eccFix.filter (fun g => !(decide (lo / 8 ≤ g ∧ g < hi / 8)))
           eccBad := s.eccBad.filter (fun g => !(decide (lo / 8 ≤ g ∧ g < hi / 8))) }

/-- The MACsec associations of a quad's ports are lost with its domain. -/
def State.msaLose (s : State) (q : Nat) : State :=
  let gone := fun (off : Nat) =>
    decide (F.FE_MSA_PORT.off ≤ off ∧ off < F.FE_MSA_PORT.off + 0x80 * 1024) &&
      decide (s.rd F.FE_MSA_PORT ((off - F.FE_MSA_PORT.off) / 0x80) / 4 = q)
  { s with regs := s.regs.filter (fun p => !gone p.1) }

/-- What a domain loses without power (R415 to R417): a cluster its threads, registers, scratch and cache lines; digest lanes
their slots; a quad its MAC's registers and, at the front end, its MACsec associations (DEDUCED, assumption log 108); media
lanes their controllers; a search bank its entries (R374). -/
def State.domLose (s : State) (d : Nat) : State :=
  if 2 ≤ d ∧ d ≤ 9 then
    let cl := d - 2
    let s := (s.regsReset (0x1000000 + 0x20000 * cl) (0x1000098 + 0x20000 * cl)).memDrop
      (0x20000000 + 0x40000 * (8 * cl)) (0x20000000 + 0x40000 * (8 * cl + 8))
    { s with threads := s.threads.filter (fun p => decide (clusterOf p.1 ≠ cl))
             dcache := s.dcache.filter (fun p => decide (p.1 / 8 ≠ cl)) }
  else if 10 ≤ d ∧ d ≤ 25 then s.regsReset (0x2C00000 + 0x1000 * (d - 10)) (0x2C01000 + 0x1000 * (d - 10))
  else if 26 ≤ d ∧ d ≤ 33 then
    let l := 2 * (d - 26)
    ((s.dgLose l).dgLose (l + 1)).regsReset (0x2E00000 + 0x1000 * l) (0x2E02000 + 0x1000 * l)
  else if 38 ≤ d ∧ d ≤ 39 then
    let l := 2 * (d - 38)
    s.regsReset (0x3600000 + 0x1000 * l) (0x3602000 + 0x1000 * l)
  else if 44 ≤ d ∧ d ≤ 47 then
    (s.msaLose (d - 44)).regsReset (F.FE_MAC_ADDR.off + 0x20 * (d - 44)) (F.FE_MAC_ADDR.off + 0x20 * (d - 44) + 0x20)
  else if 48 ≤ d ∧ d ≤ 51 then s.regsReset (F.TRN_MAC_ADDR.off + 8 * (d - 48)) (F.TRN_MAC_ADDR.off + 8 * (d - 48) + 8)
  else if 52 ≤ d ∧ d ≤ 59 then
    let l := 8 * (d - 52)
    foldSt (fun n (s : State) => s.setLane n Lane.init) (rangeFrom l 8) s
  else if d = 61 then
    State.clrFlag { s with srch := s.srch.filter (fun p => decide (p.1 / bankSize ≠ 0)) } F.SRCH_STATUS_INIT_DONE0
  else if d = 62 then { s with srch := s.srch.filter (fun p => decide (p.1 / bankSize ≠ 1)) }
  else s

/-- A domain goes OFF. -/
def State.domOff (s : State) (d : Nat) : State :=
  (((s.domLose d).wr F.PWR_DOM_MODE 3 d).wr F.PWR_DOM_STATE 3 d).setDom d { idleSince := none, seq := none }

/-- A store of MODE (R416, R417): an absent domain ignores it; a cluster takes RUN and OFF only. A domain in OFF that is given
another mode begins its exit. -/
def State.domMode (s : State) (d m : Nat) : State :=
  if d ≥ 64 ∨ s.domPresent d = false then s
  else if bitOf (s.domAllowed d) m = false ∨ (2 ≤ d ∧ d ≤ 9 ∧ (m = 1 ∨ m = 2)) then s.setFlag F.PWR_DOM_REQ_ERR d
  else if m = 3 then
    if s.domState d = 3 then s.wr F.PWR_DOM_MODE 3 d
    else if s.offOk d then (s.domOff d).domOffJobs d
    else s.setFlag F.PWR_DOM_REQ_ERR d
  else
    let s := s.wr F.PWR_DOM_MODE m d
    if s.domState d = 3 then (s.wr F.PWR_DOM_STATE 5 d).setDom d { idleSince := some 3, seq := some s.now }
    else if m = 0 then s.domWake d
    else s

/-- PWR_MODE_RUN. -/
def execPwrModeRun (d : Nat) (s : State) : Res := .next (s.domMode d 0)
/-- PWR_MODE_DOZE. -/
def execPwrModeDoze (d : Nat) (s : State) : Res := .next (s.domMode d 1)
/-- PWR_MODE_RETAIN. -/
def execPwrModeRetain (d : Nat) (s : State) : Res := .next (s.domMode d 2)
/-- PWR_MODE_OFF. -/
def execPwrModeOff (d : Nat) (s : State) : Res := .next (s.domMode d 3)

/-- Has a domain's idleness lasted `ns`? -/
def State.idleFor (s : State) (d ns : Nat) : Bool :=
  s.domIdle d && decide ((s.dom d).idleSince.getD 0 + ns ≤ s.now)

/-- DOMAIN_DOZE_IDLE (R416): a unit domain in RUN, idle for DOZE_NS. -/
def execDomainDozeIdle (d : Nat) (s : State) : Res :=
  .next (
    let m := s.rd F.PWR_DOM_MODE d
    if 10 ≤ d ∧ d ≤ 39 ∧ s.domPresent d = true ∧ s.domState d = 0 ∧ (m = 1 ∨ m = 2) ∧
        s.idleFor d (max 1 (s.rd F.PWR_IDLE_DOZE_NS)) = true then s.wr F.PWR_DOM_STATE 1 d
    else s)

/-- DOMAIN_RETAIN_IDLE (R416, R419): idle for RETAIN_US, from DOZE; a search bank, which knows no DOZE, from RUN. -/
def execDomainRetainIdle (d : Nat) (s : State) : Res :=
  .next (
    let unit := decide (10 ≤ d ∧ d ≤ 39) && s.domPresent d && decide (s.domState d = 1)
    let bank := decide (d = 61 ∨ d = 62) && decide (s.domState d = 0)
    if (unit || bank) && bitOf (s.domAllowed d) 2 && decide (s.rd F.PWR_DOM_MODE d = 2) &&
        s.idleFor d (1000 * max 1 (s.rd F.PWR_IDLE_RETAIN_US)) then
      (s.wr F.PWR_DOM_STATE 2 d).setDom d { s.dom d with seq := some s.now }
    else s)

/-- Wake time to RUN from DOZE, RETAIN or OFF. -/
def wakeNs : Nat → Nat
  | 1 => 10
  | 2 => 2000
  | _ => 20000

/-- DOMAIN_WAKE_COMPLETE (R419): the exit sequence ends; an exit from RETAIN or OFF counts in WAKES. -/
def execDomainWakeComplete (d : Nat) (s : State) : Res :=
  .next (
    let x := s.dom d
    let f := x.idleSince.getD 1
    if d < 64 ∧ s.domState d = 5 ∧ x.seq.getD 0 + wakeNs f ≤ s.now then
      let s := if 2 ≤ f then s.wr F.PWR_DOM_WAKES (min (2 ^ 32 - 1) (s.rd F.PWR_DOM_WAKES d + 1)) d else s
      (s.wr F.PWR_DOM_STATE 0 d).setDom d { idleSince := if s.domIdle d then some s.now else none, seq := none }
    else s)

end Sys2Proof.Machine
end

