-- ==== Sys2Proof/Machine/Tcp.lean ====
section
/-! DEFINITION. Connections of the front end: the context cache (R145), what a PDU carries on the wire (R139 to R142), and the
sender's side of TCP (R136 to R138; DESIGN CHOICE, assumption log 81: TCP is modelled in whole PDUs). -/

namespace Sys2Proof.Machine

/-! Connections. -/

/-- Connections of a head. -/
def connCount : Nat := 1048576

/-- A connection. -/
def State.conn (s : State) (c : Nat) : Option Conn := SMap.find s.fe.conns c

/-- Set a connection. -/
def State.setConn (s : State) (c : Nat) (x : Conn) : State :=
  { s with fe := { s.fe with conns := SMap.put s.fe.conns c x } }

/-- Change a connection. -/
def State.updConn (s : State) (c : Nat) (f : Conn → Conn) : State :=
  { s with fe := { s.fe with conns := SMap.modify s.fe.conns c f } }

/-- The handle of a connection. -/
def Conn.handle (x : Conn) (c : Nat) : Nat := c + x.gen * 2 ^ 20

/-- The connection that a handle names now, and its index (R144). -/
def State.connAt (s : State) (h : Nat) : Option (Nat × Conn) :=
  match s.conn (bitsOf h 0 20) with
  | some x => if bitsOf h 20 8 = x.gen then some (bitsOf h 0 20, x) else none
  | none => none

/-! The context cache (R145). -/

/-- Contexts on chip. -/
def State.cachedCount (s : State) : Nat := (s.fe.conns.filter (fun p => p.2.cached)).length

/-- Does a segment of a connection wait? -/
def State.segHeld (s : State) (c : Nat) : Bool := s.fe.miss.any (fun m => decide (m.conn = c))

/-- May a context leave the chip: no segment being processed, no transmission in progress, no retransmission timer that expires
within 50 µs (R145)? -/
def State.mayLeave (s : State) (c : Nat) (x : Conn) : Bool :=
  x.cached && !s.segHeld c && decide (x.tcp.nxt = x.sent) &&
    (match x.tcp.timerAt with
     | some t => decide (s.now + 50000 < t + 1000 * x.tcp.rto)
     | none => true)

/-- The victim: the least recently used context that may leave the chip. -/
def State.ctxVictim (s : State) : Option Nat :=
  (minBy (fun p : Nat × Conn => p.2.used) (s.fe.conns.filter (fun p => s.mayLeave p.1 p.2))).map Prod.fst

/-- Bring a context on chip. Nothing changes while no context may be evicted. -/
def State.ctxLoad (s : State) (c : Nat) : State :=
  let s := if 4096 ≤ s.cachedCount then
      match s.ctxVictim with
      | some v => s.updConn v (fun x => { x with cached := false })
      | none => s
    else s
  if s.cachedCount < 4096 then s.updConn c (fun x => { x with cached := true, used := s.now }) else s

/-! PDUs on the wire. Their layouts are those of NVMe/TCP (PRESUMED, assumption log 82). -/

/-- Stream bytes of a PDU (NVMe/TCP). -/
def pduBytes (x : Conn) : Pdu → Nat
  | .synAck _ _ _ _ _ => 0
  | .rst => 0
  | .fin => 1
  | .icResp _ _ _ _ _ => 128
  | .capsuleResp _ _ _ _ _ _ => 24 + 4 * b2n x.hdgst
  | .c2hData _ _ d _ _ =>
    let h := 24 + 4 * b2n x.hdgst
    let a := 4 * (x.hpda + 1)
    ceilDiv h a * a + d.length + 4 * b2n x.ddgst
  | .r2t _ _ _ _ => 24 + 4 * b2n x.hdgst
  | .c2hTerm _ => 24

/-- The common header of a PDU: type, FLAGS, HLEN, PDO, PLEN. -/
def pduHead (type flags hlen pdo plen : Nat) : List Byte :=
  leBytes 1 type ++ leBytes 1 flags ++ leBytes 1 hlen ++ leBytes 1 pdo ++ leBytes 4 plen

/-- The header of a PDU sent, for its digest; empty for one that carries none. -/
def Conn.txHead (x : Conn) (p : Pdu) : List Byte :=
  match p with
  | .capsuleResp cid dw0 dw1 sqhd qid st =>
    pduHead 5 (b2n x.hdgst) 24 0 (pduBytes x p) ++ leBytes 4 dw0 ++ leBytes 4 dw1 ++ leBytes 2 sqhd ++ leBytes 2 qid ++ leBytes 2 cid ++
      leBytes 2 (2 * st)
  | .c2hData cid off d last ok =>
    pduHead 7 (b2n x.hdgst + 2 * b2n x.ddgst + 4 * b2n last + 8 * b2n ok) 24 (pduBytes x p - d.length - 4 * b2n x.ddgst) (pduBytes x p) ++
      leBytes 2 cid ++ leBytes 2 0 ++ leBytes 4 off ++ leBytes 4 d.length ++ leBytes 4 0
  | .r2t cid tag off len =>
    pduHead 9 (b2n x.hdgst) 24 0 (pduBytes x p) ++ leBytes 2 cid ++ leBytes 2 tag ++ leBytes 4 off ++ leBytes 4 len ++ leBytes 4 0
  | _ => []

/-- The header digest of a PDU sent (R141). -/
def Conn.txHd (x : Conn) (p : Pdu) : Option Nat :=
  if x.hdgst && !(x.txHead p).isEmpty then some (crc32c (x.txHead p)) else none

/-- The data digest of a PDU sent (R141). -/
def Conn.txDd (x : Conn) : Pdu → Option Nat
  | .c2hData _ _ d _ _ => if x.ddgst then some (crc32c d) else none
  | _ => none

/-- The header of a CapsuleCmd received. -/
def Conn.capHead (x : Conn) (plen : Nat) (q : BitVec 512) (data : List Byte) : List Byte :=
  pduHead 4 (b2n x.hdgst + 2 * b2n (x.ddgst && !data.isEmpty)) 72 (if data.isEmpty then 0 else 72 + 4 * b2n x.hdgst) plen ++
    leBytes 64 q.toNat

/-- The header of an H2CData PDU received. -/
def Conn.h2cHead (x : Conn) (cid tag off : Nat) (last : Bool) (data : List Byte) : List Byte :=
  let pdo := 24 + 4 * b2n x.hdgst
  pduHead 6 (b2n x.hdgst + 2 * b2n x.ddgst + 4 * b2n last) 24 pdo (pdo + data.length + 4 * b2n x.ddgst) ++
    leBytes 2 cid ++ leBytes 2 tag ++ leBytes 4 off ++ leBytes 4 data.length ++ leBytes 4 0

/-- Is the header digest of a PDU received right, or none enabled? -/
def Conn.hdOk (x : Conn) (head : List Byte) (hd : Nat) : Bool := !x.hdgst || decide (hd = crc32c head)

/-- Is the data digest of a PDU received right, or none carried? -/
def Conn.ddOk (x : Conn) (data : List Byte) (dd : Nat) : Bool := !x.ddgst || data.isEmpty || decide (dd = crc32c data)

/-! Windows of the receiver (R138). -/

/-- Free bytes of the staging buffer area. -/
def State.stgRoom (s : State) : Nat :=
  64 * (stgGranules - (s.bufs.map (fun p => ceilDiv p.2.len 64)).sum)

/-- Bytes promised to connections other than `c`. -/
def State.promised (s : State) (c : Nat) : Nat := (s.fe.conns.map (fun p => if p.1 = c then 0 else p.2.adv)).sum

/-- The receive window a connection advertises (R138): the smaller of RWIN and its share of free staging space, which share is
not stated (assumption log 4) and leaves what other connections have been promised; with less than 4 MiB free, what it has already
been promised. -/
def State.rxWindow (s : State) (c : Nat) (x : Conn) : Nat :=
  if s.stgRoom < 2 ^ 22 then x.adv else min (4096 * s.rd F.FE_TCP_RWIN) (s.freeNat % (s.stgRoom - s.promised c + 1))

/-! The sender of TCP. -/

/-- The retransmission timeout, within its limits, in µs (R136). -/
def State.rtoClamp (s : State) (us : Nat) : Nat := min (1000 * s.rd F.FE_TCP_RTO_MAX) (max (s.rd F.FE_TCP_RTO_MIN) us)

/-- A connection's sender at the SYN: an initial window of ten segments and a timeout of 1 s within its limits. -/
def Tcp.start (o : TcpOpts) (mss rto : Nat) : Tcp :=
  { opts := o, tsRecent := none, srtt := 0, rttvar := 0, rto := rto, timerAt := none, timed := none, queue := [], nxt := 0, top := 0,
    rwnd := o.wnd, cwnd := 10 * max 1 mss, ssthresh := 2 ^ 32, dups := 0, recover := none, highRxt := 0, sacked := [], winEnd := 0,
    winBytes := 0, winMarked := 0, alpha := 1024 }

/-- Has the host acknowledged a PDU selectively? -/
def Tcp.has (t : Tcp) (e : TxPdu) : Bool := t.sacked.any (fun b => decide (b.1 ≤ e.pos ∧ e.pos + e.len ≤ b.2))

/-- Is a PDU taken for lost (RFC 6675): three PDUs, or more than two segments of bytes, selectively acknowledged above it; or the
first one in recovery? -/
def Conn.lost (x : Conn) (e : TxPdu) : Bool :=
  let above := x.tcp.queue.filter (fun f => decide (e.pos < f.pos) && x.tcp.has f)
  !x.tcp.has e && (decide (3 ≤ above.length ∨ 2 * x.mss < (above.map (·.len)).sum) || (x.tcp.recover.isSome && decide (e.pos ≤ x.acked)))

/-- Bytes taken to be in the network (RFC 6675); without SACK each further acknowledgement stands for one segment that has left. -/
def Conn.pipe (x : Conn) : Nat :=
  let out := x.tcp.queue.filter (fun e => decide (e.pos < x.tcp.nxt) && !x.tcp.has e)
  (out.map (fun e => (if x.lost e then 0 else e.len) + (if e.pos < x.tcp.highRxt then e.len else 0))).sum -
    (if x.tcp.opts.sack then 0 else x.tcp.dups * x.mss)

/-- The PDU to send next: in recovery a lost one, otherwise the next that the host's window has room for. -/
def Conn.nextTx (x : Conn) : Option TxPdu :=
  let again := if x.tcp.recover.isSome then
      x.tcp.queue.find? (fun e => decide (x.tcp.highRxt ≤ e.pos ∧ e.pos < x.tcp.nxt) && x.lost e)
    else none
  match again with
  | some e => some e
  | none => x.tcp.queue.find? (fun e => decide (x.tcp.nxt ≤ e.pos ∧ e.pos < x.acked + x.tcp.rwnd))

/-- A PDU leaves on a connection: its window, its digests, the priority and protection of its interface. -/
def State.pduOut (s : State) (c : Nat) (x : Conn) (e : TxPdu) : State :=
  let w := s.rxWindow c x
  (s.nextFree.setConn c { x with adv := w }).portTx
    { port := s.rd F.FE_IPIF_PORT x.ipif
      prio := if s.flag F.FE_IPIF_TAGGED x.ipif then s.rd F.FE_IPIF_PRIO x.ipif else 0
      n := max 1 (ceilDiv e.len (max 1 x.mss))
      bytes := e.len
      prot := s.flag F.FE_IPIF_MACSEC_REQ x.ipif
      tx := .pdu (x.handle c) w e.pos (x.txHd e.pdu) (x.txDd e.pdu) e.pdu }

/-- Send a PDU of the stream, for the first time or again. -/
def State.tcpEmit (s : State) (c : Nat) (x : Conn) (e : TxPdu) : State :=
  let t := x.tcp
  let fin := e.pos + e.len
  s.pduOut c { x with tcp := { t with
    nxt := max t.nxt fin
    top := max t.top fin
    highRxt := if t.recover.isSome ∧ e.pos < t.nxt then fin else t.highRxt
    timed := if e.pos < t.top then none else if t.timed.isNone then some (fin, s.now) else t.timed } } e

/-- Send what the windows let out. -/
def State.tcpPump (s : State) (c : Nat) : Nat → State
  | 0 => s
  | k + 1 =>
    match s.conn c with
    | none => s
    | some x =>
      match x.nextTx with
      | none => s
      | some e => if x.tcp.cwnd ≤ x.pipe then s else State.tcpPump (s.tcpEmit c x e) c k

/-- Send what the windows let out, until nothing is left. -/
def State.tcpGo (s : State) (c : Nat) : State :=
  match s.conn c with
  | some x => s.tcpPump c (2 * x.tcp.queue.length)
  | none => s

/-- Send a PDU on a connection: one that takes no place in the stream at once, another as the windows let it. -/
def State.feSend (s : State) (c : Nat) (p : Pdu) : State :=
  match s.conn c with
  | none => s
  | some x =>
    let e : TxPdu := { pos := x.sent, len := pduBytes x p, pdu := p }
    if e.len = 0 then s.pduOut c x e
    else
      (s.setConn c { x with sent := x.sent + e.len
                            tcp := { x.tcp with queue := x.tcp.queue ++ [e], timerAt := some (x.tcp.timerAt.getD s.now) } }).tcpGo c

/-- Take a round-trip time in µs (RFC 6298). -/
def Tcp.rtt (t : Tcp) (r : Nat) : Tcp :=
  let r := max 1 r
  if t.srtt = 0 then { t with srtt := r, rttvar := r / 2, rto := r + max 1 (4 * (r / 2)) }
  else
    let v := (3 * t.rttvar + (if r < t.srtt then t.srtt - r else r - t.srtt)) / 4
    let m := (7 * t.srtt + r) / 8
    { t with srtt := m, rttvar := v, rto := m + max 1 (4 * v) }

/-- The round-trip time an acknowledgement shows: from the echo of a timestamp, which counts µs, or from a PDU timed. -/
def Conn.rttOf (x : Conn) (a : TcpAck) (now : Nat) : Option Nat :=
  if x.tcp.opts.ts then a.ts.map (fun p => (now / 1000 + 2 ^ 32 - p.2 % 2 ^ 32) % 2 ^ 32)
  else x.tcp.timed.bind (fun p => if p.1 ≤ a.upTo then some ((now - p.2) / 1000) else none)

/-- The congestion window after an advance of `n` bytes to `upTo` (RFC 5681, RFC 6582). -/
def Conn.grow (x : Conn) (n upTo : Nat) : Tcp :=
  let t := { x.tcp with dups := 0 }
  match t.recover with
  | some r => if r ≤ upTo then { t with cwnd := t.ssthresh, recover := none, highRxt := 0 } else t
  | none => { t with cwnd := t.cwnd + (if t.cwnd < t.ssthresh then min n x.mss else max 1 (x.mss * x.mss / max 1 t.cwnd)) }

/-- ECN echo (RFC 3168; DCTCP RFC 8257, gain 1/16): at most one reduction in each window. -/
def Conn.ecn (x : Conn) (n upTo : Nat) (ece : Bool) : Tcp :=
  let t := x.tcp
  if !t.opts.ecn then t
  else if x.dctcp then
    let t := { t with winBytes := t.winBytes + n, winMarked := t.winMarked + (if ece then n else 0) }
    if upTo < t.winEnd then t
    else
      let al := t.alpha - t.alpha / 16 + t.winMarked * 64 / max 1 t.winBytes
      let cut := if t.winMarked = 0 ∨ t.recover.isSome then t.cwnd else max (2 * x.mss) (t.cwnd - t.cwnd * al / 2048)
      { t with alpha := al, winBytes := 0, winMarked := 0, winEnd := t.nxt, cwnd := cut, ssthresh := if t.winMarked = 0 then t.ssthresh else cut }
  else if ece ∧ t.winEnd ≤ upTo ∧ t.recover.isNone then
    let half := max (2 * x.mss) (t.cwnd / 2)
    { t with cwnd := half, ssthresh := half, winEnd := t.nxt }
  else t

/-- Position of the first PDU not wholly acknowledged. -/
def Conn.first (x : Conn) : Nat := (x.tcp.queue.head?.map (·.pos)).getD x.sent

/-- Bytes sent and not acknowledged. -/
def Conn.flight (x : Conn) : Nat := x.tcp.nxt - x.acked

/-- An acknowledgement that advances: what it covers leaves the queue, the timer starts again. -/
def Conn.advance (x : Conn) (a : TcpAck) (now : Nat) (clamp : Nat → Nat) : Conn :=
  let n := a.upTo - x.acked
  let t := match x.rttOf a now with
    | some r => let t := x.tcp.rtt r; { t with rto := clamp t.rto, timed := none }
    | none => x.tcp
  let x := { x with tcp := t }
  let x := { x with tcp := x.grow n a.upTo }
  let x := { x with tcp := x.ecn n a.upTo a.ece }
  let q := x.tcp.queue.filter (fun e => decide (a.upTo < e.pos + e.len))
  { x with acked := a.upTo, retries := 0,
           tcp := { x.tcp with queue := q, nxt := max x.tcp.nxt a.upTo, sacked := x.tcp.sacked.filter (fun b => decide (a.upTo < b.2))
                               timerAt := if q.isEmpty then none else some now } }

/-- An acknowledgement without advance: the third, or one whose SACK shows a loss, starts recovery (RFC 5681, RFC 6675). -/
def Conn.dupAck (x : Conn) : Conn :=
  let t := { x.tcp with dups := x.tcp.dups + 1 }
  let x := { x with tcp := t }
  if t.recover.isNone ∧ (3 ≤ t.dups ∨ x.tcp.queue.head?.any x.lost) then
    let th := max (x.flight / 2) (2 * x.mss)
    { x with tcp := { t with ssthresh := th, cwnd := th, recover := some t.nxt, highRxt := x.first, timed := none } }
  else x

/-- Does PAWS let an acknowledgement pass (RFC 7323)? -/
def Tcp.paws (t : Tcp) (a : TcpAck) : Bool :=
  !t.opts.ts || (match a.ts, t.tsRecent with
    | none, _ => false
    | some _, none => true
    | some (v, _), some r => !laterThan 32 r v)

/-- A connection after an acknowledgement (R136): none where it is dropped. -/
def Conn.ackIn (x : Conn) (a : TcpAck) (now : Nat) (clamp : Nat → Nat) : Option Conn :=
  if !x.tcp.paws a ∨ x.tcp.top < a.upTo ∨ a.upTo < x.acked then none
  else
    let wnd := a.wnd * 2 ^ x.tcp.opts.wscale.getD 0
    let same := decide (wnd = x.tcp.rwnd)
    let x := { x with tcp := { x.tcp with
      tsRecent := if x.tcp.opts.ts then a.ts.map Prod.fst else none
      rwnd := wnd
      sacked := if x.tcp.opts.sack then (x.tcp.sacked ++ a.sack.take 4).eraseDups else [] } }
    if x.acked < a.upTo then some (x.advance a now clamp)
    else
      let x := { x with retries := if wnd = 0 then 0 else x.retries }
      some (if x.acked < x.tcp.nxt ∧ same then x.dupAck else x)

/-- A connection after its retransmission timer has fired (RFC 6298, RFC 5681): everything not acknowledged is to be sent again, one
segment at first, and the timeout doubles. -/
def Conn.timedOut (x : Conn) (now : Nat) (clamp : Nat → Nat) : Conn :=
  let t := x.tcp
  { x with
    retries := x.retries + 1
    tcp := { t with ssthresh := if x.retries = 0 then max (x.flight / 2) (2 * x.mss) else t.ssthresh, cwnd := max 1 x.mss,
                    rto := clamp (2 * t.rto), nxt := x.first, dups := 0, recover := none, highRxt := 0, sacked := [], timed := none,
                    timerAt := some now } }

end Sys2Proof.Machine
end

