-- ==== Sys2Proof/Machine/Fe.lean ====
section
/-! DEFINITION. The front end: NVMe/TCP, ingress checks, and front-end jobs (R136 to R170). Field places of the
submission queue entry and lengths of PDUs are those of NVMe and NVMe/TCP (assumption log 15). -/

namespace Sys2Proof.Machine

/-- The status field of a completion: SC, SCT, CRD, DNR (R166). -/
def stField (sct sc crd dnr : Nat) : Nat := sc + sct * 2 ^ 8 + crd * 2 ^ 11 + dnr * 2 ^ 14

/-- DW0 of the completion of a command: an Abort always has bit 0 set (R150). -/
def Conn.dw0 (x : Conn) (cid dw0 : Nat) : Nat :=
  if x.admin && x.cmds.any (fun m => decide (m.cid = cid ∧ m.opc = 0x08)) then dw0 ||| 1 else dw0

/-- Complete a command at the host: the response capsule, and the command is no longer outstanding. -/
def State.feComplete (s : State) (c cid status dw0 dw1 : Nat) : State :=
  match s.conn c with
  | none => s
  | some x =>
    (s.feSend c (.capsuleResp cid (x.dw0 cid dw0) dw1 x.sqhd x.qid status)).updConn c
      (fun x => { x with cmds := x.cmds.filter (fun m => decide (m.cid ≠ cid)), aers := removeNat x.aers cid })

/-! Closing (R143, R144). -/

/-- A job of a connection that is dropped: DONE with AUX bit 0. -/
def JobEnd.dropped : JobEnd := { status := stDone, aux := 1, result := 0 }

/-- A connection enters CLOSING: C2HTermReq with a FES where there is one and FIN, behind what has not been sent; or, after a reset,
nothing more. Open windows and unacknowledged responses complete dropped. -/
def State.feClose (s : State) (c : Nat) (fes : Option Nat) (fin : Bool) : State :=
  match s.conn c with
  | none => s
  | some x =>
    if x.st = .closing then s
    else
      let s := match fes with
        | some f => s.feSend c (.c2hTerm f)
        | none => s
      let s := if fin then s.feSend c .fin else s
      let s := foldSt (fun (w : Win) (s : State) => s.complete w.job w.inst 0 .dropped) x.wins s
      let s := foldSt (fun (r : Resp) (s : State) => s.complete r.job r.inst (r.job.fld 8 8) .dropped) x.resps s
      let quiet := fun (t : Tcp) => { t with queue := [], timerAt := none }
      s.updConn c (fun x => { x with st := .closing, since := s.now, wins := [], resps := [], aers := [], cmds := []
                                     sent := if fin then x.sent else x.tcp.nxt, tcp := if fin then x.tcp else quiet x.tcp })

/-- A fatal transport error (R140, R141, R160): counted. -/
def State.feFatal (s : State) (c fes : Nat) : State :=
  match s.conn c with
  | some x => if x.st = .closing then s else (s.ctr F.FE_TERM_CTR x.quad).feClose c (some fes) true
  | none => s

/-- Remove a connection: its index is FREE, its held segments go. -/
def State.feRemove (s : State) (c : Nat) : State :=
  { s with fe := { s.fe with conns := SMap.del s.fe.conns c, miss := s.fe.miss.filter (fun m => decide (m.conn ≠ c)) } }

/-! Opening (R143). -/

/-- The lowest connection index that is FREE. -/
def freeConn (m : SMap Conn) : Nat → Nat → Option Nat
  | 0, _ => none
  | n + 1, k => if SMap.has m k then freeConn m n (k + 1) else if k < connCount then some k else none

/-- Bucket of a 4-tuple. -/
def connBucket (tuple : Nat) : Nat := Config.connHash tuple % connCount

/-- Is the bucket of a 4-tuple full: four connections (R143)? -/
def State.bucketFull (s : State) (tuple : Nat) : Bool :=
  decide (4 ≤ (s.fe.conns.filter (fun p => decide (connBucket p.2.tuple = connBucket tuple))).length)

/-- RST to an address without a connection. -/
def State.rstTo (s : State) (ipif tuple : Nat) : State :=
  s.portTx
    { port := s.rd F.FE_IPIF_PORT ipif, prio := if s.flag F.FE_IPIF_TAGGED ipif then s.rd F.FE_IPIF_PRIO ipif else 0
      n := 1, bytes := 64, prot := s.flag F.FE_IPIF_MACSEC_REQ ipif, tx := .rstTo tuple }

/-- Answer a SYN: the MSS of the interface, shift 14, and what both sides support (R136). -/
def State.synAck (s : State) (c : Nat) : State :=
  match s.conn c with
  | some x =>
    let o := x.tcp.opts
    s.feSend c (.synAck (s.rd F.FE_IPIF_MTU x.ipif - (if s.flag F.FE_IPIF_IPV6 x.ipif then 60 else 40)) (if o.wscale.isSome then 14 else 0) o.ts o.sack o.ecn)
  | none => s

/-- A SYN arrives (R137, R143). -/
def State.synRx (s : State) (quad ipif lport tuple : Nat) (o : TcpOpts) : State :=
  if !bitOf (s.rd F.FE_CTL_QUAD_EN) quad || s.fe.paused then s
  else if s.fe.conns.any (fun p => decide (p.2.tuple = tuple)) then s
  else if !s.listener ipif lport then s.rstTo ipif tuple
  else if s.bucketFull tuple || !s.flag F.FE_CTL_ACCEPT_EN then (s.rstTo ipif tuple).ctr F.FE_SYN_REFUSED_CTR quad
  else
    match freeConn s.fe.conns (s.fe.conns.length + 1) 0 with
    | none => (s.rstTo ipif tuple).ctr F.FE_SYN_REFUSED_CTR quad
    | some c =>
      let gen := (SMap.findD s.fe.gens c 0 + 1) % 256
      let s := { s with fe := { s.fe with gens := SMap.putD s.fe.gens c gen 0 } }
      let mtu := s.rd F.FE_IPIF_MTU ipif - (if s.flag F.FE_IPIF_IPV6 ipif then 60 else 40)
      let mss := min mtu (if o.mss = 0 then 536 else o.mss)
      let s := s.setConn c
        { gen := gen, quad := quad, ipif := ipif, tuple := tuple, st := .synRcvd, since := s.now, tries := 1,
          hdgst := false, ddgst := false, hpda := 0, tenant := 0, queue := 0, qid := 0, sqsize := 0, cntlid := 0,
          noFlow := false, admin := false, dctcp := s.flag F.FE_TCP_CC, mss := mss,
          sqhd := 0, cmds := [], aers := [], wins := [], nextTag := 0, sent := 0, acked := 0, resps := [], retries := 0,
          cached := false, used := s.now, adv := 0, tcp := Tcp.start o mss (s.rtoClamp 1000000) }
      (s.ctxLoad c).synAck c

/-- A SYN arrives. -/
def execSynRx (quad ipif lport : Nat) (y : SynSeg) (s : State) : Res :=
  .next (if quad < s.fuse.variant.quads ∧ ipif < 64 then s.synRx quad ipif lport y.tuple y.opts else s)

/-! Protection information (R153). -/

/-- The 16 bytes of a block: 64-bit guard, application tag, 48-bit reference tag, big-endian. -/
def piBytes (data : List Byte) (apptag lba : Nat) : List Byte :=
  beBytes 8 (crc64 data) ++ beBytes 2 apptag ++ beBytes 6 lba

/-- Blocks of a byte string, `n` bytes each. -/
def chunks (n : Nat) : Nat → List Byte → List (List Byte)
  | 0, _ => []
  | k + 1, l => if l.isEmpty then [] else l.take n :: chunks n k (l.drop n)

/-- The SC of the check that a block with its 16 bytes fails, if any. -/
def piFail (prchk apptag lba : Nat) (b : List Byte) : Option Nat :=
  let d := b.take 4096
  let p := b.drop 4096
  if bitOf prchk 2 && decide (beNat (p.take 8) ≠ crc64 d) then some 0x82
  else if bitOf prchk 1 && decide (beNat ((p.drop 8).take 2) ≠ apptag) then some 0x83
  else if bitOf prchk 0 && decide (beNat ((p.drop 10).take 6) ≠ lba % 2 ^ 48) then some 0x84
  else none

/-- The first block of a list that fails: its index and SC. -/
def piFirst (prchk apptag lba : Nat) : Nat → List (List Byte) → Option (Nat × Nat)
  | _, [] => none
  | i, b :: bs =>
    match piFail prchk apptag (lba + i) b with
    | some sc => some (i, sc)
    | none => piFirst prchk apptag lba (i + 1) bs

/-- Does data of a command carry protection information on the wire? -/
def Cmd.pi (m : Cmd) : Bool := decide (m.fmt = 1) && !m.pract

/-! Ingress (R147 to R149). -/

/-- Fields of a submission queue entry. -/
def sqF (q : BitVec 512) (lo w : Nat) : Nat := bitsOf q.toNat lo w

/-- Is an opcode, for a Fabrics command its command type, supported on the queue (R150)? Fabrics commands are Property Set, Connect,
Property Get and Disconnect. -/
def opcSupported (admin : Bool) (opc fctype : Nat) : Bool :=
  if opc = 0x7F then [0x00, 0x01, 0x04, 0x08].contains fctype
  else if admin then [0x02, 0x06, 0x08, 0x09, 0x0A, 0x0C, 0x18, 0x80].contains opc
  else [0x00, 0x01, 0x02, 0x08, 0x09, 0x0C].contains opc

/-- Does the command carry an LBA range? -/
def opcRange (opc : Nat) : Bool := [0x01, 0x02, 0x08, 0x0C].contains opc

/-- The answer of the ingress checks: a status, a fatal error, or go on. -/
inductive Ingress where
  | status (sct sc dnr : Nat)
  | fatal (fes : Nat)
  | ok
  deriving DecidableEq, Repr

/-- What the checks need of a command. -/
structure CmdInfo where
  cmd : Cmd
  io : Bool
  nlb : Nat
  block : Nat
  dataLen : Nat
  wireLen : Nat

/-- The data length that an admin or Fabrics command implies (NVMe, assumption log 15): that of Get Log Page is in NUMD, of Identify
4,096, of Connect 1,024; Set Features and Get Features transfer what their feature has, which is what the SGL says; the others
transfer nothing. -/
def adminLen (q : BitVec 512) : Nat :=
  match sqF q 0 8 with
  | 0x02 => 4 * (sqF q 336 16 + 2 ^ 16 * sqF q 352 16 + 1)
  | 0x06 => 4096
  | 0x09 => sqF q 256 32
  | 0x0A => sqF q 256 32
  | 0x7F => if sqF q 32 8 = 0x01 then 1024 else 0
  | _ => 0

/-- Does a command carry data from the host: bits 1 and 0 of its opcode, or of its Fabrics command type, are 1 (NVMe)? -/
def fromHost (q : BitVec 512) : Bool := decide ((if sqF q 0 8 = 0x7F then sqF q 32 8 else sqF q 0 8) % 4 = 1)

/-- Read a submission queue entry. -/
def State.cmdInfo (s : State) (admin : Bool) (q : BitVec 512) : CmdInfo :=
  let opc := sqF q 0 8
  let nsid := sqF q 32 32
  let vol := if nsid = 0xFFFFFFFF then 0 else (nsid + 2 ^ 32 - 1) % 2 ^ 14
  let fmt := s.rd F.FE_NS_FORMAT vol
  let io := !admin && decide (opc ≠ 0x7F)
  let block := if fmt = 2 then 512 else 4096
  let nlb := sqF q 384 16
  let pract := bitOf q.toNat (384 + 29)
  let dataLen :=
    if !io then adminLen q
    else if opc = 0x01 ∨ opc = 0x02 then (nlb + 1) * block
    else if opc = 0x09 then (sqF q 320 8 + 1) * 16
    else 0
  { cmd := { cid := sqF q 16 16, opc := opc, vol := vol, fmt := if io then fmt else 0, slba := sqF q 320 64,
             prchk := sqF q (384 + 26) 3, pract := pract, apptag := s.rd F.FE_NS_APPTAG vol,
             write := io && decide (opc = 0x01), asked := false }
    io := io, nlb := nlb, block := block, dataLen := dataLen
    wireLen := if io && decide ((opc = 0x01 ∨ opc = 0x02) ∧ fmt = 1) && !pract then dataLen + 16 * (nlb + 1) else dataLen }

/-- The checks of R147 in order. A fifth Asynchronous Event Request (R150) ends with Asynchronous Event Request Limit Exceeded
(PRESUMED, assumption log 83). -/
def State.ingress (s : State) (x : Conn) (q : BitVec 512) (data : List Byte) : Ingress :=
  let i := s.cmdInfo x.admin q
  let opc := i.cmd.opc
  let nsid := sqF q 32 32
  let sglType := sqF q 316 4
  let sglSub := sqF q 312 4
  let sgl := sqF q 256 32
  let inCap := decide (sglType = 0 ∧ sglSub = 1)
  if x.cmds.any (fun m => decide (m.cid = i.cmd.cid)) then .status 0 0x03 1
  else if x.sqsize ≤ x.cmds.length then .fatal 0x02
  else if !opcSupported x.admin opc (sqF q 32 8) then .status 0 0x01 1
  else if sqF q 8 2 ≠ 0 ∨ (sqF q 14 2 ≠ 1 ∧ sqF q 14 2 ≠ 2) then .status 0 0x02 1
  else if sglType ≠ 0 ∧ sglType ≠ 5 then .status 0 0x11 1
  else if i.io ∧ !(decide (opc = 0 ∧ nsid = 0xFFFFFFFF)) ∧
      (nsid = 0 ∨ 16384 < nsid ∨ !s.flag F.FE_NS_ACTIVE i.cmd.vol ∨ s.rd F.FE_NS_FORMAT i.cmd.vol = 3) then .status 0 0x0B 1
  else if 1048576 < i.dataLen then .status 0 0x02 1
  else if i.io ∧ opcRange opc ∧
      s.rd F.FE_NS_SIZE i.cmd.vol * (if i.cmd.fmt = 2 then 8 else 1) < i.cmd.slba + i.nlb + 1 then .status 0 0x80 1
  else if sgl ≠ i.wireLen ∨ (inCap ∧ data.length ≠ sgl) ∨ (!inCap ∧ !data.isEmpty) ∨
      (!data.isEmpty ∧ (i.dataLen = 0 ∨ !fromHost q)) then .status 0 0x0F 1
  else if x.admin ∧ opc = 0x0C ∧ 4 ≤ x.aers.length then .status 1 0x05 0
  else if i.cmd.write && i.cmd.pi && !data.isEmpty then
    match piFirst i.cmd.prchk i.cmd.apptag i.cmd.slba 0 (chunks 4112 (i.nlb + 1) data) with
    | some (_, sc) => .status 2 sc 1
    | none => .ok
  else .ok

/-- KIND of a command (R149). -/
def kindOf (opc : Nat) : Nat := if opc = 0x02 ∨ opc = 0x0C then 0 else if opc = 0x01 then 1 else 2

/-- Grains of an LBA range: first and number. -/
def grainsOf (fmt slba nlb : Nat) : Nat × Nat :=
  if fmt = 2 then (slba / 8, (slba + nlb) / 8 - slba / 8 + 1) else (slba, nlb + 1)

/-- The 64 bytes of a receive record (R148). -/
def recvRecord (c : RxCap) (flags qid dataLen cntlid stamp : Nat) : List Byte :=
  leBytes 4 c.conn ++ leBytes 1 c.quad ++ leBytes 1 flags ++ leBytes 2 qid ++ leBytes 4 dataLen ++ leBytes 2 c.vol ++
    leBytes 2 cntlid ++ leBytes 8 c.first ++ leBytes 4 c.ngrains ++ leBytes 4 0xFFFFFFFF ++ leBytes 8 stamp ++ leBytes 24 0

/-- Allocate the buffer of a capsule, write its receive record and data, and give the record (R147, R148). None when no
buffer is free: the capsule waits (assumption log 16). Only commands that carry an LBA range have whole grains in the buffer. -/
def State.capsuleBuf (s : State) (c : Nat) (x : Conn) (q : BitVec 512) (data : List Byte) : Option (RxCap × State) :=
  let i := s.cmdInfo x.admin q
  let m := i.cmd
  let ranged := i.io && opcRange m.opc
  let g := if ranged then grainsOf m.fmt m.slba i.nlb else (0, 0)
  let clean := if m.pi then ((chunks 4112 (i.nlb + 1) data).map (·.take 4096)).flatten else data
  let lead := if ranged && decide (m.fmt = 2) then 512 * (m.slba % 8) else 0
  let room := if ranged && decide (m.fmt = 2) && !data.isEmpty then g.2 * 4096 else clean.length
  let allns := i.io && decide (m.opc = 0 ∧ sqF q 32 32 = 0xFFFFFFFF)
  match s.stgAlloc (64 + room) with
  | none => none
  | some (h, s) =>
    let cap : RxCap :=
      { hdr := q, handle := h, conn := x.handle c, quad := x.quad, cid := m.cid, tenant := x.tenant, kind := kindOf m.opc,
        admin := x.admin, fabrics := decide (m.opc = 0x7F), allns := allns, vol := if i.io then m.vol else 0,
        first := g.1 % 2 ^ 40, ngrains := g.2,
        length := if m.opc = 0x0C then (i.nlb + 1) * i.block else i.dataLen, queue := x.queue }
    let flags := b2n (!data.isEmpty) + 2 * b2n (decide (m.fmt = 1)) + 4 * b2n (decide (m.fmt = 2)) + 8 * b2n x.admin +
      16 * b2n cap.fabrics + 32 * b2n allns
    let s := s.setBytes (hAddr h 0) (recvRecord cap flags x.qid clean.length x.cntlid s.now)
    some (cap, s.setBytes (hAddr h (64 + lead)) clean)

/-- An item without a promise from a capsule (R143, R149). -/
def capItem (c : RxCap) (queue : Nat) : Item :=
  { hdr := (List.range 8).map (fun i => BitVec.ofNat 64 (bitsOf c.hdr.toNat (64 * i) 64)), handle := BitVec.ofNat 64 c.handle,
    queue := queue, deadline := 0, stamp := 0, hasDl := false, source := 1, cls := 0, tenant := c.tenant }

/-- Complete a capsule at ingress with a status: counted (R147). -/
def State.ingressFail (s : State) (c : Nat) (x : Conn) (cid sct sc dnr : Nat) : State :=
  (s.ctr F.FE_INGRESS_FAIL_CTR x.quad).feSend c (.capsuleResp cid 0 0 x.sqhd x.qid (stField sct sc 0 dnr))

/-- Advance SQHD for a capsule taken from the queue. -/
def Conn.sqTake (x : Conn) : Conn := { x with sqhd := if x.sqsize = 0 then 0 else (x.sqhd + 1) % x.sqsize }

/-- A capsule in READY (R141, R147): none while it waits for a buffer. -/
def State.capsuleReady (s : State) (c : Nat) (x : Conn) (q : BitVec 512) (data : List Byte) (dOk : Bool) : Option State :=
  let cid := sqF q 16 16
  let x := x.sqTake
  let s := s.setConn c x
  if !dOk then some (s.ingressFail c x cid 0 0x22 0)
  else
    match s.ingress x q data with
    | .fatal f => some (s.feFatal c f)
    | .status sct sc dnr => some (s.ingressFail c x cid sct sc dnr)
    | .ok =>
      (s.capsuleBuf c x q data).map (fun r =>
        let m := (s.cmdInfo x.admin q).cmd
        let s := r.2.setConn c { x with cmds := x.cmds ++ [m], aers := if x.admin ∧ m.opc = 0x0C then x.aers ++ [cid] else x.aers }
        { s with rxRing := s.rxRing ++ [r.1] })

/-- A Fabrics Connect in AWAIT_CONNECT: an item on CONNECT_Q without a promise (R143). It waits while there is no buffer or no room
for the item. -/
def State.connectRx (s : State) (c : Nat) (x : Conn) (q : BitVec 512) (data : List Byte) : Option State :=
  match s.capsuleBuf c x q data with
  | none => none
  | some (cap, s') =>
    match s'.enqueue (capItem cap (s'.rd F.FE_NVME_CONNECT_Q)) with
    | none => none
    | some (_, s') => some (s'.setConn c { x with st := .awaitBind, cmds := x.cmds ++ [(s.cmdInfo x.admin q).cmd] })

/-- Is a capsule a Fabrics Connect: opcode 0x7F, command type 1? -/
def isConnect (q : BitVec 512) : Bool := decide (sqF q 0 8 = 0x7F ∧ sqF q 32 8 = 0x01)

/-! Windows (R142, R160 to R162, R167). -/

/-- The promise of an item resumes (R121). -/
def State.resumePromise (s : State) (k : Nat) : State :=
  match s.prm k with
  | some p =>
    if p.st = .paused then
      (s.setPrm k { p with st := .live, time := s.now + p.time }).updItem k
        (fun it => { it with deadline := (s.now + p.time) % 2 ^ 32 })
    else s
  | none => s

/-- The promise of an item pauses: the slack is stored (R121). -/
def State.pausePromise (s : State) (k : Nat) : State :=
  match s.prm k with
  | some p =>
    if p.st = .live then (s.setPrm k { p with st := .paused, time := p.time - s.now }).ctr F.WKT_PAUSES_CTR else s
  | none => s

/-- The window is complete: protection information checked and removed, the data in the buffer, the job done, the promise
resumed. -/
def State.winDone (s : State) (c : Nat) (x : Conn) (w : Win) : State :=
  let m := (x.cmds.find? (fun m => decide (m.cid = w.job.fld 32 2))).getD
    { cid := 0, opc := 0, vol := 0, fmt := 0, slba := 0, prchk := 0, pract := true, apptag := 0, write := false, asked := false }
  let doff := w.job.fld 36 4
  let len := w.job.fld 20 4
  let bad := if m.pi then piFirst m.prchk m.apptag (m.slba + doff / 4096) 0 (chunks 4112 (len / 4096 + 1) w.raw) else none
  let clean := if m.pi then ((chunks 4112 (len / 4096 + 1) w.raw).map (·.take 4096)).flatten else w.raw
  let h := w.job.fld 8 8
  let put := s.current h && !w.digestErr
  let r := if put then s.eccWrite (hAddr h (w.job.fld 16 4)) clean else (s, true)
  let s := if r.2 then r.1 else r.1.memEvent 0x01 w.inst
  let s := s.updConn c (fun x => { x with wins := x.wins.filter (fun v => decide (v.tag ≠ w.tag)) })
  let s := match w.job.item with
    | some k => s.resumePromise k
    | none => s
  let res := 2 * b2n w.digestErr + (match bad with
    | some (i, sc) => 4 + sc * 2 ^ 8 + (doff / 4096 + i) * 2 ^ 16
    | none => 0)
  s.completeP w.job w.inst 0 (if r.2 then { status := stDone, aux := len, result := res } else .memErr)

/-- Data arrives for a window (R160). -/
def State.h2cRx (s : State) (c : Nat) (x : Conn) (tag off : Nat) (data : List Byte) (dOk : Bool) : State :=
  match x.wins.find? (fun w => decide (w.tag = tag)) with
  | none => s.feFatal c 0x04
  | some w =>
    if off ≠ w.off + w.raw.length ∨ w.off + w.wire < off + data.length ∨ 131072 < data.length then s.feFatal c 0x04
    else
      let w' := { w with raw := w.raw ++ data, digestErr := w.digestErr || !dOk }
      let s := s.setConn c { x with wins := x.wins.map (fun v => if v.tag = tag then w' else v) }
      if w'.raw.length = w.wire then s.winDone c x w' else s

/-! Segments. -/

/-- An acknowledgement (R136, R167): responses whose last byte it covers complete, and what the windows let out is sent. -/
def State.ackRx (s : State) (c : Nat) (x : Conn) (a : TcpAck) : State :=
  match x.ackIn a s.now s.rtoClamp with
  | none => s
  | some x =>
    let fin := x.resps.filter (fun r => decide (r.endAt ≤ x.acked))
    let s := s.setConn c { x with resps := x.resps.filter (fun r => decide (x.acked < r.endAt)) }
    (foldSt (fun (r : Resp) (s : State) => s.completeP r.job r.inst (r.job.fld 8 8) (.st stDone)) fin s).tcpGo c

/-- A PDU other than the three a host may send after initialisation (R139, R140). -/
def State.pduRx (s : State) (c : Nat) (x : Conn) (type pfv hpda : Nat) (hd dd : Bool) : State :=
  if x.st = .awaitIc then
    if type ≠ 0 then s.feFatal c 0x02
    else if pfv ≠ 0 ∨ 31 < hpda then s.feFatal c 0x01
    else
      let h := hd && s.flag F.FE_NVME_HDGST_ALLOW
      let d := dd && s.flag F.FE_NVME_DDGST_ALLOW
      (s.setConn c { x with st := .awaitConnect, hpda := hpda, hdgst := h, ddgst := d }).feSend c (.icResp 0 0 h d 131072)
  else if x.st = .synRcvd ∨ x.st = .closing then s
  else if type ≤ 1 then s.feFatal c 0x02
  else s.feFatal c 0x01

/-- A capsule (R140, R141, R143): none while it waits for a buffer. -/
def State.capsuleRx (s : State) (c : Nat) (x : Conn) (plen : Nat) (q : BitVec 512) (data : List Byte) (hd dd : Nat) : Option State :=
  if x.st = .synRcvd ∨ x.st = .closing then some s
  else if x.st = .awaitIc then some (s.feFatal c 0x02)
  else if !x.hdOk (x.capHead plen q data) hd then some (s.feFatal c 0x03)
  else if 8 + 64 + 16384 + 4 * b2n x.hdgst + 4 * b2n x.ddgst < plen then some (s.feFatal c 0x05)
  else
    let cid := sqF q 16 16
    let dOk := x.ddOk data dd
    match x.st with
    | .ready => s.capsuleReady c x q data dOk
    | .awaitConnect =>
      if isConnect q then (if dOk then s.connectRx c x q data else some (s.ingressFail c x cid 0 0x22 0))
      else some (s.ingressFail c x cid 0 0x0C 1)
    | _ => some (s.ingressFail c x cid 0 0x0C 1)

/-- A segment of a connection whose context is on chip: none while it waits for a buffer. -/
def State.segRun (s : State) (c : Nat) (g : Seg) : Option State :=
  match s.conn c with
  | none => some s
  | some x =>
    let x := { x with used := s.now }
    let s := s.setConn c x
    match g with
    | .synAck => some (if x.st = .synRcvd then s.setConn c { x with st := .awaitIc, since := s.now } else s)
    | .pdu type pfv hpda hd dd => some (s.pduRx c x type pfv hpda hd dd)
    | .capsule plen q data hd dd => s.capsuleRx c x plen q data hd dd
    | .h2c cid tag off last data hd dd =>
      some (
        if x.st = .awaitIc then s.feFatal c 0x02
        else if x.st = .synRcvd ∨ x.st = .closing then s
        else if !x.hdOk (x.h2cHead cid tag off last data) hd then s.feFatal c 0x03
        else s.h2cRx c x tag off data (x.ddOk data dd))
    | .term len =>
      some (
        if x.st = .awaitIc then s.feFatal c 0x02
        else if x.st = .synRcvd ∨ x.st = .closing then s
        else if 152 < len then s.feFatal c 0x05
        else s.feClose c none true)
    | .ack a => some (s.ackRx c x a)
    | .rst => some (s.feClose c none false)

/-- Process waiting segments of a connection in order, as far as the first that still waits for a buffer. -/
def State.segDrain (s : State) (c : Nat) : List MissSeg → State
  | [] => s
  | m :: l =>
    match s.segRun c m.seg with
    | some s => State.segDrain { s with fe := { s.fe with miss := s.fe.miss.erase m } } c l
    | none => s

/-- Process a connection's waiting segments when its context is on chip (R145). -/
def State.segGo (s : State) (c : Nat) : State :=
  match s.conn c with
  | some x => if x.cached then s.segDrain c (s.fe.miss.filter (fun m => decide (m.conn = c))) else s
  | none => s

/-- A timer or a job needs a context (R145): it comes on chip, and segments that wait for it are processed first. -/
def State.ctxTouch (s : State) (c : Nat) : State :=
  match s.conn c with
  | some x =>
    if x.cached then s.updConn c (fun x => { x with used := s.now })
    else ((s.ctr F.FE_CTX_MISS_CTR x.quad).ctxLoad c).segGo c
  | none => s

/-- Bytes of a segment that count against the window promised (R138). -/
def Seg.takes (g : Seg) (bytes : Nat) : Nat :=
  match g with
  | .ack _ => 0
  | .rst => 0
  | .synAck => 0
  | _ => bytes

/-- A segment waits behind others, or for its context or a buffer. -/
def State.segWait (s : State) (c quad bytes : Nat) (g : Seg) : State :=
  { s with fe := { s.fe with miss := s.fe.miss ++ [{ quad := quad, conn := c, bytes := bytes, seg := g }] } }

/-- A segment arrives (R145, R146): for a context on chip it is processed; otherwise it waits in the quad's miss buffer of
2 MiB, or is dropped when that is full. A segment never passes an earlier one of its connection (R147, R155). -/
def State.segRx (s : State) (c bytes : Nat) (g : Seg) : State :=
  match s.conn c with
  | none => s
  | some x =>
    let took := { x with adv := x.adv - g.takes bytes }
    if !bitOf (s.rd F.FE_CTL_QUAD_EN) x.quad || s.fe.paused then s
    else if x.cached then
      let s := s.setConn c took
      if s.segHeld c then (s.segWait c x.quad bytes g).segGo c
      else
        match s.segRun c g with
        | some s => s
        | none => s.segWait c x.quad bytes g
    else
      let used := (s.fe.miss.filter (fun m => decide (m.quad = x.quad))).foldl (fun n m => n + m.bytes) 0
      let s := if s.segHeld c then s else s.ctr F.FE_CTX_MISS_CTR x.quad
      if used + bytes ≤ 2097152 then (s.setConn c took).segWait c x.quad bytes g
      else s.ctr F.FE_MISS_DROP_CTR x.quad

/-- Connections whose context is being fetched: of those that segments wait for, at most 256 at a time (R145). -/
def State.fetching (s : State) : List Nat :=
  (((s.fe.miss.map (·.conn)).eraseDups).filter (fun c => (s.conn c).any (fun x => !x.cached))).take 256

/-- A context arrives on chip and the segments held for it are processed in order (R145); segments that waited for a buffer try
again. -/
def execCtxFetchComplete (c : Nat) (s : State) : Res :=
  .next ((if s.fetching.contains c then s.ctxLoad c else s).segGo c)

/-- ACK of the SYN-ACK. -/
def execSynackAckRx (c bytes : Nat) (s : State) : Res := .next (s.segRx c bytes .synAck)

/-- ICReq, or another PDU of its kind (R139, R140). -/
def execIcreqRx (c bytes type pfv hpda : Nat) (hd dd : Bool) (s : State) : Res :=
  .next (s.segRx c bytes (.pdu type pfv hpda hd dd))

/-- A Fabrics Connect capsule. -/
def execConnectCapsuleRx (c bytes plen : Nat) (sqe : BitVec 512) (data : List Byte) (hd dd : Nat) (s : State) : Res :=
  .next (s.segRx c bytes (.capsule plen sqe data hd dd))

/-- A command capsule. -/
def execCapsuleCmdRx (c bytes plen : Nat) (sqe : BitVec 512) (data : List Byte) (hd dd : Nat) (s : State) : Res :=
  .next (s.segRx c bytes (.capsule plen sqe data hd dd))

/-- An H2CData PDU. -/
def execH2cdataRx (c bytes : Nat) (t : H2cTag) (off : Nat) (data : List Byte) (hd dd : Nat) (s : State) : Res :=
  .next (s.segRx c bytes (.h2c t.cid t.tag off t.last data hd dd))

/-- An H2CTermReq PDU. -/
def execH2ctermreqRx (c bytes len : Nat) (s : State) : Res := .next (s.segRx c bytes (.term len))

/-- RST. -/
def execRstRx (c bytes : Nat) (s : State) : Res := .next (s.segRx c bytes .rst)

/-- An acknowledgement. -/
def execTcpAckRx (c bytes : Nat) (a : TcpAck) (s : State) : Res := .next (s.segRx c bytes (.ack a))

/-! Timers. -/

/-- Is the retransmission timer of a connection due? -/
def Conn.rtoDue (x : Conn) (now : Nat) : Bool := x.tcp.timerAt.any (fun t => decide (t + 1000 * x.tcp.rto ≤ now))

/-- The retransmission timer fires (R137): the connection is reset after RETRIES retransmissions; otherwise the first PDU not
acknowledged is sent again, with packet numbers of its own where MACsec protects it, and more as the windows let it. -/
def execTcpRtoExpiry (c : Nat) (s : State) : Res :=
  .next (
    let s := if (s.conn c).any (fun x => x.rtoDue s.now) then s.ctxTouch c else s
    match s.conn c with
    | some x =>
      if !x.rtoDue s.now then s
      else if s.rd F.FE_TCP_RETRIES ≤ x.retries then if x.st = .closing then s.feRemove c else (s.feSend c .rst).feClose c none false
      else
        let y := x.timedOut s.now s.rtoClamp
        match y.tcp.queue with
        | e :: _ => (s.tcpEmit c y e).tcpGo c
        | [] => s.setConn c y
    | none => s)

/-- A SYN-ACK stays unanswered: sent again, and after three the index is released (R143). -/
def execSynackRetryTimeout (c : Nat) (s : State) : Res :=
  .next (match s.conn c with
    | some x =>
      if x.st = .synRcvd then
        if x.tries < 3 then ((s.ctxTouch c).updConn c (fun x => { x with tries := x.tries + 1 })).synAck c
        else s.feRemove c
      else s
    | none => s)

/-- IC_MS passes in AWAIT_IC (R143). Segments that waited for the context are processed first. -/
def execIcTimeout (c : Nat) (s : State) : Res :=
  .next (
    let due := fun (s : State) => (s.conn c).any (fun x => decide (x.st = .awaitIc ∧ x.since + 1000000 * s.rd F.FE_TIMERS_IC_MS ≤ s.now))
    let s := if due s then s.ctxTouch c else s
    if due s then s.feClose c (some 0x02) true else s)

/-- TCP close completes or 1 s passes (R143). -/
def execClosingDone (c : Nat) (s : State) : Res :=
  .next (match s.conn c with
    | some x => if x.st = .closing then s.feRemove c else s
    | none => s)

/-- Data bytes among the bytes that a window has received, protection information excluded (R167). -/
def Win.dataBytes (w : Win) (pi : Bool) : Nat :=
  if pi then w.raw.length / 4112 * 4096 + min 4096 (w.raw.length % 4112) else w.raw.length

/-- XFER_MS passes with a window open (R162): it closes, the SOLICIT completes with TIMEOUT. Segments that waited for the context are
processed first. -/
def execXferTimeout (c tag : Nat) (s : State) : Res :=
  .next (
    let due := fun (s : State) (x : Conn) => x.wins.find? (fun w => decide (w.tag = tag ∧ w.start + 1000000 * s.rd F.FE_TIMERS_XFER_MS ≤ s.now))
    let s := if ((s.conn c).bind (due s)).isSome then s.ctxTouch c else s
    match s.conn c with
    | some x =>
      match due s x with
      | some w =>
        let pi := (x.cmds.find? (fun m => decide (m.cid = w.job.fld 32 2))).any (·.pi)
        (s.updConn c (fun x => { x with wins := x.wins.filter (fun v => decide (v.tag ≠ tag)) })).complete
          w.job w.inst 0 { status := stDone, aux := w.dataBytes pi, result := 1 }
      | none => s
    | none => s)

/-- A store to `FE_CTL` (R168): a 1 to QUAD_EN is ignored until the three bases are written; a cleared bit closes every
connection of the quad; quads paused by a warm reset go on (R409). -/
def State.feCtl (s : State) (v : Nat) : State :=
  let based := s.locked.contains F.FE_CTX_BASE_ADDR.off && s.locked.contains F.FE_CIDX_BASE_ADDR.off &&
    s.locked.contains F.FE_IFW_BASE_ADDR.off
  let old := s.rd F.FE_CTL_QUAD_EN
  let en := (bitsOf v 0 4 % 2 ^ s.fuse.variant.quads) &&& (if based then 15 else old)
  let s := (s.wr F.FE_CTL_QUAD_EN en).wr F.FE_CTL_ACCEPT_EN (bitsOf v 4 1)
  let s := { s with fe := { s.fe with paused := false } }
  let gone := s.fe.conns.filter (fun p => bitOf old p.2.quad && !bitOf en p.2.quad)
  foldSt (fun c (s : State) => s.feClose c none true) (gone.map Prod.fst) s

/-- A store to `FE_CTL`. -/
def execFeCtlWrite (v : Nat) (s : State) : Res := .next (s.feCtl v)

/-! Jobs (R166, R167). -/

/-- A connection job: the handle's connection, dropped when the handle is stale or closing, BAD_JOB on another quad. It brings the
context on chip, with the segments that waited for it, and stays on its ring while no context may leave the chip. -/
def feJob (inst : Nat) (f : Nat → Conn → Job → State → JobDo) (inH : Job → Nat) (j : Job) (s : State) : JobDo :=
  match s.connAt (j.fld 4 4) with
  | none => .done s (inH j) .dropped
  | some (c, x) =>
    if x.quad ≠ inst then .bad s
    else if x.st = .closing then .done s (inH j) .dropped
    else
      let s := s.ctxTouch c
      match s.conn c with
      | none => .done s (inH j) .dropped
      | some x =>
        if x.st = .closing then .done s (inH j) .dropped
        else if !x.cached then .held s
        else f c x j s

/-- RSVD bits of the connection handle. -/
def connOk (j : Job) : Bool := decide (bitsOf (j.fld 4 4) 28 4 = 0)

/-- Split read data into C2HData PDUs of at most 131,072 bytes. -/
def State.sendData (s : State) (c cid : Nat) (success : Bool) : Nat → Nat → List Byte → State
  | 0, _, _ => s
  | k + 1, off, d =>
    if d.length ≤ 131072 then s.feSend c (.c2hData cid off d true success)
    else State.sendData (s.feSend c (.c2hData cid off (d.take 131072) false false)) c cid success k (off + 131072) (d.drop 131072)

/-- RESPOND. -/
def feRespond (c : Nat) (x : Conn) (j : Job) (inst : Nat) (s : State) : JobDo :=
  let h := j.fld 8 8
  let len := j.fld 20 4
  let cid := j.fld 32 2
  let a := hAddr h (j.fld 16 4)
  match s.unitRead a len with
  | (s, none) => .memErr s 0x01 inst
  | (s, some d) =>
    let status := j.fld 34 2
    let m := x.cmds.find? (fun m => decide (m.cid = cid))
    let d := match m with
      | some m =>
        if m.pi && decide (m.opc = 0x02) then
          (((chunks 4096 (len / 4096 + 1) d).zip (List.range (len / 4096 + 1))).map
            (fun p => p.1 ++ piBytes p.1 m.apptag (m.slba + p.2))).flatten
        else d
      | none => d
    let success := x.noFlow && decide (status % 2 ^ 15 = 0 ∧ j.fld 24 4 = 0 ∧ j.fld 28 4 = 0 ∧ len ≠ 0)
    let s := if len = 0 then s else s.sendData c cid success (d.length / 131072 + 1) 0 d
    let done := fun (x : Conn) => { x with cmds := x.cmds.filter (fun m => decide (m.cid ≠ cid)), aers := removeNat x.aers cid }
    let s := if success then s.updConn c done else s.feComplete c cid status (j.fld 24 4) (j.fld 28 4)
    .taken (s.updConn c (fun x => { x with resps := x.resps ++ [{ job := j, inst := inst, endAt := x.sent }] }))

/-- RESPOND (R167). -/
def execFeRespond (inst cl : Nat) (s : State) : Res :=
  .next (s.runJob 0x01 inst cl (isOp 0x01)
    (fun j s => j.zero 2 3 && j.zero 36 63 && connOk j && decide (j.fld 20 4 ≤ 1048576) && !bitOf (j.fld 34 2) 15 &&
      (if j.fld 8 8 = 0 then decide (j.fld 20 4 = 0) else s.inHandle (j.fld 8 8) (j.fld 16 4) (j.fld 20 4)))
    (feJob inst (fun c x j s => feRespond c x j inst s) (fun j => j.fld 8 8)))

/-- Bytes on the wire of `n` bytes of a command's data: 16 bytes of protection information per block of 4,096 (R153). -/
def wireLen (pi : Bool) (n : Nat) : Nat := if pi then n + 16 * ceilDiv n 4096 else n

/-- SOLICIT: a window, the ready-to-transfer PDU, and the pause of the promise. A second SOLICIT for a command whose
ready-to-transfer PDU has been sent is a BAD_JOB, since R142 allows one per command (DEDUCED, assumption log 19). -/
def feSolicit (c : Nat) (x : Conn) (j : Job) (inst : Nat) (s : State) : JobDo :=
  let cid := j.fld 32 2
  let m := x.cmds.find? (fun m => decide (m.cid = cid))
  if (m.map (·.asked)).getD false then .bad s
  else if 64 ≤ x.wins.length then .held s
  else
    let pi := (m.map (·.pi)).getD false
    let wire := wireLen pi (j.fld 20 4)
    let w : Win := { tag := x.nextTag, job := j, inst := inst, off := wireLen pi (j.fld 36 4), wire := wire, raw := [],
                     start := s.now, digestErr := false }
    let s := s.setConn c { x with wins := x.wins ++ [w], nextTag := (x.nextTag + 1) % 65536,
                                  cmds := x.cmds.map (fun m => if m.cid = cid then { m with asked := true } else m) }
    let s := s.feSend c (.r2t cid w.tag w.off wire)
    let s := match j.item with
      | some k => s.pausePromise k
      | none => s
    if wire = 0 then
      match s.conn c with
      | some x => .taken (s.winDone c x w)
      | none => .taken s
    else .taken s

/-- SOLICIT (R167). -/
def execFeSolicit (inst cl : Nat) (s : State) : Res :=
  .next (s.runJob 0x01 inst cl (isOp 0x02)
    (fun j s => j.zero 2 3 && j.zero 24 31 && j.zero 34 35 && j.zero 40 63 && connOk j && decide (j.fld 20 4 ≤ 1048576) &&
      s.inHandle (j.fld 8 8) (j.fld 16 4) (j.fld 20 4))
    (feJob inst (fun c x j s => feSolicit c x j inst s) (fun _ => 0)))

/-- The status of a refusal (R164): reason, volume, tenant, whether the command is a write, CRD. CRD goes to a host that has
enabled Advanced Command Retry, which no register shows (assumption log 17). -/
def State.refuseStatus (s : State) (reason vol tenant : Nat) (write : Bool) (crd : Nat) : Nat :=
  let crd' := if s.freeBool then crd else 0
  match reason with
  | 4 => if s.groupState vol = 3 then stField 3 0x02 crd' 0 else stField 3 0x03 crd' 0
  | 5 => if write && s.flag F.WKT_TENANT_NO_WRITE tenant then stField 0 0x20 0 1 else stField 2 0x86 0 1
  | 6 => stField 0 0x06 0 1
  | 8 => stField 0 0x81 0 1
  | 12 => stField 0 0x06 0 0
  | 16 => stField 7 0xC0 0 0
  | 17 => stField 0 0x06 0 0
  | _ => stField 0 0x21 crd' 0

/-- Complete a refused command at the host. -/
def State.feRefuse (s : State) (c cid adm : Nat) : State :=
  match s.conn c with
  | none => s
  | some x =>
    let m := x.cmds.find? (fun m => decide (m.cid = cid))
    let st := s.refuseStatus (bitsOf adm 33 5) ((m.map (·.vol)).getD 0) x.tenant ((m.map (·.write)).getD false) (bitsOf adm 38 2)
    (s.feComplete c cid st 0 0).nextFree

/-- REFUSE (R164). -/
def execFeRefuse (inst cl : Nat) (s : State) : Res :=
  .next (s.runJob 0x01 inst cl (isOp 0x03)
    (fun j _ => j.zero 2 3 && j.zero 8 31 && j.zero 34 39 && j.zero 48 63 && connOk j)
    (feJob inst (fun c _ j s => .done (s.feRefuse c (j.fld 32 2) (j.fld 40 8)) 0 (.st stDone)) (fun _ => 0)))

/-- AEN (R167). -/
def execFeAen (inst cl : Nat) (s : State) : Res :=
  .next (s.runJob 0x01 inst cl (isOp 0x04)
    (fun j _ => j.zero 2 3 && j.zero 8 23 && j.zero 32 63 && connOk j)
    (feJob inst (fun c x j s =>
      match x.aers with
      | [] => .done s 0 { status := stDone, aux := 2, result := 0 }
      | cid :: _ => .done (s.feComplete c cid 0 (j.fld 24 4) (j.fld 28 4)) 0 (.st stDone)) (fun _ => 0)))

/-- SUBOP of a CONN_CTL job, or none that is defined. -/
def isSub (op sub : Nat) (j : Job) : Bool := isOp op j && decide (j.fld 2 1 = sub ∨ j.fld 2 1 = 0 ∨ 3 < j.fld 2 1)

/-- CONN_CTL BIND (R166). -/
def execFeBind (inst cl : Nat) (s : State) : Res :=
  .next (s.runJob 0x01 inst cl (isSub 0x05 1)
    (fun j _ => decide (j.fld 2 1 = 1) && j.zero 3 3 && j.zero 8 39 && j.zero 51 63 && connOk j &&
      decide (j.fld 40 4 < 2 ^ 20 ∧ j.fld 44 2 < 2 ^ 12 ∧ j.fld 50 1 < 8) &&
      (if bitOf (j.fld 50 1) 2 then decide (8 * (j.fld 47 1 + 1) = 32) else decide (8 * (j.fld 47 1 + 1) ≤ 1024)))
    (feJob inst (fun c x j s =>
      if x.st ≠ .awaitBind then .bad s
      else
        let b := j.fld 50 1
        .done (s.setConn c { x with st := .ready, queue := j.fld 40 4, tenant := j.fld 44 2, qid := j.fld 46 1, sqhd := 0,
                                     sqsize := 8 * (j.fld 47 1 + 1), cntlid := j.fld 48 2, noFlow := bitOf b 0,
                                     dctcp := bitOf b 1, admin := bitOf b 2 }) 0 (.st stDone)) (fun _ => 0)))

/-- CONN_CTL SET_MSS (R166). -/
def execFeSetMss (inst cl : Nat) (s : State) : Res :=
  .next (s.runJob 0x01 inst cl (isSub 0x05 2)
    (fun j _ => decide (j.fld 2 1 = 2) && j.zero 3 3 && j.zero 8 47 && j.zero 50 63 && connOk j &&
      decide (536 ≤ j.fld 48 2 ∧ j.fld 48 2 ≤ 8960))
    (feJob inst (fun c x j s => .done (s.setConn c { x with mss := j.fld 48 2 }) 0 (.st stDone)) (fun _ => 0)))

/-- CONN_CTL TERMINATE (R143). -/
def execFeTerminate (inst cl : Nat) (s : State) : Res :=
  .next (s.runJob 0x01 inst cl (isSub 0x05 3)
    (fun j _ => decide (j.fld 2 1 = 3) && j.zero 8 63 && connOk j)
    (feJob inst (fun c _ j s => .done (s.feClose c (some (j.fld 3 1)) true) 0 (.st stDone)) (fun _ => 0)))

/-- Does a port belong to a quad's instance? -/
def portOk (inst : Nat) (j : Job) : Bool := decide (j.fld 2 1 / 4 = inst)

/-- The priority of a frame: that of its tag. -/
def framePrio (d : List Byte) : Nat := if (d.drop 12).take 2 = [0x81, 0x00] then ((d.drop 14).head?.getD 0).toNat / 32 else 0

/-- RAW_TX (R167): protected where an interface of the port requires it. -/
def execFeRawTx (inst cl : Nat) (s : State) : Res :=
  .next (s.runJob 0x01 inst cl (isOp 0x06)
    (fun j s => j.zero 3 7 && j.zero 24 63 && portOk inst j && decide (60 ≤ j.fld 20 4 ∧ j.fld 20 4 ≤ 9212) &&
      s.inHandle (j.fld 8 8) (j.fld 16 4) (j.fld 20 4))
    (fun j s =>
      let a := hAddr (j.fld 8 8) (j.fld 16 4)
      let n := j.fld 20 4
      match s.unitRead a n with
      | (s, none) => .memErr s 0x01 inst
      | (s, some d) =>
        let port := j.fld 2 1
        let prot := (List.range 64).any (fun i => s.flag F.FE_IPIF_VALID i && s.flag F.FE_IPIF_MACSEC_REQ i && decide (s.rd F.FE_IPIF_PORT i = port))
        .done (s.portTx { port := port, prio := framePrio d, n := 1, bytes := n, prot := prot, tx := .raw d }) (j.fld 8 8) (.st stDone)))

/-- RAW_RX (R167): posted until a frame arrives; at most 64 per quad. -/
def execFeRawRx (inst cl : Nat) (s : State) : Res :=
  .next (s.runJob 0x01 inst cl (isOp 0x07)
    (fun j s => j.zero 3 7 && j.zero 20 63 && portOk inst j && s.inHandle (j.fld 8 8) (j.fld 16 4) 0)
    (fun j s =>
      if 64 ≤ (s.fe.raw.filter (fun r => decide (r.inst = inst))).length then .held s
      else .taken { s with fe := { s.fe with raw := s.fe.raw ++ [{ job := j, inst := inst, port := j.fld 2 1 }] } }))

/-! The capsule stage (R107, R149). -/

/-- In-flight write regions of a write: region, first grain within it, grains. -/
def ifwParts (first n : Nat) : List (Nat × Nat × Nat) :=
  if n = 0 then []
  else
    let r0 := first / 512
    let r1 := (first + n - 1) / 512
    if r0 = r1 then [(r0, first % 512, n)] else [(r0, first % 512, 512 * r1 - first), (r1, 0, first + n - 512 * r1)]

/-- Write one in-flight write entry and its record (R155). -/
def State.ifwPut (s : State) (vol k : Nat) (p : Nat × Nat × Nat) : State × List Nat :=
  match s.ifwFree with
  | none => (s, [])
  | some i =>
    let s := s.srchPut 0 i { value := BitVec.ofNat 160 (vol + p.1 * 2 ^ 14), mask := BitVec.ofNat 160 (2 ^ 45 - 1),
                             valid := true, wcount := 0, badParity := false }
    let a := s.rd F.FE_IFW_BASE_ADDR * 2 ^ 20 + 32 * i
    ((s.eccWrite a (leBytes 4 k ++ leBytes 4 p.2.1 ++ leBytes 4 p.2.2 ++ leBytes 4 0 ++ leBytes 8 s.now ++ leBytes 8 0)).1, [i])

/-- Write the in-flight write entries of a write. -/
def State.ifwPutAll (s : State) (vol k : Nat) : List (Nat × Nat × Nat) → State × List Nat
  | [] => (s, [])
  | p :: ps =>
    let (s, l) := s.ifwPut vol k p
    let (s, l') := State.ifwPutAll s vol k ps
    (s, l ++ l')

/-- The admission request of a capsule (R149). -/
def capReq (c : RxCap) : AdmReq :=
  { tenant := c.tenant, kind := c.kind, cls := none, vol := c.vol, allns := c.allns, length := c.length, hzns := [],
    budget := 0, quad := some c.quad, queue := some c.queue,
    need := if c.kind = 1 then (ifwParts c.first c.ngrains).length else 0 }

/-- The Wicket takes the oldest receive record (R107): an item with a promise, a refusal, or an item without a promise for
an admin or Fabrics capsule. -/
def execCapsuleAdmission (s : State) : Res :=
  .next (match s.rxRing with
    | [] => s
    | c :: rest =>
      let s' := { s with rxRing := rest }
      if c.admin || c.fabrics then
        match s'.enqueue (capItem c c.queue) with
        | none => s
        | some (_, s) => s
      else
        let r := capReq c
        match s'.admCheck r with
        | .inl x =>
          let w := s'.refuseWord x
          let s := s'.countRefusedNew r x.reason
          let s := s.stgDrop c.handle
          match s.connAt c.conn with
          | some (i, y) => if y.st = .closing then s else s.feRefuse i c.cid w
          | none => s
        | .inr g =>
          let s := s'.admTake r g
          match s.enqueue { capItem c c.queue with deadline := (s.now + g.d) % 2 ^ 32, hasDl := true, cls := s.reqClass r } with
          | none => { s' with rxRing := c :: rest }
          | some (k, s) =>
            let (s, ifw) := if c.kind = 1 then s.ifwPutAll c.vol k (ifwParts c.first c.ngrains) else (s, [])
            let s := s.stMem (hAddr c.handle 28) 2 (ifw.head?.getD 0xFFFF)
            let s := s.stMem (hAddr c.handle 30) 2 ((ifw.drop 1).head?.getD 0xFFFF)
            s.startPromise k r g false ifw)

end Sys2Proof.Machine
end

