-- ==== Sys2Proof/Machine/EvtRows.lean ====
section
/-! DEFINITION. The commands of the event fabric, the counters, calendar time and the logbook (R433 to R448, R488). -/

namespace Sys2Proof.Machine

/-- Raise CTR_SAT for counters of the fabric that saturated. -/
def State.noteSats (s : State) (l : List Nat) : State := foldSt (fun off (s : State) => s.note 0x020 off) l s

/-- The vector of a SOFT source's write: `EVT_RAISE` (R433). -/
def State.evtRaise (s : State) (v : Nat) : State :=
  if 0x1C0 ≤ bitsOf v 0 9 then s.note (bitsOf v 0 9) (bitsOf v 32 32) else s.setFlag F.EVT_STATUS_RAISE_ERR

/-- EVT_RAISE_WRITE. -/
def execEvtRaiseWrite (v : Nat) (s : State) : Res := .next (s.evtRaise v)

/-- EVT_COALESCE_TIMEOUT (R436): COAL_NS has passed since the first occurrence that gathered on the vector. -/
def execEvtCoalesceTimeout (vec : Nat) (s : State) : Res :=
  .next (
    let e := s.vec vec
    let ns := s.rd F.EVT_VEC_COAL_NS vec
    if vec < 512 ∧ 0 < e.count ∧ e.held = false ∧ 1 < s.rd F.EVT_VEC_COAL_CNT vec ∧ ns ≠ 0 ∧ e.since + ns ≤ s.now then
      let r := s.signal vec
      r.1.noteSats r.2
    else s)

/-- After a store of an `EVT_VEC` register: occurrences that have gathered are signalled when they are as many as COAL_CNT now
asks for (R436; DEDUCED, assumption log 35). -/
def State.evtVecCheck (s : State) (vec : Nat) : State :=
  let e := s.vec vec
  let cnt := s.rd F.EVT_VEC_COAL_CNT vec
  if 0 < e.count ∧ e.held = false ∧ (cnt ≤ 1 ∨ cnt ≤ e.count) then
    let r := s.signal vec
    r.1.noteSats r.2
  else s

/-- EVENT_ITEM_RETRY (R435): a held item is tried again. -/
def execEventItemRetry (src : Nat) (s : State) : Res :=
  .next (let r := s.evtTryItem src; r.1.noteSats r.2)

/-- Deliver what a source gathered while it was masked, if it is masked no more (R434): one occurrence with the latest value. -/
def State.evtUnmask (s : State) (src : Nat) : State :=
  match SMap.find s.evt.masked src with
  | some m =>
    if s.srcMasked src then s
    else
      let s := { s with evt := { s.evt with masked := SMap.del s.evt.masked src } }
      let r := s.evtDeliver src m.value m.count m.first false
      r.1.noteSats r.2
  | none => s

/-- A store of an `EVT_SRC` register. -/
def State.evtSrcStore (s : State) (src v : Nat) : State :=
  let s := s.regSet (evtSrcOff src) (BitVec.ofNat 64 (bitsOf v 0 17))
  s.evtUnmask src

/-- EVT_SRC_WRITE (R434). -/
def execEvtSrcWrite (src v : Nat) (s : State) : Res := .next (if src < 512 then s.evtSrcStore src v else s)

/-- A store of `EVT_CTL`: EN 0 to 1 unmasks every source whose MASK is 0 (R434). -/
def State.evtCtl (s : State) (v : Nat) : State :=
  let s := s.wr F.EVT_CTL_EN v
  foldSt (fun src (s : State) => s.evtUnmask src) (SMap.keys s.evt.masked) s

/-- A store of `EVT_CTR_CLR` (R439). -/
def State.evtCtrClr (s : State) (v : Nat) : State :=
  let off := 8 * bitsOf v 3 23
  match regDesc off with
  | some d =>
    if d.ctr then (s.regSet 0x400020 (s.regGet off)).regSet off 0 else s.setFlag F.EVT_STATUS_CLR_ERR
  | none => s.setFlag F.EVT_STATUS_CLR_ERR

/-- EVT_CTR_CLR_WRITE. -/
def execEvtCtrClrWrite (v : Nat) (s : State) : Res := .next (s.evtCtrClr v)

/-- A requester's latch (R438): the service host's is 0, core n's 1 + n. -/
def latchOf : Port → Nat
  | .host => 0
  | .core n => 1 + n

/-- A 32-bit read of the low half of a counter (R438): the high half of the same instant goes to the requester's latch. -/
def State.ctrLow (s : State) (req : Port) (off : Nat) : State × Word :=
  let w := s.regGet off
  ({ s with latches := SMap.put s.latches (latchOf req) { off := off, high := bitsOf w.toNat 32 32 } },
   BitVec.ofNat 64 (bitsOf w.toNat 0 32))

/-- A 32-bit read of the high half of a counter (R438): the latch if it holds that counter's, which it then gives up;
otherwise the live value. -/
def State.ctrHigh (s : State) (req : Port) (off : Nat) : State × Word :=
  match SMap.find s.latches (latchOf req) with
  | some l =>
    if l.off = off then ({ s with latches := SMap.del s.latches (latchOf req) }, BitVec.ofNat 64 l.high)
    else (s, BitVec.ofNat 64 (bitsOf (s.regGet off).toNat 32 32))
  | none => (s, BitVec.ofNat 64 (bitsOf (s.regGet off).toNat 32 32))

/-- Is an offset a counter's? -/
def isCtr (off : Nat) : Bool :=
  match regDesc off with
  | some d => d.ctr
  | none => false

/-- Does an offset belong to a unit that the variant lacks (R5)? The power domains are apart. -/
def State.offAbsent (s : State) (off : Nat) : Bool :=
  let v := s.fuse.variant
  if 0x2400100 ≤ off ∧ off < 0x2400200 then decide (v.quads ≤ (off - 0x2400100) / 0x40)
  else if 0x2400200 ≤ off ∧ off < 0x2400280 then decide (v.quads ≤ (off - 0x2400200) / 0x20)
  else if 0x2800080 ≤ off ∧ off < 0x28000A0 then decide (v.quads ≤ (off - 0x2800080) / 8)
  else if 0x2810000 ≤ off ∧ off < 0x2850000 then decide (v.queuePairs ≤ (off - 0x2810000) / 0x40)
  else if 0x2C00000 ≤ off ∧ off < 0x2C10000 then decide (v.engines ≤ (off - 0x2C00000) / 0x1000)
  else if 0x2E00000 ≤ off ∧ off < 0x2E10000 then decide (v.engines ≤ (off - 0x2E00000) / 0x1000)
  else if 0x3481000 ≤ off ∧ off < 0x3481200 then decide (v.lanes ≤ (off - 0x3481000) / 8)
  else if 0x3801000 ≤ off ∧ off < 0x3801200 then decide (v.lanes ≤ (off - 0x3801000) / 8)
  else if 0x3802000 ≤ off ∧ off < 0x3803000 then decide (v.lanes ≤ (off - 0x3802000) / 0x40)
  else if 0x3F00000 ≤ off ∧ off < 0x3F01000 then !v.ddx
  else false

/-- COUNTER_LOW_READ (R438): the service host's read returns its data. A counter of an
absent unit reads 0 (R5) and latches nothing; the access wakes a domain that sleeps (R418). -/
def execCounterLowRead (req : Port) (off : Nat) (s : State) : Res :=
  .next (
    if isCtr off ∧ s.offAbsent off = false then
      let r := (s.regWake off).ctrLow req off
      match req with
      | .host => r.1.emit (.readData r.2)
      | .core _ => r.1
    else s)

/-! The logbook. -/

/-- The counters among some that have SAT set in the second state and not in the first. -/
def newSats (s t : State) (l : List Nat) : List Nat :=
  l.filter (fun off => bitOf (t.regGet off).toNat 63 && !bitOf (s.regGet off).toNat 63)

/-- A write of `LOG_POST` (R443, R447): the first overflow since cold reset raises LOG_OVERFLOW. -/
def State.logPost (s : State) (v : Nat) : State :=
  let code := bitsOf v 0 16
  if 0x1000 ≤ code then
    let r := s.logOccur code (bitsOf v 16 2) (bitsOf v 32 32)
    let t := r.1.noteSats (newSats s r.1 [F.LOG_OVERFLOW_CTR.off, F.LOG_EVICTED_CTR.off])
    if r.2 && !s.log.overflowed then State.note { t with log := { t.log with overflowed := true } } 0x021 code else t
  else s.setFlag F.LOG_STATUS_POST_ERR

/-- LOG_POST_WRITE. -/
def execLogPostWrite (v : Nat) (s : State) : Res := .next (s.logPost v)

/-- LOG_COMMIT_TIMER (R448): a dirty record is committed once 1 s has passed since its previous commit. -/
def execLogCommitTimer (i : Nat) (s : State) : Res :=
  .next (
    if s.log.dirty.contains i && decide (SMap.findD s.log.lastCommit i 0 + 1000000000 ≤ s.now ∨ SMap.has s.log.lastCommit i = false) then
      State.logStart { s with log := { s.log with urgent := addNat s.log.urgent i } }
    else s)

/-- A write of `LOG_CAL_SET` waits for the next tick (R441). -/
def State.calWrite (s : State) (v : Nat) : State := { s with log := { s.log with calSet := some (v % 2 ^ 64) } }

/-- LOG_CAL_SET_WRITE. -/
def execLogCalSetWrite (v : Nat) (s : State) : Res := .next (s.calWrite v)

/-- RTC_TICK (R441, R488): 512 more, a written calendar time taken, and RTC_OK after ticks for 1 ms, 33 periods. -/
def execRtcTick (s : State) : Res :=
  .next (
    let s := match s.log.calSet with
      | some v => { s with log := { s.log with cal := v, calValid := true, calSet := none } }
      | none => if s.log.calValid then { s with log := { s.log with cal := (s.log.cal + 512) % 2 ^ 64 } } else s
    if s.flag F.CLK_STATUS_RTC_OK then s
    else
      match s.pwr.rtcSince with
      | none => { s with pwr := { s.pwr with rtcSince := some 0 } }
      | some n =>
        if 33 ≤ n + 1 then State.setFlag { s with pwr := { s.pwr with rtcSince := none } } F.CLK_STATUS_RTC_OK
        else { s with pwr := { s.pwr with rtcSince := some (n + 1) } })

/-- RTC_STOP (R488): RTC_OK reads 0 and calendar time is invalid. -/
def execRtcStop (s : State) : Res :=
  .next (
    let s := { s with log := { s.log with calValid := false }, pwr := { s.pwr with rtcSince := none } }
    (s.clrFlag F.CLK_STATUS_RTC_OK).wr F.CLK_REF_PPM_PPM 0)

/-- The 48-bit field with SAT of a record (R444), eight bytes. -/
def satBytes (c : Nat) : List Byte := leBytes 8 c

/-- The 256 bytes of a record (R444). -/
def LogRec.bytes (r : LogRec) : List Byte :=
  let body :=
    leBytes 2 r.code ++ leBytes 1 (r.sev + 4) ++ leBytes 1 r.shift ++ leBytes 4 r.vmin ++ satBytes r.count ++
    satBytes r.suppressed ++ leBytes 8 r.first ++ leBytes 8 r.last ++ leBytes 4 r.vmax ++ leBytes 4 r.vlast ++
    leBytes 4 r.firstBoot ++ leBytes 4 r.lastBoot ++
    (List.range 16).flatMap (fun b => satBytes (SMap.findD r.hist b 0)) ++ List.replicate 64 0
  body ++ leBytes 8 (crc64 body)

/-- The bytes of a record as they read: zero where no record has been created (assumption log 26). -/
def State.logBytes (s : State) (i : Nat) : List Byte :=
  match SMap.find s.log.recs i with
  | some r => r.bytes
  | none => List.replicate 256 0

/-- A write of a requester's `LOG_SEL`: INDEX and the snapshot. -/
def State.logSel (s : State) (req : Port) (v : Nat) : State :=
  let i := bitsOf v 0 12
  let x := some (i, s.logBytes i)
  match req with
  | .host => { s with log := { s.log with selHost := x } }
  | .core _ => { s with log := { s.log with selKpr := x } }

/-- LOG_SEL_WRITE (R444). -/
def execLogSelWrite (req : Port) (v : Nat) (s : State) : Res := .next (s.logSel req v)

/-- A store of a `LOG_RATE` entry (R446): ignored once `LOG_RATE_LOCK` is set; it fills the entry's bucket. -/
def State.logRateStore (s : State) (e v : Nat) : State :=
  if e < 528 ∧ s.flag F.LOG_RATE_LOCK_LOCK = false then
    let s := s.regSet (0x501000 + 8 * e) (BitVec.ofNat 64 (bitsOf v 0 38))
    { s with log := { s.log with buckets := SMap.del s.log.buckets e } }
  else s

/-- LOG_RATE_WRITE. -/
def execLogRateWrite (e v : Nat) (s : State) : Res := .next (s.logRateStore e v)

end Sys2Proof.Machine
end

