-- ==== Sys2Proof/Machine/Reset.lean ====
section
/-! DEFINITION. Resets (R425, R428 to R430, R448): the end of a supply episode, cold reset, warm reset, and the logbook's commits. -/

namespace Sys2Proof.Machine

/-! Commits of the logbook (R448). -/

/-- LOG_COMMIT_DONE: the commit in progress ends. When it reads back, the non-volatile copy is the contents taken; otherwise the
record is committed again from the RAM copy and LOG_NVM_ERR raised. -/
def State.logCommitEnd (s : State) (ok : Bool) : State :=
  match s.log.commit with
  | none => s
  | some (i, _, r) =>
    let s := { s with log := { s.log with commit := none, lastCommit := SMap.put s.log.lastCommit i s.now } }
    if ok then
      let same := decide (SMap.find s.log.recs i = some r)
      let dirty := if same then s.log.dirty.filter (· ≠ i) else s.log.dirty
      State.logStart { s with log := { s.log with nv := SMap.put s.log.nv i r, dirty := dirty } }
    else
      let s := State.setFlag { s with log := { s.log with urgent := addNat s.log.urgent i } } F.LOG_STATUS_NVM_ERR
      (s.raise 0x022 i).logStart

/-- LOG_COMMIT_DONE. -/
def execLogCommitDone (ok : Bool) (s : State) : Res := .next (s.logCommitEnd ok)

/-- Every dirty record is committed now: a reset that takes effect after its commits (R448, assumption log 27). -/
def State.logSettle (s : State) : State :=
  { s with log := { s.log with nv := s.log.recs, dirty := [], urgent := [], commit := none } }

/-! Episodes (R425). -/

/-- The warning episode ends: counted, its duration recorded, SUPPLY_DIP and after more than 50 µs SUPPLY_DIP_LONG raised. -/
def State.episodeEnd (s : State) : State :=
  match s.pwr.warnAt with
  | none => s
  | some t =>
    let d := min (s.now - t) (2 ^ 32 - 1)
    let low := s.pwr.epMin
    let s := { s with pwr := { s.pwr with warnAt := none, epMin := 1023 } }
    let s := s.ctr F.PWR_BRACE_EPISODES_CTR
    let s := if 50000 < d then s.ctr F.PWR_BRACE_LONG_CTR else s
    let s := (s.wr F.PWR_BRACE_LAST_NS d).wr F.PWR_BRACE_MAX_NS (max d (s.rd F.PWR_BRACE_MAX_NS))
    let s := s.wr F.PWR_VMIN_MV (min low (s.rd F.PWR_VMIN_MV))
    let s := s.note 0x010 d
    if 50000 < d then s.note 0x011 d else s

/-! Cold reset (R428, R430). -/

/-- Registers of the new state that show what R430 keeps: the cause, the levels and clocks that the AON domain senses, TJ. -/
def State.coldKeep (s n : State) (cause : Nat) : State :=
  let n := n.wr F.PWR_RST_CAUSE_CAUSE cause
  let n := (n.wr F.PWR_VMON_PG (s.rd F.PWR_VMON_PG)).wr F.PWR_VMON_PFAIL_N (s.rd F.PWR_VMON_PFAIL_N)
  let n := (n.wr F.CLK_STATUS_PCIE_REF_OK (s.rd F.CLK_STATUS_PCIE_REF_OK)).wr F.CLK_STATUS_RTC_OK (s.rd F.CLK_STATUS_RTC_OK)
  (n.wr F.PWR_THERM_TJ (s.rd F.PWR_THERM_TJ)).wr F.PWR_THERM_HOT_SENSOR (s.rd F.PWR_THERM_HOT_SENSOR)

/-- The state in which a cold reset leaves the head (R430): COLD, with device time not yet running. Outside it stand the sleds,
the pins and what has been sent; OTP, logbook and calendar time are kept. -/
def State.wiped (s : State) (cause : Nat) : State :=
  let n : State :=
    { State.reset with
      fuse := s.fuse, headId := s.headId, sleds := s.sleds, pins := s.pins, i2c := s.i2c, freeCtr := s.freeCtr
      out := s.out, pending := s.pending
      vlt := { State.reset.vlt with otp := s.vlt.otp }
      log := { s.log with dirty := [], urgent := [], commit := none, lastCommit := [], faulted := [], buckets := [],
                          calSet := none, overflowed := false, selHost := none, selKpr := none }
      pwr := { State.reset.pwr with thermHold := s.pwr.thermHold || decide (cause = 6), rtcSince := s.pwr.rtcSince } }
  (s.coldKeep n cause).wr F.GLB_STATE_HEAD_ID s.headId

/-- Output pins at a cold reset (R431): FAULT_N and THERM_N released, VID at the code for 0.75 V. -/
def State.pinsCold (s : State) : State :=
  let s := s.faultHigh
  let s := if s.flag F.PWR_THERM_GUARD || s.flag F.PWR_THERM_TRIP then s.emit (.pin .thermN 1) else s
  if s.rd F.PWR_AVS_CUR_MV = 750 then s else s.emit (.pin .vid 20)

/-- A guard episode that a cold reset ends is recorded with its duration (R427; DEDUCED, assumption log 36). -/
def State.guardEnd (s : State) : State :=
  match s.pwr.guardAt with
  | some t => State.note { s with pwr := { s.pwr with guardAt := none } } 0x014 ((s.now - t) / 1000)
  | none => s

/-- A cold reset with a cause of R428: an episode is recorded with its duration (R425), the logbook committed (R448). -/
def State.coldReset (s : State) (cause : Nat) : State :=
  let s := s.episodeEnd.guardEnd
  let s := if s.life = .cold then s else s.moveLife .cold
  s.logSettle.pinsCold.wiped cause

/-! Warm reset (R429, R430). -/

/-- Read-only registers that show what a warm reset keeps (R430 gives registers of this type no rule; assumption log 94): the index, the
erase-unit table and the bands, the journal ring and its mirror in HBM. -/
def warmShown : List Nat :=
  [F.DDX_OCC_VALID.off, F.SEG_BIRTH_NEXT.off, F.SEG_RBLD_STATUS_QUEUED.off, F.GT_POS_BAND.off, F.JRN_HEAD_JOFF.off,
    F.JRN_TAIL_JOFF.off, F.JRN_MHEAD_JOFF.off, F.JRN_MTAIL_JOFF.off]

/-- The bits of a register that a warm reset keeps: RWL, RWS and counters; the Hatch, CLK, PWR, LOG and VLT blocks; the link
registers, the enables and the bits that R430 names; `MUL_GEOM`.STRIDE (R331); the Transom's region entries, with their generations
(R351); and what shows kept state. -/
def warmMask (off : Nat) : Nat :=
  let all := 2 ^ 64 - 1
  if (0x100000 ≤ off ∧ off < 0x400000) ∨ (0x500000 ≤ off ∧ off < 0x700000) then all
  else if off = F.GLB_STATE_STATE.off ∨ off = F.GLB_PCIE_SPEED.off then all
  else if off = F.FE_CTL_QUAD_EN.off ∨ off = F.FE_PORTMODE_MODE.off ∨ off = F.FE_LINK_PORT.off then all
  else if off = F.NML_CTL_LANE_EN.off ∨ (F.NML_LINK_STATE.off ≤ off ∧ off < F.NML_LINK_STATE.off + 512) then all
  else if off = F.TRN_CTL_QUAD_EN.off then 0xF
  else if off = F.TRN_STATUS_QUAD_UP.off then 0xF00
  else if off = F.TRN_KEYTAG_KEYTAG.off ∨ off = F.TRN_HB_SEQ_SEQ.off then all
  else if off = F.DDX_CTL_INIT_DONE.off then 2 ^ 3
  else if off = F.SEG_CTL_CENSUS_DONE.off then 2 ^ 2
  else if off = F.MUL_CTL_LOADED.off then 2 ^ 3
  else if off = F.SRCH_STATUS_INIT_DONE1.off then 2 + (2 ^ 16 - 1) * 2 ^ 48
  else if off = F.MUL_GEOM_STRIDE.off then 2 ^ 16 - 1
  else if off = F.DDX_AGE_NOW.off then 2 ^ 16 - 1
  else if F.MUL_LANE_FREE.off ≤ off ∧ off < F.MUL_LANE_FREE.off + 512 then all - (2 ^ 16 - 1) * 2 ^ 40
  else if F.TRN_MR_BASE.off ≤ off ∧ off < F.TRN_MR_BASE.off + 32 * 4096 then all
  else if off = F.MUL_STATUS_DIRTY.off then all - 2 ^ 41
  else if warmShown.contains off then all
  else
    match regDesc off with
    | some d => if d.ctr then all else d.rwl ||| d.rws
    | none => all

/-- The registers after a warm reset. -/
def State.warmRegs (s : State) : State :=
  foldSt (fun off (n : State) =>
    let m := BitVec.ofNat 64 (warmMask off)
    n.regSet off ((s.regGet off &&& m) ||| (regReset off &&& ~~~m))) (SMap.keys s.regs) s

/-- Search bank 0 runs INIT without firmware (R373), once `SRCH_SHADOW_BASE` has been written. -/
def State.warmSearch (s : State) : State :=
  let s := { s with srchBusy := [] }
  if s.srchBased then (s.srchClear 0).setFlag F.SRCH_STATUS_INIT_DONE0
  else { s with srch := s.srch.filter (fun p => decide (p.1 / bankSize ≠ 0)) }

/-- Clusters that firmware does not hold OFF run again, with caches disabled (R51). -/
def State.warmClusters (s : State) : State :=
  foldSt (fun cl (s : State) =>
    if s.heldOff (2 + cl) then s else (s.wr F.PWR_DOM_STATE 0 (2 + cl)).setDom (2 + cl) { idleSince := none, seq := none })
    (List.range 8) { s with dcache := [] }

/-- The Mequesko machine and the Wicket (R430): threads, rings, tickets, item pool and promises cleared; every buffer free with
GEN kept; the queue table kept. -/
def State.warmMachine (s : State) : State :=
  { s with threads := [], items := [], rings := [], comps := [], arbs := [], prms := [], wktBuckets := [], bufs := []
           queues := s.queues.map (fun p => (p.1, ({ p.2 with items := [], running := 0 } : HwQueue)))
           latches := [], braceAt := none, tookOver := false, rxRing := [], slotRsv := 0 }

/-- The MSI-X table after a reset of the endpoint: entries zero, every vector masked, MSI-X and Bus Master disabled, the errors
reported forgotten (R430). -/
def State.msixReset (s : State) : State :=
  { s with regs := s.regs.filter (fun p => !(decide (0x800000 ≤ p.1 ∧ p.1 < 0x802000)))
           pcie := { s.pcie with msixEn := false, busMaster := false, vecOpen := [], aer := [] } }

/-- The data plane (R430): connections and links kept, quads paused; queue pairs RESET; stream buffers discarded; the map
empty; responses of commands outstanding at a lane to be discarded (R429). -/
def State.warmUnits (s : State) : State :=
  let s := foldSt (fun q (s : State) => s.rxDrop q) (SMap.keys s.trn.qps) s.rshpAbort
  { s with
    fe := { s.fe with miss := [], raw := [], held := [], pfc := [], pfcUntil := [], paused := true }
    trn := { State.reset.trn with hbSeq := s.trn.hbSeq, mrFreed := s.trn.mrFreed, revoked := s.trn.revoked, down := s.trn.down
                                  undone := s.trn.undone ++ s.trn.qps.flatMap (fun p => p.2.msgs.filterMap TxMsg.joff) }
    seg := { s.seg with streams := [], opens := [], reports := [], heldBy := [], census := false, load := false, move := none,
                        findings := [], dieReads := [], dieOps := [], checks := [] }
    map := State.reset.map
    lanes := s.lanes.map (fun p => (p.1, { p.2 with cmds := p.2.cmds.map (fun q => (q.1, { q.2 with dead := true })) }))
    evt := { s.evt with items := s.evt.items.map (fun p => (p.1, { p.2 with slot := none })) }
    mbx := { s.mbx with since := none } }

/-- The scope of R430 for a warm reset. -/
def State.warmScope (s : State) : State :=
  let s := s.warmUnits.warmMachine.warmRegs.warmSearch.warmClusters.msixReset
  s.faultHigh

/-- A write of `PWR_RST` (R428, R429): ignored without the key; a warm reset only in STANDBY and DOWN. -/
def State.pwrRst (s : State) (v : Nat) : State :=
  if bitsOf v 8 8 ≠ 0xA5 then s
  else if bitOf v 0 then s.coldReset 2
  else if bitOf v 1 then
    if s.pwr.warm.isSome then s
    else if s.life = .standby ∨ s.life = .down then
      let s := s.stopCores.abortBanks
      { s with pwr := { s.pwr with warm := some s.now }, fe := { s.fe with paused := true } }
    else (s.ctr F.PWR_RST_REFUSED_CTR).note 0x005 s.life.code
  else s

/-- PWR_RST_COLD with a KEY. -/
def execPwrRstCold (key : Nat) (s : State) : Res := .next (s.pwrRst (1 + 256 * (key % 256)))

/-- PWR_RST_WARM with a KEY. -/
def execPwrRstWarm (key : Nat) (s : State) : Res := .next (s.pwrRst (2 + 256 * (key % 256)))

/-- WARM_RESET_COMPLETE: the scope of R430 applied, and LOAD with a verified NEXT bank, otherwise BOOT (R23). The logbook is
committed before the head leaves DOWN (R433). -/
def State.warmEnd (s : State) : State :=
  match s.pwr.warm with
  | none => s
  | some _ =>
    let s := if s.life = .down then s.logSettle else s
    let s := { s with pwr := { s.pwr with warm := none } }
    let s := (s.warmScope.ctr F.PWR_WARM_RESETS_CTR).setFlag F.PWR_RST_CAUSE_WARM_SINCE
    let b := s.rd F.HCH_NEXT_BANK
    if s.isNext b ∧ s.bankState b = 4 then State.moveLife { s with vlt := { s.vlt with loadDue := true } } .load
    else s.moveLife .boot

/-- WARM_RESET_COMPLETE. -/
def execWarmResetComplete (s : State) : Res := .next s.warmEnd

end Sys2Proof.Machine
end

