-- ==== Sys2Proof/Machine/Vault.lean ====
section
/-! DEFINITION. The Vault's commands (R389 to R400, R407). A row carries out the command that waits on its port and holds the
result; `VLT_CMD_COMPLETE` ends it. Operands are checked in the order DENIED, BAD_ARG, NO_KEY, ATTR (assumption log 25). -/

namespace Sys2Proof.Machine

/-- What a command leaves: state, RESULT, output. -/
abbrev VRes := State × Nat × List Byte

/-- A command and its operands: port, OP, SLOT_A, SLOT_B, ATTR and the input bytes. -/
structure VCmd where
  port : Nat
  op : Nat
  a : Nat
  b : Nat
  attr : Nat
  data : List Byte

/-- The input bytes of a port: IN_LEN of them, from a window of 1,024. -/
def VltPort.input (q : VltPort) (len : Nat) : List Byte :=
  ((List.range 128).flatMap (fun k => leBytes 8 (SMap.findD q.inw k 0).toNat)).take len

/-- The command that waits on a port. -/
def State.vltWaiting (s : State) (p : Nat) : Option VCmd :=
  let q := s.port p
  match q.cmd, q.fin with
  | some w, none =>
    some { port := p, op := bitsOf w 0 8, a := bitsOf w 8 8, b := bitsOf w 16 8, attr := bitsOf w 24 8,
           data := q.input (bitsOf w 32 11) }
  | _, _ => none

/-- Is it port `p`'s turn (R389): no command is under way, and not the other port's turn? -/
def State.vltTurn (s : State) (p : Nat) : Bool :=
  decide (p < 2) && (s.port 0).fin.isNone && (s.port 1).fin.isNone &&
    !(decide (s.vlt.last = p) && (s.vltWaiting (1 - p)).isSome)

/-- Hold a command's result. -/
def VRes.hold (p : Nat) (r : VRes) : State := r.1.updPort p (fun (q : VltPort) => { q with fin := some (r.2.1, r.2.2) })

/-- Completed without output. -/
def State.vOk (s : State) : VRes := (s, 0, [])
/-- Completed with a RESULT of R392. -/
def State.vErr (s : State) (code : Nat) : VRes := (s, code, [])

/-- FAIL: a check failed. -/
def vFail : Nat := 1
/-- BAD_ARG. -/
def vBadArg : Nat := 2
/-- NO_KEY. -/
def vNoKey : Nat := 3
/-- ATTR. -/
def vAttr : Nat := 4
/-- BUSY. -/
def vBusy : Nat := 5
/-- DENIED. -/
def vDenied : Nat := 6
/-- OTP. -/
def vOtp : Nat := 7
/-- WEAK. -/
def vWeak : Nat := 8

/-- Does what a command leaves lack a media key slot that a started job uses? The command must wait (R220). -/
def State.clearsBusy (s s' : State) : Bool := s.xtsKeys.any (fun p => !SMap.has s'.xtsKeys p.1 && s.keyBusy p.1)

/-- A command's row: the body runs when the command waits on port `p` and it is its turn; a port the table of R391 does not
allow, given as a bit mask, completes DENIED. A command that clears a media key slot waits while a started job uses it (R220). -/
def State.vltRow (s : State) (p op allowed : Nat) (body : VCmd → State → VRes) : State :=
  match s.vltWaiting p with
  | some c =>
    if c.op = op ∧ s.vltTurn p = true then
      if !bitOf allowed p then (s.vErr vDenied).hold p
      else if s.clearsBusy (body c s).1 then s
      else (body c s).hold p
    else s
  | none => s

/-! Keys (R393). -/

/-- Is an ATTR legal? -/
def attrOk (a : Nat) : Bool :=
  decide (a % 4 ≠ 3 ∧ a / 64 = 0) && !(bitOf a 4 && (bitOf a 2 || bitOf a 3))

/-- Key bytes of an ATTR's SIZE. -/
def attrLen (a : Nat) : Nat := 16 + 8 * (a % 4)

/-- The key of a slot for a use named by its attribute bit: RESULT and key. -/
def State.keyFor (s : State) (slot bit : Nat) : Nat × List Byte :=
  match SMap.find s.vlt.keys slot with
  | none => (vNoKey, [])
  | some k => if bitOf k.attr bit then (0, k.key) else (vAttr, [])

/-- Load a slot. -/
def State.keySet (s : State) (slot attr : Nat) (key : List Byte) : State :=
  { s with vlt := { s.vlt with keys := SMap.put s.vlt.keys slot { key := key, attr := attr } } }

/-- Clear a slot. -/
def State.keyDel (s : State) (slot : Nat) : State := { s with vlt := { s.vlt with keys := SMap.del s.vlt.keys slot } }

/-- A KW check failed (R394): the target VK slot is cleared and the failure logged. -/
def State.kwFail (s : State) (op slot : Nat) : VRes := ((s.keyDel slot).raise 0x004 op).vErr vFail

/-- Debug level (R400). -/
def State.debugLevel (s : State) : Nat := s.rd F.VLT_STATUS_DEBUG

/-- AES on each block of 16 bytes. -/
def aesBlocks (f : List Nat → List Nat) : Nat → List Nat → List Nat
  | 0, _ => []
  | n + 1, l => f (l.take 16) ++ aesBlocks f n (l.drop 16)

/-- AES_ENC and AES_DEC. -/
def vAes (enc : Bool) (c : VCmd) (s : State) : VRes :=
  let n := c.data.length / 16
  if 16 ≤ c.a ∨ c.data.length % 16 ≠ 0 ∨ n = 0 then s.vErr vBadArg
  else
    let k := s.keyFor c.a (if enc then 2 else 3)
    if k.1 ≠ 0 then s.vErr k.1
    else
      let key := natsOf k.2
      (s, 0, bytesOf (aesBlocks (if enc then aesEncBlock key else aesDecBlock key) n (natsOf c.data)))

/-- KEY_GEN. -/
def vKeyGen (c : VCmd) (s : State) : VRes :=
  if 16 ≤ c.a ∨ attrOk c.attr = false ∨ c.data ≠ [] then s.vErr vBadArg
  else
    let r := s.random 4
    (r.2.keySet c.a c.attr (r.1.take (attrLen c.attr))).vOk

/-- UNWRAP: the wrapped key is 8 bytes longer than the key that ATTR's SIZE names. -/
def vUnwrap (c : VCmd) (s : State) : VRes :=
  if 16 ≤ c.a ∨ 16 ≤ c.b ∨ attrOk c.attr = false ∨ c.data.length ≠ attrLen c.attr + 8 then s.vErr vBadArg
  else
    let k := s.keyFor c.a 4
    if k.1 ≠ 0 then s.vErr k.1
    else
      match kwUnwrap k.2 c.data with
      | some key => (s.keySet c.b c.attr key).vOk
      | none => s.kwFail 0x04 c.b

/-- WRAP. -/
def vWrap (c : VCmd) (s : State) : VRes :=
  if 16 ≤ c.a ∨ 16 ≤ c.b ∨ c.data ≠ [] then s.vErr vBadArg
  else
    let k := s.keyFor c.a 4
    let x := s.keyFor c.b 5
    if k.1 = vNoKey ∨ x.1 = vNoKey then s.vErr vNoKey
    else if k.1 ≠ 0 ∨ x.1 ≠ 0 then s.vErr vAttr
    else (s, 0, kwWrap k.2 x.2)

/-- The identity private key (R387). -/
def State.identity (s : State) : Nat := Config.identityScalar s.vlt.otp.secret % (p521N - 1) + 1

/-- The identity public key. -/
def State.identityPub (s : State) : List Byte := ecPublic s.identity

/-- The KEK of IMPORT (R395): the first 32 bytes of SHA-512 of 0x00000001, Z and SERIAL. -/
def State.importKek (s : State) (q : Nat × Nat) : List Byte :=
  (sha 3 ([0, 0, 0, 1] ++ ecdhZ s.identity q ++ s.serialBytes)).take 32

/-- IMPORT (R395): the delivered key is 32 bytes, of which a shorter SIZE keeps the first (assumption log 25). -/
def vImport (c : VCmd) (s : State) : VRes :=
  if s.debugLevel = 2 then s.vErr vDenied
  else if 16 ≤ c.b ∨ attrOk c.attr = false ∨ c.data.length ≠ 173 then s.vErr vBadArg
  else
    match ecPoint (c.data.take 133) with
    | none => s.vErr vFail
    | some q =>
      match kwUnwrap (s.importKek q) (c.data.drop 133) with
      | some key => (s.keySet c.b c.attr (key.take (attrLen c.attr))).vOk
      | none => s.kwFail 0x06 c.b

/-- The seal key (R387). -/
def State.sealKey (s : State) : List Byte := (sha 3 (1 :: s.vlt.otp.secret)).take 32

/-- SEAL (R395). -/
def vSeal (c : VCmd) (s : State) : VRes :=
  if 16 ≤ c.b ∨ c.data ≠ [] then s.vErr vBadArg
  else
    match SMap.find s.vlt.keys c.b with
    | none => s.vErr vNoKey
    | some k =>
      if bitOf k.attr 5 then
        (s, 0, kwWrap s.sealKey (k.key ++ List.replicate (32 - k.key.length) 0 ++ leBytes 8 k.attr))
      else s.vErr vAttr

/-- UNSEAL (R395). -/
def vUnseal (c : VCmd) (s : State) : VRes :=
  if s.debugLevel = 2 then s.vErr vDenied
  else if 16 ≤ c.b ∨ c.data.length ≠ 48 then s.vErr vBadArg
  else
    match kwUnwrap s.sealKey c.data with
    | some l =>
      let attr := leNat (l.drop 32) % 256
      (s.keySet c.b attr (l.take (attrLen attr))).vOk
    | none => s.kwFail 0x08 c.b

/-- XTS_LOAD (R396). -/
def vXtsLoad (c : VCmd) (s : State) : VRes :=
  if s.debugLevel = 2 then s.vErr vDenied
  else if 16 ≤ c.a ∨ 64 ≤ c.b ∨ c.data.length ≠ 72 then s.vErr vBadArg
  else
    let k := s.keyFor c.a 4
    if k.1 ≠ 0 then s.vErr k.1
    else if SMap.has s.xtsKeys c.b then s.vErr vBusy
    else
      match kwUnwrap k.2 c.data with
      | some key =>
        if key.take 32 = key.drop 32 then s.vErr vWeak
        else State.vOk { s with xtsKeys := SMap.put s.xtsKeys c.b key }
      | none => (s.raise 0x004 0x09).vErr vFail

/-- XTS_CLEAR; its row waits for the started jobs that use the slot (R220). -/
def vXtsClear (c : VCmd) (s : State) : VRes :=
  if 64 ≤ c.b ∨ c.data ≠ [] then s.vErr vBadArg else State.vOk { s with xtsKeys := SMap.del s.xtsKeys c.b }

/-- KEY_CLEAR. -/
def vKeyClear (c : VCmd) (s : State) : VRes :=
  if 16 ≤ c.a ∨ c.data ≠ [] then s.vErr vBadArg else (s.keyDel c.a).vOk

/-- VERIFY_SIG. -/
def vVerifySig (c : VCmd) (s : State) : VRes :=
  if c.data.length ≠ 329 then s.vErr vBadArg
  else if ecdsaVerify (c.data.take 133) ((c.data.drop 133).take 64) (c.data.drop 197) then s.vOk
  else s.vErr vFail

/-- Is a key slot REVOKED? -/
def Otp.revoked (o : Otp) (n : Nat) : Bool := bitOf (SMap.findD o.attrs n 0) 2

/-- The staged bank of a report: the VERIFIED bank that is not running (R398; DEDUCED, assumption log 25). -/
def State.stagedBank (s : State) : Option Nat :=
  [0, 1].find? (fun b => decide (s.bankState b = 4) && !(decide (s.vlt.run.bind (fun r => r.bank) = some b)))

/-- Bytes 0 to 399 of an attestation report (R398). -/
def State.attReport (s : State) (nonce : List Byte) : List Byte :=
  let o := s.vlt.otp
  let zero := fun n => List.replicate n (0 : Byte)
  let rev := (List.range 4).foldl (fun m n => m + b2n (o.revoked n) * 2 ^ (2 + n)) 0
  let staged := match s.stagedBank with
    | some b => sha 3 (s.bytes (s.bankBase b) 4096)
    | none => zero 64
  let head := [s.fuse.variant.code, s.fuse.step, s.life.code, s.debugLevel, o.svn, o.mediaGen,
               b2n o.ownerLock + 2 * b2n o.plainOk + rev,
               b2n s.vlt.run.isSome + 2 * b2n s.stagedBank.isSome]
  leBytes 8 0x545354414E464644 ++ s.serialBytes ++ bytesOf head ++ leBytes 8 s.calNow ++ nonce ++
    (match s.vlt.run with
      | some r => r.hash
      | none => zero 64) ++ staged ++ zero 24 ++ s.identityPub ++ zero 11

/-- A per-message number of ECDSA, from the random source. -/
def State.ecdsaK (s : State) : Nat × State :=
  let r := s.random 9
  (leNat r.1 % (p521N - 1) + 1, r.2)

/-- ATTEST (R398). -/
def vAttest (c : VCmd) (s : State) : VRes :=
  if c.data.length ≠ 64 then s.vErr vBadArg
  else
    let body := s.attReport c.data
    let k := s.ecdsaK
    (k.2, 0, body ++ ecdsaSign s.identity k.1 (sha 3 body))

/-- GET_CERT. -/
def vGetCert (c : VCmd) (s : State) : VRes :=
  if c.data ≠ [] then s.vErr vBadArg else (s, 0, s.serialBytes ++ s.identityPub ++ s.vlt.otp.cert)

/-- DEBUG_CHAL (R399): the challenge is the 48 bytes returned (assumption log 25). -/
def vDebugChal (c : VCmd) (s : State) : VRes :=
  if c.data ≠ [] then s.vErr vBadArg
  else
    let r := s.random 4
    let ch := r.1 ++ s.serialBytes
    ({ r.2 with vlt := { r.2.vlt with chal := some ch } }, 0, ch)

/-- Opening of a debug level (R400). -/
def State.openDebug (s : State) (level : Nat) : State :=
  let s := ((s.clearKeys.setFlag F.VLT_STATUS_ZEROIZED).raise 0x003 level).wr F.VLT_STATUS_DEBUG level
  if level = 2 then
    let s := (s.bankEmpty 0).bankEmpty 1
    let a := s.codeBase 0
    s.zeroMem a (s.codeLimit 0 + 1 - a)
  else s

/-- DEBUG_OPEN (R399, R400). -/
def vDebugOpen (c : VCmd) (s : State) : VRes :=
  let level := ((c.data.head?.getD 0).toNat)
  let slot := (((c.data.drop 1).head?.getD 0).toNat)
  let pub := (c.data.drop 2).take 133
  let sig := c.data.drop 135
  let o := s.vlt.otp
  let chal := s.vlt.chal
  let s := { s with vlt := { s.vlt with chal := none } }
  if c.data.length ≠ 267 ∨ level = 0 ∨ 2 < level ∨ 3 < slot then s.vErr vBadArg
  else if level ≤ s.debugLevel ∨ bitOf (SMap.findD o.attrs slot 0) 1 = false ∨ o.revoked slot = true then s.vErr vDenied
  else
    match chal with
    | none => s.vErr vFail
    | some ch =>
      if SMap.find o.hash slot = some (sha 3 pub) ∧
          ecdsaVerify pub (sha 3 (ch ++ [BitVec.ofNat 8 level] ++ s.serialBytes)) sig = true then (s.openDebug level).vOk
      else s.vErr vFail

/-- Change the OTP array. -/
def State.updOtp (s : State) (f : Otp → Otp) : State := { s with vlt := { s.vlt with otp := f s.vlt.otp } }

/-- SVN_COMMIT (R407): with no running image its SVN counts as 0. -/
def vSvnCommit (fuseOk : Bool) (c : VCmd) (s : State) : VRes :=
  let v := leNat c.data
  let run := match s.vlt.run with
    | some r => r.svn
    | none => 0
  let t := min v run
  if c.data.length ≠ 4 then s.vErr vBadArg
  else if t ≤ s.vlt.otp.svn then s.recheckBanks.vOk
  else if 128 < t then s.vErr vBadArg
  else if !fuseOk then s.vErr vOtp
  else (s.updOtp (fun (o : Otp) => { o with svn := t })).recheckBanks.vOk

/-- MEDIA_COMMIT (R407). -/
def vMediaCommit (fuseOk : Bool) (c : VCmd) (s : State) : VRes :=
  let g := leNat c.data
  let reads := match s.vlt.run with
    | some r => bitOf r.mediaRead g
    | none => false
  if c.data.length ≠ 1 ∨ 31 < g ∨ reads = false then s.vErr vBadArg
  else if g ≤ s.vlt.otp.mediaGen then s.recheckBanks.vOk
  else if !fuseOk then s.vErr vOtp
  else (s.updOtp (fun (o : Otp) => { o with mediaGen := g })).recheckBanks.vOk

/-- Fuses that go in one OTP_PROGRAM, when they program. -/
def State.otpFuse (s : State) (fuseOk : Bool) (f : Otp → Otp) : VRes :=
  if fuseOk then (s.updOtp f).vOk else s.vErr vOtp

/-- OTP_PROGRAM (R387, R391). -/
def vOtpProgram (fuseOk : Bool) (c : VCmd) (s : State) : VRes :=
  let o := s.vlt.otp
  let v := c.data.drop 1
  let fld := Config.otpField (c.data.head?.getD 0).toNat
  if s.life ≠ .boot then s.vErr vDenied
  else if c.data = [] then s.vErr vBadArg
  else if 1 ≤ fld ∧ fld ≤ 3 then
    if v.length ≠ 65 ∨ 8 ≤ leNat (v.drop 64) then s.vErr vBadArg
    else if SMap.has o.hash fld then s.vErr vDenied
    else s.otpFuse fuseOk (fun (o : Otp) =>
      { o with hash := SMap.put o.hash fld (v.take 64)
               attrs := SMap.put o.attrs fld (SMap.findD o.attrs fld 0 ||| leNat (v.drop 64)) })
  else if 4 ≤ fld ∧ fld ≤ 7 then
    if v ≠ [4] then s.vErr vBadArg
    else s.otpFuse fuseOk (fun (o : Otp) =>
      { o with attrs := SMap.put o.attrs (fld - 4) (SMap.findD o.attrs (fld - 4) 0 ||| 4) })
  else if fld = 8 then
    if v ≠ [] ∨ 16 ≤ c.a then s.vErr vBadArg
    else if o.kek1.isSome then s.vErr vDenied
    else
      match SMap.find s.vlt.keys c.a with
      | none => s.vErr vNoKey
      | some k =>
        if k.key.length ≠ 32 then s.vErr vBadArg
        else s.otpFuse fuseOk (fun (o : Otp) => { o with kek1 := some k.key })
  else if fld = 9 then
    if v ≠ [1] then s.vErr vBadArg else s.otpFuse fuseOk (fun (o : Otp) => { o with ownerLock := true })
  else s.vErr vBadArg

/-- ZEROIZE. -/
def vZeroize (c : VCmd) (s : State) : VRes :=
  if c.data ≠ [] then s.vErr vBadArg else (s.clearKeys.setFlag F.VLT_STATUS_ZEROIZED).vOk

/-! The rows. -/

/-- AES_ENC. -/
def execVltAesEnc (p : Nat) (s : State) : Res := .next (s.vltRow p 0x01 3 (vAes true))
/-- AES_DEC. -/
def execVltAesDec (p : Nat) (s : State) : Res := .next (s.vltRow p 0x02 3 (vAes false))
/-- KEY_GEN. -/
def execVltKeyGen (p : Nat) (s : State) : Res := .next (s.vltRow p 0x03 3 vKeyGen)
/-- UNWRAP. -/
def execVltUnwrap (p : Nat) (s : State) : Res := .next (s.vltRow p 0x04 3 vUnwrap)
/-- WRAP. -/
def execVltWrap (p : Nat) (s : State) : Res := .next (s.vltRow p 0x05 3 vWrap)
/-- IMPORT. -/
def execVltImport (p : Nat) (s : State) : Res := .next (s.vltRow p 0x06 3 vImport)
/-- SEAL. -/
def execVltSeal (p : Nat) (s : State) : Res := .next (s.vltRow p 0x07 2 vSeal)
/-- UNSEAL. -/
def execVltUnseal (p : Nat) (s : State) : Res := .next (s.vltRow p 0x08 2 vUnseal)
/-- XTS_LOAD. -/
def execVltXtsLoad (p : Nat) (s : State) : Res := .next (s.vltRow p 0x09 2 vXtsLoad)
/-- XTS_CLEAR. -/
def execVltXtsClear (p : Nat) (s : State) : Res := .next (s.vltRow p 0x0A 3 vXtsClear)
/-- KEY_CLEAR. -/
def execVltKeyClear (p : Nat) (s : State) : Res := .next (s.vltRow p 0x0B 3 vKeyClear)
/-- VERIFY_SIG. -/
def execVltVerifySig (p : Nat) (s : State) : Res := .next (s.vltRow p 0x0C 3 vVerifySig)
/-- ATTEST. -/
def execVltAttest (p : Nat) (s : State) : Res := .next (s.vltRow p 0x0D 3 vAttest)
/-- GET_CERT. -/
def execVltGetCert (p : Nat) (s : State) : Res := .next (s.vltRow p 0x0E 3 vGetCert)
/-- DEBUG_CHAL. -/
def execVltDebugChal (p : Nat) (s : State) : Res := .next (s.vltRow p 0x0F 1 vDebugChal)
/-- DEBUG_OPEN. -/
def execVltDebugOpen (p : Nat) (s : State) : Res := .next (s.vltRow p 0x10 1 vDebugOpen)
/-- SVN_COMMIT; `fuseOk` says that the fuses program. -/
def execVltSvnCommit (p : Nat) (fuseOk : Bool) (s : State) : Res := .next (s.vltRow p 0x11 2 (vSvnCommit fuseOk))
/-- MEDIA_COMMIT. -/
def execVltMediaCommit (p : Nat) (fuseOk : Bool) (s : State) : Res := .next (s.vltRow p 0x12 2 (vMediaCommit fuseOk))
/-- OTP_PROGRAM. -/
def execVltOtpProgram (p : Nat) (fuseOk : Bool) (s : State) : Res := .next (s.vltRow p 0x13 1 (vOtpProgram fuseOk))
/-- ZEROIZE. -/
def execVltZeroize (p : Nat) (s : State) : Res := .next (s.vltRow p 0x14 3 vZeroize)

/-- A command ends on a port (R389 step 4). -/
def State.vltEnd (s : State) (p result : Nat) (out : List Byte) : State :=
  State.updPort { s with vlt := { s.vlt with last := p } } p (fun (q : VltPort) =>
    { q with cmd := none, fin := none, inw := [], outw := out, done := true, result := result, outLen := out.length })

/-- VLT_CMD_COMPLETE: the command carried out on a port ends; an OP that R391 does not list ends with BAD_ARG. -/
def execVltCmdComplete (p : Nat) (s : State) : Res :=
  .next (
    match (s.port p).fin with
    | some r => s.vltEnd p r.1 r.2
    | none =>
      match s.vltWaiting p with
      | some c => if (c.op = 0 ∨ 0x14 < c.op) ∧ s.vltTurn p = true then s.vltEnd p vBadArg [] else s
      | none => s)

/-- VLT_DONE_CLEAR. -/
def execVltDoneClear (p : Nat) (s : State) : Res := .next (s.vltDoneClear (p % 2))

/-- 64 bits of `VLT_RNG` for one read (R385): 0 while RNG_OK is 0. -/
def State.rngRead (s : State) : Word × State :=
  if s.flag F.VLT_STATUS_RNG_OK then (Config.random s.freeCtr, s.nextFree) else (0, s)

/-- VLT_RNG_READ: a read of `VLT_RNG` by a requester other than a thread; what it returns goes out. -/
def execVltRngRead (s : State) : Res :=
  let r := s.rngRead
  .next (r.2.emit (.readData r.1))

end Sys2Proof.Machine
end

