-- ==== Sys2Proof/Machine/Mbx.lean ====
section
/-! DEFINITION. The mailbox (R454 to R463): the rings of BAR4, the checks of R456, the commands of R457, responses, firmware
packets and downloads. -/

namespace Sys2Proof.Machine

/-- Bytes of the H2D ring. -/
def h2dBytes : Nat := 0xC0000
/-- Bytes of the D2H ring, which follows it in BAR4. -/
def d2hBytes : Nat := 0x40000

/-- `MBX_H2D_HEAD` in bytes. -/
def State.h2dHead (s : State) : Nat := 64 * s.rd F.MBX_H2D_HEAD_POS
/-- `MBX_H2D_TAIL`. -/
def State.h2dTail (s : State) : Nat := 64 * s.rd F.MBX_H2D_TAIL_POS
/-- `MBX_D2H_HEAD`. -/
def State.d2hHead (s : State) : Nat := 64 * s.rd F.MBX_D2H_HEAD_POS
/-- `MBX_D2H_TAIL`. -/
def State.d2hTail (s : State) : Nat := 64 * s.rd F.MBX_D2H_TAIL_POS

/-- Bytes of BAR4. -/
def State.bar4 (s : State) (a n : Nat) : List Byte := memRead s.mbx.ring a n

/-- Write bytes of BAR4. -/
def State.bar4Put (s : State) (a : Nat) (d : List Byte) : State := { s with mbx := { s.mbx with ring := memWrite s.mbx.ring a d } }

/-- The host's posted writes from an H2D position on, going on at offset 0 after the end of the ring. -/
def State.h2dPut (s : State) (at_ : Nat) (d : List Byte) : State :=
  let n := h2dBytes - at_
  (s.bar4Put at_ (d.take n)).bar4Put 0 ((d.drop n).take h2dBytes)

/-- The extent of a packet (R455). -/
def extent (len : Nat) : Nat := 64 + 64 * ceilDiv len 64

/-- A packet header (R455). -/
structure Pkt where
  op : Nat
  flags : Nat
  status : Nat
  len : Nat
  tag : Nat
  args : List Nat
  deriving DecidableEq, Repr

/-- The 64 bytes of a header, with HCHK. -/
def Pkt.bytes (p : Pkt) : List Byte :=
  let b := leBytes 1 p.op ++ leBytes 1 p.flags ++ leBytes 2 p.status ++ leBytes 4 p.len ++ leBytes 8 p.tag ++
    ((List.range 4).flatMap (fun i => leBytes 8 (p.args.getD i 0))) ++ List.replicate 12 0
  b ++ leBytes 4 (crc32c b)

/-- The header in 64 bytes. -/
def pktOf (b : List Byte) : Pkt :=
  let f := fun (lo n : Nat) => leNat ((b.drop lo).take n)
  { op := f 0 1, flags := f 1 1, status := f 2 2, len := f 4 4, tag := f 8 8, args := (List.range 4).map (fun i => f (16 + 8 * i) 8) }

/-- An argument. -/
def Pkt.arg (p : Pkt) (i : Nat) : Nat := p.args.getD i 0

/-! The D2H ring. -/

/-- Write a packet to the D2H ring (R454, R461): a WRAP header first when it does not fit before the end; SOFT0 with the new
tail. None while the ring lacks room. -/
def State.d2hPut (s : State) (p : Pkt) (data : List Byte) : Option State :=
  let t := s.d2hTail
  let e := extent data.length
  let used := (t + d2hBytes - s.d2hHead) % d2hBytes
  let fits := decide (t + e ≤ d2hBytes)
  let need := if fits then e else d2hBytes - t + e
  if d2hBytes - 128 < used + need then none
  else
    let s := if fits then s else s.bar4Put (h2dBytes + t) ({ op := 0, flags := 0, status := 0, len := 0, tag := 0, args := [] } : Pkt).bytes
    let at_ := if fits then t else 0
    let pad := List.replicate (e - 64 - data.length) 0
    let s := s.bar4Put (h2dBytes + at_) (({ p with len := data.length } : Pkt).bytes ++ data ++ pad)
    let tail := (at_ + e) % d2hBytes
    some (((s.wr F.MBX_D2H_TAIL_POS (tail / 64)).ctr F.MBX_TX_CTR).note 0x1C0 tail)

/-- The response to a request: FLAGS.RESP, TAG and OP copied. -/
def Pkt.answer (p : Pkt) (status : Nat) (args : List Nat) : Pkt :=
  { op := p.op, flags := 1, status := status, len := 0, tag := p.tag, args := args }

/-! The H2D ring (R456). -/

/-- Does the device read the H2D ring now, and is there something to read? -/
def State.h2dLive (s : State) : Bool :=
  s.flag F.MBX_CTL_EN && decide (s.life ≠ .cold) && decide (s.h2dHead ≠ s.h2dTail)

/-- The header at HEAD. -/
def State.pktAt (s : State) : Pkt := pktOf (s.bar4 s.h2dHead 64)

/-- Is an OP one of R457? -/
def opListed (op : Nat) : Bool :=
  decide (op ≤ 3 ∨ op = 5 ∨ op = 6 ∨ op = 7 ∨ (0x10 ≤ op ∧ op ≤ 0x12) ∨ (0x20 ≤ op ∧ op ≤ 0x3F))

/-- Does LEN equal what the OP requires (R457)? -/
def Pkt.lenOk (p : Pkt) : Bool :=
  if p.op = 3 then decide (p.len = if bitOf (p.arg 0) 24 then 65536 else 0)
  else if p.op = 6 then decide (p.len = 64)
  else if 0x20 ≤ p.op ∧ p.op ≤ 0x3F then true
  else if opListed p.op then decide (p.len = 0)
  else true

/-- What the checks of R456 say of the packet at HEAD. `all` moves HEAD to TAIL, otherwise HEAD advances by the extent. -/
inductive Verdict where
  | pass | wrap | wait
  | reject (status : Nat) (all : Bool)
  deriving DecidableEq, Repr

/-- Status codes of R459. -/
def mxOk : Nat := 0
def mxLength : Nat := 1
def mxHeader : Nat := 2
def mxUnknown : Nat := 3
def mxBadArg : Nat := 4
def mxState : Nat := 5
def mxNoFw : Nat := 6
def mxCrc : Nat := 7
def mxVault : Nat := 8
def mxBusy : Nat := 9

/-- The checks of R456, in order. -/
def State.judge (s : State) : Verdict :=
  let b := s.bar4 s.h2dHead 64
  let p := pktOf b
  let e := extent p.len
  let have_ := (s.h2dTail + h2dBytes - s.h2dHead) % h2dBytes
  if crc32c (b.take 60) ≠ leNat (b.drop 60) then .reject mxHeader true
  else if p.op = 0 then .wrap
  else if 65536 < p.len then .reject mxLength true
  else if have_ < e ∨ h2dBytes < s.h2dHead + e then .wait
  else if (b.drop 48).take 12 ≠ List.replicate 12 0 then .reject mxBadArg false
  else if !p.lenOk then .reject mxLength false
  else if !opListed p.op then .reject mxUnknown false
  else .pass

/-- HEAD moves to a byte offset. -/
def State.headTo (s : State) (h : Nat) : State := s.wr F.MBX_H2D_HEAD_POS (h % h2dBytes / 64)

/-- The packet at HEAD is taken: HEAD advances by its extent. -/
def State.pktTake (s : State) : State := (s.headTo (s.h2dHead + extent s.pktAt.len)).ctr F.MBX_RX_CTR

/-- Reject the packet at HEAD (R456): none while the response has no room. -/
def State.pktReject (s : State) (status : Nat) (all : Bool) : Option State :=
  let p := s.pktAt
  let s1 := if all then (s.headTo s.h2dTail).ctr F.MBX_RX_CTR else s.pktTake
  let s1 := if status = mxHeader then s1.setFlag F.MBX_STATUS_HDR_ERR
    else if status = mxLength then s1.setFlag F.MBX_STATUS_LEN_ERR else s1
  (s1.ctr F.MBX_REJECT_CTR).d2hPut (p.answer status []) []

/-- Read on from HEAD: reject what fails, up to a packet that passes, that waits for the tail, or whose response finds no room. -/
def State.h2dScan : Nat → State → State
  | 0, s => s
  | n + 1, s =>
    if s.h2dLive then
      match s.judge with
      | .reject st all =>
        match s.pktReject st all with
        | some s => State.h2dScan n { s with mbx := { s.mbx with since := none } }
        | none => s
      | .wait => if s.mbx.since.isSome then s else { s with mbx := { s.mbx with since := some s.now } }
      | _ => { s with mbx := { s.mbx with since := none } }
    else { s with mbx := { s.mbx with since := none } }

/-- Read on. -/
def State.h2dRead (s : State) : State := State.h2dScan (h2dBytes / 64 + 1) s

/-- A store of `MBX_H2D_TAIL`. -/
def State.h2dTailStore (s : State) (v : Nat) : State :=
  if h2dBytes ≤ 64 * bitsOf v 6 14 then s.setFlag F.MBX_STATUS_LEN_ERR
  else (s.wr F.MBX_H2D_TAIL_POS (bitsOf v 6 14)).h2dRead

/-- MBX_H2D_TAIL_WRITE: the bytes the service host wrote from the old tail on, then the tail. -/
def execMbxH2dTailWrite (v : Nat) (data : List Byte) (s : State) : Res :=
  .next ((s.h2dPut s.h2dTail data).h2dTailStore v)

/-- MBX_WRAP: a WRAP header moves HEAD to offset 0. -/
def execMbxWrap (s : State) : Res :=
  .next (if s.h2dLive = true ∧ s.judge = .wrap then (s.headTo 0).h2dRead else s)

/-- MBX_EXTENT_TIMEOUT: the tail has not covered the packet within 1 ms. -/
def execMbxExtentTimeout (s : State) : Res :=
  .next (
    match s.mbx.since with
    | some t =>
      if s.h2dLive = true ∧ s.judge = .wait ∧ t + 1000000 ≤ s.now then
        match s.pktReject mxLength true with
        | some s => s.h2dRead
        | none => s
      else s
    | none => s)

/-! Commands of the device. -/

/-- What a device command answers: state, STATUS, arguments, payload. -/
abbrev MbxRes := State × Nat × List Nat × List Byte

/-- A device command at HEAD that has passed: carried out, answered and taken; nothing while the answer has no room. -/
def State.mbxRow (s : State) (op : Nat) (f : Pkt → List Byte → State → MbxRes) : State :=
  if s.h2dLive = true ∧ s.judge = .pass ∧ s.pktAt.op = op then
    let p := s.pktAt
    let r := f p (s.bar4 (s.h2dHead + 64) p.len) s
    match r.1.pktTake.d2hPut (p.answer r.2.1 r.2.2.1) r.2.2.2 with
    | some s => s.h2dRead
    | none => s
  else s

/-- MBX_PING. -/
def execMbxPing (s : State) : Res := .next (s.mbxRow 0x01 (fun p _ s => (s, mxOk, p.args, [])))

/-- TJ as 16 bits, signed. -/
def State.tj16 (s : State) : Nat := (BitVec.ofInt 16 (sextInt 11 (s.rd F.PWR_THERM_TJ))).toNat

/-- The STATUS payload (R457). -/
def State.statusBytes (s : State) : List Byte :=
  let lo := fun (off : Nat) => (s.regGet off).toNat
  leBytes 1 s.life.code ++ leBytes 1 s.headId ++ leBytes 1 s.fuse.variant.code ++ leBytes 1 s.fuse.variant.hbmGib ++
  leBytes 1 (lo 0x100040) ++ leBytes 1 (lo 0x100080) ++ leBytes 1 (lo 0x100008 % 4) ++ leBytes 1 (lo 0x600000) ++
  leBytes 8 s.fuse.variant.units ++ leBytes 8 s.now ++ leBytes 8 s.calNow ++ leBytes 2 s.tj16 ++
  leBytes 1 (lo F.PWR_RST_CAUSE_CAUSE.off) ++ leBytes 1 0 ++ leBytes 4 (s.rd F.GLB_FWSTATE_CODE) ++ leBytes 4 s.log.boots ++
  List.replicate 20 0

/-- MBX_STATUS. -/
def execMbxStatus (s : State) : Res := .next (s.mbxRow 0x02 (fun _ _ s => (s, mxOk, [], s.statusBytes)))

/-- DOWNLOAD (R462): BLOCK, bank state, an INLINE payload copied, and the CRC of the block. -/
def mbxDownload (p : Pkt) (data : List Byte) (s : State) : MbxRes :=
  let k := bitsOf (p.arg 0) 0 16
  let b := bitsOf (p.arg 0) 16 1
  if 2047 < k then (s, mxBadArg, [], [])
  else if s.bankState b ≠ 1 then (s, mxState, [], [])
  else
    let a := s.bankBase b + 65536 * k
    let s := if bitOf (p.arg 0) 24 then (s.eccWrite a data).1 else s
    if crc64 (s.bytes a 65536) = p.arg 1 ∧ s.badIn a 65536 = false then (s.blockSet b k true, mxOk, [], [])
    else (s.blockSet b k false, mxCrc, [], [])

/-- MBX_DOWNLOAD. -/
def execMbxDownload (s : State) : Res := .next (s.mbxRow 0x03 mbxDownload)

/-- LOG_READ. -/
def mbxLogRead (p : Pkt) (_ : List Byte) (s : State) : MbxRes :=
  let first := bitsOf (p.arg 0) 0 12
  let n := bitsOf (p.arg 1) 0 9
  if 1 ≤ n ∧ n ≤ 256 ∧ first + n ≤ 4096 then (s, mxOk, [], (rangeFrom first n).flatMap s.logBytes)
  else (s, mxBadArg, [], [])

/-- MBX_LOG_READ. -/
def execMbxLogRead (s : State) : Res := .next (s.mbxRow 0x05 mbxLogRead)

/-- A command through Vault port H: BUSY while the port is BUSY or has DONE set; VAULT with the RESULT when it is not OK. -/
def State.mbxVault (s : State) (op : Nat) (data : List Byte) (f : VCmd → State → VRes) : MbxRes :=
  let q := s.port 0
  if q.cmd.isSome || q.done then (s, mxBusy, [], [])
  else
    let r := f { port := 0, op := op, a := 0, b := 0, attr := 0, data := data } s
    if r.2.1 = 0 then (r.1, mxOk, [], r.2.2) else (r.1, mxVault, [r.2.1], [])

/-- MBX_ATTEST. -/
def execMbxAttest (s : State) : Res := .next (s.mbxRow 0x06 (fun _ d s => s.mbxVault 0x0D d vAttest))

/-- MBX_CERT. -/
def execMbxCert (s : State) : Res := .next (s.mbxRow 0x07 (fun _ _ s => s.mbxVault 0x0E [] vGetCert))

/-! Firmware commands (R460). -/

/-- The item of a firmware command: SOURCE 3, the packet header in g1 to g8, the payload's handle. -/
def fwItem (b : List Byte) (h q : Nat) : Item :=
  { hdr := (List.range 8).map (fun i => BitVec.ofNat 64 (leNat ((b.drop (8 * i)).take 8))), handle := BitVec.ofNat 64 h
    queue := q, deadline := 0, stamp := 0, hasDl := false, source := 3, cls := 0, tenant := 0 }

/-- The buffer with a firmware command's payload; handle 0 when LEN is 0. -/
def State.fwBuf (s : State) (d : List Byte) : Option (Nat × State) :=
  if d = [] then some (0, s)
  else (s.stgAlloc d.length).map (fun r => (r.1, (r.2.eccWrite (hAddr r.1 0) d).1))

/-- Deliver the firmware command at HEAD as an item, hold it, or answer NO_FIRMWARE. -/
def State.fwDeliver (s : State) : State :=
  let p := s.pktAt
  if !s.flag F.MBX_FWQ_VALID then
    match (s.pktTake.clrFlag F.MBX_STATUS_HELD).d2hPut (p.answer mxNoFw []) [] with
    | some s => s.h2dRead
    | none => s
  else
    match s.fwBuf (s.bar4 (s.h2dHead + 64) p.len) with
    | none => s.setFlag F.MBX_STATUS_HELD
    | some r =>
      match r.2.enqueue (fwItem (s.bar4 s.h2dHead 64) r.1 (s.rd F.MBX_FWQ_QUEUE)) with
      | none => s.setFlag F.MBX_STATUS_HELD
      | some x => (x.2.pktTake.clrFlag F.MBX_STATUS_HELD).h2dRead

/-- A firmware command at HEAD that has passed, with an OP between two bounds. -/
def State.fwRow (s : State) (lo hi : Nat) : State :=
  if s.h2dLive = true ∧ s.judge = .pass ∧ lo ≤ s.pktAt.op ∧ s.pktAt.op ≤ hi then s.fwDeliver else s

/-- MBX_ACTIVATE. -/
def execMbxActivate (s : State) : Res := .next (s.fwRow 0x10 0x10)
/-- MBX_RELEASE. -/
def execMbxRelease (s : State) : Res := .next (s.fwRow 0x11 0x11)
/-- MBX_UPDATE. -/
def execMbxUpdate (s : State) : Res := .next (s.fwRow 0x12 0x12)
/-- MBX_FW. -/
def execMbxFw (s : State) : Res := .next (s.fwRow 0x20 0x3F)
/-- MBX_HOLD_RETRY: the packet held at HEAD is tried again. -/
def execMbxHoldRetry (s : State) : Res := .next (if s.flag F.MBX_STATUS_HELD then s.fwRow 0x10 0x3F else s)

/-! Resets, D2H space and SEND. -/

/-- A reset of the mailbox (R463). -/
def State.mbxReset (s : State) : State :=
  let s := (s.wr F.MBX_H2D_HEAD_POS 0).wr F.MBX_H2D_TAIL_POS 0
  let s := ((s.wr F.MBX_D2H_HEAD_POS 0).wr F.MBX_D2H_TAIL_POS 0).clrFlag F.MBX_CTL_EN
  { s.clrFlag F.MBX_STATUS_HELD with mbx := { s.mbx with since := none } }

/-- A store of `MBX_CTL`. -/
def State.mbxCtl (s : State) (v : Nat) : State :=
  if bitOf v 1 then s.mbxReset else (s.wr F.MBX_CTL_EN v).h2dRead

/-- MBX_RESET_WRITE. -/
def execMbxResetWrite (s : State) : Res := .next (s.mbxCtl 2)

/-- A store of `MBX_D2H_HEAD`: ignored with LEN_ERR when it passes the tail. -/
def State.d2hHeadStore (s : State) (v : Nat) : State :=
  let h := 64 * bitsOf v 6 14
  let old := s.d2hHead
  if d2hBytes ≤ h ∨ (s.d2hTail + d2hBytes - old) % d2hBytes < (h + d2hBytes - old) % d2hBytes then s.setFlag F.MBX_STATUS_LEN_ERR
  else (s.wr F.MBX_D2H_HEAD_POS (h / 64)).h2dRead

/-- MBX_D2H_HEAD_WRITE. -/
def execMbxD2hHeadWrite (v : Nat) (s : State) : Res := .next (s.d2hHeadStore v)

/-- The checks of a SEND (R95, R461). -/
def sendCheck (j : Job) (s : State) : Bool :=
  decide (j.fld 3 1 < 4 ∧ j.fld 6 2 = 0 ∧ j.fld 20 4 ≤ 65536) &&
    (decide (j.fld 20 4 = 0) || s.inHandle (j.fld 8 8) (j.fld 16 4) (j.fld 20 4))

/-- SEND. -/
def mbxSend (j : Job) (s : State) : JobDo :=
  if !s.flag F.MBX_CTL_EN then
    .done ((s.clrFlag F.MBX_STATUS_D2H_FULL).ctr F.MBX_DROPPED_CTR) (j.fld 8 8) { status := stDone, aux := 1, result := 0 }
  else
    match s.unitRead (hAddr (j.fld 8 8) (j.fld 16 4)) (j.fld 20 4) with
    | (s, none) => .memErr s 0x0D 0
    | (s, some d) =>
      match s.d2hPut { op := j.fld 2 1, flags := j.fld 3 1, status := j.fld 4 2, len := 0, tag := j.fld 24 8
                       args := (List.range 4).map (fun i => j.fld (32 + 8 * i) 8) } d with
      | some s => .done (s.clrFlag F.MBX_STATUS_D2H_FULL) (j.fld 8 8) (.st stDone)
      | none => .held (s.setFlag F.MBX_STATUS_D2H_FULL)

/-- MBX_SEND. -/
def execMbxSend (cl : Nat) (s : State) : Res := .next (s.runJob 0x0D 0 cl (isOp 1) sendCheck mbxSend)

end Sys2Proof.Machine
end

