-- ==== Sys2Proof/Machine/Pcie.lean ====
section
/-! DEFINITION. The PCI Express endpoint (R430, R436, R449 to R453, R488) and the I2C target (R464, R465). -/

namespace Sys2Proof.Machine

/-! Resets of the endpoint. -/

/-- Does the link train to a speed and a width (R449, R488)? -/
def State.linkOk (s : State) (speed width : Nat) : Bool :=
  s.flag F.CLK_STATUS_PCIE_REF_OK && decide (1 ≤ speed ∧ speed ≤ 5) && [1, 2, 4, 8, 16].contains width

/-- `GLB_PCIE` shows the link: its speed and width, or zero while it is down. -/
def State.linkTo (s : State) (speed width : Nat) : State :=
  let ok := s.linkOk speed width
  let s := { s with pcie := { s.pcie with inReset := !ok } }
  ((s.wr F.GLB_PCIE_SPEED (if ok then speed else 0)).wr F.GLB_PCIE_WIDTH (if ok then width else 0)).wr F.GLB_PCIE_LINK_UP (b2n ok)

/-- A PCI Express reset (R430): configuration, MSI-X table and mailbox; the head is left undisturbed. Afterwards the link stands
at a speed and a width, or is down. -/
def State.pcieRst (s : State) (speed width : Nat) : State := s.mbxReset.msixReset.linkTo speed width

/-- PCIE_RESET. -/
def execPcieReset (speed width : Nat) (s : State) : Res := .next (s.pcieRst speed width)

/-- PCIE_REF_LOSS (R488): PCIE_REF_OK reads 0 and the link goes down. -/
def execPcieRefLoss (s : State) : Res := .next ((s.clrFlag F.CLK_STATUS_PCIE_REF_OK).pcieRst 0 0)

/-- PCIE_REF_RESTORE (R488). -/
def execPcieRefRestore (s : State) : Res := .next (s.setFlag F.CLK_STATUS_PCIE_REF_OK)

/-! MSI-X (R436, R450). -/

/-- Send the held signal of a vector if it can be sent now. -/
def State.vecRelease (s : State) (v : Nat) : State :=
  if (s.vec v).held && s.msixReady v then
    let r := s.signal v
    r.1.noteSats r.2
  else s

/-- Send every held signal that can be sent now. -/
def State.vecsRelease (s : State) : State := foldSt (fun v (s : State) => s.vecRelease v) (SMap.keys s.evt.vecs) s

/-- Set or clear the mask bit of a vector. -/
def State.vecMask (s : State) (v : Nat) (on : Bool) : State :=
  if v < 512 then
    State.vecRelease
      { s with pcie := { s.pcie with vecOpen := if on then removeNat s.pcie.vecOpen v else addNat s.pcie.vecOpen v } } v
  else s

/-- MSIX_UNMASK: the service host changes an enable or a mask bit; held signals that can be sent are sent. -/
def execMsixUnmask (k : MsixOp) (s : State) : Res :=
  .next (match k with
    | .enable on => State.vecsRelease { s with pcie := { s.pcie with msixEn := on } }
    | .busMaster on => State.vecsRelease { s with pcie := { s.pcie with busMaster := on } }
    | .mask v on => s.vecMask v on)

/-! Errors (R453). -/

/-- An error is reported through AER. -/
def State.aerReport (s : State) (e : TlpErr) : State :=
  { s with pcie := { s.pcie with aer := if s.pcie.aer.contains e then s.pcie.aer else s.pcie.aer ++ [e] } }

/-- An uncorrectable error at a BAR4 offset that the device read: the packet at HEAD is rejected, HEADER for an error in its
header and LENGTH for one in its payload. -/
def State.ringError (s : State) (off : Nat) : State :=
  if s.h2dLive then
    let h := s.h2dHead
    let r :=
      if h ≤ off ∧ off < h + 64 then s.pktReject mxHeader true
      else if s.judge = .pass ∧ h + 64 ≤ off ∧ off < h + extent s.pktAt.len then s.pktReject mxLength false
      else none
    (r.map State.h2dRead).getD s
  else s

/-- PCIE_TLP_ERROR (R453). A poisoned write into an OPEN bank clears the map bit of the block it touches. -/
def execPcieTlpError (e : TlpErr) (bar off : Nat) (s : State) : Res :=
  .next (
    let s := s.aerReport e
    match e with
    | .poisoned =>
      let b := off / bankBytes
      if bar = 2 ∧ b < 2 ∧ s.bankState b = 1 then s.blockSet b (off % bankBytes / 65536) false else s
    | .internal => if bar = 4 then s.ringError off else s
    | _ => s)

/-! I2C (R464, R465). -/

/-- Valid logbook records of a severity. -/
def State.recsOf (s : State) (sev : Nat) : Nat := (s.log.recs.filter (fun p => decide (p.2.sev = sev))).length

/-- Highest SEV among valid records. -/
def State.maxSev (s : State) : Nat := s.log.recs.foldl (fun m p => max m p.2.sev) 0

/-- The fields of R465 of one byte or more: first offset and contents. -/
def State.i2cFields (s : State) : List (Nat × List Byte) :=
  [ (0x00, leBytes 1 0xD7),
    (0x01, leBytes 1 s.fuse.variant.code),
    (0x02, leBytes 1 (s.fuse.step % 16)),
    (0x03, leBytes 1 (s.life.code + 16 * s.headId)),
    (0x04, leBytes 1 (b2n (decide (s.life = .brace)) + 2 * s.rd F.PWR_THERM_GUARD + 4 * s.rd F.PWR_THERM_TRIP +
      8 * s.rd F.GLB_STATE_FAULT + 16 * s.rd F.TRN_STATUS_PARTNER_LATE + 32 * s.rd F.TRN_STATUS_PARTNER_LOSS +
      64 * b2n s.log.calValid)),
    (0x05, leBytes 2 s.tj16),
    (0x07, leBytes 1 (s.rd F.PWR_RST_CAUSE_CAUSE)),
    (0x08, leBytes 4 s.log.boots),
    (0x0C, leBytes 2 s.log.recs.length),
    (0x0E, leBytes 1 s.maxSev),
    (0x10, leBytes 4 (s.recsOf 2)),
    (0x14, leBytes 4 (s.recsOf 3)),
    (0x18, leBytes 2 (s.rd F.PWR_AVS_CUR_MV)),
    (0x1A, leBytes 2 (s.rd F.GLB_FWSTATE_CODE)),
    (0x1C, leBytes 4 0),
    (0x20, leBytes 8 s.calNow),
    (0x28, leBytes 8 (s.now / 1000)),
    (0x30, s.serialBytes) ]

/-- The field that holds an offset. -/
def State.i2cField (s : State) (p : Nat) : Option (Nat × List Byte) :=
  s.i2cFields.find? (fun f => decide (f.1 ≤ p ∧ p < f.1 + f.2.length))

/-- The byte a read at the pointer returns, and the snapshots after it (R464): a read of a field's first byte takes one, and the
other bytes come from it. A byte of a field that has no snapshot yet reads as it stands (assumption log 28). -/
def State.i2cByte (s : State) (p : Nat) : Byte × SMap (List Byte) :=
  match s.i2cField p with
  | none => (0, s.i2c.snap)
  | some f =>
    if p = f.1 then (f.2.headD 0, SMap.put s.i2c.snap f.1 f.2)
    else ((SMap.findD s.i2c.snap f.1 f.2).getD (p - f.1) 0, s.i2c.snap)

/-- I2C_WRITE: the first byte sets the pointer; further bytes are answered with NAK and ignored. -/
def execI2cWrite (data : List Byte) (s : State) : Res :=
  .next (
    match data with
    | b :: _ => if s.pins.aon then { s with i2c := { s.i2c with ptr := b.toNat } } else s
    | [] => s)

/-- I2C_READ_BYTE. -/
def execI2cReadByte (s : State) : Res :=
  .next (
    if s.pins.aon then
      let r := s.i2cByte s.i2c.ptr
      State.emit { s with i2c := { ptr := (s.i2c.ptr + 1) % 256, snap := r.2 } } (.i2c r.1)
    else s)

/-- I2C_SCL_TIMEOUT: the target resets its state. -/
def execI2cSclTimeout (s : State) : Res := .next { s with i2c := { ptr := 0, snap := [] } }

end Sys2Proof.Machine
end

