-- ==== Sys2Proof/Machine/Journal.lean ====
section
/-! DEFINITION. The journal engine (chapter 6): appends, retire marks, control and start. The flush to the vault areas stands
in `Vault areas`, Flush.lean. -/

namespace Sys2Proof.Machine

/-- A record with the engine's fields filled (R173): FLAGS.SINGLE, JOFF, and CHECK over the record with FLAGS and CHECK 0. -/
def fillRecord (rec : List Byte) (single : Bool) (joff : Nat) : List Byte :=
  let body := rec.take 1 ++ leBytes 1 0 ++ (rec.drop 2).take 6 ++ leBytes 8 joff ++ (rec.drop 16).take 32 ++ leBytes 8 0 ++ rec.drop 56
  body.take 1 ++ leBytes 1 (2 * b2n single) ++ (body.drop 2).take 46 ++ leBytes 8 (crc64 body) ++ body.drop 56

/-- A PAD record of a length. -/
def padRecord (len : Nat) : List Byte := leBytes 1 0x0F ++ leBytes 3 0 ++ leBytes 4 len ++ List.replicate (len - 8) 0

/-- Write a record at HEAD of the own ring, and advance HEAD. -/
def State.ringPut (s : State) (rec : List Byte) : State :=
  let h := s.rd F.JRN_HEAD_JOFF
  (s.setBytes (ringAddr s.jrnBase h) rec).wr F.JRN_HEAD_JOFF (h + rec.length)

/-- Bytes left up to the end of the ring when a record would straddle it (R172); 0 when it fits. -/
def padNeed (head len : Nat) : Nat := if ringBytes < head % ringBytes + len then ringBytes - head % ringBytes else 0

/-- The head no longer takes appends (R190 step 4). -/
def State.jrnFrozen (s : State) : Bool := decide (s.life = .vaulting ∨ s.life = .down)

/-- Is a job on a journal queue pair? -/
def State.jrnOp (s : State) (op : Nat) (j : Job) : Bool := isOp op j && s.isJrnQp (j.fld 2 2)

/-- Put a PAD record, and mirror it. -/
def State.putPad (s : State) (n : Nat) : State :=
  if n = 0 then s
  else
    let h := s.rd F.JRN_HEAD_JOFF
    let rec' := fillRecord (padRecord n) (s.flag F.JRN_CTL_SINGLE) h
    let s := (s.ringPut rec').advTail
    if s.flag F.JRN_CTL_SINGLE then s else s.qpSend s.jrnQp .copy false 1 (h % ringBytes) (s.rd F.JRN_RKEY_RKEY) 0 rec'

/-- An append whose buffer has been read (R175, R185). -/
def State.append (s : State) (j : Job) (d : List Byte) : JobDo :=
  let len := d.length
  let type := lfld d 0 1
  let head := s.rd F.JRN_HEAD_JOFF
  let pad := padNeed head len
  if type < 1 ∨ 4 < type ∨ lfld d 4 4 ≠ len ∨ len % 64 ≠ 0 then .bad s
  else if ringBytes < head + pad + len - s.rd F.JRN_TAIL_JOFF then .done (s.ctr F.JRN_NO_SPACE_CTR) 0 (.st stNoSpace)
  else
    let single := s.flag F.JRN_CTL_SINGLE
    let s := s.putPad pad
    let joff := head + pad
    let rec' := fillRecord d single joff
    let s := s.ringPut rec'
    if single then .done ((s.ctr F.JRN_APPENDS_CTR).jrnEval) (j.fld 8 8) { status := stDone, aux := 0, result := joff }
    else .taken ((s.qpSend s.jrnQp (.append j joff) false 1 (joff % ringBytes) (s.rd F.JRN_RKEY_RKEY) 0 rec').jrnEval)

/-- What the state of the queue pair says to an append: nothing under the single-head rule. -/
def State.jrnGate (s : State) : Option (Nat × Nat) := if s.flag F.JRN_CTL_SINGLE then none else s.qpGate s.jrnQp

/-- The engine cannot read an append's buffer: MEM_UNCORR, and outside the single-head rule the queue pair goes to ERROR (R97, R338). -/
def State.jrnUnread (s : State) : State :=
  let s := s.memEvent 0x0A 0
  if s.flag F.JRN_CTL_SINGLE then s else s.qpUnread s.jrnQp

/-- An append (R175). -/
def jrnAppend (j : Job) (s : State) : JobDo :=
  if s.jrnFrozen then .done s 0 (.st stRefused)
  else if !s.flag F.JRN_CTL_EN ∨ j.fld 24 8 ≠ 0 ∨ j.fld 32 4 ≠ 0 ∨ j.fld 4 4 < 64 then .bad s
  else
    match s.jrnGate with
    | some (st, aux) => .done s 0 { status := st, aux := aux, result := 0 }
    | none =>
      match s.unitRead (hAddr (j.fld 8 8) (j.fld 16 4)) (j.fld 4 4) with
      | (s, none) => .done (s.jrnUnread) 0 .memErr
      | (s, some d) => s.append j d

/-- An append job at the head of a Transom ring. -/
def execJournalAppend (cl : Nat) (s : State) : Res := .next (s.runJob 0x0A 0 cl (s.jrnOp 1) trnCheck jrnAppend)

/-- A retire mark (R177, R178, R185). -/
def jrnRetire (j : Job) (s : State) : JobDo :=
  let joff := j.fld 24 8
  if s.jrnFrozen then .done s 0 (.st stRefused)
  else if j.fld 4 4 ≠ 0 ∨ j.fld 20 4 ≠ 0 ∨ j.fld 32 4 ≠ 0 ∨ !s.jrnRecs.contains joff then .bad s
  else if s.recRetired s.jrnBase joff then .done s 0 (.st stDone)
  else
    match s.jrnGate with
    | some (st, aux) => .done s 0 { status := st, aux := aux, result := 0 }
    | none =>
      let s' := ((s.setRetired s.jrnBase joff).ctr F.JRN_RETIRES_CTR).advTail.jrnEval
      if s.flag F.JRN_CTL_SINGLE then .done s' 0 (.st stDone)
      else .taken (s'.qpSend s'.jrnQp (.retire j) false 2 joff (s.rd F.JRN_RKEY_RKEY) 0 [])

/-- A retire mark at the head of a Transom ring. -/
def execJournalRetireMark (cl : Nat) (s : State) : Res := .next (s.runJob 0x0A 0 cl (s.jrnOp 2) trnCheck jrnRetire)

/-- A store to `JRN_CTL`: EN cannot be set until `JRN_BASE` is written; with SINGLE no SEG.OPEN waits for the partner (R265). -/
def State.jrnCtl (s : State) (v : Nat) : State :=
  let en := bitsOf v 0 1
  let s := if en = 0 ∨ s.locked.contains F.JRN_BASE_ADDR.off then s.wr F.JRN_CTL_EN en else s
  let s := ((s.wr F.JRN_CTL_SINGLE (v >>> 1)).wr F.JRN_CTL_QP0 (v >>> 8)).wr F.JRN_CTL_QP1 (v >>> 20)
  let s := (s.wr F.JRN_CTL_VAULT_MIN (v >>> 32)).jrnEval
  if s.flag F.JRN_CTL_SINGLE then foldSt (fun (o : PendOpen) (s : State) => s.openAcked o.band) s.seg.opens s else s

/-- A store to `JRN_CTL` (R185). -/
def execJrnCtlWrite (v : Nat) (s : State) : Res := .next (s.jrnCtl v)

/-- A store to `JRN_START` (R194): ignored while EN is 1. -/
def State.jrnStart (s : State) (v : Nat) : State :=
  if s.flag F.JRN_CTL_EN then s
  else
    let j := v / 64 * 64
    (((s.wr F.JRN_START_JOFF (v / 64)).wr F.JRN_HEAD_JOFF j).wr F.JRN_TAIL_JOFF j).jrnEval

/-- A store to `JRN_START`. -/
def execJrnStartWrite (v : Nat) (s : State) : Res := .next (s.jrnStart v)

end Sys2Proof.Machine
end

