-- ==== Sys2Proof/Machine/Flush.lean ====
section
/-! DEFINITION. Power failure and the flush to the vault areas (R188 to R191, R426, R476). -/

namespace Sys2Proof.Machine

/-- Armed areas whose entry the flush writes. -/
def State.vaultAreas (s : State) : List Nat := (List.range 4).filter (fun a => s.flag F.JRN_VAULT_ARMED a)

/-- The head goes to VAULTING and the flush begins (R190 steps 1 to 4): a BRACE episode ends there (R425), its held requests
are refused (R126). -/
def State.vaultStart (s : State) : State :=
  if s.life = .active ∨ s.life = .brace ∨ s.life = .handover then
    let brace := decide (s.life = .brace)
    let long := match s.pwr.warnAt with
      | some t => decide (50000 < s.now - t)
      | none => false
    let s := if brace then s.episodeEnd else s
    let s := s.moveLife .vaulting
    let s := if brace then
        State.braceVault (if long then { s with prms := s.prms.map (fun q => (q.1, q.2.dipped)) } else s)
      else s
    let s := { s with pwr := { s.pwr with flush := some (s.now, s.calNow, false) } }
    foldSt (fun a (s : State) => (s.wr F.JRN_VAULT_STATE 1 a).wr F.JRN_VAULT_PAGES 0 a) s.vaultAreas s
  else s

/-- PFAIL_FALL (R426, R476): latched and recorded; in ACTIVE, BRACE and HANDOVER it starts the flush, but not while HEAD_RST_N
is low. -/
def execPfailFall (s : State) : Res :=
  .next (
    if s.pins.aon = false ∨ s.flag F.PWR_VMON_PFAIL_SEEN = true then s
    else
      let s := (s.setFlag F.PWR_VMON_PFAIL_SEEN).clrFlag F.PWR_VMON_PFAIL_N
      let s := { s with pwr := { s.pwr with pfailAt := some s.now } }
      let s := s.note 0x016 s.life.code
      if s.pins.headRstN then s.vaultStart else s)

/-- Is a message an append that waits for the partner? -/
def TxMsg.isAppend (m : TxMsg) : Bool :=
  match m.src with
  | .append _ _ => true
  | _ => false

/-- An append that no acknowledgement has ended completes MEDIA_TIMEOUT; its record stays in the ring (R190 step 4). -/
def TxMsg.timeOut (m : TxMsg) : TxMsg :=
  match m.src with
  | .append _ _ => { m with src := .copy }
  | _ => m

/-- VAULT_APPEND_TIMEOUT: 100 µs after the flush began. -/
def execVaultAppendTimeout (s : State) : Res :=
  .next (
    match s.life, s.pwr.flush with
    | .vaulting, some (t, c, false) =>
      if t + 100000 ≤ s.now then
        let ms := (SMap.vals s.trn.qps).flatMap (fun q => q.msgs)
        let s := foldSt (fun (m : TxMsg) (s : State) =>
          match m.src with
          | .append j _ => s.complete j 0 0 (.st stMediaTmo)
          | _ => s) ms s
        { s with trn := { s.trn with qps := s.trn.qps.map (fun p => (p.1, { p.2 with msgs := p.2.msgs.map TxMsg.timeOut })) }
                 pwr := { s.pwr with flush := some (t, c, true) } }
      else s
    | _, _ => s)

/-! The pages of an area (R188, R189). -/

/-- The live records of the own ring: neither RETIRED nor PAD, in JOFF order. -/
def State.vaultJoffs (s : State) : List Nat :=
  s.jrnRecs.filter (fun j => !s.recRetired s.jrnBase j && decide (s.recType s.jrnBase j ≠ 0x0F))

/-- A record as the flush writes it: with CHECK inverted when HBM cannot be read (R191). -/
def State.vaultRec (s : State) (j : Nat) : List Byte :=
  let n := s.recLen s.jrnBase j
  let a := ringAddr s.jrnBase j
  let d := s.bytes a n
  if s.badIn a n then d.take 48 ++ ((d.drop 48).take 8).map (fun b => ~~~b) ++ d.drop 56 else d

/-- Cut bytes into pages, the last one padded with zeros. -/
def pagesOf : Nat → List Byte → List (List Byte)
  | 0, _ => []
  | n + 1, d =>
    if d = [] then []
    else
      let p := d.take pageBytes
      (p ++ List.replicate (pageBytes - p.length) 0) :: pagesOf n (d.drop pageBytes)

/-- A page from its fields. -/
def padPage (d : List Byte) : List Byte := d ++ List.replicate (pageBytes - d.length) 0

/-- The header page of an area. -/
def State.vaultHeader (s : State) (a live cal : Nat) : List Byte :=
  let f := leBytes 8 0x544C5541564E4644 ++ leBytes 1 s.headId ++ leBytes 1 a ++ leBytes 2 (s.rd F.NML_EPOCH_EPOCH) ++
    leBytes 4 (s.rd F.JRN_VGEN_VGEN) ++ leBytes 8 (s.rd F.JRN_TAIL_JOFF) ++ leBytes 8 (s.rd F.JRN_HEAD_JOFF) ++
    leBytes 8 live ++ leBytes 8 cal
  padPage (f ++ leBytes 8 (crc64 f))

/-- The commit page. -/
def State.vaultCommit (s : State) (js : List Nat) (recs : List (List Byte)) (pages : Nat) : List Byte :=
  let f := leBytes 8 0x54494D4F434E4644 ++ leBytes 4 (s.rd F.JRN_VGEN_VGEN) ++ leBytes 4 recs.length ++ leBytes 8 pages ++
    leBytes 8 (js.getLast?.getD 0) ++ leBytes 8 (crc64 (recs.flatMap (fun r => (r.drop 48).take 8)))
  padPage (f ++ leBytes 8 (crc64 f))

/-- Where area page `p` lies: own die, erase unit, page (R188). -/
def State.vaultPlace (s : State) (p : Nat) : Nat × Nat × Nat :=
  let q := p / 128
  let ppe := s.rd F.JRN_VGEOM_PPE
  (s.physDie (p % 128), q / ppe, q % ppe)

/-- The pages of an area in order: header, records, commit (R188). -/
def State.vaultPages (s : State) (a cal : Nat) : List (List Byte) :=
  let js := s.vaultJoffs
  let recs := js.map s.vaultRec
  let all := recs.flatten
  let body := pagesOf (ceilDiv all.length pageBytes) all
  s.vaultHeader a all.length cal :: body ++ [s.vaultCommit js recs body.length]

/-- STATE of an area that has `done` of its `n` pages: HEADER, RECORDS, COMMIT, DONE. -/
def vaultState (done n : Nat) : Nat := if done = 0 then 1 else if done + 1 < n then 2 else if done < n then 3 else 4

/-- An area stops and is FAILED (R191). -/
def State.vaultFail (s : State) (a : Nat) : State := ((s.wr F.JRN_VAULT_STATE 5 a).setFlag F.JRN_VAULT_FAIL a).raise 0x064 a

/-- Areas of the flush that are neither DONE nor FAILED. -/
def State.vaultOpen (s : State) : List Nat := s.vaultAreas.filter (fun a => decide (s.rd F.JRN_VAULT_STATE a < 4))

/-- Program the next page of an area: false when a LEASE_STALE stops the flush. A page beyond the vault reserve cannot be written. -/
def State.vaultStep (s : State) (a cal : Nat) (bad : List (Nat × Nat)) : State × Bool :=
  let pages := s.vaultPages a cal
  let p := s.rd F.JRN_VAULT_PAGES a
  let (die, eu, page) := s.vaultPlace p
  if s.rd F.JRN_VGEOM_NEU ≤ eu then (s.vaultFail a, true)
  else
    match s.mediaProgram (s.rd F.JRN_VAULT_SLED a) die eu page true (bad.contains (a, p)) (pages[p]?.getD []) with
    | .ok s => ((s.wr F.JRN_VAULT_PAGES (p + 1) a).wr F.JRN_VAULT_STATE (vaultState (p + 1) pages.length) a, true)
    | .fail s => (s.vaultFail a, true)
    | .refused s => (s.vaultFail a, true)
    | .stale s => ((s.vaultFail a).staleDown (s.rd F.JRN_VAULT_SLED a), false)

/-- The next page of every area of a list, each on its own lane; a LEASE_STALE stops them all where they stand (R191). -/
def State.vaultRound (s : State) (cal : Nat) (bad : List (Nat × Nat)) : List Nat → State × Bool
  | [] => (s, true)
  | a :: rest =>
    let r := s.vaultStep a cal bad
    if r.2 then State.vaultRound r.1 cal bad rest else r

/-- The domains put in OFF when a flush ends in DOWN (R426). -/
def State.flushDomains (s : State) (octads : List Nat) : State :=
  foldSt (fun d (s : State) =>
    if s.domPresent d && (decide (3 ≤ d ∧ d ≤ 39) || decide (44 ≤ d ∧ d ≤ 59) || decide (d = 61 ∨ d = 62)) &&
        !octads.contains d then s.domOff d else s) (List.range 64) s

/-- The flush has ended: its areas are disarmed; a PIN reset that waited takes effect (R476). `down` says that it ended by itself: DOWN, the
logbook committed, the domains it does not need OFF (R190 step 8, R426). -/
def State.flushOver (s : State) (down : Bool) : State :=
  let areas := s.vaultAreas
  let octads := areas.map (fun a => 52 + s.rd F.JRN_VAULT_SLED a / 8)
  let s := foldSt (fun a (s : State) => s.clrFlag F.JRN_VAULT_ARMED a) areas { s with pwr := { s.pwr with flush := none } }
  let s := if down then s.goDown.logSettle.flushDomains octads else s.logSettle
  if s.pwr.pinWait then s.coldReset 1 else s

/-- VAULT_FLUSH_COMPLETE (R188 to R191): the areas go on side by side, by a page each time; when none is left the flush ends (DESIGN CHOICE,
assumption log 46). It waits for the appends to end. `bad` names area pages whose program fails. -/
def State.flushEnd (s : State) (bad : List (Nat × Nat)) : State :=
  match s.life, s.pwr.flush with
  | .vaulting, some (_, cal, ended) =>
    if !ended && (SMap.vals s.trn.qps).any (fun q => q.msgs.any TxMsg.isAppend) then s
    else if s.vaultOpen.isEmpty then s.flushOver true
    else
      let r := s.vaultRound cal bad s.vaultOpen
      if r.2 then r.1 else State.flushOver r.1 false
  | _, _ => s

/-- VAULT_FLUSH_COMPLETE. -/
def execVaultFlushComplete (bad : List (Nat × Nat)) (s : State) : Res := .next (s.flushEnd bad)

end Sys2Proof.Machine
end

