-- ==== Sys2Proof/Machine/Power.lean ====
section
/-! DEFINITION. Start-up, clocks, supplies, temperature and the lifecycle commands (R22, R23, R412 to R428, R474 to R477, R486,
R488). -/

namespace Sys2Proof.Machine

/-! Start (R13, R23, R388, R413, R414, R421, R474). -/

/-- COLD_RESET_RELEASE: head reset is released in COLD with HEAD_RST_N high. Device time starts at 0, HEAD_ID is sampled, the
boot ROM reads the OTP array (R388), the random source starts, the Transom's KEYTAG is drawn, LOG_BOOTS counts, and RESET_CAUSE
is posted. -/
def execColdResetRelease (id : Nat) (otpOk : Bool) (s : State) : Res :=
  .next (
    if s.life = .cold ∧ s.pins.aon = true ∧ s.pwr.released = false ∧ s.pwr.thermHold = false then
      let s := { s with now := 0, headId := id % 2, pins := { s.pins with headIdPin := id % 2, headRstN := true }
                        pwr := { s.pwr with released := true }
                        log := { s.log with boots := min (2 ^ 32 - 1) (s.log.boots + 1) } }
      let s := (s.wr F.GLB_STATE_HEAD_ID (id % 2)).setFlag F.VLT_STATUS_RNG_OK
      let s := State.nextFree (s.wr F.TRN_KEYTAG_KEYTAG ((Config.random s.freeCtr).toNat % 4096))
      let s := if otpOk then s else s.setFlag F.VLT_STATUS_OTP_ERR
      s.note 0x006 (s.rd F.PWR_RST_CAUSE_CAUSE)
    else s)

/-- ROOT_PLL_LOCK. -/
def execRootPllLock (s : State) : Res :=
  .next (if s.pwr.released then (s.setFlag F.CLK_STATUS_ROOT_LOCK).setFlag F.CLK_STATUS_REF_OK else s)

/-- BOOT_ENTRY: supplies good, clocks locked, boot ROM finished without an OTP error, HBM trained. -/
def execBootEntry (s : State) : Res :=
  .next (
    if s.life = .cold ∧ s.pwr.released = true ∧ s.flag F.CLK_STATUS_ROOT_LOCK = true ∧ s.rd F.PWR_VMON_PG = 31 ∧
        s.flag F.VLT_STATUS_OTP_ERR = false then (s.setFlag F.VLT_STATUS_READY).moveLife .boot
    else s)

/-- SUPPLY_GOOD_HIGH: the five inputs are high. -/
def execSupplyGoodHigh (s : State) : Res := .next (if s.pins.aon then s.wr F.PWR_VMON_PG 31 else s)

/-- PG_LOW (R421): input `k` low for 1 µs; a cold reset once the head has left COLD. -/
def execPgLow (k : Nat) (s : State) : Res :=
  .next (
    if k < 5 ∧ s.pins.aon = true then
      let s := s.wr F.PWR_VMON_PG (maskOff (s.rd F.PWR_VMON_PG) (2 ^ k))
      if s.life = .cold then s else s.coldReset 4
    else s)

/-- REF_CLOCK_LOSS (R414). -/
def execRefClockLoss (s : State) : Res :=
  .next (
    if s.pwr.released then
      State.coldReset ((s.clrFlag F.CLK_STATUS_ROOT_LOCK).clrFlag F.CLK_STATUS_REF_OK) 5
    else s)

/-- HEAD_RST_PIN (R428, R476): low for 10 µs. In VAULTING the reset waits until the flush reaches DOWN or 35 ms after PFAIL_N
fell. A pulse below 140 °C ends the hold of a thermal shutdown (R427). -/
def execHeadRstPin (s : State) : Res :=
  .next (
    if s.pins.aon then
      let s := { s with pins := { s.pins with headRstN := false } }
      let late := match s.pwr.pfailAt with
        | some t => decide (t + 35000000 ≤ s.now)
        | none => false
      if s.life = .vaulting ∧ s.pwr.flush.isSome ∧ late = false then { s with pwr := { s.pwr with pinWait := true } }
      else
        let cool := decide (sextInt 11 (s.rd F.PWR_THERM_TJ) < 560)
        let s := if cool then { s with pwr := { s.pwr with thermHold := false } } else s
        s.coldReset 1
    else s)

/-- VDD_AON_POWER_ON (R428): a cold start with cause POWER_ON; the logbook's RAM copy is read back from the memory; calendar
time is invalid when VBAT_RTC is below 2.5 V (R441); VID drives the code for 0.75 V (R431). -/
def execVddAonPowerOn (vbat : Bool) (s : State) : Res :=
  .next (
    let log := { s.log with recs := s.log.nv, calValid := s.log.calValid && vbat }
    let s := { s with log := log, pins := { s.pins with aon := true, vbat := vbat, headRstN := false }
                      pwr := { s.pwr with thermHold := false, rtcSince := none } }
    let s := s.wiped 0
    let s := ((s.clrFlag F.CLK_STATUS_RTC_OK).wr F.PWR_VMON_PG 0).setFlag F.PWR_VMON_PFAIL_N
    (s.wr F.PWR_RST_CAUSE_WARM_SINCE 0).emit (.pin .vid 20))

/-- VDD_AON_LOSS (R486, R488, R448): everything but the sleds, OTP, the logbook's memory and, with VBAT_RTC, calendar time is
lost. A commit in progress leaves its record as it was before or as it was after. -/
def execVddAonLoss (vbat : Bool) (s : State) : Res :=
  .next (
    if s.pins.aon then
      let nv := match s.log.commit with
        | some (i, _, r) => if s.freeBool then SMap.put s.log.nv i r else s.log.nv
        | none => s.log.nv
      let s := s.nextFree
      let s := { s with log := { s.log with nv := nv, recs := nv, calValid := s.log.calValid && vbat } }
      let s := s.pinsCold.wiped (s.rd F.PWR_RST_CAUSE_CAUSE)
      let s := { s with pins := { s.pins with aon := false, vbat := vbat, headRstN := false }, i2c := { ptr := 0, snap := [] } }
      if vbat then s else State.clrFlag { s with pwr := { s.pwr with rtcSince := none } } F.CLK_STATUS_RTC_OK
    else s)

/-- REF_PPM_WINDOW (R477): the reference measured over 125 ms against the crystal, in 0.1 ppm. -/
def execRefPpmWindow (ppm : Int) (s : State) : Res :=
  .next (
    if s.flag F.CLK_STATUS_RTC_OK ∧ s.pwr.released = true then
      let w := (BitVec.ofInt 16 ppm).toNat
      let s := s.wr F.CLK_REF_PPM_PPM w
      if 5000 < ppm ∨ ppm < -5000 then (s.setFlag F.CLK_STATUS_REF_PPM_ERR).note 0x017 w else s
    else s)

/-! Supplies (R422 to R425). -/

/-- The level a monitor compares with: the set point the thresholds follow, or 0.80 V. -/
def State.nominal (s : State) (sram : Bool) : Nat := if sram then 800 else s.pwr.thrMv

/-- The warning flag of a rail. -/
def warnFld (sram : Bool) : Fld := if sram then F.PWR_VMON_SRAM_WARN else F.PWR_VMON_CORE_WARN

/-- Record the voltage sampled on a rail; VDD_CORE counts for the episode's minimum. -/
def State.sampleMv (s : State) (sram : Bool) (mv : Nat) : State :=
  if sram then { s with pwr := { s.pwr with sramMv := mv } }
  else { s with pwr := { s.pwr with coreMv := mv, epMin := if s.pwr.warnAt.isSome then min s.pwr.epMin mv else s.pwr.epMin } }

/-- CORE_WARN_ASSERT (R423, R424): a rail below 95 % for 50 ns. The first warning starts an episode; ACTIVE becomes BRACE. -/
def execCoreWarnAssert (sram : Bool) (mv : Nat) (s : State) : Res :=
  .next (
    if s.pwr.released = true ∧ 100 * mv < 95 * s.nominal sram ∧ s.flag (warnFld sram) = false then
      let s := (s.sampleMv sram mv).setFlag (warnFld sram)
      match s.pwr.warnAt with
      | some _ => s
      | none =>
        let s := { s with pwr := { s.pwr with warnAt := some s.now, epMin := min 1023 s.pwr.coreMv } }
        if s.life = .active then State.moveLife { s with braceAt := some s.now } .brace else s
    else s)

/-- Stripes whose programs a BRACE held are sent. -/
def State.flightsSent (s : State) : State :=
  { s with seg := { s.seg with streams := s.seg.streams.map (fun p =>
      (p.1, ({ p.2 with flight := p.2.flight.map (fun f => { f with sent := true }) } : SegStream))) } }

/-- CORE_WARN_RELEASE (R423 to R425): a rail above 96 % for 1 µs; `low` is the lowest VDD_CORE sampled meanwhile. The last
warning to release ends the episode; BRACE becomes ACTIVE, and what was held goes on. -/
def execCoreWarnRelease (sram : Bool) (mv low : Nat) (s : State) : Res :=
  .next (
    if s.flag (warnFld sram) = true ∧ 96 * s.nominal sram < 100 * mv then
      let s := (State.sampleMv (s.sampleMv false (if sram then s.pwr.coreMv else low)) sram mv).clrFlag (warnFld sram)
      let s := { s with pwr := { s.pwr with epMin := min s.pwr.epMin low } }
      if s.flag F.PWR_VMON_CORE_WARN || s.flag F.PWR_VMON_SRAM_WARN then s
      else
        let d := match s.pwr.warnAt with
          | some t => s.now - t
          | none => 0
        let s := s.episodeEnd
        if s.life = .brace then ((s.moveLife .active).braceExit d).flightsSent else s
    else s)

/-- CORE_RESET_LEVEL (R423): a rail below 92 % for 50 ns. -/
def execCoreResetLevel (sram : Bool) (mv : Nat) (s : State) : Res :=
  .next (if s.pwr.released = true ∧ 100 * mv < 92 * s.nominal sram then (s.sampleMv sram mv).coldReset 3 else s)

/-- The fused lowest set point, not below the range's. -/
def State.fuseMv (s : State) : Nat := max 650 s.fuse.fuseMv

/-- VID moves one code towards the set point (R422). -/
def State.vidStep (s : State) : State :=
  let cur := s.rd F.PWR_AVS_CUR_MV
  let goal := s.rd F.PWR_AVS_SET_MV
  let s := if cur = goal then s
    else
      let c := if cur < goal then cur + 5 else cur - 5
      (s.wr F.PWR_AVS_CUR_MV c).emit (.pin .vid ((c - 650) / 5))
  { s with pwr := { s.pwr with stepAt := s.now, avsBusy := decide (s.rd F.PWR_AVS_CUR_MV ≠ goal), settling := true } }

/-- A store of `PWR_AVS` (R422): the set point in 5 mV steps between FUSE_MV and 850; the first code is sent with it. The
thresholds follow the lower of the old and the new set point. -/
def State.avsStore (s : State) (v : Nat) : State :=
  let new := max s.fuseMv (min 850 (bitsOf v 0 10 / 5 * 5))
  let old := s.rd F.PWR_AVS_SET_MV
  let s := ((s.wr F.PWR_AVS_SET_MV new).wr F.PWR_AVS_STEP_US (v >>> 42)).wr F.PWR_AVS_SETTLE_US (v >>> 48)
  State.vidStep { s with pwr := { s.pwr with thrMv := min old new } }

/-- PWR_AVS_WRITE. -/
def execPwrAvsWrite (v : Nat) (s : State) : Res := .next (s.avsStore v)

/-- VID_STEP: STEP_US after the last code, while the set point is not reached. -/
def execVidStep (s : State) : Res :=
  .next (
    if s.pwr.avsBusy = true ∧ s.pwr.stepAt + 1000 * max 1 (s.rd F.PWR_AVS_STEP_US) ≤ s.now then s.vidStep else s)

/-- AVS_SETTLE: SETTLE_US after the last code the thresholds follow the new set point. -/
def execAvsSettle (s : State) : Res :=
  .next (
    if s.pwr.settling = true ∧ s.pwr.avsBusy = false ∧ s.pwr.stepAt + 1000 * s.rd F.PWR_AVS_SETTLE_US ≤ s.now then
      { s with pwr := { s.pwr with settling := false, thrMv := s.rd F.PWR_AVS_SET_MV } }
    else s)

/-- `PWR_VMIN`.REARM (R425). -/
def State.vminRearm (s : State) : State := s.wr F.PWR_VMIN_MV 1023

/-- PWR_VMIN_REARM. -/
def execPwrVminRearm (s : State) : Res := .next s.vminRearm

/-! Temperature (R427). -/

/-- THERM_N is low while the guard stands or the trip is latched. -/
def State.thermLow (s : State) : Bool := s.flag F.PWR_THERM_GUARD || s.flag F.PWR_THERM_TRIP

/-- A promise whose interval a guard episode overlaps (R125). -/
def Promise.heated (p : Promise) : Promise := if p.st = .live ∨ p.st = .paused then { p with therm := true } else p

/-- The warning level: quarter degrees. -/
def State.warnQuarters (s : State) : Int := 4 * (min 150 (s.rd F.PWR_THERM_WARN_C) : Nat)

/-- The warning follows a reading. -/
def State.thermWarn (s : State) (tj : Int) (v : Nat) : State :=
  if s.flag F.PWR_THERM_WARN then (if tj < s.warnQuarters - 8 then s.clrFlag F.PWR_THERM_WARN else s)
  else if s.warnQuarters ≤ tj then (s.setFlag F.PWR_THERM_WARN).note 0x012 v
  else s

/-- The guard follows a reading. -/
def State.thermGuard (s : State) (tj : Int) (v : Nat) : State :=
  if s.flag F.PWR_THERM_GUARD then
    if tj < 600 then
      let us := (s.now - s.pwr.guardAt.getD s.now) / 1000
      (State.clrFlag { s with pwr := { s.pwr with guardAt := none } } F.PWR_THERM_GUARD).note 0x014 us
    else s
  else if 608 ≤ tj then
    let s := { s with pwr := { s.pwr with guardAt := some s.now }, prms := s.prms.map (fun (q : Nat × Promise) => (q.1, q.2.heated)) }
    ((s.setFlag F.PWR_THERM_GUARD).ctr F.PWR_GUARD_EPISODES_CTR).note 0x013 v
  else s

/-- The trip, latched until the next cold reset. -/
def State.thermTrip (s : State) (tj : Int) (v : Nat) : State :=
  if s.flag F.PWR_THERM_TRIP = false ∧ 632 ≤ tj then ((s.setFlag F.PWR_THERM_TRIP).note 0x015 v).vaultStart else s

/-- THERM_SAMPLE: TJ in quarter degrees and the sensor that gave it. -/
def execThermSample (tj : Int) (sensor : Nat) (s : State) : Res :=
  .next (
    if s.pins.aon then
      let t := max (-1024) (min 1023 tj)
      let s := (s.wr F.PWR_THERM_TJ (BitVec.ofInt 11 t).toNat).wr F.PWR_THERM_HOT_SENSOR sensor
      if s.pwr.released then
        let v := (BitVec.ofInt 32 t).toNat
        let was := s.thermLow
        let s := ((s.thermWarn t v).thermGuard t v).thermTrip t v
        if s.thermLow = was then s else s.emit (.pin .thermN (b2n was))
      else s
    else s)

/-- THERM_SHUTDOWN: TJ at 165 °C or more; the device stays in reset (R427). -/
def execThermShutdown (tj : Int) (s : State) : Res :=
  .next (
    if s.pins.aon = true ∧ 660 ≤ tj then
      State.coldReset (s.wr F.PWR_THERM_TJ (BitVec.ofInt 11 (min 1023 tj)).toNat) 6
    else s)

/-! Lifecycle commands of keeper firmware (R23). -/

/-- The state a command leads to from a state. -/
def lifeNext : LifeCmd → Life → Option Life
  | .ready, .load => some .standby
  | .activate, .standby => some .active
  | .takeover, .standby => some .active
  | .handover, .active => some .handover
  | .allOut, .handover => some .standby
  | .allTaken, .handover => some .active
  | .abort, .handover => some .active
  | _, _ => none

/-- LIFECYCLE_COMMAND: a move that R23 lists, not while a warm reset runs, and out of LOAD only once the image is copied; any
other command is recorded; a takeover from STANDBY needs partner loss. -/
def State.lifeCommand (s : State) (c : LifeCmd) : State :=
  match lifeNext c s.life with
  | some l =>
    if s.pwr.warm.isSome ∨ (s.life = .load ∧ s.vlt.loadDue = true) ∨ (c = .takeover ∧ s.flag F.TRN_STATUS_PARTNER_LOSS = false) then
      s.unlisted
    else s.moveLife l
  | none => s.unlisted

/-- LIFECYCLE_COMMAND. -/
def execLifecycleCommand (c : LifeCmd) (s : State) : Res := .next (s.lifeCommand c)

end Sys2Proof.Machine
end

