-- ==== Sys2Proof/Machine/Views.lean ====
section
/-! DEFINITION. What a read of BAR0 returns (R5, R11, R389, R438, R452): stored words, and the read-only fields that show a
unit's own state. -/

namespace Sys2Proof.Machine

/-- The stored word with its write-only bits reading 0 (R11). -/
def State.plain (s : State) (off : Nat) : Nat :=
  match regDesc off with
  | some d => maskOff (s.regGet off).toNat d.wo
  | none => 0

/-- The sum of `f` over a list of bits set at their places. -/
def bitsWhere (n : Nat) (f : Nat → Bool) : Nat := (List.range n).foldl (fun a i => a + b2n (f i) * 2 ^ i) 0

/-- A signed number in `w` bits. -/
def intBits (w : Nat) (x : Int) : Nat := (x % (2 ^ w : Nat)).toNat

/-- GLB (R3, R449). -/
def State.viewGlb (s : State) (off : Nat) : Nat :=
  let v := s.fuse.variant
  match off with
  | 0x0 => 0x7100 + v.code + s.fuse.vendor % 2 ^ 16 * 2 ^ 16 + s.fuse.step % 16 * 2 ^ 32
  | 0x8 => v.code + v.hbmGib * 2 ^ 8 + v.mapGib * 2 ^ 16 + s.fuse.step % 16 * 2 ^ 24
  | 0x10 => v.units
  | 0x18 => s.life.code + s.headId * 2 ^ 4 + s.rd F.GLB_STATE_FAULT * 2 ^ 5
  | _ => s.plain off

/-- `PWR_DOM` (R5, R415). -/
def State.viewDom (s : State) (d : Nat) : Nat :=
  if s.domPresent d then s.plain (0x301000 + 8 * d) + 2 ^ 8 + s.domAllowed d * 2 ^ 10 else 3 + 3 * 2 ^ 4

/-- HCH, CLK and PWR. -/
def State.viewPwr (s : State) (off : Nat) : Nat :=
  if off = 0x100018 then s.hatchBase
  else if off = 0x200008 then s.now
  else if off = 0x300010 then setBitsOf (s.plain off) 32 10 s.fuseMv
  else if 0x301000 ≤ off ∧ off < 0x301200 then s.viewDom ((off - 0x301000) / 8)
  else s.plain off

/-- EVT. -/
def State.viewEvt (s : State) (off : Nat) : Nat :=
  if off = 0x400008 then s.plain off + (s.evt.items.filter (fun p => p.2.slot.isNone)).length
  else if 0x401000 ≤ off ∧ off < 0x402000 then
    let src := (off - 0x401000) / 8
    s.plain off + sevOf src * 2 ^ 17 + b2n (srcListed src && s.srcPresent src) * 2 ^ 19 + b2n (SMap.has s.evt.masked src) * 2 ^ 20
  else s.plain off

/-- A requester's selected record. -/
def State.logSelOf (s : State) (req : Port) : Option (Nat × List Byte) :=
  match req with
  | .host => s.log.selHost
  | .core _ => s.log.selKpr

/-- LOG. -/
def State.viewLog (s : State) (req : Port) (off : Nat) : Nat :=
  match off with
  | 0x500010 => s.plain off + s.log.recs.length + min 256 s.log.dirty.length * 2 ^ 13 + b2n s.log.commit.isSome * 2 ^ 22
  | 0x500018 => s.log.boots
  | 0x500028 => s.calNow
  | 0x500038 => b2n s.log.calValid
  | 0x500040 => match s.logSelOf req with
    | some x => x.1 + 2 ^ 12
    | none => 0
  | _ =>
    if 0x500100 ≤ off ∧ off < 0x500200 then
      match s.logSelOf req with
      | some x => leNat ((x.2.drop (off - 0x500100)).take 8)
      | none => 0
    else s.plain off

/-- The Vault port of a requester (R389): H for the service host, K for keepers. -/
def vltPort : Port → Nat
  | .host => 0
  | .core _ => 1

/-- VLT (R387, R389). -/
def State.viewVlt (s : State) (req : Port) (off : Nat) : Nat :=
  let p := s.port (vltPort req)
  let o := s.vlt.otp
  match off with
  | 0x600010 => b2n p.cmd.isSome + b2n p.done * 2 + p.result * 2 ^ 8 + p.outLen * 2 ^ 16 + b2n p.ignored * 2 ^ 27
  | 0x600020 => bitsWhere 16 (fun n => SMap.has s.vlt.keys n)
  | 0x600028 =>
    o.svn % 256 + (o.mediaGen % 32) * 2 ^ 8 + b2n o.ownerLock * 2 ^ 13 + b2n o.plainOk * 2 ^ 14 + b2n o.kek1.isSome * 2 ^ 15 +
      bitsWhere 4 (fun n => SMap.has o.hash n) * 2 ^ 16 +
      ((List.range 4).foldl (fun a n => a + (SMap.findD o.attrs n 0 % 8) * 2 ^ (20 + 3 * n)) 0)
  | 0x600030 => bitsOf o.serial 0 64
  | 0x600038 => bitsOf o.serial 64 64
  | _ =>
    if 0x601000 ≤ off ∧ off < 0x601400 then (SMap.findD p.inw ((off - 0x601000) / 8) 0).toNat
    else if 0x602000 ≤ off ∧ off < 0x602400 then leNat ((p.outw.drop (off - 0x602000)).take 8)
    else s.plain off

/-- The MSI-X table and the PBA (R451). -/
def State.viewMsix (s : State) (off : Nat) : Nat :=
  if off < 0x802000 then
    if off % 16 = 0 then (s.regGet off).toNat
    else bitsOf (s.regGet off).toNat 0 32 + b2n (!s.pcie.vecOpen.contains ((off - 0x800000) / 16)) * 2 ^ 32
  else bitsWhere 64 (fun i => (s.vec (64 * ((off - 0x802000) / 8) + i)).held)

/-- The code of a thread state in `MQ_THR_STATE`. -/
def TState.code : TState → Nat
  | .free => 0 | .run => 1 | .wait => 2 | .halt => 3 | .stop => 4

/-- The states of 16 threads, four bits each. -/
def State.thrStates (s : State) (t0 : Nat) : Nat :=
  (List.range 16).foldl (fun a i => a + (s.thread (t0 + i)).st.code * 2 ^ (4 * i)) 0

/-- MQ: RETAIN shows through BAR0 only. -/
def State.viewMq (s : State) (req : Port) (off : Nat) : Nat :=
  let cl := (off - 0x1000000) / 0x20000
  match (off - 0x1000000) % 0x20000 with
  | 0x0 => s.plain off + cl
  | 0x60 => s.thrStates (32 * cl)
  | 0x68 => s.thrStates (32 * cl + 16)
  | 0x70 => bitsWhere 8 (fun i => s.coreDozes (8 * cl + i)) + (match req with
    | .host => b2n (decide (s.domState (2 + cl) = 2)) * 2 ^ 8
    | .core _ => 0)
  | 0x1F008 => if cl = 0 then setBitsOf (s.plain off) 0 19 s.poolFree else s.plain off
  | _ => s.plain off

/-- The code of a promise state in `WKT_PRM`. -/
def PState.code : PState → Nat
  | .live => 1 | .paused => 2 | .expired => 3 | .ended => 4

/-- Whole tokens of a tenant's bucket, signed, in 32 bits. -/
def State.wholeTokens (s : State) (ten k : Nat) : Nat := intBits 32 ((s.tenBucket ten k).tokens / 1000000000)

/-- WKT (R119, R122). -/
def State.viewWkt (s : State) (off : Nat) : Nat :=
  if off = 0x2000008 then
    s.life.code + b2n (decide (s.life = .brace)) * 2 ^ 4 + s.rd F.PWR_THERM_GUARD * 2 ^ 5 +
      b2n (s.flag F.TRN_STATUS_PARTNER_LATE || s.flag F.TRN_STATUS_PARTNER_LOSS) * 2 ^ 6 + s.rd F.JRN_LIMIT_BP * 2 ^ 7 +
      b2n (decide (s.poolFree = 0)) * 2 ^ 8
  else if 0x2100000 ≤ off ∧ off < 0x2140000 then
    let n := (off - 0x2100000) / 64
    if off % 64 = 0x10 then s.plain off + s.wholeTokens n 0 * 2 ^ 32
    else if off % 64 = 0x18 then s.wholeTokens n 1
    else s.plain off
  else if 0x2200000 ≤ off ∧ off < 0x2400000 then
    match s.prm ((off - 0x2200000) / 8) with
    | some p => p.time % 2 ^ 32 + p.st.code * 2 ^ 32 + (p.cause % 16) * 2 ^ 35 + (p.cls % 16) * 2 ^ 39 + (p.tenant % 4096) * 2 ^ 43
    | none => 0
  else s.plain off

/-- FE, JRN and TRN. -/
def State.viewNet (s : State) (off : Nat) : Nat :=
  if off = 0x2400050 then s.fe.conns.length + (s.fe.conns.filter (fun p => p.2.cached)).length * 2 ^ 32
  else if off = 0x2900048 then
    bitsOf (ceilDiv s.liveBytes.1 1024) 0 24 + bitsOf (ceilDiv s.liveBytes.2 1024) 0 24 * 2 ^ 24
  else if 0x2810000 ≤ off ∧ off < 0x2850000 ∧ off % 64 = 0x38 then
    let q := (off - 0x2810000) / 64
    setBitsOf (s.plain off) 0 14 ((s.qp q).top - (s.qp q).una)
  else s.plain off

/-- Descriptors waiting on all rings of a unit instance. -/
def State.ringsOf (s : State) (cls inst : Nat) : Nat :=
  (List.range 8).foldl (fun a cl => a + (s.ring cls inst cl).length) 0

/-- The four bits of a slot in `DG_SLOTS`. -/
def DgSlot.code (x : DgSlot) : Nat := x.st + b2n x.key.isSome * 4 + b2n x.pre * 8

/-- DG (R198, R203, R204). -/
def State.viewDg (s : State) (off : Nat) : Nat :=
  let lane := (off - 0x2E00000) / 0x1000
  let x := s.dgSlot (portSlot lane)
  match (off - 0x2E00000) % 0x1000 with
  | 0x8 => s.plain off + (if s.portOn lane then x.st else 0) + b2n (SMap.has s.dg.results lane) * 4 + b2n x.key.isSome * 32
  | 0x20 => if s.portOn lane && decide (x.st = 1) then x.len else SMap.findD s.dg.lens lane 0
  | 0x28 => (List.range 16).foldl (fun a i => a + (s.dgSlot (16 * lane + i)).code * 2 ^ (4 * i)) 0
  | _ => s.plain off

/-- OX, XTS, RDN. Between two commands BUSY of an Ox unit or a parity engine reads 0 (DESIGN CHOICE, assumption log 29); KEYBUSY shows
the slots of jobs that hold their lane. -/
def State.viewRed (s : State) (off : Nat) : Nat :=
  if 0x2C00000 ≤ off ∧ off < 0x2C10000 ∧ off % 0x1000 = 0 then (s.ringsOf 0x03 ((off - 0x2C00000) / 0x1000)) * 2 ^ 8
  else if 0x3600000 ≤ off ∧ off < 0x3604000 ∧ off % 0x1000 = 0 then (s.ringsOf 0x06 ((off - 0x3600000) / 0x1000)) * 2 ^ 8
  else if off = 0x3000000 then bitsWhere 64 (fun k => SMap.has s.xtsKeys k)
  else if off = 0x3000008 then bitsWhere 64 (fun k => SMap.has s.xtsKeys k && s.keyBusy k)
  else s.plain off

/-- MAP. -/
def State.viewMap (s : State) (off : Nat) : Nat :=
  if off = 0x3200008 then
    s.plain off + b2n (!s.map.bg.isEmpty) + (s.map.bg.length - 1) * 2 + s.map.vb.length * 2 ^ 10 +
      (s.map.vb.filter (·.dirty)).length * 2 ^ 20
  else if off = 0x3200028 then s.mapSets
  else s.plain off

/-- `SEG_RBLD_STATUS`.STATE: 0 IDLE, 1 RUN, 2 HELD, 3 PAUSED. -/
def State.rbldState (s : State) : Nat :=
  if s.seg.failed.isEmpty ∧ s.seg.rebuild.isEmpty = true ∨ s.flag F.SEG_RBLD_CTL_EN = false then 0
  else if !s.seg.heldBy.isEmpty then 2
  else if s.flag F.SEG_RBLD_CTL_PAUSE then 3
  else 1

/-- `SEG_STREAM` of a stream (R261). -/
def State.viewStream (s : State) (i : Nat) : Nat :=
  match SMap.find s.seg.streams i with
  | some x => x.seg.getD 0 % 2 ^ 32 + (x.page % 1024) * 2 ^ 32 + (x.cell % 256) * 2 ^ 42 + (x.ndesc % 32) * 2 ^ 50 +
      (x.flight.length % 128) * 2 ^ 55
  | none => 0

/-- SEG, MUL, GT, NML. -/
def State.viewMedia (s : State) (off : Nat) : Nat :=
  if off = 0x3400058 then s.rbldState + (s.seg.failed.length % 2 ^ 24) * 2 ^ 8 + (s.seg.rebuild.length % 2 ^ 13) * 2 ^ 32
  else if 0x3400080 ≤ off ∧ off < 0x34000A8 then s.viewStream ((off - 0x3400080) / 8)
  else if 0x3481000 ≤ off ∧ off < 0x3481200 then
    let n := (off - 0x3481000) / 8
    s.plain off + b2n (decide (s.rd F.MUL_LANE_FREE n ≤ s.rd F.MUL_GEOM_HOST_RESERVE)) * 2 ^ 57
  else if 0x3801000 ≤ off ∧ off < 0x3801200 then
    let l := s.lane ((off - 0x3801000) / 8)
    let dead := l.heldTags
    s.plain off + min 1024 l.cmdCr * 2 ^ 8 + (l.cmds.length - dead) * 2 ^ 19 + min 127 dead * 2 ^ 30 + min 255 l.dataCr * 2 ^ 37
  else s.plain off

/-- Valid entries of a search bank. -/
def State.srchUsed (s : State) (bank : Nat) : Nat :=
  (s.srch.filter (fun p => decide (p.1 / bankSize = bank) && p.2.valid)).length

/-- SRCH. -/
def State.viewSrch (s : State) (off : Nat) : Nat :=
  if off = 0x3C00008 then s.plain off + min 65535 (s.srchUsed 0) * 2 ^ 32 + min 65535 (s.srchUsed 1) * 2 ^ 48 else s.plain off

/-- The value of the aligned 8-byte word at an offset, as a requester reads it. -/
def State.view (s : State) (req : Port) (off : Nat) : Nat :=
  if s.offAbsent off then 0
  else if off < 0x100000 then s.viewGlb off
  else if off < 0x400000 then s.viewPwr off
  else if off < 0x500000 then s.viewEvt off
  else if off < 0x600000 then s.viewLog req off
  else if off < 0x700000 then s.viewVlt req off
  else if 0x800000 ≤ off ∧ off < 0x802040 then s.viewMsix off
  else if 0x1000000 ≤ off ∧ off < 0x1100000 then s.viewMq req off
  else if 0x2000000 ≤ off ∧ off < 0x2400000 then s.viewWkt off
  else if 0x2400000 ≤ off ∧ off < 0x2C00000 then s.viewNet off
  else if 0x2E00000 ≤ off ∧ off < 0x3000000 then s.viewDg off
  else if 0x3200000 ≤ off ∧ off < 0x3400000 then s.viewMap off
  else if 0x3400000 ≤ off ∧ off < 0x3600000 then s.viewMedia off
  else if 0x3800000 ≤ off ∧ off < 0x3C00000 then s.viewMedia off
  else if 0x3C00000 ≤ off ∧ off < 0x3E00000 then s.viewSrch off
  else if 0x2C00000 ≤ off ∧ off < 0x3800000 then s.viewRed off
  else s.plain off

/-- The aligned 8-byte word at an offset, with what the read does. -/
def State.busWord (s : State) (req : Port) (off : Nat) : State × Nat :=
  if off = 0x600018 then (s.rngRead.2, s.rngRead.1.toNat)
  else if 0x2E00000 ≤ off ∧ off < 0x2E10000 ∧ 0x80 ≤ off % 0x1000 ∧ off % 0x1000 < 0xC0 ∧ s.offAbsent off = false then
    s.dgResult ((off - 0x2E00000) / 0x1000) (off % 0x1000 / 8 - 16)
  else (s, s.view req off)

/-- An aligned read of 4 or 8 bytes (R418, R438, R452). -/
def State.busRead (s : State) (req : Port) (off size : Nat) : State × Word :=
  let base := off / 8 * 8
  let s := s.regWake base
  if size = 4 ∧ isCtr base = true ∧ s.offAbsent base = false then
    if off % 8 = 0 then s.ctrLow req base else s.ctrHigh req base
  else
    let r := s.busWord req base
    (r.1, BitVec.ofNat 64 (bitsOf r.2 (8 * (off % 8)) (8 * size)))

end Sys2Proof.Machine
end

