-- ==== Sys2Proof/Machine/Bus.lean ====
section
/-! DEFINITION. What a write through BAR0, or a keeper's store to the same offsets, does (R5, R11, R44, R452). `eff` is the
64-bit value of the register with the bits the access does not cover as they stand (0 for those that act when written). -/

namespace Sys2Proof.Machine

/-- A store of a word of a register with no behaviour of its own (R11): RW bits as written, W1C bits cleared by 1, an RWL field
only at its first write since cold reset, which locks it; a counter ignores it. -/
def State.storePlain (s : State) (off mask eff : Nat) : State :=
  match regDesc off with
  | none => s
  | some d =>
    if d.ctr then s
    else
      let rw := if s.locked.contains off then maskOff d.rw d.rwl else d.rw
      let old := (s.regGet off).toNat
      let s := s.regSet off (BitVec.ofNat 64 (maskOff (maskOff old rw ||| (eff &&& rw)) (eff &&& d.w1c)))
      if d.rwl &&& mask = 0 then s else { s with locked := addNat s.locked off }

/-- A store of `TRN_HB`: the watch for heartbeats begins when EN is set (R27, R410). -/
def State.hbStore (s : State) (off mask eff : Nat) : State :=
  let n := s.storePlain off mask eff
  if !s.flag F.TRN_HB_EN && n.flag F.TRN_HB_EN then { n with trn := { n.trn with hbWatch := s.now } } else n

/-- A store of `TRN_CTL`: a cleared QUAD_EN bit squelches the quad, whose link goes down. -/
def State.trnCtl (s : State) (v : Nat) : State :=
  let gone := maskOff (s.rd F.TRN_CTL_QUAD_EN) (bitsOf v 0 4)
  let s := (s.wr F.TRN_CTL_QUAD_EN (bitsOf v 0 4 % 2 ^ s.fuse.variant.quads)).wr F.TRN_CTL_EN (bitsOf v 4 1)
  foldSt (fun q (s : State) =>
    if bitOf gone q && bitOf (s.rd F.TRN_STATUS_QUAD_UP) q then
      (s.wr F.TRN_STATUS_QUAD_UP (setBitsOf (s.rd F.TRN_STATUS_QUAD_UP) q 1 0)).pathLink q false
    else s) [0, 1, 2, 3] s

/-- A store of `TRN_MR_CMD` (R350). -/
def State.mrCmd (s : State) (v : Nat) : State :=
  let s := if bitOf v 3 then s.clrFlag F.TRN_MR_CMD_ERR else s
  match bitsOf v 0 2 with
  | 1 => s.mrRegister
  | 2 => s.mrRevoke
  | _ => s

/-- A store of word `w` of a queue pair's entry (R335): the context is writable in RESET and INIT, SPSN in RTR too; then a
STATE that the access covers is requested (assumption log 30). -/
def State.qpStore (s : State) (q w mask eff : Nat) : State :=
  let off := 0x2810000 + 64 * q + 8 * w
  let open_ := decide (s.qpState q ≤ 1)
  if w = 0 then
    let s := if open_ then s.storePlain off mask (setBitsOf eff 0 3 (s.qpState q)) else s
    if mask % 2 = 1 then s.qpWriteState q (bitsOf eff 0 3) else s
  else if open_ then s.storePlain off mask eff
  else if w = 1 ∧ s.qpState q = 2 ∧ bitOf mask 32 = true then s.wr F.TRN_QP_SPSN (bitsOf eff 32 24) q
  else s

/-- A store of `SRCH_CTL` (R373). -/
def State.srchCtl (s : State) (v : Nat) : State :=
  let s := (s.wr F.SRCH_CTL_HWR1 (bitsOf v 3 1)).wr F.SRCH_CTL_SCRUB_EN (bitsOf v 4 1)
  let s := if bitOf v 0 then s.srchBegin .init0 else s
  let s := if bitOf v 1 then s.srchBegin .init1 else s
  if bitOf v 2 then s.srchBegin .restore1 else s

/-- A store of `VLT_CMD_STATUS` of a port: DONE and IGNORED clear (R389). -/
def State.vltStatus (s : State) (p v : Nat) : State :=
  let s := if bitOf v 1 then s.vltDoneClear p else s
  if bitOf v 27 then s.updPort p (fun (q : VltPort) => { q with ignored := false }) else s

/-- A store of `PWR_DOM` of a domain. -/
def State.domStore (s : State) (d mask eff : Nat) : State :=
  if s.domPresent d then
    let s := if bitOf eff 9 then s.clrFlag F.PWR_DOM_REQ_ERR d else s
    if mask % 2 = 1 then s.domMode d (bitsOf eff 0 2) else s
  else s

/-- A store of the MSI-X table: an entry's address, or its data and mask bit. -/
def State.msixStore (s : State) (off mask eff : Nat) : State :=
  if off % 16 = 0 then s.regSet off (BitVec.ofNat 64 (bitsOf eff 2 62 * 4))
  else
    let s := s.regSet off (BitVec.ofNat 64 (bitsOf eff 0 32))
    if bitOf mask 32 then s.vecMask ((off - 0x800000) / 16) (bitOf eff 32) else s

/-- HCH, CLK and PWR. -/
def State.storePwr (s : State) (off mask eff : Nat) : State :=
  match off with
  | 0x100000 => s.hchCmd eff
  | 0x100008 => s.hchNext eff
  | 0x300010 => s.avsStore eff
  | 0x300020 => if bitOf eff 63 then s.vminRearm else s
  | 0x300030 => s.pwrRst eff
  | _ =>
    if 0x301000 ≤ off ∧ off < 0x301200 then s.domStore ((off - 0x301000) / 8) mask eff
    else s.storePlain off mask eff

/-- EVT and LOG. -/
def State.storeEvt (s : State) (req : Port) (off mask eff : Nat) : State :=
  match off with
  | 0x400000 => s.evtCtl eff
  | 0x400010 => s.evtRaise eff
  | 0x400018 => s.evtCtrClr eff
  | 0x500020 => s.logPost eff
  | 0x500030 => s.calWrite eff
  | 0x500040 => s.logSel req eff
  | _ =>
    if 0x401000 ≤ off ∧ off < 0x402000 then s.evtSrcStore ((off - 0x401000) / 8) eff
    else if 0x402000 ≤ off ∧ off < 0x403000 then (s.storePlain off mask eff).evtVecCheck ((off - 0x402000) / 8)
    else if 0x501000 ≤ off ∧ off < 0x502080 then s.logRateStore ((off - 0x501000) / 8) eff
    else s.storePlain off mask eff

/-- VLT and MBX. -/
def State.storeVlt (s : State) (req : Port) (off mask eff : Nat) : State :=
  match off with
  | 0x600008 => s.vltCmd (vltPort req) eff
  | 0x600010 => s.vltStatus (vltPort req) eff
  | 0x700000 => s.mbxCtl eff
  | 0x700018 => s.h2dTailStore eff
  | 0x700020 => s.d2hHeadStore eff
  | _ =>
    if 0x601000 ≤ off ∧ off < 0x601400 then s.vltIn (vltPort req) ((off - 0x601000) / 8) (BitVec.ofNat 64 eff)
    else s.storePlain off mask eff

/-- MQ. -/
def State.storeMq (s : State) (off mask eff : Nat) : State :=
  let cl := (off - 0x1000000) / 0x20000
  match (off - 0x1000000) % 0x20000 with
  | 0x8 => s.mqRun cl eff
  | 0x30 => s.mqCacheCtl cl eff
  | 0x40 => s.mqWake cl eff
  | 0x1F008 => if cl = 0 ∧ bitOf eff 63 = true then s.wr F.MQ_POOL_FREE_MIN s.poolFree else s
  | _ => s.storePlain off mask eff

/-- WKT. -/
def State.storeWkt (s : State) (off mask eff : Nat) : State :=
  if off = 0x2000000 then s.wktCtl eff
  else if 0x2040000 ≤ off ∧ off < 0x2040400 ∧ off % 64 < 24 then s.classStore ((off - 0x2040000) / 64) (off % 64 / 8) eff
  else if 0x2100000 ≤ off ∧ off < 0x2140000 then
    if off % 64 < 24 then s.tenantStore ((off - 0x2100000) / 64) (off % 64 / 8) eff else s
  else s.storePlain off mask eff

/-- FE, TRN and JRN. -/
def State.storeNet (s : State) (off mask eff : Nat) : State :=
  match off with
  | 0x2400000 => s.feCtl eff
  | 0x2400010 => s.fePortmode eff
  | 0x2800000 => s.trnCtl eff
  | 0x2800008 =>
    if mask % 2 = 1 then s.trnCfg eff else (s.wr F.TRN_CFG_QUAR_US (bitsOf eff 32 16)).wr F.TRN_CFG_REVOKE_MS (bitsOf eff 48 16)
  | 0x2800018 => if bitOf eff 0 then s.liveKick else s
  | 0x2800020 => s.hbStore off mask eff
  | 0x2800050 => s.mrCmd eff
  | 0x2800078 => s.latchCancel (bitsOf eff 0 16)
  | 0x2900000 => s.jrnCtl eff
  | 0x2900020 => s.jrnStart eff
  | 0x2900050 => (s.storePlain off mask eff).jrnEval
  | _ =>
    if 0x2440000 ≤ off ∧ off < 0x2460000 ∧ off % 0x80 / 8 = 6 ∧ mask % 2 ^ 32 = 0 then s
    else if 0x2440000 ≤ off ∧ off < 0x2460000 then s.msaStore ((off - 0x2440000) / 0x80) (off % 0x80 / 8) eff
    else if 0x2810000 ≤ off ∧ off < 0x2850000 then s.qpStore ((off - 0x2810000) / 64) (off % 64 / 8) mask eff
    else if 0x2900068 ≤ off ∧ off < 0x2900088 then (s.storePlain off mask eff).jrnEval
    else s.storePlain off mask eff

/-- DG: the control, command and data registers of a lane (R203, R204). -/
def State.storeDg (s : State) (off mask eff : Nat) : State :=
  let lane := (off - 0x2E00000) / 0x1000
  match (off - 0x2E00000) % 0x1000 with
  | 0x0 => s.dgCtl lane eff
  | 0x10 =>
    let s := if bitOf eff 0 then s.portCmdStart lane else s
    if bitOf eff 1 then s.portCmdFin lane else s
  | 0x18 => s.portData lane (leBytes 8 eff) false
  | o =>
    if 0x40 ≤ o ∧ o < 0x80 ∧ o % 8 = 0 then s.portData lane (leBytes (o / 8 - 7) eff) true
    else s.storePlain off mask eff

/-- MAP, SEG, MUL, GT, NML, SRCH, ARB and DDX. -/
def State.storeUnits (s : State) (off mask eff : Nat) : State :=
  match off with
  | 0x3200000 => s.mapCtl eff
  | 0x3200008 => if bitOf eff 7 then (s.storePlain off mask eff).mapErrClear else s.storePlain off mask eff
  | 0x3200068 => s.mapVqKey eff
  | 0x3400000 => s.segCtl eff
  | 0x3400040 => s.segLane eff
  | 0x3400060 => s.segRbldAdd eff
  | 0x3400068 => s.rshpCtl eff
  | 0x3400070 => if s.flag F.SEG_RSHP_CTL_BUSY then s else s.storePlain off mask eff
  | 0x3480000 => s.mulCtl eff
  | 0x3480010 =>
    s.storePlain off mask (if s.locked.contains F.MUL_EUT_BASE_ADDR.off then setBitsOf eff 0 16 (s.rd F.MUL_GEOM_STRIDE) else eff)
  | 0x3800000 => s.nmlCtl eff
  | 0x3C00000 => s.srchCtl eff
  | 0x3E00000 => if s.locked.contains F.ARB_HINT_BASE_ADDR.off then s.storePlain off mask eff else s
  | 0x3F00000 => s.ddxCtl eff
  | _ => s.storePlain off mask eff

/-- The bits of a word that a store leaves as they stand where the access does not cover them: RW bits, and the key words of
`FE_MSA`, the MSI-X table and the Vault's input window. -/
def State.storeKeeps (s : State) (req : Port) (off : Nat) : Nat :=
  if 0x800000 ≤ off ∧ off < 0x802000 then s.viewMsix off
  else if 0x601000 ≤ off ∧ off < 0x601400 then (SMap.findD (s.port (vltPort req)).inw ((off - 0x601000) / 8) 0).toNat
  else
    match regDesc off with
    | some d => (s.regGet off).toNat &&& (if 0x2440000 ≤ off ∧ off < 0x2460000 then d.rw ||| d.wo else d.rw)
    | none => 0

/-- The bits of a word that a write can act on: reserved and read-only bits are ignored (R11). -/
def storeBits (off : Nat) : Nat :=
  match regDesc off with
  | some d => d.rw ||| d.w1c ||| d.wo
  | none => 2 ^ 64 - 1

/-- A store to the aligned word at an offset: `mask` is what the access covers, `w` its data in place. -/
def State.busStore (s : State) (req : Port) (off mask w : Nat) : State :=
  let eff := maskOff (s.storeKeeps req off) mask ||| (w &&& mask &&& storeBits off)
  if s.offAbsent off then s
  else if off < 0x100000 then s.storePlain off mask eff
  else if off < 0x400000 then s.storePwr off mask eff
  else if off < 0x600000 then s.storeEvt req off mask eff
  else if off < 0x800000 then s.storeVlt req off mask eff
  else if off < 0x802000 then s.msixStore off mask eff
  else if 0x1000000 ≤ off ∧ off < 0x1100000 then s.storeMq off mask eff
  else if 0x2000000 ≤ off ∧ off < 0x2400000 then s.storeWkt off mask eff
  else if 0x2400000 ≤ off ∧ off < 0x2C00000 then s.storeNet off mask eff
  else if 0x2E00000 ≤ off ∧ off < 0x3000000 then s.storeDg off mask eff
  else if 0x3200000 ≤ off ∧ off < 0x4000000 then s.storeUnits off mask eff
  else s

/-- A write of 4 or 8 aligned bytes (R418); any other is discarded (R452). -/
def State.busWrite (s : State) (req : Port) (off size v : Nat) : State :=
  if (size = 4 ∨ size = 8) ∧ off % size = 0 ∧ off < 0x4000000 then
    let sh := 8 * (off % 8)
    (s.regWake off).busStore req (off / 8 * 8) ((2 ^ (8 * size) - 1) * 2 ^ sh) ((v % 2 ^ (8 * size)) * 2 ^ sh)
  else s

/-- REGISTER_WRITE (R11). -/
def execRegisterWrite (req : Port) (off size v : Nat) (s : State) : Res := .next (s.busWrite req off size v)

end Sys2Proof.Machine
end

