-- ==== Sys2Proof/Machine/Goat.lean ====
section
/-! DEFINITION. The Goat (R324 to R326): patrol, CHECK and SCAN. -/

namespace Sys2Proof.Machine

/-! Findings (R325). -/

/-- Try to post the findings held, oldest first. -/
def State.goatFlush (s : State) : State :=
  foldSt (fun (r : List Nat) (s : State) =>
    let keep := fun (s : State) => { s with seg := { s.seg with findings := s.seg.findings ++ [r] } }
    if s.flag F.GT_RPTQ_VALID then
      match s.enqueue (plainItem (s.rd F.GT_RPTQ_QUEUE) r 0) with
      | some (_, s) => s
      | none => keep s
    else keep s) s.seg.findings { s with seg := { s.seg with findings := [] } }

/-- Counter of a kind of finding. -/
def goatCtr : Nat → Fld
  | 1 => F.GT_ECC_HIGH_CTR
  | 2 => F.GT_REPAIRED_CTR
  | 3 => F.GT_PARITY_CTR
  | 4 => F.GT_CRC_CTR
  | _ => F.GT_ERASED_CTR

/-- Post a finding: kind, segment, page, cell. -/
def State.finding (s : State) (kind seg page cell : Nat) : State :=
  let s := s.ctr (goatCtr kind)
  State.goatFlush { s with seg := { s.seg with findings := s.seg.findings ++ [[kind, seg, page] ++ (if kind = 4 then [cell] else [])] } }

/-! The checks of a stripe (R324). -/

/-- Name of a position's page in a finding. -/
def pageName (w stripe q : Nat) : Nat := if q < w then stripe * w + q else 0x8000 + q

/-- Does a grain of a page decrypt and decompress to its CRC-32C? -/
def grainOk (key : List Byte) (seg k : Nat) (d : List Byte) (g : GDesc) : Bool :=
  let cells := xts false key (seg * 2 ^ 18 + (k * 248 + g.cell)) (pageCells d g.cell (g.lenm1 + 1))
  let out : List Byte × Bool := if bitOf g.flags 0 then (cells, true) else oxDecode cells
  out.2 && decide (crc32c out.1 = g.crc)

/-- LEVEL 2: the grains of a data page. -/
def State.checkGrains (s : State) (slot seg k : Nat) (d : List Byte) : State :=
  match SMap.find s.xtsKeys slot with
  | none => s
  | some key =>
    foldSt (fun (g : GDesc) (s : State) =>
      if g.vol < 16384 ∧ !grainOk key seg k d g then s.finding 4 seg k g.cell else s) (pageDescs d) s

/-- A page that could not be read or failed its checks is reconstructed (R269, R324): a REPAIRED finding and a SUSPECT report, or the stripe
is LOST. `found` says that the page was read and failed. -/
def State.repairPos (s : State) (seg stripe bad q : Nat) (found : Bool) : State :=
  let b := s.band (segBand seg)
  let name := pageName b.w stripe q
  match s.recon seg stripe q bad true with
  | .stale s => s
  | .few s good => s.declareOrHold seg stripe (b.missMask good)
  | .ok s d => if found && s.rebuiltOk seg q d then (s.finding 2 seg name 0).segReport 2 b.stream seg name else s

/-- LEVEL 0 of one position, read in the background: `bits` is what the sled corrected in its page. A page that is LOST is not read, and one on
a position that is not OK is reconstructed (R268). -/
def State.checkPos (s : State) (seg stripe bad q bits : Nat) (last : Bool) : State :=
  let b := s.band (segBand seg)
  let name := pageName b.w stripe q
  if s.isLost seg stripe q then s
  else if b.pstate q ≠ 0 then s.repairPos seg stripe bad q false
  else
    let s' := s.posRead seg stripe q false true
    match s.readPos seg stripe q bad with
    | .stale => s'.staleDown (b.at_ q).1
    | .page d =>
      if if q < b.w then s.dataPageOk seg stripe q d else s.tagOk seg stripe q d then
        if s.rd F.GT_CTL_ECC_HI < bits then s'.finding 1 seg name 0 else s'
      else s'.repairPos seg stripe bad q true
    | .erased => (if last then s' else s'.finding 5 seg name 0).repairPos seg stripe bad q true
    | _ => s'.repairPos seg stripe bad q true

/-- The data pages of a stripe that pass their checks. -/
def State.goodData (s : State) (seg stripe bad : Nat) : List (Nat × List Byte) :=
  (List.range (s.band (segBand seg)).w).filterMap (fun q =>
    match s.readPos seg stripe q bad with
    | .page d => if (s.band (segBand seg)).pstate q = 0 ∧ s.dataPageOk seg stripe q d then some (q, d) else none
    | _ => none)

/-- LEVEL 1: parity positions that differ from the data, where every page can be read. -/
def State.checkParity (s : State) (seg stripe bad : Nat) : State :=
  let b := s.band (segBand seg)
  let data := s.goodData seg stripe bad
  if data.length = b.w then
    foldSt (fun j (s : State) =>
      match s.readPos seg stripe (b.w + j) bad with
      | .page d =>
        if b.pstate (b.w + j) ≠ 0 ∨ s.tagOk seg stripe (b.w + j) d = false ∨
            (rsParity pageBytes j (data.map (fun p => headless p.2))).drop 16 = d.drop 16 then s
        else s.finding 3 seg (0x8000 + b.w + j) 0
      | _ => s) (List.range b.p) s
  else s

/-- All checks of a stripe: `bits` lists what the sleds corrected by position; `last` marks the last programmed stripe. -/
def State.goatStripe (s : State) (level slot seg stripe bad : Nat) (bits : List Nat) (last : Bool) : State :=
  let b := s.band (segBand seg)
  let s := foldSt (fun q (s : State) => s.checkPos seg stripe bad q (bits[q]?.getD 0) last) (List.range b.n) s
  let s := if 1 ≤ level then s.checkParity seg stripe bad else s
  if 2 ≤ level then
    foldSt (fun (p : Nat × List Byte) (s : State) => s.checkGrains slot seg (stripe * b.w + p.1) p.2) (s.goodData seg stripe bad) s
  else s

/-- A piece of the Goat's work on a band: in the background at a parity engine from LEVEL 1 on, and at an XTS lane for LEVEL 2 (R278, R324,
R383); it waits while a die of the band has other reads (R270). The engine and the lane follow the band number (DESIGN CHOICE, assumption
log 102). -/
def State.asGoat (s : State) (level n : Nat) (f : State → State) : State :=
  let f' := fun (s : State) => if s.bgBusy n (s.okPositions n 32) then s else f s
  if level = 0 then f' s
  else
    s.asClient 3 (rbldEngine n) 10 true (fun s => if level = 1 then f' s else s.asClient 2 (n % s.fuse.variant.engines) 10 true f')

/-! Patrol. -/

/-- LEVEL in force: 2 runs as 1 until the key table is given. -/
def State.goatLevel (s : State) : Nat :=
  let l := min 2 (s.rd F.GT_CTL_LEVEL)
  if l = 2 ∧ !s.locked.contains F.GT_KEYTAB_BASE_ADDR.off then 1 else l

/-- The band, slot and stripe the patrol visits next: the first at or after the place it stands. -/
def State.goatNext (s : State) : Option (Nat × Nat × Nat) :=
  let n0 := s.rd F.GT_POS_BAND
  let s0 := s.rd F.GT_POS_SLOT
  let bands := s.bandsListed.filter (fun n => s.ownBand n && decide (n0 ≤ n % 2 ^ 23 ∧ ((s.band n).state = 1 ∨ (s.band n).state = 2)))
  let spots := bands.flatMap (fun n => (s.band n).liveSlots.filterMap (fun i =>
    let t := if n % 2 ^ 23 = n0 ∧ i = s0 then s.seg.goatStripe else 0
    if (n % 2 ^ 23 = n0 ∧ i < s0) ∨ s.stripesOf n i ≤ t then none else some (n, i, t)))
  spots.head?

/-- Put the patrol at a place. -/
def State.goatAt (s : State) (n slot stripe : Nat) : State :=
  let s := (s.wr F.GT_POS_BAND (n % 2 ^ 23)).wr F.GT_POS_SLOT slot
  { s with seg := { s.seg with goatStripe := stripe } }

/-- Patrol the next stripe; at the end of the walk PASSES rises and the walk starts again. -/
def State.goatStep (s : State) (bad : Nat) (bits : List Nat) : State :=
  if !s.flag F.GT_CTL_EN then s
  else
    match s.goatNext with
    | none => (s.wr F.GT_POS_PASSES (min (2 ^ 32 - 1) (s.rd F.GT_POS_PASSES + 1))).goatAt 0 0 0
    | some (n, i, t) =>
      s.asGoat s.goatLevel n (fun s =>
        let slot := s.ldMem (s.rd F.GT_KEYTAB_BASE_ADDR * 2 ^ 23 + n % 2 ^ 23) 1
        let s := s.goatStripe s.goatLevel slot (mkSeg n i) t bad bits (decide (t + 1 = s.stripesOf n i))
        (s.ctr F.GT_PAGES_CTR 0 (s.band n).n).goatAt n i (t + 1))

/-- The Goat patrols the next stripe, and posts findings held. -/
def execGoatPatrolStep (bad : Nat) (bits : List Nat) (s : State) : Res := .next (s.goatFlush.goatStep bad bits)

/-! CHECK. -/

/-- The checks of R95 and R326. -/
def goatCheckOk (j : Job) (_ : State) : Bool :=
  j.zero 2 2 && j.zero 8 29 && j.zero 31 63 && decide (j.fld 3 1 ≤ 2 ∧ j.fld 30 1 < 64)

/-- The CHECK of a job as far as it has got. -/
def State.checkOf (s : State) (j : Job) : CheckSt :=
  (s.seg.checks.find? (fun c => decide (c.job = j))).getD { job := j, stripe := 0, lost := false }

/-- Keep how far a CHECK has got, or forget it. -/
def State.setCheck (s : State) (j : Job) (c : Option CheckSt) : State :=
  { s with seg := { s.seg with checks := s.seg.checks.filter (fun x => decide (x.job ≠ j)) ++ c.toList } }

/-- Stripes declared LOST so far. -/
def State.lostCount (s : State) : Nat := (s.regGet F.SEG_LOST_STRIPES_CTR.off).toNat

/-- CHECK: the next programmed stripe of a segment, and the job's end with the last one; `bad` and `bits` are of that stripe (R270, R324, R326). A
segment that is not live completes BAD_JOB (DESIGN CHOICE, assumption log 24). -/
def goatCheck (bad : Nat) (bits : List Nat) (j : Job) (s : State) : JobDo :=
  let seg := j.fld 4 4
  let n := segBand seg
  let c := s.checkOf j
  let cnt := s.stripesOf n (segSlot seg)
  if !(s.band n).liveSlot (segSlot seg) then .bad (s.setCheck j none)
  else if cnt ≤ c.stripe then .done (s.setCheck j none) 0 (.st (if c.lost then stLost else stDone))
  else
    .held (s.asGoat (j.fld 3 1) n (fun s' =>
      let t := s'.goatStripe (j.fld 3 1) (j.fld 30 1) seg c.stripe bad bits (decide (c.stripe + 1 = cnt))
      t.setCheck j (some { c with stripe := c.stripe + 1, lost := c.lost || decide (t.lostCount ≠ s'.lostCount) })))

/-- CHECK at the head of a ring. -/
def execGoatCheck (cl bad : Nat) (bits : List Nat) (s : State) : Res := .next (s.runJob 0x0C 0 cl (isOp 2) goatCheckOk (goatCheck bad bits))

/-! SCAN. -/

/-- A scan record (R326). -/
def scanRec (vol lba flags seq epoch birth entry : Nat) : List Byte :=
  leBytes 2 vol ++ leBytes 5 lba ++ leBytes 1 flags ++ leBytes 8 seq ++ leBytes 2 epoch ++ leBytes 6 birth ++ leBytes 8 entry

/-- Band and position of a unit, from the band records. -/
def State.unitBand (s : State) (lane die eu : Nat) : Option (Nat × Nat) :=
  (s.bandsListed.flatMap (fun n => (List.range (s.band n).n).map (fun q => (n, q)))).find? (fun p =>
    decide ((s.band p.1).at_ p.2 = (lane, die, eu)))

/-- The records of one page; `unc` says that the sled finds its header uncorrectable. A fenced port may read headers (R307). -/
def State.scanPage (s : State) (lane die eu page : Nat) (unc : Bool) : List (List Byte) :=
  match s.unitBand lane die eu with
  | none => []
  | some (n, q) =>
    let b := s.band n
    if b.w ≤ q then []
    else
      let seg := mkSeg n (page / 64)
      let k := page % 64 * b.w + q
      match s.mediaHeader lane die eu page unc with
      | .bad => [scanRec 0xFFFD 0 0 0 0 0 (mkEntry seg (k * 248) 0 false)]
      | .page d =>
        if headOk d ∧ hcheckOk d then
          let t := tagOf d
          (pageDescs d).map (fun g => scanRec g.vol g.lba (g.flags % 4) g.seq g.epoch t.birth
            (mkEntry t.seg ((t.stripe * t.w + t.pos) * 248 + g.cell) g.lenm1 (bitOf g.flags 0)))
        else []
      | _ => []

/-- Scan pages in turn while their records fit in `room` records: records, and the page at which OUT was full. -/
def State.scanPages (s : State) (lane die : Nat) (bad : List (Nat × Nat)) : List (Nat × Nat) → Nat → List (List Byte) × Option (Nat × Nat)
  | [], _ => ([], none)
  | (u, p) :: l, room =>
    let r := s.scanPage lane die u p (bad.contains (u, p))
    if room < r.length then ([], some (u, p))
    else
      let t := s.scanPages lane die bad l (room - r.length)
      (r ++ t.1, t.2)

/-- The checks of R95 and R326. -/
def goatScanOk (j : Job) (s : State) : Bool :=
  j.zero 3 7 && j.zero 18 19 && j.zero 30 63 && decide (j.fld 2 1 < 64 ∧ j.fld 16 2 < 256) && s.current (j.fld 8 8)

/-- SCAN; `bad` names the pages (unit, page) whose header the sled finds uncorrectable. -/
def goatScan (bad : List (Nat × Nat)) (j : Job) (s : State) : JobDo :=
  let lane := j.fld 2 1
  if s.fuse.variant.lanes ≤ lane then .done s 0 (.st stAbsent)
  else
    let ppe := (s.sled lane).geo.ppe false
    let u0 := j.fld 20 4
    let pages := (List.range (min (j.fld 24 4) ((s.sled lane).geo.eus - u0))).flatMap (fun i =>
      let p0 := if i = 0 then j.fld 28 2 else 0
      (List.range (ppe - p0)).map (fun p => (u0 + i, p0 + p)))
    let r := s.scanPages lane (j.fld 16 2) bad pages (hLen (j.fld 8 8) / 32)
    let w := s.eccWrite (hAddr (j.fld 8 8) 0) r.1.flatten
    if !w.2 then .memErr w.1 0x0C 0
    else .done w.1 0 { status := stDone, aux := r.1.length, result := match r.2 with
      | none => 2 ^ 64 - 1
      | some (u, p) => u + p * 2 ^ 32 }

/-- SCAN at the head of a ring. -/
def execGoatScan (cl : Nat) (bad : List (Nat × Nat)) (s : State) : Res := .next (s.runJob 0x0C 0 cl (isOp 1) goatScanOk (goatScan bad))

end Sys2Proof.Machine
end

