-- ==== Sys2Proof/Machine/Ledger.lean ====
section
/-! DEFINITION. What the units report to the Wicket's ledger (R116, R219). Times are ns. -/

namespace Sys2Proof.Machine

/-- Time of `n` bytes at a rate given as picoseconds for 64 bytes. -/
def atRate (ps n : Nat) : Nat := ceilDiv (ps * ceilDiv n 64) 1000

/-- Rated COMPRESS throughput of a level, in tenths of GB/s (R219). -/
def oxRate : Nat → Nat
  | 1 => 100 | 2 => 80 | 3 => 60 | 4 => 45 | 5 => 30 | 6 => 22 | 7 => 15 | 8 => 10 | _ => 6

/-- Time that a job takes at the rated throughput of its unit: Ox by level (R219); digest lanes 8 GB/s, XTS lanes 20 GB/s, parity engines
80 GB/s; the map cache, the segment manager and the index by operation (R128). -/
def Job.ratedNs (j : Job) (cls : Nat) : Nat :=
  match cls with
  | 0x03 => if j.op = 1 then atRate (ceilDiv 640000 (oxRate (j.fld 2 1))) 4096 else atRate 3200 4096
  | 0x02 => atRate 8000 (j.workBytes cls)
  | 0x05 => atRate 3200 (j.workBytes cls)
  | 0x06 => atRate 800 (j.workBytes cls)
  | 0x07 => 500
  | 0x08 => 200
  | 0x04 => 300
  | _ => 0

/-- When the rings of a unit instance drain, after now. -/
def State.ringsDrain (s : State) (cls inst : Nat) : Nat :=
  ((List.range 8).map (fun cl => ((s.ring cls inst cl).map (fun j => j.ratedNs cls)).sum)).sum

/-- Bytes of a queue pair that have not been sent. -/
def State.qpBacklog (s : State) (q : Nat) : Nat :=
  ((s.qp q).msgs.map (fun m => m.data.length - ((s.qp q).nxt - m.lo) * s.mtu q)).sum

/-- When a front-end quad has sent what its connections hold, at 50 GB/s (R116). -/
def State.feDrain (s : State) (quad : Nat) : Nat :=
  atRate 1280 ((s.fe.conns.filter (fun p => decide (p.2.quad = quad))).map (fun p => p.2.sent - p.2.tcp.nxt)).sum

/-- When the peer queue pairs of a quad have sent what they hold, at 50 GB/s (R116, R332). -/
def State.quadDrain (s : State) (quad : Nat) : Nat :=
  atRate 1280 (((SMap.keys s.trn.qps).filter (fun q => decide (s.qpArb q = (7, quad)))).map s.qpBacklog).sum

/-- When queued mirror writes drain (R116). -/
def State.mirrorDrain (s : State) : Nat :=
  atRate 800 (s.trn.qps.flatMap (fun p => p.2.msgs.filterMap (fun m => m.joff.map (fun _ => m.data.length)))).sum

/-- What the unit behind a horizon reports, after now, where the model holds its backlog: the end of the program or erase of an own die, and
the drain times. Front-end and Transom receive, whose backlog it does not hold, report what the command says (assumption log 104). -/
def State.backlog (s : State) (i : Nat) : Option Nat :=
  if i < 8192 then some ((SMap.find s.seg.dieOps i).elim 0 (fun o => o.until_ - s.now))
  else if i < 8196 then none
  else if i < 8200 then some (s.feDrain (i - 8196))
  else if i < 8204 then some (s.quadDrain (i - 8200))
  else if i < 8208 then none
  else if i < 8224 then some (s.ringsDrain 0x03 (i - 8208))
  else if i < 8240 then some (s.ringsDrain 0x02 (i - 8224))
  else if i < 8256 then some (s.ringsDrain 0x05 (i - 8240))
  else if i < 8260 then some (s.ringsDrain 0x06 (i - 8256))
  else if i = 8260 then some (s.ringsDrain 0x07 0)
  else if i = 8261 then some (s.ringsDrain 0x08 0)
  else if i = 8262 then some (s.ringsDrain 0x04 0)
  else some s.mirrorDrain

/-- The domain of the engine instance behind a horizon (R115, R415). -/
def hznDomain (i : Nat) : Option Nat :=
  if 8208 ≤ i ∧ i < 8224 then some (unitDomain 0x03 (i - 8208))
  else if 8224 ≤ i ∧ i < 8240 then some (unitDomain 0x02 (i - 8224))
  else if 8240 ≤ i ∧ i < 8256 then some (unitDomain 0x05 (i - 8240))
  else if 8256 ≤ i ∧ i < 8260 then some (unitDomain 0x06 (i - 8256))
  else none

/-- The wake that a unit in RETAIN adds to what it reports (R418). -/
def State.wakeLeft (s : State) (i : Nat) : Nat :=
  match hznDomain i with
  | some d => if s.domState d = 2 then 2000 else 0
  | none => 0

/-- A unit reports the time at which its resource is free (R116); in RETAIN at least now + 2 µs (R418). -/
def execLedgerReport (i time : Nat) (s : State) : Res :=
  .next (if i < hznCount then s.report i (max (s.wakeLeft i) ((s.backlog i).getD (ahead time s.now))) else s)

end Sys2Proof.Machine
end

