-- ==== Sys2Proof/Machine/LoadStore.lean ====
section
/-! DEFINITION. The address map of the cores (R44, R45), the data cache (R48, R487), loads and stores (R80), atomics (R49, R81),
branches and jumps (R82). -/

namespace Sys2Proof.Machine

/-- Where an access of a thread goes: memory at a core address, a device register, or the exception it takes. -/
inductive Place where
  | mem (a : Nat)
  | reg (off : Nat)
  | bad (vec : Nat)
  deriving DecidableEq, Repr

/-- Which access it is. -/
inductive Access where
  | load | store | amo
  deriving DecidableEq, Repr

/-- An address of HBM (R45): the Hatch, the queue table, the keeper range and the Code region. Every limit applies; where the keeper
range overlaps the Code region, ACCESS is taken at HANDLER (assumption log 33, DEDUCED). -/
def State.hbmPlace (s : State) (t a : Nat) (k : Access) : Place :=
  let cl := clusterOf t
  let qt := 2 ^ 25 * s.rd F.MQ_QTAB_BASE_ADDR
  let inKpr := decide (2 ^ 21 * s.rd F.MQ_KPR_BASE_ADDR cl ≤ a ∧ a < 2 ^ 21 * (s.rd F.MQ_KPR_LIMIT_ADDR cl + 1))
  if s.hatchBase ≤ a then .bad vecAccess
  else if s.locked.contains F.MQ_QTAB_BASE_ADDR.off = true ∧ qt ≤ a ∧ a < qt + 2 ^ 25 then .bad vecAccess
  else if inKpr && !(s.thread t).keeper then .bad vecAccess
  else if s.inCode t a && decide (k ≠ .load) then .bad vecAccess
  else .mem a

/-- The place of an aligned access of `n` bytes at an address (R44, R80, R81). -/
def State.place (s : State) (t a n : Nat) (k : Access) : Place :=
  let keeper := (s.thread t).keeper
  if a < 0x40000 then .mem (0x20000000 + 0x40000 * coreOf t + a)
  else if 0x10000000 ≤ a ∧ a < 0x14800000 then .mem a
  else if 0x14800000 ≤ a ∧ a < 0x16000000 then .bad vecAccess
  else if 0x20000000 ≤ a ∧ a < 0x21000000 then (if keeper then .mem a else .bad vecAccess)
  else if 0x40000000 ≤ a ∧ a < 0x44000000 then (if keeper = true ∧ 4 ≤ n ∧ k ≠ .amo then .reg (a - 0x40000000) else .bad vecAccess)
  else if hbmBase ≤ a ∧ a < hbmBase + s.hbmSize then s.hbmPlace t a k
  else .bad vecBus

/-- The place of an access of `n` bytes: ALIGN first (R80). -/
def State.placeOf (s : State) (t a n : Nat) (k : Access) : Place := if a % n ≠ 0 then .bad vecAlign else s.place t a n k

/-! The data cache. -/

/-- Is an address cached for a core: HBM, with the core's data cache enabled (R44, R51)? -/
def State.dcOn (s : State) (t a : Nat) : Bool :=
  decide (hbmBase ≤ a) && bitOf (s.rd F.MQ_CACHE_CTL_D_EN (clusterOf t)) (coreOf t % 8)

/-- A core's lines. -/
def State.dlines (s : State) (core : Nat) : List DLine := SMap.findD s.dcache core []

/-- Set a core's lines. -/
def State.setDlines (s : State) (core : Nat) (l : List DLine) : State := { s with dcache := SMap.putD s.dcache core l [] }

/-- The line of a core that holds an address. -/
def State.dline (s : State) (core a : Nat) : Option DLine := (s.dlines core).find? (fun d => decide (d.addr = a / 64 * 64))

/-- The `n` bytes at an address within a line. -/
def DLine.read (d : DLine) (a n : Nat) : Nat := bitsOf d.data.toNat (8 * (a % 64)) (8 * n)

/-- A store to a line that is present updates it. -/
def DLine.write (d : DLine) (a n v : Nat) : DLine :=
  if d.addr = a / 64 * 64 then { d with data := BitVec.ofNat 512 (setBitsOf d.data.toNat (8 * (a % 64)) (8 * n) v) } else d

/-- Sets of a data cache: 32 KiB, 4 ways, 64-byte lines. -/
def dcSets : Nat := 128

/-- Install a line; of a full set, which line is replaced is left open (assumption log 31). -/
def State.dcInstall (s : State) (core : Nat) (d : DLine) : State :=
  let ls := s.dlines core
  let same := ls.filter (fun x => decide (x.addr / 64 % dcSets = d.addr / 64 % dcSets))
  if same.length < 4 then s.setDlines core (ls ++ [d])
  else
    match same[s.freeNat % 4]? with
    | some v => (s.setDlines core (ls.filter (fun x => decide (x.addr ≠ v.addr)) ++ [d])).nextFree
    | none => s

/-- The line of a core that holds an address is invalidated. -/
def State.dcDrop (s : State) (core a : Nat) : State :=
  s.setDlines core ((s.dlines core).filter (fun d => decide (d.addr ≠ a / 64 * 64)))

/-- A core's read of `n` bytes of memory (R487): none where a granule holds an uncorrectable error; corrections are written
back and counted in `MQ_ECC_FIX` of the core's cluster. -/
def State.coreRead (s : State) (t a n : Nat) : State × Option Nat :=
  let s := s.eccCorrect (clusterOf t) a n
  (s, if s.badIn a n then none else some (s.ldMem a n))

/-- A load that its core's data cache does not serve: from memory, and with the cache on the whole line is read and installed unless
a granule of it holds an uncorrectable error. -/
def State.memMiss (s : State) (t a n : Nat) : State × Option Nat :=
  let b := a / 64 * 64
  match s.coreRead t b 64 with
  | (s, some v) => (s.dcInstall (coreOf t) { addr := b, data := BitVec.ofNat 512 v, parity := false }, some (bitsOf v (8 * (a % 64)) (8 * n)))
  | (s, none) => s.coreRead t a n

/-- A load of `n` bytes of memory: from a line that is present, else as a miss. A line with a parity error is invalidated, refetched
and counted in `MQ_ECC_FIX` (R45). -/
def State.memLoad (s : State) (t a n : Nat) : State × Option Nat :=
  if s.dcOn t a then
    match s.dline (coreOf t) a with
    | some d =>
      if d.parity then ((s.dcDrop (coreOf t) a).ctr F.MQ_ECC_FIX_COUNT (clusterOf t)).memMiss t a n
      else (s, some (d.read a n))
    | none => s.memMiss t a n
  else s.coreRead t a n

/-- A store of `n` bytes to memory (R48, R80, R487): a line that is present is updated, and the write goes on to memory; a partial
write to a granule with an uncorrectable error stores nothing there and raises MEM_UNCORR with the core id, and the core's line
does not serve the next load, which takes MEM_ECC. -/
def State.memStore (s : State) (t a n v : Nat) : State :=
  let core := coreOf t
  let s := if s.dcOn t a then s.setDlines core ((s.dlines core).map (fun d => d.write a n v)) else s
  let r := s.eccWriteBy (clusterOf t) a (leBytes n v)
  if r.2 then r.1 else (r.1.dcDrop core a).note 0x08D core

/-! Loads and stores. -/

/-- The effective address g[rs1] + sext(DISP16). -/
def State.ea (s : State) (t rs1 : Nat) (disp : BitVec 16) : Word := s.g t rs1 + disp.signExtend 64

/-- A load of `n` bytes; `ext` extends the value to 64 bits. -/
def State.load (s : State) (t : BitVec 8) (rd rs1 : BitVec 5) (disp : BitVec 16) (n : Nat) (ext : Nat → Word) : State :=
  s.issue t.toNat (fun s =>
    let ea := s.ea t.toNat rs1.toNat disp
    match s.placeOf t.toNat ea.toNat n .load with
    | .bad vec => .trap s vec ea
    | .reg off => (s.busRead (.core (coreOf t.toNat)) off n).1.put t.toNat rd.toNat
        (ext (s.busRead (.core (coreOf t.toNat)) off n).2.toNat)
    | .mem a =>
      match s.memLoad t.toNat a n with
      | (s, some v) => s.put t.toNat rd.toNat (ext v)
      | (s, none) => .trap s vecMemEcc ea)

/-- A store of the low `n` bytes of g[rs]. A store that resets the head ends there. -/
def State.store (s : State) (t : BitVec 8) (rs rs1 : BitVec 5) (disp : BitVec 16) (n : Nat) : State :=
  s.issue t.toNat (fun s =>
    let ea := s.ea t.toNat rs1.toNat disp
    let v := (s.g t.toNat rs.toNat).toNat
    match s.placeOf t.toNat ea.toNat n .store with
    | .bad vec => .trap s vec ea
    | .reg off =>
      let s' := s.busWrite (.core (coreOf t.toNat)) off n v
      if s'.life = .cold then .jump s' (s'.thread t.toNat).pc else .next s'
    | .mem a => .next (s.memStore t.toNat a n (v % 2 ^ (8 * n))))

/-- LD.B. -/
def execLdB (t : BitVec 8) (rd rs1 : BitVec 5) (disp : BitVec 16) (s : State) : Res := .next (s.load t rd rs1 disp 1 (sext64 8))
/-- LD.BU. -/
def execLdBu (t : BitVec 8) (rd rs1 : BitVec 5) (disp : BitVec 16) (s : State) : Res := .next (s.load t rd rs1 disp 1 (BitVec.ofNat 64))
/-- LD.H. -/
def execLdH (t : BitVec 8) (rd rs1 : BitVec 5) (disp : BitVec 16) (s : State) : Res := .next (s.load t rd rs1 disp 2 (sext64 16))
/-- LD.HU. -/
def execLdHu (t : BitVec 8) (rd rs1 : BitVec 5) (disp : BitVec 16) (s : State) : Res := .next (s.load t rd rs1 disp 2 (BitVec.ofNat 64))
/-- LD.W. -/
def execLdW (t : BitVec 8) (rd rs1 : BitVec 5) (disp : BitVec 16) (s : State) : Res := .next (s.load t rd rs1 disp 4 (sext64 32))
/-- LD.WU. -/
def execLdWu (t : BitVec 8) (rd rs1 : BitVec 5) (disp : BitVec 16) (s : State) : Res := .next (s.load t rd rs1 disp 4 (BitVec.ofNat 64))
/-- LD.D. -/
def execLdD (t : BitVec 8) (rd rs1 : BitVec 5) (disp : BitVec 16) (s : State) : Res := .next (s.load t rd rs1 disp 8 (BitVec.ofNat 64))
/-- ST.B. -/
def execStB (t : BitVec 8) (rs rs1 : BitVec 5) (disp : BitVec 16) (s : State) : Res := .next (s.store t rs rs1 disp 1)
/-- ST.H. -/
def execStH (t : BitVec 8) (rs rs1 : BitVec 5) (disp : BitVec 16) (s : State) : Res := .next (s.store t rs rs1 disp 2)
/-- ST.W. -/
def execStW (t : BitVec 8) (rs rs1 : BitVec 5) (disp : BitVec 16) (s : State) : Res := .next (s.store t rs rs1 disp 4)
/-- ST.D. -/
def execStD (t : BitVec 8) (rs rs1 : BitVec 5) (disp : BitVec 16) (s : State) : Res := .next (s.store t rs rs1 disp 8)

/-! Atomics. -/

/-- An atomic (R49, R81). One that meets an uncorrectable error takes MEM_ECC and writes nothing (assumption log 32). -/
def State.atomic (s : State) (t : BitVec 8) (wide : Bool) (rd rs1 rs2 : BitVec 5) (o : Amo) : State :=
  s.issue t.toNat (fun s =>
    let n := if wide then 8 else 4
    let ea := s.g t.toNat rs1.toNat
    match s.placeOf t.toNat ea.toNat n .amo with
    | .bad vec => .trap s vec ea
    | .reg _ => .trap s vecAccess ea
    | .mem a =>
      let b := (s.g t.toNat rs2.toNat).toNat % 2 ^ (8 * n)
      let e := (s.g t.toNat rd.toNat).toNat % 2 ^ (8 * n)
      match (s.dcDrop (coreOf t.toNat) a).coreRead t.toNat a n with
      | (s, some old) =>
        State.put (s.eccWriteBy (clusterOf t.toNat) a (leBytes n (o.new n old b e))).1 t.toNat rd.toNat (BitVec.ofNat 64 old)
      | (_, none) => .trap s vecMemEcc ea)

/-- AMO.ADD. -/
def execAmoAdd (t : BitVec 8) (wide : Bool) (rd rs1 rs2 : BitVec 5) (s : State) : Res := .next (s.atomic t wide rd rs1 rs2 .add)
/-- AMO.SWAP. -/
def execAmoSwap (t : BitVec 8) (wide : Bool) (rd rs1 rs2 : BitVec 5) (s : State) : Res := .next (s.atomic t wide rd rs1 rs2 .swap)
/-- AMO.CAS. -/
def execAmoCas (t : BitVec 8) (wide : Bool) (rd rs1 rs2 : BitVec 5) (s : State) : Res := .next (s.atomic t wide rd rs1 rs2 .cas)
/-- AMO.AND. -/
def execAmoAnd (t : BitVec 8) (wide : Bool) (rd rs1 rs2 : BitVec 5) (s : State) : Res := .next (s.atomic t wide rd rs1 rs2 .and)
/-- AMO.OR. -/
def execAmoOr (t : BitVec 8) (wide : Bool) (rd rs1 rs2 : BitVec 5) (s : State) : Res := .next (s.atomic t wide rd rs1 rs2 .or)
/-- AMO.MAXU. -/
def execAmoMaxu (t : BitVec 8) (wide : Bool) (rd rs1 rs2 : BitVec 5) (s : State) : Res := .next (s.atomic t wide rd rs1 rs2 .maxu)
/-- AMO.MINU. -/
def execAmoMinu (t : BitVec 8) (wide : Bool) (rd rs1 rs2 : BitVec 5) (s : State) : Res := .next (s.atomic t wide rd rs1 rs2 .minu)

/-! Branches and jumps. -/

/-- A branch: PC + 4 × sext(OFF16) when taken. -/
def State.branch (s : State) (t : BitVec 8) (ra rb : BitVec 5) (off : BitVec 16) (f : Word → Word → Bool) : State :=
  s.issue t.toNat (fun s =>
    if f (s.g t.toNat ra.toNat) (s.g t.toNat rb.toNat) then
      .jump s ((s.thread t.toNat).pc + (off.signExtend 64 <<< 2))
    else .next s)

/-- BEQ. -/
def execBeq (t : BitVec 8) (ra rb : BitVec 5) (off : BitVec 16) (s : State) : Res := .next (s.branch t ra rb off (fun a b => decide (a = b)))
/-- BNE. -/
def execBne (t : BitVec 8) (ra rb : BitVec 5) (off : BitVec 16) (s : State) : Res := .next (s.branch t ra rb off (fun a b => decide (a ≠ b)))
/-- BLT. -/
def execBlt (t : BitVec 8) (ra rb : BitVec 5) (off : BitVec 16) (s : State) : Res := .next (s.branch t ra rb off (fun a b => a.slt b))
/-- BGE. -/
def execBge (t : BitVec 8) (ra rb : BitVec 5) (off : BitVec 16) (s : State) : Res := .next (s.branch t ra rb off (fun a b => !a.slt b))
/-- BLTU. -/
def execBltu (t : BitVec 8) (ra rb : BitVec 5) (off : BitVec 16) (s : State) : Res := .next (s.branch t ra rb off (fun a b => a.ult b))
/-- BGEU. -/
def execBgeu (t : BitVec 8) (ra rb : BitVec 5) (off : BitVec 16) (s : State) : Res := .next (s.branch t ra rb off (fun a b => !a.ult b))

/-- JAL: PC + 4 × sext(OFF21); rd = PC + 4. -/
def execJal (t : BitVec 8) (rd : BitVec 5) (off : BitVec 21) (s : State) : Res :=
  .next (s.issue t.toNat (fun s =>
    let pc := (s.thread t.toNat).pc
    .jump (s.setG t.toNat rd.toNat (pc + 4)) (pc + (off.signExtend 64 <<< 2))))

/-- JALR: (g[rs1] + sext(IMM16)) with bits [1:0] cleared; rd = PC + 4. -/
def execJalr (t : BitVec 8) (rd rs1 : BitVec 5) (imm : BitVec 16) (s : State) : Res :=
  .next (s.issue t.toNat (fun s =>
    let pc := (s.thread t.toNat).pc
    let target := (s.g t.toNat rs1.toNat + imm.signExtend 64) >>> 2 <<< 2
    .jump (s.setG t.toNat rd.toNat (pc + 4)) target))

end Sys2Proof.Machine
end

