-- ==== Sys2Proof/Machine/Dispatch.lean ====
section
/-! DEFINITION. One arm per command: its meaning. -/

namespace Sys2Proof.Machine

open Sys2Proof

/-- The effect of a command on everything but the queue of waiting commands. -/
def exec (i : Instr) (s : State) : Host.Outcome State Fault Refusal :=
  match i with
  | .add t rd rs1 rs2 => Sys2Proof.Machine.execAdd t rd rs1 rs2 s
  | .sub t rd rs1 rs2 => Sys2Proof.Machine.execSub t rd rs1 rs2 s
  | .and t rd rs1 rs2 => Sys2Proof.Machine.execAnd t rd rs1 rs2 s
  | .or t rd rs1 rs2 => Sys2Proof.Machine.execOr t rd rs1 rs2 s
  | .xor t rd rs1 rs2 => Sys2Proof.Machine.execXor t rd rs1 rs2 s
  | .andn t rd rs1 rs2 => Sys2Proof.Machine.execAndn t rd rs1 rs2 s
  | .sll t rd rs1 rs2 => Sys2Proof.Machine.execSll t rd rs1 rs2 s
  | .srl t rd rs1 rs2 => Sys2Proof.Machine.execSrl t rd rs1 rs2 s
  | .sra t rd rs1 rs2 => Sys2Proof.Machine.execSra t rd rs1 rs2 s
  | .rotr t rd rs1 rs2 => Sys2Proof.Machine.execRotr t rd rs1 rs2 s
  | .slt t rd rs1 rs2 => Sys2Proof.Machine.execSlt t rd rs1 rs2 s
  | .sltu t rd rs1 rs2 => Sys2Proof.Machine.execSltu t rd rs1 rs2 s
  | .min t rd rs1 rs2 => Sys2Proof.Machine.execMin t rd rs1 rs2 s
  | .max t rd rs1 rs2 => Sys2Proof.Machine.execMax t rd rs1 rs2 s
  | .minu t rd rs1 rs2 => Sys2Proof.Machine.execMinu t rd rs1 rs2 s
  | .maxu t rd rs1 rs2 => Sys2Proof.Machine.execMaxu t rd rs1 rs2 s
  | .serB t rd rs1 rs2 => Sys2Proof.Machine.execSerB t rd rs1 rs2 s
  | .serH t rd rs1 rs2 => Sys2Proof.Machine.execSerH t rd rs1 rs2 s
  | .serP t rd rs1 rs2 => Sys2Proof.Machine.execSerP t rd rs1 rs2 s
  | .serW t rd rs1 rs2 => Sys2Proof.Machine.execSerW t rd rs1 rs2 s
  | .mul t rd rs1 rs2 => Sys2Proof.Machine.execMul t rd rs1 rs2 s
  | .mulh t rd rs1 rs2 => Sys2Proof.Machine.execMulh t rd rs1 rs2 s
  | .mulhu t rd rs1 rs2 => Sys2Proof.Machine.execMulhu t rd rs1 rs2 s
  | .div t rd rs1 rs2 => Sys2Proof.Machine.execDiv t rd rs1 rs2 s
  | .divu t rd rs1 rs2 => Sys2Proof.Machine.execDivu t rd rs1 rs2 s
  | .rem t rd rs1 rs2 => Sys2Proof.Machine.execRem t rd rs1 rs2 s
  | .remu t rd rs1 rs2 => Sys2Proof.Machine.execRemu t rd rs1 rs2 s
  | .clz t rd rs1 => Sys2Proof.Machine.execClz t rd rs1 s
  | .ctz t rd rs1 => Sys2Proof.Machine.execCtz t rd rs1 s
  | .popc t rd rs1 => Sys2Proof.Machine.execPopc t rd rs1 s
  | .bswap t rd rs1 => Sys2Proof.Machine.execBswap t rd rs1 s
  | .addi t rd rs1 imm => Sys2Proof.Machine.execAddi t rd rs1 imm s
  | .andi t rd rs1 imm => Sys2Proof.Machine.execAndi t rd rs1 imm s
  | .ori t rd rs1 imm => Sys2Proof.Machine.execOri t rd rs1 imm s
  | .xori t rd rs1 imm => Sys2Proof.Machine.execXori t rd rs1 imm s
  | .slti t rd rs1 imm => Sys2Proof.Machine.execSlti t rd rs1 imm s
  | .sltiu t rd rs1 imm => Sys2Proof.Machine.execSltiu t rd rs1 imm s
  | .slli t rd rs1 sh => Sys2Proof.Machine.execSlli t rd rs1 sh s
  | .srli t rd rs1 sh => Sys2Proof.Machine.execSrli t rd rs1 sh s
  | .srai t rd rs1 sh => Sys2Proof.Machine.execSrai t rd rs1 sh s
  | .lui t rd imm => Sys2Proof.Machine.execLui t rd imm s
  | .shi t rd rs1 imm => Sys2Proof.Machine.execShi t rd rs1 imm s
  | .ldB t rd rs1 disp => Sys2Proof.Machine.execLdB t rd rs1 disp s
  | .ldBu t rd rs1 disp => Sys2Proof.Machine.execLdBu t rd rs1 disp s
  | .ldH t rd rs1 disp => Sys2Proof.Machine.execLdH t rd rs1 disp s
  | .ldHu t rd rs1 disp => Sys2Proof.Machine.execLdHu t rd rs1 disp s
  | .ldW t rd rs1 disp => Sys2Proof.Machine.execLdW t rd rs1 disp s
  | .ldWu t rd rs1 disp => Sys2Proof.Machine.execLdWu t rd rs1 disp s
  | .ldD t rd rs1 disp => Sys2Proof.Machine.execLdD t rd rs1 disp s
  | .stB t rs rs1 disp => Sys2Proof.Machine.execStB t rs rs1 disp s
  | .stH t rs rs1 disp => Sys2Proof.Machine.execStH t rs rs1 disp s
  | .stW t rs rs1 disp => Sys2Proof.Machine.execStW t rs rs1 disp s
  | .stD t rs rs1 disp => Sys2Proof.Machine.execStD t rs rs1 disp s
  | .amoAdd t wide rd rs1 rs2 => Sys2Proof.Machine.execAmoAdd t wide rd rs1 rs2 s
  | .amoSwap t wide rd rs1 rs2 => Sys2Proof.Machine.execAmoSwap t wide rd rs1 rs2 s
  | .amoCas t wide rd rs1 rs2 => Sys2Proof.Machine.execAmoCas t wide rd rs1 rs2 s
  | .amoAnd t wide rd rs1 rs2 => Sys2Proof.Machine.execAmoAnd t wide rd rs1 rs2 s
  | .amoOr t wide rd rs1 rs2 => Sys2Proof.Machine.execAmoOr t wide rd rs1 rs2 s
  | .amoMaxu t wide rd rs1 rs2 => Sys2Proof.Machine.execAmoMaxu t wide rd rs1 rs2 s
  | .amoMinu t wide rd rs1 rs2 => Sys2Proof.Machine.execAmoMinu t wide rd rs1 rs2 s
  | .beq t ra rb off => Sys2Proof.Machine.execBeq t ra rb off s
  | .bne t ra rb off => Sys2Proof.Machine.execBne t ra rb off s
  | .blt t ra rb off => Sys2Proof.Machine.execBlt t ra rb off s
  | .bge t ra rb off => Sys2Proof.Machine.execBge t ra rb off s
  | .bltu t ra rb off => Sys2Proof.Machine.execBltu t ra rb off s
  | .bgeu t ra rb off => Sys2Proof.Machine.execBgeu t ra rb off s
  | .jal t rd off => Sys2Proof.Machine.execJal t rd off s
  | .jalr t rd rs1 imm => Sys2Proof.Machine.execJalr t rd rs1 imm s
  | .j t rd rs1 cls inst => Sys2Proof.Machine.execJ t rd rs1 cls inst s
  | .qPush t inherit rd rs1 rs2 => Sys2Proof.Machine.execQPush t inherit rd rs1 rs2 s
  | .qTake t rd rs1 => Sys2Proof.Machine.execQTake t rd rs1 s
  | .qFree t rd rs1 => Sys2Proof.Machine.execQFree t rd rs1 s
  | .qFwd t rd rs1 => Sys2Proof.Machine.execQFwd t rd rs1 s
  | .qBind t rd rs1 rs2 => Sys2Proof.Machine.execQBind t rd rs1 rs2 s
  | .qStat t rd rs1 => Sys2Proof.Machine.execQStat t rd rs1 s
  | .stgAlloc t rd rs1 => Sys2Proof.Machine.execStgAlloc t rd rs1 s
  | .stgFree t rd rs1 => Sys2Proof.Machine.execStgFree t rd rs1 s
  | .srchFind t bank rd rs1 => Sys2Proof.Machine.execSrchFind t bank rd rs1 s
  | .srchNext t rd => Sys2Proof.Machine.execSrchNext t rd s
  | .srchWr t bank rd rs1 rs2 => Sys2Proof.Machine.execSrchWr t bank rd rs1 rs2 s
  | .srchClr t rd rs2 => Sys2Proof.Machine.execSrchClr t rd rs2 s
  | .srchRd t rd rs2 => Sys2Proof.Machine.execSrchRd t rd rs2 s
  | .wktAdm t rd rs1 rs2 => Sys2Proof.Machine.execWktAdm t rd rs1 rs2 s
  | .wktSlk t rd => Sys2Proof.Machine.execWktSlk t rd s
  | .wktFin t rd rs1 => Sys2Proof.Machine.execWktFin t rd rs1 s
  | .wktHzn t rd rs1 rs2 => Sys2Proof.Machine.execWktHzn t rd rs1 rs2 s
  | .csrR t rd csr => Sys2Proof.Machine.execCsrR t rd csr s
  | .csrW t rs1 csr => Sys2Proof.Machine.execCsrW t rs1 csr s
  | .eret t => Sys2Proof.Machine.execEret t s
  | .sysc t imm => Sys2Proof.Machine.execSysc t imm s
  | .brk t imm => Sys2Proof.Machine.execBrk t imm s
  | .fence t => Sys2Proof.Machine.execFence t s
  | .dinv t rs1 => Sys2Proof.Machine.execDinv t rs1 s
  | .dinvAll t => Sys2Proof.Machine.execDinvAll t s
  | .iinvAll t => Sys2Proof.Machine.execIinvAll t s
  | .start t rd rs1 imm => Sys2Proof.Machine.execStart t rd rs1 imm s
  | .wait t rd rs1 => Sys2Proof.Machine.execWait t rd rs1 s
  | .waitT t rd rs1 => Sys2Proof.Machine.execWaitT t rd rs1 s
  | .pollT t rd rs1 => Sys2Proof.Machine.execPollT t rd rs1 s
  | .done t => Sys2Proof.Machine.execDone t s
  | .jRingResume t => Sys2Proof.Machine.execJRingResume t s
  | .jobCompletion k => Sys2Proof.Machine.execJobCompletion k s
  | .waitTimeout t => Sys2Proof.Machine.execWaitTimeout t s
  | .watchdog t => Sys2Proof.Machine.execWatchdog t s
  | .dispatch cl thr => Sys2Proof.Machine.execDispatch cl thr s
  | .mqWakeWrite cl value => Sys2Proof.Machine.execMqWakeWrite cl value s
  | .mqRunWrite cl value => Sys2Proof.Machine.execMqRunWrite cl value s
  | .mqCacheCtlWrite cl value => Sys2Proof.Machine.execMqCacheCtlWrite cl value s
  | .mqPoolRearm => Sys2Proof.Machine.execMqPoolRearm s
  | .loadStart => Sys2Proof.Machine.execLoadStart s
  | .capsuleAdmission => Sys2Proof.Machine.execCapsuleAdmission s
  | .promiseExpiry k => Sys2Proof.Machine.execPromiseExpiry k s
  | .ledgerReport h time => Sys2Proof.Machine.execLedgerReport h time s
  | .horizonRefresh => Sys2Proof.Machine.execHorizonRefresh s
  | .wktCtlWrite v => Sys2Proof.Machine.execWktCtlWrite v s
  | .wktClassStore c w v => Sys2Proof.Machine.execWktClassStore c w v s
  | .wktTenantStore n w v => Sys2Proof.Machine.execWktTenantStore n w v s
  | .fePortmodeWrite v => Sys2Proof.Machine.execFePortmodeWrite v s
  | .feCtlWrite v => Sys2Proof.Machine.execFeCtlWrite v s
  | .feMsaKeyWrite e w v => Sys2Proof.Machine.execFeMsaKeyWrite e w v s
  | .feLinkChange port up => Sys2Proof.Machine.execFeLinkChange port up s
  | .feFrameRx port f => Sys2Proof.Machine.execFeFrameRx port f s
  | .ctxFetchComplete c => Sys2Proof.Machine.execCtxFetchComplete c s
  | .synRx quad ipif lport syn => Sys2Proof.Machine.execSynRx quad ipif lport syn s
  | .synackAckRx c bytes => Sys2Proof.Machine.execSynackAckRx c bytes s
  | .synackRetryTimeout c => Sys2Proof.Machine.execSynackRetryTimeout c s
  | .icreqRx c bytes type pfv hpda hd dd => Sys2Proof.Machine.execIcreqRx c bytes type pfv hpda hd dd s
  | .icTimeout c => Sys2Proof.Machine.execIcTimeout c s
  | .connectCapsuleRx c bytes plen sqe data hd dd => Sys2Proof.Machine.execConnectCapsuleRx c bytes plen sqe data hd dd s
  | .capsuleCmdRx c bytes plen sqe data hd dd => Sys2Proof.Machine.execCapsuleCmdRx c bytes plen sqe data hd dd s
  | .h2cdataRx c bytes tag off data hd dd => Sys2Proof.Machine.execH2cdataRx c bytes tag off data hd dd s
  | .h2ctermreqRx c bytes len => Sys2Proof.Machine.execH2ctermreqRx c bytes len s
  | .rstRx c bytes => Sys2Proof.Machine.execRstRx c bytes s
  | .tcpAckRx c bytes a => Sys2Proof.Machine.execTcpAckRx c bytes a s
  | .tcpRtoExpiry c => Sys2Proof.Machine.execTcpRtoExpiry c s
  | .xferTimeout c tag => Sys2Proof.Machine.execXferTimeout c tag s
  | .closingDone c => Sys2Proof.Machine.execClosingDone c s
  | .feRespond inst cl => Sys2Proof.Machine.execFeRespond inst cl s
  | .feSolicit inst cl => Sys2Proof.Machine.execFeSolicit inst cl s
  | .feRefuse inst cl => Sys2Proof.Machine.execFeRefuse inst cl s
  | .feAen inst cl => Sys2Proof.Machine.execFeAen inst cl s
  | .feBind inst cl => Sys2Proof.Machine.execFeBind inst cl s
  | .feSetMss inst cl => Sys2Proof.Machine.execFeSetMss inst cl s
  | .feTerminate inst cl => Sys2Proof.Machine.execFeTerminate inst cl s
  | .feRawTx inst cl => Sys2Proof.Machine.execFeRawTx inst cl s
  | .feRawRx inst cl => Sys2Proof.Machine.execFeRawRx inst cl s
  | .journalAppend cl => Sys2Proof.Machine.execJournalAppend cl s
  | .journalRetireMark cl => Sys2Proof.Machine.execJournalRetireMark cl s
  | .jrnCtlWrite v => Sys2Proof.Machine.execJrnCtlWrite v s
  | .jrnStartWrite v => Sys2Proof.Machine.execJrnStartWrite v s
  | .pfailFall => Sys2Proof.Machine.execPfailFall s
  | .vaultAppendTimeout => Sys2Proof.Machine.execVaultAppendTimeout s
  | .vaultFlushComplete bad => Sys2Proof.Machine.execVaultFlushComplete bad s
  | .dgStartJob inst cl => Sys2Proof.Machine.execDgStartJob inst cl s
  | .dgUpdate inst cl => Sys2Proof.Machine.execDgUpdate inst cl s
  | .dgFinal inst cl => Sys2Proof.Machine.execDgFinal inst cl s
  | .dgOneshot inst cl => Sys2Proof.Machine.execDgOneshot inst cl s
  | .dgKeyload inst cl => Sys2Proof.Machine.execDgKeyload inst cl s
  | .dgCtlWrite lane v => Sys2Proof.Machine.execDgCtlWrite lane v s
  | .dgPortStart lane => Sys2Proof.Machine.execDgPortStart lane s
  | .dgPortFin0 lane => Sys2Proof.Machine.execDgPortFin0 lane s
  | .dgDataWrite lane v => Sys2Proof.Machine.execDgDataWrite lane v s
  | .dgLastWrite lane n v => Sys2Proof.Machine.execDgLastWrite lane n v s
  | .dgResultRead lane k => Sys2Proof.Machine.execDgResultRead lane k s
  | .ddxLookup cl => Sys2Proof.Machine.execDdxLookup cl s
  | .ddxLookupRef cl => Sys2Proof.Machine.execDdxLookupRef cl s
  | .ddxRef cl => Sys2Proof.Machine.execDdxRef cl s
  | .ddxInsert cl => Sys2Proof.Machine.execDdxInsert cl s
  | .ddxUnref cl => Sys2Proof.Machine.execDdxUnref cl s
  | .ddxRepoint cl => Sys2Proof.Machine.execDdxRepoint cl s
  | .ddxInit => Sys2Proof.Machine.execDdxInit s
  | .ddxInitDone => Sys2Proof.Machine.execDdxInitDone s
  | .ddxAgeTick => Sys2Proof.Machine.execDdxAgeTick s
  | .ddxSweepVisit => Sys2Proof.Machine.execDdxSweepVisit s
  | .oxCompress inst cl => Sys2Proof.Machine.execOxCompress inst cl s
  | .oxDecompress inst cl => Sys2Proof.Machine.execOxDecompress inst cl s
  | .xtsEncrypt inst cl => Sys2Proof.Machine.execXtsEncrypt inst cl s
  | .xtsDecrypt inst cl => Sys2Proof.Machine.execXtsDecrypt inst cl s
  | .rdnEncode inst cl => Sys2Proof.Machine.execRdnEncode inst cl s
  | .rdnDecode inst cl => Sys2Proof.Machine.execRdnDecode inst cl s
  | .rdnVerify inst cl => Sys2Proof.Machine.execRdnVerify inst cl s
  | .mapGet cl => Sys2Proof.Machine.execMapGet cl s
  | .mapSet cl => Sys2Proof.Machine.execMapSet cl s
  | .mapSetif cl => Sys2Proof.Machine.execMapSetif cl s
  | .mapClean cl => Sys2Proof.Machine.execMapClean cl s
  | .mapInval cl => Sys2Proof.Machine.execMapInval cl s
  | .mapCleanSw cl => Sys2Proof.Machine.execMapCleanSw cl s
  | .mapInvalSw cl => Sys2Proof.Machine.execMapInvalSw cl s
  | .mapRangeClean cl => Sys2Proof.Machine.execMapRangeClean cl s
  | .mapRangeInval cl => Sys2Proof.Machine.execMapRangeInval cl s
  | .mapSnap cl => Sys2Proof.Machine.execMapSnap cl s
  | .mapClone cl => Sys2Proof.Machine.execMapClone cl s
  | .mapSnapDel cl => Sys2Proof.Machine.execMapSnapDel cl s
  | .mapNodeReadComplete n bad => Sys2Proof.Machine.execMapNodeReadComplete n bad s
  | .mapCommitPeriod => Sys2Proof.Machine.execMapCommitPeriod s
  | .mapCommitComplete => Sys2Proof.Machine.execMapCommitComplete s
  | .mapWmTimeout => Sys2Proof.Machine.execMapWmTimeout s
  | .mapInvall => Sys2Proof.Machine.execMapInvall s
  | .mapInvallDone => Sys2Proof.Machine.execMapInvallDone s
  | .mapMount => Sys2Proof.Machine.execMapMount s
  | .mapFormat => Sys2Proof.Machine.execMapFormat s
  | .mapMountDone => Sys2Proof.Machine.execMapMountDone s
  | .mapCommitRequest => Sys2Proof.Machine.execMapCommitRequest s
  | .mapCleanall => Sys2Proof.Machine.execMapCleanall s
  | .mapCtlEnWrite en => Sys2Proof.Machine.execMapCtlEnWrite en s
  | .mapVqKeyWrite v => Sys2Proof.Machine.execMapVqKeyWrite v s
  | .segOpen cl => Sys2Proof.Machine.execSegOpen cl s
  | .segAppend cl => Sys2Proof.Machine.execSegAppend cl s
  | .segSeal cl => Sys2Proof.Machine.execSegSeal cl s
  | .segSync cl => Sys2Proof.Machine.execSegSync cl s
  | .segRead cl bad => Sys2Proof.Machine.execSegRead cl bad s
  | .segRelease cl => Sys2Proof.Machine.execSegRelease cl s
  | .stripeProgramComplete stream bad => Sys2Proof.Machine.execStripeProgramComplete stream bad s
  | .segReportRetry => Sys2Proof.Machine.execSegReportRetry s
  | .segCensus => Sys2Proof.Machine.execSegCensus s
  | .segCensusDone => Sys2Proof.Machine.execSegCensusDone s
  | .segLaneWrite v => Sys2Proof.Machine.execSegLaneWrite v s
  | .segRbldAddWrite v => Sys2Proof.Machine.execSegRbldAddWrite v s
  | .rebuildPositionStart => Sys2Proof.Machine.execRebuildPositionStart s
  | .rebuildPositionDone k => Sys2Proof.Machine.execRebuildPositionDone k s
  | .reshapeStart => Sys2Proof.Machine.execReshapeStart s
  | .reshapeAbort => Sys2Proof.Machine.execReshapeAbort s
  | .reshapeMoveDone bad => Sys2Proof.Machine.execReshapeMoveDone bad s
  | .nmlCtlWrite v => Sys2Proof.Machine.execNmlCtlWrite v s
  | .nmlTrainExit lane => Sys2Proof.Machine.execNmlTrainExit lane s
  | .nmlTrainTimeout lane => Sys2Proof.Machine.execNmlTrainTimeout lane s
  | .nmlHelloRx lane port ro => Sys2Proof.Machine.execNmlHelloRx lane port ro s
  | .nmlHelloTimer lane => Sys2Proof.Machine.execNmlHelloTimer lane s
  | .nmlRetrainTimeout lane => Sys2Proof.Machine.execNmlRetrainTimeout lane s
  | .nmlFecLockLoss lane => Sys2Proof.Machine.execNmlFecLockLoss lane s
  | .nmlIdleTimeout lane => Sys2Proof.Machine.execNmlIdleTimeout lane s
  | .nmlReplayTimer lane => Sys2Proof.Machine.execNmlReplayTimer lane s
  | .nmlAckRx lane next => Sys2Proof.Machine.execNmlAckRx lane next s
  | .nmlNakRx lane next => Sys2Proof.Machine.execNmlNakRx lane next s
  | .nmlAckTimer lane => Sys2Proof.Machine.execNmlAckTimer lane s
  | .nmlCreditRx lane cmd data absolute => Sys2Proof.Machine.execNmlCreditRx lane cmd data absolute s
  | .nmlRdataRx lane f => Sys2Proof.Machine.execNmlRdataRx lane f s
  | .nmlRspRx lane f => Sys2Proof.Machine.execNmlRspRx lane f s
  | .nmlCmdTimeout lane tag => Sys2Proof.Machine.execNmlCmdTimeout lane tag s
  | .nmlJobRead inst cl => Sys2Proof.Machine.execNmlJobRead inst cl s
  | .nmlJobProgram inst cl => Sys2Proof.Machine.execNmlJobProgram inst cl s
  | .nmlJobErase inst cl => Sys2Proof.Machine.execNmlJobErase inst cl s
  | .nmlJobSuspend inst cl => Sys2Proof.Machine.execNmlJobSuspend inst cl s
  | .nmlJobResume inst cl => Sys2Proof.Machine.execNmlJobResume inst cl s
  | .nmlJobHdrRead inst cl => Sys2Proof.Machine.execNmlJobHdrRead inst cl s
  | .nmlJobGeometry inst cl => Sys2Proof.Machine.execNmlJobGeometry inst cl s
  | .nmlJobHealth inst cl => Sys2Proof.Machine.execNmlJobHealth inst cl s
  | .nmlJobLeaseStatus inst cl => Sys2Proof.Machine.execNmlJobLeaseStatus inst cl s
  | .nmlJobLeaseAcquire inst cl => Sys2Proof.Machine.execNmlJobLeaseAcquire inst cl s
  | .nmlJobLeaseTakeover inst cl => Sys2Proof.Machine.execNmlJobLeaseTakeover inst cl s
  | .nmlJobLeaseGrant inst cl => Sys2Proof.Machine.execNmlJobLeaseGrant inst cl s
  | .nmlJobLeaseRelease inst cl => Sys2Proof.Machine.execNmlJobLeaseRelease inst cl s
  | .sledRead lane port tag c => Sys2Proof.Machine.execSledRead lane port tag c s
  | .sledProgram lane port tag c => Sys2Proof.Machine.execSledProgram lane port tag c s
  | .sledWdataRx lane port tag off data => Sys2Proof.Machine.execSledWdataRx lane port tag off data s
  | .sledErase lane port tag c => Sys2Proof.Machine.execSledErase lane port tag c s
  | .sledSuspend lane port tag c => Sys2Proof.Machine.execSledSuspend lane port tag c s
  | .sledResume lane port tag c => Sys2Proof.Machine.execSledResume lane port tag c s
  | .sledHdrRead lane port tag c => Sys2Proof.Machine.execSledHdrRead lane port tag c s
  | .sledGeometry lane port tag c => Sys2Proof.Machine.execSledGeometry lane port tag c s
  | .sledHealth lane port tag c => Sys2Proof.Machine.execSledHealth lane port tag c s
  | .sledLeaseStatus lane port tag c => Sys2Proof.Machine.execSledLeaseStatus lane port tag c s
  | .sledLeaseAcquire lane port tag c => Sys2Proof.Machine.execSledLeaseAcquire lane port tag c s
  | .sledLeaseTakeover lane port tag c => Sys2Proof.Machine.execSledLeaseTakeover lane port tag c s
  | .sledLeaseGrant lane port tag c => Sys2Proof.Machine.execSledLeaseGrant lane port tag c s
  | .sledLeaseRelease lane port tag c => Sys2Proof.Machine.execSledLeaseRelease lane port tag c s
  | .sledOpComplete lane die failAt bits => Sys2Proof.Machine.execSledOpComplete lane die failAt bits s
  | .sledAutoResume lane die => Sys2Proof.Machine.execSledAutoResume lane die s
  | .sledSuspReadResume lane die => Sys2Proof.Machine.execSledSuspReadResume lane die s
  | .mulLoad => Sys2Proof.Machine.execMulLoad s
  | .mulLoadDone => Sys2Proof.Machine.execMulLoadDone s
  | .muleEraseStart lane die unit bad => Sys2Proof.Machine.execMuleEraseStart lane die unit bad s
  | .muleMove cl bad => Sys2Proof.Machine.execMuleMove cl bad s
  | .muleJload cl => Sys2Proof.Machine.execMuleJload cl s
  | .goatPatrolStep bad bits => Sys2Proof.Machine.execGoatPatrolStep bad bits s
  | .goatScan cl bad => Sys2Proof.Machine.execGoatScan cl bad s
  | .goatCheck cl bad bits => Sys2Proof.Machine.execGoatCheck cl bad bits s
  | .trnQpInit qp => Sys2Proof.Machine.execTrnQpInit qp s
  | .trnQpRtr qp => Sys2Proof.Machine.execTrnQpRtr qp s
  | .trnQpRts qp => Sys2Proof.Machine.execTrnQpRts qp s
  | .trnQpErrorWrite qp => Sys2Proof.Machine.execTrnQpErrorWrite qp s
  | .trnQpReset qp => Sys2Proof.Machine.execTrnQpReset qp s
  | .trnWrite cl => Sys2Proof.Machine.execTrnWrite cl s
  | .trnWriteImm cl => Sys2Proof.Machine.execTrnWriteImm cl s
  | .trnSend cl => Sys2Proof.Machine.execTrnSend cl s
  | .trnLatch cl => Sys2Proof.Machine.execTrnLatch cl s
  | .trnAckTimeout qp => Sys2Proof.Machine.execTrnAckTimeout qp s
  | .trnRxAck qp psn k => Sys2Proof.Machine.execTrnRxAck qp psn k s
  | .trnRnrWaitExpiry qp => Sys2Proof.Machine.execTrnRnrWaitExpiry qp s
  | .trnRxWritePkt qp p => Sys2Proof.Machine.execTrnRxWritePkt qp p s
  | .trnRxSendPkt qp p => Sys2Proof.Machine.execTrnRxSendPkt qp p s
  | .heartbeatRx seq st => Sys2Proof.Machine.execHeartbeatRx seq st s
  | .bandRx n rec => Sys2Proof.Machine.execBandRx n rec s
  | .trnRespAckTimer qp => Sys2Proof.Machine.execTrnRespAckTimer qp s
  | .trnStallRetry qp => Sys2Proof.Machine.execTrnStallRetry qp s
  | .trnLinkDownTimeout path => Sys2Proof.Machine.execTrnLinkDownTimeout path s
  | .trnQuadLinkChange quad up => Sys2Proof.Machine.execTrnQuadLinkChange quad up s
  | .trnMrRegister => Sys2Proof.Machine.execTrnMrRegister s
  | .trnMrRevoke => Sys2Proof.Machine.execTrnMrRevoke s
  | .trnRevokeTimeout e => Sys2Proof.Machine.execTrnRevokeTimeout e s
  | .latchExpiry id => Sys2Proof.Machine.execLatchExpiry id s
  | .trnLatchCancelWrite id => Sys2Proof.Machine.execTrnLatchCancelWrite id s
  | .trnCfgWrite v => Sys2Proof.Machine.execTrnCfgWrite v s
  | .heartbeatSend => Sys2Proof.Machine.execHeartbeatSend s
  | .livenessKick => Sys2Proof.Machine.execLivenessKick s
  | .livenessExpiry => Sys2Proof.Machine.execLivenessExpiry s
  | .partnerLate => Sys2Proof.Machine.execPartnerLate s
  | .partnerLoss => Sys2Proof.Machine.execPartnerLoss s
  | .srchScrubVisit => Sys2Proof.Machine.execSrchScrubVisit s
  | .srchInit0 => Sys2Proof.Machine.execSrchInit0 s
  | .srchInit1 => Sys2Proof.Machine.execSrchInit1 s
  | .srchRestore1 => Sys2Proof.Machine.execSrchRestore1 s
  | .srchInitDone => Sys2Proof.Machine.execSrchInitDone s
  | .arbDecision ac inst => Sys2Proof.Machine.execArbDecision ac inst s
  | .arbForce ac inst => Sys2Proof.Machine.execArbForce ac inst s
  | .arbBackoffExpiry ac inst num => Sys2Proof.Machine.execArbBackoffExpiry ac inst num s
  | .vltAesEnc p => Sys2Proof.Machine.execVltAesEnc p s
  | .vltAesDec p => Sys2Proof.Machine.execVltAesDec p s
  | .vltKeyGen p => Sys2Proof.Machine.execVltKeyGen p s
  | .vltUnwrap p => Sys2Proof.Machine.execVltUnwrap p s
  | .vltWrap p => Sys2Proof.Machine.execVltWrap p s
  | .vltImport p => Sys2Proof.Machine.execVltImport p s
  | .vltSeal p => Sys2Proof.Machine.execVltSeal p s
  | .vltUnseal p => Sys2Proof.Machine.execVltUnseal p s
  | .vltXtsLoad p => Sys2Proof.Machine.execVltXtsLoad p s
  | .vltXtsClear p => Sys2Proof.Machine.execVltXtsClear p s
  | .vltKeyClear p => Sys2Proof.Machine.execVltKeyClear p s
  | .vltVerifySig p => Sys2Proof.Machine.execVltVerifySig p s
  | .vltAttest p => Sys2Proof.Machine.execVltAttest p s
  | .vltGetCert p => Sys2Proof.Machine.execVltGetCert p s
  | .vltDebugChal p => Sys2Proof.Machine.execVltDebugChal p s
  | .vltDebugOpen p => Sys2Proof.Machine.execVltDebugOpen p s
  | .vltSvnCommit p fuseOk => Sys2Proof.Machine.execVltSvnCommit p fuseOk s
  | .vltMediaCommit p fuseOk => Sys2Proof.Machine.execVltMediaCommit p fuseOk s
  | .vltOtpProgram p fuseOk => Sys2Proof.Machine.execVltOtpProgram p fuseOk s
  | .vltZeroize p => Sys2Proof.Machine.execVltZeroize p s
  | .vltCmdComplete p => Sys2Proof.Machine.execVltCmdComplete p s
  | .vltDoneClear p => Sys2Proof.Machine.execVltDoneClear p s
  | .vltRngRead => Sys2Proof.Machine.execVltRngRead s
  | .hchOpen b => Sys2Proof.Machine.execHchOpen b s
  | .hchClose b => Sys2Proof.Machine.execHchClose b s
  | .hchDiscard b => Sys2Proof.Machine.execHchDiscard b s
  | .hchVerifyStart b => Sys2Proof.Machine.execHchVerifyStart b s
  | .hchVerifyDone b => Sys2Proof.Machine.execHchVerifyDone b s
  | .hchNextWrite v => Sys2Proof.Machine.execHchNextWrite v s
  | .bar2Write off data => Sys2Proof.Machine.execBar2Write off data s
  | .coldResetRelease id otpOk => Sys2Proof.Machine.execColdResetRelease id otpOk s
  | .rootPllLock => Sys2Proof.Machine.execRootPllLock s
  | .bootEntry => Sys2Proof.Machine.execBootEntry s
  | .refClockLoss => Sys2Proof.Machine.execRefClockLoss s
  | .pcieRefLoss => Sys2Proof.Machine.execPcieRefLoss s
  | .pcieRefRestore => Sys2Proof.Machine.execPcieRefRestore s
  | .rtcStop => Sys2Proof.Machine.execRtcStop s
  | .rtcTick => Sys2Proof.Machine.execRtcTick s
  | .pwrModeRun d => Sys2Proof.Machine.execPwrModeRun d s
  | .pwrModeDoze d => Sys2Proof.Machine.execPwrModeDoze d s
  | .pwrModeRetain d => Sys2Proof.Machine.execPwrModeRetain d s
  | .pwrModeOff d => Sys2Proof.Machine.execPwrModeOff d s
  | .domainDozeIdle d => Sys2Proof.Machine.execDomainDozeIdle d s
  | .domainRetainIdle d => Sys2Proof.Machine.execDomainRetainIdle d s
  | .domainWakeComplete d => Sys2Proof.Machine.execDomainWakeComplete d s
  | .pgLow k => Sys2Proof.Machine.execPgLow k s
  | .coreWarnAssert sram mv => Sys2Proof.Machine.execCoreWarnAssert sram mv s
  | .coreWarnRelease sram mv low => Sys2Proof.Machine.execCoreWarnRelease sram mv low s
  | .coreResetLevel sram mv => Sys2Proof.Machine.execCoreResetLevel sram mv s
  | .pwrAvsWrite v => Sys2Proof.Machine.execPwrAvsWrite v s
  | .vidStep => Sys2Proof.Machine.execVidStep s
  | .thermSample tj sensor => Sys2Proof.Machine.execThermSample tj sensor s
  | .thermShutdown tj => Sys2Proof.Machine.execThermShutdown tj s
  | .headRstPin => Sys2Proof.Machine.execHeadRstPin s
  | .pwrRstCold key => Sys2Proof.Machine.execPwrRstCold key s
  | .pwrRstWarm key => Sys2Proof.Machine.execPwrRstWarm key s
  | .warmResetComplete => Sys2Proof.Machine.execWarmResetComplete s
  | .pwrVminRearm => Sys2Proof.Machine.execPwrVminRearm s
  | .evtRaiseWrite v => Sys2Proof.Machine.execEvtRaiseWrite v s
  | .evtCoalesceTimeout vec => Sys2Proof.Machine.execEvtCoalesceTimeout vec s
  | .eventItemRetry src => Sys2Proof.Machine.execEventItemRetry src s
  | .evtSrcWrite src v => Sys2Proof.Machine.execEvtSrcWrite src v s
  | .evtCtrClrWrite v => Sys2Proof.Machine.execEvtCtrClrWrite v s
  | .counterLowRead req off => Sys2Proof.Machine.execCounterLowRead req off s
  | .logPostWrite v => Sys2Proof.Machine.execLogPostWrite v s
  | .logCommitTimer k => Sys2Proof.Machine.execLogCommitTimer k s
  | .logCalSetWrite v => Sys2Proof.Machine.execLogCalSetWrite v s
  | .logSelWrite req v => Sys2Proof.Machine.execLogSelWrite req v s
  | .logRateWrite e v => Sys2Proof.Machine.execLogRateWrite e v s
  | .mbxH2dTailWrite v data => Sys2Proof.Machine.execMbxH2dTailWrite v data s
  | .mbxWrap => Sys2Proof.Machine.execMbxWrap s
  | .mbxPing => Sys2Proof.Machine.execMbxPing s
  | .mbxStatus => Sys2Proof.Machine.execMbxStatus s
  | .mbxDownload => Sys2Proof.Machine.execMbxDownload s
  | .mbxLogRead => Sys2Proof.Machine.execMbxLogRead s
  | .mbxAttest => Sys2Proof.Machine.execMbxAttest s
  | .mbxCert => Sys2Proof.Machine.execMbxCert s
  | .mbxActivate => Sys2Proof.Machine.execMbxActivate s
  | .mbxRelease => Sys2Proof.Machine.execMbxRelease s
  | .mbxUpdate => Sys2Proof.Machine.execMbxUpdate s
  | .mbxFw => Sys2Proof.Machine.execMbxFw s
  | .mbxExtentTimeout => Sys2Proof.Machine.execMbxExtentTimeout s
  | .mbxHoldRetry => Sys2Proof.Machine.execMbxHoldRetry s
  | .mbxResetWrite => Sys2Proof.Machine.execMbxResetWrite s
  | .mbxD2hHeadWrite v => Sys2Proof.Machine.execMbxD2hHeadWrite v s
  | .mbxSend cl => Sys2Proof.Machine.execMbxSend cl s
  | .pcieReset speed width => Sys2Proof.Machine.execPcieReset speed width s
  | .pcieTlpError e bar off => Sys2Proof.Machine.execPcieTlpError e bar off s
  | .i2cWrite data => Sys2Proof.Machine.execI2cWrite data s
  | .i2cReadByte => Sys2Proof.Machine.execI2cReadByte s
  | .i2cSclTimeout => Sys2Proof.Machine.execI2cSclTimeout s
  | .registerWrite req off size v => Sys2Proof.Machine.execRegisterWrite req off size v s
  | .undefinedEncoding t w => Sys2Proof.Machine.execUndefinedEncoding t w s
  | .lifecycleCommand c => Sys2Proof.Machine.execLifecycleCommand c s
  | .vddAonPowerOn vbat => Sys2Proof.Machine.execVddAonPowerOn vbat s
  | .vddAonLoss vbat => Sys2Proof.Machine.execVddAonLoss vbat s
  | .supplyGoodHigh => Sys2Proof.Machine.execSupplyGoodHigh s
  | .nmlSignalDetect lane => Sys2Proof.Machine.execNmlSignalDetect lane s
  | .refPpmWindow ppm => Sys2Proof.Machine.execRefPpmWindow ppm s
  | .avsSettle => Sys2Proof.Machine.execAvsSettle s
  | .logCommitDone ok => Sys2Proof.Machine.execLogCommitDone ok s
  | .rebuildStripe k bad progBad => Sys2Proof.Machine.execRebuildStripe k bad progBad s
  | .msixUnmask k => Sys2Proof.Machine.execMsixUnmask k s

end Sys2Proof.Machine
end

