-- ==== Sys2Proof/Machine/Time.lean ====
section
/-! DEFINITION. The passing of time (R413): what a tick on an empty queue does (assumption log 2). -/

namespace Sys2Proof.Machine

/-- A thread's CYCLE and BUDGET after `n` CORE cycles (R38, R61): they count while the thread runs and while it waits.
WATCHDOG becomes due when BUDGET reaches 0. -/
def Thread.cycles (th : Thread) (n : Nat) : Thread :=
  if th.st = .run ∨ th.st = .wait then
    { th with cycle := (th.cycle + n) % 2 ^ 64, budget := th.budget.map (· - n),
              wdog := th.wdog || (match th.budget with
                | some b => decide (1 ≤ b ∧ b ≤ n)
                | none => false) }
  else th

/-- One edge of the clock that counts device time (R413): 1 ns, two CORE cycles, from ROOT lock on; before it 40 ns, with
no clock for the cores. Nothing while head reset is held. -/
def State.tick (s : State) : State :=
  if !s.pwr.released then s
  else if s.flag F.CLK_STATUS_ROOT_LOCK then
    { s with now := (s.now + 1) % 2 ^ 64, threads := s.threads.map (fun p => (p.1, p.2.cycles 2)) }
  else { s with now := (s.now + 40) % 2 ^ 64 }

end Sys2Proof.Machine
end

