-- ==== Sys2Proof/Safety.lean ====
section
/-! DEFINITION. The terms in which claims are stated: a thread that issues its next instruction, a job that its unit runs next,
what a retired instruction leaves, and the invariants of the state. -/

namespace Sys2Proof.Machine

/-- Thread `t` issues its next instruction: it can issue (R36), no watchdog is due (R61), no debug breakpoint stands there (R41), and
the word can be fetched (R45) without a correction (R487). -/
def State.Ready (s : State) (t : Nat) : Prop :=
  s.canIssue t = true ∧ (s.thread t).wdog = false ∧ s.atBreak t = false ∧ s.fixIn (s.thread t).pc.toNat 4 = [] ∧ s.fetchBarred t (s.thread t).pc.toNat = false ∧
    s.canFetch t (s.thread t).pc.toNat = true

/-- An instruction that writes one register and goes on at the next word. -/
def State.retire (s : State) (t rd : Nat) (v : Word) : State := (s.setG t rd v).advance t

/-- The unit runs job `j` next for a cluster: it heads the ring, the unit is present and in RUN, the ring holds the grant, and
the common checks of R94 and R95 pass. -/
def State.JobReady (s : State) (cls inst cl : Nat) (j : Job) : Prop :=
  (s.ring cls inst cl).head? = some j ∧ s.unitPresent cls inst = true ∧ s.domRuns (unitDomain cls inst) = true ∧
    s.granted cls inst cl = true ∧ opDefined cls j.op = true ∧ j.flagsOk = true

/-- Job `j`, the head of a ring in `s`, has ended in `s'`: its completion is on its way to its thread (R66) and it has left the
ring. -/
def State.Finished (s s' : State) (cls inst cl : Nat) (j : Job) (status aux result : Nat) : Prop :=
  { gid := j.gid, status := status, unit := inst, ticket := j.ticket, aux := aux, result := result } ∈ s'.comps ∧
    s'.ring cls inst cl = (s.ring cls inst cl).tail

/-- The item of a job has no promise whose deadline has passed, so a front-end or segment job ends as its own work does (R96). -/
def State.InTime (s : State) (j : Job) : Prop := ∀ k p, j.item = some k → SMap.find s.prms k = some p → p.st ≠ .expired

/-- A segment of connection `c` is processed at once: its quad is enabled and not paused, its context is on chip, and no earlier
segment of the connection waits. -/
def State.Hears (s : State) (c : Nat) (x : Conn) : Prop :=
  s.conn c = some x ∧ bitOf (s.rd F.FE_CTL_QUAD_EN) x.quad = true ∧ s.fe.paused = false ∧ x.cached = true ∧ s.segHeld c = false

/-- `n` bytes that connection `x` sends now leave at once: the stream holds nothing back, both windows have room for them, and the
port exists, is not stopped and needs no MACsec. -/
def State.SendsNow (s : State) (x : Conn) (n : Nat) : Prop :=
  x.tcp.queue = [] ∧ x.tcp.recover = none ∧ x.tcp.highRxt = 0 ∧ x.tcp.nxt = x.sent ∧ x.sent + n ≤ x.acked + x.tcp.rwnd ∧ n ≤ x.tcp.cwnd ∧
    s.squelched = false ∧ s.portSpeed (s.rd F.FE_IPIF_PORT x.ipif) ≠ 0 ∧ s.fe.pfc = [] ∧ s.fe.pfcUntil = [] ∧
    s.flag F.FE_IPIF_MACSEC_REQ x.ipif = false

/-- The map cache unit has nothing under way that a command could carry on: no commit runs or is asked for, the background engine
is idle, no invalidate waits, and the victim buffer does not call for a commit. -/
def State.MapQuiet (s : State) : Prop :=
  s.map.commit = none ∧ s.map.next = none ∧ s.map.bg = [] ∧ s.map.maint = [] ∧ s.vbDirty ≤ s.rd F.MAP_COMMIT_CFG_VB_HI

/-- Line `n` holds key `k`, readable, in a set whose header passes its check and lies apart from it. -/
def State.Cached (s : State) (k : MKey) (n : Nat) : Prop :=
  s.hdrOk (s.mapSet k) = true ∧ s.lineOf k = some n ∧ s.badIn (s.lineAddr n) 4096 = false ∧
    (s.hdrAddr (s.mapSet k) + 256 ≤ s.lineAddr n ∨ s.lineAddr n + 4096 ≤ s.hdrAddr (s.mapSet k))

/-- A commit asked for now would be captured but wait for the watermark (R239 step 2). -/
def State.CommitWaits (s : State) : Prop :=
  s.flag F.MAP_STATUS_COMMIT_ERR = false ∧
    s.ldMem (s.rd F.MAP_WM_ADDR_ADDR * 8) 8 ≤ (s.ldMem (s.rd F.MAP_SEQ_ADDR_ADDR * 8) 8 + 2 ^ 64 - 1) % 2 ^ 64

/-- A commit waits for the watermark in step 2, asked for what `wants` names. -/
def State.CommitAt2 (s s' : State) (wants : List MWant) (bg : Bool) : Prop :=
  ∃ c, s'.map.commit = some c ∧ c.step = 2 ∧ c.c = (s.ldMem (s.rd F.MAP_SEQ_ADDR_ADDR * 8) 8 + 2 ^ 64 - 1) % 2 ^ 64 ∧
    c.wants = wants ∧ c.bg = bg ∧ s'.flag F.MAP_STATUS_COMMIT_BUSY = true

/-- Memory has its canonical form: addresses strictly rising, no byte listed that reads as an unlisted one. -/
def State.MemoryCanonical (s : State) : Prop := Memory.wf s.mem = true

/-- The staging buffers are listed in rising order, each inside the area and ending before the next begins. -/
def stagingOk : Nat → SMap StgBuf → Prop
  | _, [] => True
  | lo, (b, x) :: m => lo ≤ b ∧ 1 ≤ x.len ∧ b + (x.len + 63) / 64 ≤ stgGranules ∧ stagingOk (b + (x.len + 63) / 64) m

/-- The buffers of the staging area lie in order and apart (R87). -/
def State.StagingOk (s : State) : Prop := stagingOk 0 s.bufs

/-- Nothing but thread `t` has changed. -/
def State.SameButThread (s s' : State) (t : Nat) : Prop :=
  s' = { s with threads := s'.threads } ∧ ∀ u, u ≠ t → s'.thread u = s.thread u

end Sys2Proof.Machine
end

