-- ==== Sys2Proof/Certificates/Slice0/Obligations.lean ====
section
/-! DEFINITION. The statements about the head that the provers are asked for, each formalising rules of spec/. -/

open Sys2Proof Sys2Proof.Machine

/-- For every command c, every queue rest and every state, one step of the state whose queue is c followed by rest is
exec of c on the state whose queue is rest. Every command of the table answers a next state in every state: none faults
or is refused. On an empty queue a step lets one edge of the clock of device time pass (the model's choice, assumption
log 2). -/
def Obligations.StepRunsFrontCommand : Prop :=
  (∀ (c : Instr) (rest : List Instr) (s : State),
    step { s with pending := c :: rest } = exec c { s with pending := rest }) ∧
  (∀ (c : Instr) (s : State), ∃ s' : State, exec c s = .next s') ∧
  (∀ s : State, s.pending = [] → step s = .next s.tick)

/-- For every thread: the word 0xA28A_1FF0 of the chapter's example is J g20, g10, OX, ANY; 0x0800_0000 is ADDI g0, g0,
0; and words built field by field for ADD, LD.D, ST.W, AMO.CAS, BEQ, JAL, Q.PUSH with INHERIT, SRCH.RD, WKT.SLK and
CSR.R decode to those instructions. The word 0 decodes to nothing. -/
def Obligations.InstructionWordsDecode : Prop :=
  ∀ t : BitVec 8,
    decodeMeq t 0xA28A1FF0#32 = some (.j t 20 10 3 0x7F) ∧
    decodeMeq t 0x08000000#32 = some (.addi t 0 0 0) ∧
    decodeMeq t (0b000001#6 ++ 0b00011#5 ++ 0b00001#5 ++ 0b00010#5 ++ 0b00000000000#11) = some (.add t 3 1 2) ∧
    decodeMeq t (0x16#6 ++ 4#5 ++ 7#5 ++ 0xFFF8#16) = some (.ldD t 4 7 0xFFF8) ∧
    decodeMeq t (0x1A#6 ++ 9#5 ++ 8#5 ++ 12#16) = some (.stW t 9 8 12) ∧
    decodeMeq t (0x1C#6 ++ 5#5 ++ 6#5 ++ 7#5 ++ 0x012#11) = some (.amoCas t true 5 6 7) ∧
    decodeMeq t (0x20#6 ++ 1#5 ++ 2#5 ++ 0x8000#16) = some (.beq t 1 2 0x8000) ∧
    decodeMeq t (0x26#6 ++ 31#5 ++ 0x1FFFFF#21) = some (.jal t 31 0x1FFFFF) ∧
    decodeMeq t (0x30#6 ++ 1#5 ++ 2#5 ++ 3#5 ++ 0#7 ++ 1#4) = some (.qPush t true 1 2 3) ∧
    decodeMeq t (0x31#6 ++ 20#5 ++ 0#5 ++ 3#5 ++ 4#7 ++ 0#4) = some (.srchRd t 20 3) ∧
    decodeMeq t (0x32#6 ++ 4#5 ++ 0#5 ++ 0#5 ++ 1#7 ++ 0#4) = some (.wktSlk t 4) ∧
    decodeMeq t (0x3F#6 ++ 1#5 ++ 0#5 ++ 0#4 ++ 0x010#12) = some (.csrR t 1 0x010) ∧
    decodeMeq t 0#32 = none

/-- For every command i that is an instruction of thread t and every word w that the encoder gives for it: decoding w
for thread t gives i. The encoder gives a word to every instruction row. -/
def Obligations.DecodeOfEncodeIsTheInstruction : Prop :=
  (∀ (i : Instr) (w : BitVec 32), encodeMeq i = some w → ∃ t, decodeMeq t w = some i) ∧
  (∀ (t : BitVec 8) (i : Instr) (w : BitVec 32), decodeMeq t w = some i → encodeMeq i = some w)

/-- For every thread that is ready and every operand registers: exec of each operation of R76 on two registers, and of
the four unary ones, answers a next state: rd holds the value the table gives for the operation (shift amounts are bits
[5:0] of rs2; signed operations on two's complement; divisions truncated toward zero, with the results of R77 for
division by zero and for -2^63 by -1), the PC is at the next word, and nothing else has changed. SER.B, SER.H, SER.P and
SER.W compare in serial arithmetic of n = 8, 16, 24 and 32 bits: with d = (rs1 - rs2) mod 2^n, rd is 1 if d lies in 1 to
2^(n-1) - 1 (a is later), all ones if (rs2 - rs1) mod 2^n lies there (b is later), and otherwise 0. -/
def Obligations.RegisterOperationsWriteTheirResult : Prop :=
  ∀ (t : BitVec 8) (rd rs1 rs2 : BitVec 5) (s : State), s.Ready t.toNat →
    let a := s.g t.toNat rs1.toNat
    let b := s.g t.toNat rs2.toNat
    let sh := b.toNat % 64
    let ones := BitVec.allOnes 64
    (∀ p ∈ ([
      (.add t rd rs1 rs2, a + b), (.sub t rd rs1 rs2, a - b), (.and t rd rs1 rs2, a &&& b), (.or t rd rs1 rs2, a ||| b),
      (.xor t rd rs1 rs2, a ^^^ b), (.andn t rd rs1 rs2, a &&& ~~~b),
      (.sll t rd rs1 rs2, a <<< sh), (.srl t rd rs1 rs2, a >>> sh), (.sra t rd rs1 rs2, BitVec.ofInt 64 (a.toInt / 2 ^ sh)),
      (.rotr t rd rs1 rs2, (a >>> sh) ||| (a <<< ((64 - sh) % 64))),
      (.slt t rd rs1 rs2, if a.toInt < b.toInt then 1 else 0), (.sltu t rd rs1 rs2, if a.toNat < b.toNat then 1 else 0),
      (.min t rd rs1 rs2, if a.toInt ≤ b.toInt then a else b), (.max t rd rs1 rs2, if a.toInt ≤ b.toInt then b else a),
      (.minu t rd rs1 rs2, if a.toNat ≤ b.toNat then a else b), (.maxu t rd rs1 rs2, if a.toNat ≤ b.toNat then b else a),
      (.mul t rd rs1 rs2, BitVec.ofNat 64 (a.toNat * b.toNat)),
      (.mulh t rd rs1 rs2, BitVec.ofInt 64 (a.toInt * b.toInt / 2 ^ 64)),
      (.mulhu t rd rs1 rs2, BitVec.ofNat 64 (a.toNat * b.toNat / 2 ^ 64)),
      (.div t rd rs1 rs2, if b = 0 then ones else BitVec.ofInt 64 (a.toInt.tdiv b.toInt)),
      (.divu t rd rs1 rs2, if b = 0 then ones else BitVec.ofNat 64 (a.toNat / b.toNat)),
      (.rem t rd rs1 rs2, if b = 0 then a else BitVec.ofInt 64 (a.toInt.tmod b.toInt)),
      (.remu t rd rs1 rs2, if b = 0 then a else BitVec.ofNat 64 (a.toNat % b.toNat)),
      (.clz t rd rs1, BitVec.ofNat 64 ((List.range 64).takeWhile (fun i => !a.getLsbD (63 - i))).length),
      (.ctz t rd rs1, BitVec.ofNat 64 ((List.range 64).takeWhile (fun i => !a.getLsbD i)).length),
      (.popc t rd rs1, BitVec.ofNat 64 ((List.range 64).countP (fun i => a.getLsbD i))),
      (.bswap t rd rs1, (List.range 8).foldl (fun w i => w ||| (((a >>> (8 * i)) &&& 0xFF#64) <<< (56 - 8 * i))) 0)] : List (Instr × Word)),
      exec p.1 s = .next (s.retire t.toNat rd.toNat p.2)) ∧
    (
    let later : Nat → Word → Word → Prop := fun n a b =>
      1 ≤ ((a.toNat : Int) - b.toNat) % 2 ^ n ∧ ((a.toNat : Int) - b.toNat) % 2 ^ n ≤ 2 ^ (n - 1) - 1
    ∀ p ∈ ([(8, .serB t rd rs1 rs2), (16, .serH t rd rs1 rs2), (24, .serP t rd rs1 rs2), (32, .serW t rd rs1 rs2)] : List (Nat × Instr)),
      (later p.1 (s.g t.toNat rs1.toNat) (s.g t.toNat rs2.toNat) → exec p.2 s = .next (s.retire t.toNat rd.toNat 1)) ∧
      (later p.1 (s.g t.toNat rs2.toNat) (s.g t.toNat rs1.toNat) →
        exec p.2 s = .next (s.retire t.toNat rd.toNat 0xFFFFFFFFFFFFFFFF#64)) ∧
      (¬ later p.1 (s.g t.toNat rs1.toNat) (s.g t.toNat rs2.toNat) ∧ ¬ later p.1 (s.g t.toNat rs2.toNat) (s.g t.toNat rs1.toNat) →
        exec p.2 s = .next (s.retire t.toNat rd.toNat 0)))

/-- For a ready thread, exec of each operation of R79 answers a next state in which rd holds the value of the table
(ADDI, SLTI, SLTIU and LUI sign-extend the immediate, ANDI, ORI, XORI and SHI zero-extend it), the PC is at the next
word, and nothing else has changed. -/
def Obligations.ImmediateOperationsWriteTheirResult : Prop :=
  ∀ (t : BitVec 8) (rd rs1 : BitVec 5) (imm : BitVec 16) (sh : BitVec 6) (s : State), s.Ready t.toNat →
    let a := s.g t.toNat rs1.toNat
    let sx : Word := imm.signExtend 64
    let zx : Word := imm.setWidth 64
    ∀ p ∈ ([
      (.addi t rd rs1 imm, a + sx), (.andi t rd rs1 imm, a &&& zx), (.ori t rd rs1 imm, a ||| zx), (.xori t rd rs1 imm, a ^^^ zx),
      (.slti t rd rs1 imm, if a.toInt < sx.toInt then 1 else 0), (.sltiu t rd rs1 imm, if a.toNat < sx.toNat then 1 else 0),
      (.slli t rd rs1 sh, a <<< sh.toNat), (.srli t rd rs1 sh, a >>> sh.toNat),
      (.srai t rd rs1 sh, BitVec.ofInt 64 (a.toInt / 2 ^ sh.toNat)),
      (.lui t rd imm, sx <<< 16), (.shi t rd rs1 imm, (a <<< 16) ||| zx)] : List (Instr × Word)),
      exec p.1 s = .next (s.retire t.toNat rd.toNat p.2)

/-- What an instruction that writes rd leaves: general register r of the thread reads the value if r is rd and rd is not
g0, and else what it read before (g0 reads 0 and discards writes); the PC advances by 4; the thread's control registers,
every other thread, every byte of memory and every other part of the head are unchanged. -/
def Obligations.RetiredInstructionChangesOnlyItsRegister : Prop :=
  ∀ (s : State) (t rd r : Nat) (v : Word),
    (s.retire t rd v).g t r = (if r = rd ∧ rd ≠ 0 then v else s.g t r) ∧
    (s.retire t rd v).g t 0 = 0 ∧
    ((s.retire t rd v).thread t).pc = (s.thread t).pc + 4 ∧
    (s.retire t rd v).thread t = { s.thread t with g := ((s.retire t rd v).thread t).g, pc := (s.thread t).pc + 4 } ∧
    s.SameButThread (s.retire t rd v) t ∧
    (∀ a, memGet (s.retire t rd v).mem a = memGet s.mem a)

/-- For a thread with STATUS.EXC = 0, taking vector v with an EVAL and an EPC leaves EPC, ECAUSE and EVAL so, PKEEPER
the privilege before, KEEPER and EXC set, the thread in RUN at EVEC + 64 v, its other registers and every other thread
and byte of memory unchanged. SYSC and BRK of a ready thread take SYSCALL and BREAK with EVAL their IMM12 and EPC the
next instruction. A word that decodes to no instruction takes ILLEGAL with EVAL the word and EPC its address. ERET of a
ready keeper thread in an exception restores KEEPER from PKEEPER, clears EXC and resumes at EPC. A thread with EXC = 1
that takes an exception in ACTIVE goes to HALT, with its registers, EPC, ECAUSE and EVAL kept, and the head goes to
DOWN, which stops its cores: HALT is then its state, or the state a stopped thread of an enabled core holds (the model's
choice, assumption log 75). -/
def Obligations.ExceptionEntryAndReturn : Prop :=
  (∀ (s : State) (t vec : Nat) (eval epc : Word), (s.thread t).exc = false →
    let th := s.thread t
    (s.trap t vec eval epc).thread t =
      { th with epc := epc, ecause := vec, eval := eval, pkeeper := th.keeper, keeper := true, exc := true, st := .run, wait := none,
                pc := th.evec + BitVec.ofNat 64 (64 * vec) } ∧
    s.SameButThread (s.trap t vec eval epc) t) ∧
  (∀ (s : State) (t : BitVec 8) (imm : BitVec 12), s.Ready t.toNat →
    let pc := (s.thread t.toNat).pc
    exec (.sysc t imm) s = .next (s.trap t.toNat 0x0A (imm.setWidth 64) (pc + 4)) ∧
    exec (.brk t imm) s = .next (s.trap t.toNat 0x0B (imm.setWidth 64) (pc + 4))) ∧
  (∀ (s : State) (t : BitVec 8) (w : BitVec 32), s.Ready t.toNat → decodeMeq t w = none →
    exec (.undefinedEncoding t w) s = .next (s.trap t.toNat 0x01 (w.setWidth 64) (s.thread t.toNat).pc)) ∧
  (∀ (s : State) (t : BitVec 8), s.Ready t.toNat → (s.thread t.toNat).keeper = true → (s.thread t.toNat).exc = true →
    ∃ s', exec (.eret t) s = .next s' ∧ s.SameButThread s' t.toNat ∧
      s'.thread t.toNat = { s.thread t.toNat with keeper := (s.thread t.toNat).pkeeper, exc := false, pc := (s.thread t.toNat).epc }) ∧
  (∀ (s : State) (t vec : Nat) (eval epc : Word), (s.thread t).exc = true → s.life = .active →
    let th := (s.trap t vec eval epc).thread t
    (th.st = .halt ∨ th.st = .stop ∧ th.held = .halt) ∧ th.g = (s.thread t).g ∧ th.epc = (s.thread t).epc ∧
    th.ecause = (s.thread t).ecause ∧ th.eval = (s.thread t).eval ∧ (s.trap t vec eval epc).life = .down)

/-- For a ready thread and each of the seven loads, with the address g[rs1] + sext(DISP16) aligned or not: where the
address map gives a vector, the load takes it with EVAL the address. Where it gives memory whose granules hold no
uncorrectable error, rd receives the bytes, from the core's line where the cache is on and holds one with good parity
and else from memory (a line with a parity error is refetched), sign-extended (LD.B, LD.H, LD.W) or zero-extended; the
thread changes only rd and PC, no other thread and no byte of memory changes, and where the line holds no parity error
and no correctable error nothing but that thread, the data cache and the count of open choices changes. Where it meets
an uncorrectable error it takes MEM_ECC and rd is unchanged. Where it gives a device register, the register is read
once. -/
def Obligations.LoadsReturnMemoryOrTrap : Prop :=
  ∀ (t : BitVec 8) (rd rs1 : BitVec 5) (disp : BitVec 16) (s : State), s.Ready t.toNat →
    let ea := s.g t.toNat rs1.toNat + disp.signExtend 64
    let pc := (s.thread t.toNat).pc
    let sx : Nat → Nat → Word := fun w v => (BitVec.ofNat w v).signExtend 64
    ∀ p ∈ ([(1, .ldB t rd rs1 disp, sx 8), (1, .ldBu t rd rs1 disp, BitVec.ofNat 64), (2, .ldH t rd rs1 disp, sx 16),
        (2, .ldHu t rd rs1 disp, BitVec.ofNat 64), (4, .ldW t rd rs1 disp, sx 32), (4, .ldWu t rd rs1 disp, BitVec.ofNat 64),
        (8, .ldD t rd rs1 disp, BitVec.ofNat 64)] : List (Nat × Instr × (Nat → Word))),
      (∀ vec, s.placeOf t.toNat ea.toNat p.1 .load = .bad vec → exec p.2.1 s = .next (s.trap t.toNat vec ea pc)) ∧
      (∀ a, s.placeOf t.toNat ea.toNat p.1 .load = .mem a →
        let held := if s.dcOn t.toNat a then s.dline (coreOf t.toNat) a else none
        let line := held.filter (fun d => !d.parity)
        let v := match line with
          | some d => bitsOf d.data.toNat (8 * (a % 64)) (8 * p.1)
          | none => s.ldMem a p.1
        (s.badIn a p.1 = false →
          ∃ s', exec p.2.1 s = .next s' ∧ s'.thread t.toNat = { (s.thread t.toNat).setG rd.toNat (p.2.2 v) with pc := pc + 4 } ∧
            (∀ u, u ≠ t.toNat → s'.thread u = s.thread u) ∧ s'.mem = s.mem ∧
            (s.fixIn (a / 64 * 64) 64 = [] → held = line →
              s' = { s with threads := s'.threads, dcache := s'.dcache, freeCtr := s'.freeCtr })) ∧
        (s.badIn a p.1 = true → line = none →
          ∃ s₁ : State, s₁.threads = s.threads ∧ s₁.mem = s.mem ∧ exec p.2.1 s = .next (s₁.trap t.toNat 0x06 ea pc))) ∧
      (∀ off, s.placeOf t.toNat ea.toNat p.1 .load = .reg off →
        let r := s.busRead (.core (coreOf t.toNat)) off p.1
        exec p.2.1 s = .next (r.1.retire t.toNat rd.toNat (p.2.2 r.2.toNat)))

/-- For a ready thread and each of the four stores: where the address map gives a vector, the store takes it with EVAL
the address. Where it gives memory with no uncorrectable error in the granules it touches, the bytes at the address
become the low bytes of g[rs], little-endian, every other byte of memory reads as before, the thread changes only its
PC, and nothing else changes but the core's cached line (where no granule held a correctable error). A store of 1, 2 or
4 bytes to a granule with an uncorrectable error stores nothing and goes on. Where it gives a device register, the
register is written. -/
def Obligations.StoresWriteMemoryOrTrap : Prop :=
  ∀ (t : BitVec 8) (rs rs1 : BitVec 5) (disp : BitVec 16) (s : State), s.Ready t.toNat →
    let ea := s.g t.toNat rs1.toNat + disp.signExtend 64
    let pc := (s.thread t.toNat).pc
    let v := (s.g t.toNat rs.toNat).toNat
    ∀ p ∈ ([(1, .stB t rs rs1 disp), (2, .stH t rs rs1 disp), (4, .stW t rs rs1 disp), (8, .stD t rs rs1 disp)] : List (Nat × Instr)),
      (∀ vec, s.placeOf t.toNat ea.toNat p.1 .store = .bad vec → exec p.2 s = .next (s.trap t.toNat vec ea pc)) ∧
      (∀ a, s.placeOf t.toNat ea.toNat p.1 .store = .mem a →
        (s.badIn a p.1 = false →
          ∃ s', exec p.2 s = .next s' ∧ s'.thread t.toNat = { s.thread t.toNat with pc := pc + 4 } ∧
            (∀ u, u ≠ t.toNat → s'.thread u = s.thread u) ∧
            (∀ x, memGet s'.mem x = if a ≤ x ∧ x < a + p.1 then BitVec.ofNat 8 (v >>> (8 * (x - a))) else memGet s.mem x) ∧
            (s.fixIn a p.1 = [] → s' = { s with threads := s'.threads, mem := s'.mem, dcache := s'.dcache })) ∧
        (s.badIn a p.1 = true → p.1 ≠ 8 →
          ∃ s', exec p.2 s = .next s' ∧ s'.thread t.toNat = { s.thread t.toNat with pc := pc + 4 } ∧
            ∀ x, memGet s'.mem x = memGet s.mem x)) ∧
      (∀ off, s.placeOf t.toNat ea.toNat p.1 .store = .reg off →
        let s' := s.busWrite (.core (coreOf t.toNat)) off p.1 v
        s'.life ≠ .cold → exec p.2 s = .next (s'.advance t.toNat))

/-- For every thread, every aligned memory address without an uncorrectable error and every width of 1, 2, 4 or 8 bytes:
what a load reads right after a store of v at the same address, through the core's data cache or not, is v modulo its
width. -/
def Obligations.LoadReturnsOwnLatestStore : Prop :=
  ∀ (s : State) (t a n v : Nat), n ∈ [1, 2, 4, 8] → a % n = 0 → s.badIn a n = false →
    ((s.memStore t a n (v % 2 ^ (8 * n))).memLoad t a n).2 = some (v % 2 ^ (8 * n))

/-- For a ready thread, both widths and each of the seven atomics: where the address map gives memory without an
uncorrectable error, rd receives the old value zero-extended, the bytes at the address become the new value of R81
(taken from the low bits of rs2 and, for AMO.CAS, compared with the low bits of rd's entry value), every other byte of
memory and every other thread are unchanged, the thread changes only rd and PC, and the core's line for the address is
gone. Where the address map gives a vector, the atomic takes it. The map never gives an atomic a device register. That
an atomic which meets an uncorrectable error takes MEM_ECC is the model's reading (assumption log 32) and is not claimed
here. -/
def Obligations.AtomicsReadModifyWrite : Prop :=
  ∀ (t : BitVec 8) (wide : Bool) (rd rs1 rs2 : BitVec 5) (s : State), s.Ready t.toNat →
    let n := if wide then 8 else 4
    let ea := s.g t.toNat rs1.toNat
    let pc := (s.thread t.toNat).pc
    let b := (s.g t.toNat rs2.toNat).toNat % 2 ^ (8 * n)
    let e := (s.g t.toNat rd.toNat).toNat % 2 ^ (8 * n)
    (∀ off, s.placeOf t.toNat ea.toNat n .amo ≠ .reg off) ∧
    ∀ p ∈ ([(.amoAdd t wide rd rs1 rs2, fun old => (old + b) % 2 ^ (8 * n)), (.amoSwap t wide rd rs1 rs2, fun _ => b),
        (.amoCas t wide rd rs1 rs2, fun old => if old = e then b else old), (.amoAnd t wide rd rs1 rs2, fun old => old &&& b),
        (.amoOr t wide rd rs1 rs2, fun old => old ||| b), (.amoMaxu t wide rd rs1 rs2, fun old => if old < b then b else old),
        (.amoMinu t wide rd rs1 rs2, fun old => if old < b then old else b)] : List (Instr × (Nat → Nat))),
      (∀ vec, s.placeOf t.toNat ea.toNat n .amo = .bad vec → exec p.1 s = .next (s.trap t.toNat vec ea pc)) ∧
      (∀ a, s.placeOf t.toNat ea.toNat n .amo = .mem a → s.badIn a n = false →
        let old := s.ldMem a n
        ∃ s', exec p.1 s = .next s' ∧
          s'.thread t.toNat = { (s.thread t.toNat).setG rd.toNat (BitVec.ofNat 64 old) with pc := pc + 4 } ∧
          (∀ u, u ≠ t.toNat → s'.thread u = s.thread u) ∧
          (∀ x, memGet s'.mem x = if a ≤ x ∧ x < a + n then BitVec.ofNat 8 (p.2 old >>> (8 * (x - a))) else memGet s.mem x) ∧
          s'.dline (coreOf t.toNat) a = none)

/-- For an aligned load, store or atomic of a thread: its own core's scratch, the staging buffer area and other cores'
scratch (at KEEPER) are memory; the item pool takes ACCESS; other cores' scratch and the device registers take ACCESS at
HANDLER; a device register is reached at KEEPER by a load or store of 4 or 8 bytes at its BAR0 offset; any address the
map does not list takes BUS. An HBM address is memory or takes ACCESS (R45), never BUS. A misaligned access takes ALIGN.
-/
def Obligations.AccessMapOfTheCores : Prop :=
  ∀ (s : State) (t a n : Nat) (k : Access), n ∈ [1, 2, 4, 8] →
    (a % n ≠ 0 → s.placeOf t a n k = .bad 0x03) ∧
    (a % n = 0 →
      (a ≤ 0x3FFFF → s.placeOf t a n k = .mem (0x20000000 + 0x40000 * coreOf t + a)) ∧
      (0x10000000 ≤ a ∧ a ≤ 0x147FFFFF → s.placeOf t a n k = .mem a) ∧
      (0x14800000 ≤ a ∧ a ≤ 0x15FFFFFF → s.placeOf t a n k = .bad 0x04) ∧
      (0x20000000 ≤ a ∧ a ≤ 0x20FFFFFF → s.placeOf t a n k = if (s.thread t).keeper then .mem a else .bad 0x04) ∧
      (0x40000000 ≤ a ∧ a ≤ 0x43FFFFFF →
        s.placeOf t a n k =
          if (s.thread t).keeper = true ∧ (n = 4 ∨ n = 8) ∧ (k = .load ∨ k = .store) then .reg (a - 0x40000000) else .bad 0x04) ∧
      (0x10000000000 ≤ a ∧ a < 0x10000000000 + s.hbmSize → s.placeOf t a n k = .mem a ∨ s.placeOf t a n k = .bad 0x04) ∧
      (0x10000000000 + s.hbmSize ≤ a ∨ (0x40000 ≤ a ∧ a < 0x10000000) ∨ (0x16000000 ≤ a ∧ a < 0x20000000) ∨
          (0x21000000 ≤ a ∧ a < 0x40000000) ∨ (0x44000000 ≤ a ∧ a < 0x10000000000) → s.placeOf t a n k = .bad 0x05))

/-- For an aligned HBM address (the queue table lying outside the Code region as written): a store or atomic to the Code
region takes ACCESS; any access to the Hatch, or to the queue table once its base is written, takes ACCESS; an access to
the keeper range by a handler outside the Code region takes ACCESS; a load of the Code region outside those, and any
access of HBM outside all four, is of memory. A fetch at an address outside the Code region takes FETCH with EVAL and
EPC the address. -/
def Obligations.HbmAccessLimits : Prop :=
  (∀ (s : State) (t a n : Nat) (k : Access), n ∈ [1, 2, 4, 8] → a % n = 0 → 0x10000000000 ≤ a → a < 0x10000000000 + s.hbmSize →
    let hatch := 0x10000000000 + s.hbmSize - 2 ^ 28 ≤ a
    let qtab := F.MQ_QTAB_BASE_ADDR.off ∈ s.locked ∧ 2 ^ 25 * s.rd F.MQ_QTAB_BASE_ADDR ≤ a ∧ a < 2 ^ 25 * s.rd F.MQ_QTAB_BASE_ADDR + 2 ^ 25
    let code := s.rd F.MQ_CODE_BASE_ADDR (t / 32) ≤ a ∧ a ≤ s.rd F.MQ_CODE_LIMIT_ADDR (t / 32)
    let kpr := 2 ^ 21 * s.rd F.MQ_KPR_BASE_ADDR (t / 32) ≤ a ∧ a < 2 ^ 21 * (s.rd F.MQ_KPR_LIMIT_ADDR (t / 32) + 1)
    (hatch ∨ qtab → s.placeOf t a n k = .bad 0x04) ∧
    (code → k ≠ .load → s.placeOf t a n k = .bad 0x04) ∧
    (kpr → ¬code → (s.thread t).keeper = false → s.placeOf t a n k = .bad 0x04) ∧
    (¬hatch → ¬qtab → (code ∧ k = .load ∨ ¬code ∧ (¬kpr ∨ (s.thread t).keeper = true)) → s.placeOf t a n k = .mem a)) ∧
  (∀ (s : State) (t : BitVec 8) (body : State → Body), s.canIssue t.toNat = true → (s.thread t.toNat).wdog = false →
    s.atBreak t.toNat = false → s.inCode t.toNat (s.thread t.toNat).pc.toNat = false →
    s.issue t.toNat body = s.trap t.toNat 0x07 (s.thread t.toNat).pc (s.thread t.toNat).pc)

/-- For a ready thread: each branch goes to PC + 4 x sext(OFF16) if its comparison holds and to PC + 4 otherwise,
changing nothing but the PC. JAL goes to PC + 4 x sext(OFF21) and JALR to g[rs1] + sext(IMM16) with bits [1:0] cleared,
rs1 read before rd is written; rd receives PC + 4. A target outside the Code region is where the next instruction takes
FETCH. -/
def Obligations.BranchesAndJumpsMoveThePc : Prop :=
  ∀ (t : BitVec 8) (ra rb : BitVec 5) (off : BitVec 16) (off21 : BitVec 21) (s : State), s.Ready t.toNat →
    let pc := (s.thread t.toNat).pc
    let a := s.g t.toNat ra.toNat
    let b := s.g t.toNat rb.toNat
    let go : State → Word → State := fun s x => s.updThread t.toNat (fun th => { th with pc := x })
    (∀ p ∈ ([(.beq t ra rb off, decide (a = b)), (.bne t ra rb off, decide (a ≠ b)), (.blt t ra rb off, decide (a.toInt < b.toInt)),
        (.bge t ra rb off, decide (b.toInt ≤ a.toInt)), (.bltu t ra rb off, decide (a.toNat < b.toNat)),
        (.bgeu t ra rb off, decide (b.toNat ≤ a.toNat))] : List (Instr × Bool)),
      exec p.1 s = .next (go s (if p.2 then pc + BitVec.ofInt 64 (4 * off.toInt) else pc + 4))) ∧
    exec (.jal t ra off21) s = .next (go (s.setG t.toNat ra.toNat (pc + 4)) (pc + BitVec.ofInt 64 (4 * off21.toInt))) ∧
    exec (.jalr t ra rb off) s =
      .next (go (s.setG t.toNat ra.toNat (pc + 4)) ((b + off.signExtend 64) &&& ~~~3#64)) ∧
    (∀ (target : Word) (i : State → Body), (go s target).canIssue t.toNat = true →
      (go s target).atBreak t.toNat = false → s.inCode t.toNat target.toNat = false → (go s target).issue t.toNat i = (go s target).trap t.toNat 0x07 target target)

/-- For a ready thread: J with rs1 outside 1 to 24 or a CLASS that is not listed takes ILLEGAL with EVAL the word; with
64 live tickets it takes TICKET. Otherwise, with an INST field that names an instance: an instance above the class
maximum or held OFF completes at once BAD_JOB, an absent one ABSENT, each with a fresh ticket in rd. A present instance
with fewer than 256 jobs on the ring of the thread's cluster gets the descriptor of g[rs1] to g[rs1+7] at the tail of
that ring, with the ticket that rd receives, whose slot was free (the offered one if its slot is free); with 256 the
thread waits at the J and no ring changes. INST 0x7F, where the class allows it, acts as the instance whose ring holds
fewest, the lowest on a tie. J_RING_RESUME does the same once an entry is free, and ends BAD_JOB when the unit has been
put OFF meanwhile. -/
def Obligations.JobIssuePlacesOrPosts : Prop :=
  let posted : State → State → Nat → Nat → Nat → Nat → Prop := fun s s' t rd unit status =>
    ∃ (v : Nat) (k : Ticket), (s.thread t).tickets.all (fun p => p.1 ≠ v % 64) = true ∧
      (rd ≠ 0 → s'.g t rd = BitVec.ofNat 64 v) ∧ (s'.thread t).ticket v = some k ∧ (s'.thread t).pc = (s.thread t).pc + 4 ∧
      k.comp = some { gid := t, status := status, unit := unit, ticket := v, aux := 0, result := 0 } ∧ s'.rings = s.rings ∧
      s'.mem = s.mem
  let placed : State → State → Nat → Nat → Nat → Nat → Nat → Prop := fun s s' t rd rs1 cls inst =>
    ∃ v : Nat, (s.thread t).tickets.all (fun p => p.1 ≠ v % 64) = true ∧
      ((s.thread t).tickets.all (fun p => p.1 ≠ (s.thread t).tktNext % 64) = true → v = (s.thread t).tktNext) ∧
      (s'.thread t).tktNext = (if (v + 1) % 65536 = 0 then 1 else (v + 1) % 65536) ∧
      (rd ≠ 0 → s'.g t rd = BitVec.ofNat 64 v) ∧ (s'.thread t).ticket v = some { val := v, comp := none, arrived := 0 } ∧
      (s'.thread t).pc = (s.thread t).pc + 4 ∧ (s'.thread t).st = .run ∧
      s'.ring cls inst (clusterOf t) = s.ring cls inst (clusterOf t) ++
        [{ gid := t, ticket := v, desc := s.descAt t rs1, item := (s.thread t).item, stamp := s.now % 2 ^ 32,
           dark := decide (cls = 4) && !s.flag F.DDX_CTL_EN }] ∧
      (s.flag F.ARB_CTL_HINT_EN = false → s'.mem = s.mem)
  (∀ (t : BitVec 8) (rd rs1 cls : BitVec 5) (inst : BitVec 7) (s : State), s.Ready t.toNat →
    let c := cls.toNat
    let pc := (s.thread t.toNat).pc
    let word := ((0x28#6 ++ rd ++ rs1 ++ cls ++ inst ++ 0#4 : BitVec 32)).setWidth 64
    ((rs1.toNat < 1 ∨ 24 < rs1.toNat ∨ c < 1 ∨ 13 < c) → exec (.j t rd rs1 cls inst) s = .next (s.trap t.toNat 0x01 word pc)) ∧
    (1 ≤ rs1.toNat → rs1.toNat ≤ 24 → 1 ≤ c → c ≤ 13 →
      ((s.thread t.toNat).tickets.length = 64 → exec (.j t rd rs1 cls inst) s = .next (s.trap t.toNat 0x08 word pc)) ∧
      ((s.thread t.toNat).tickets.length < 64 →
        (inst.toNat ≠ 0x7F →
          (classMax c < inst.toNat → ∃ s', exec (.j t rd rs1 cls inst) s = .next s' ∧ posted s s' t.toNat rd.toNat inst.toNat 0x3E) ∧
          (inst.toNat ≤ classMax c → s.unitPresent c inst.toNat = false →
            ∃ s', exec (.j t rd rs1 cls inst) s = .next s' ∧ posted s s' t.toNat rd.toNat inst.toNat 0x3F) ∧
          (inst.toNat ≤ classMax c → s.unitPresent c inst.toNat = true → s.unitOff c inst.toNat = true →
            ∃ s', exec (.j t rd rs1 cls inst) s = .next s' ∧ posted s s' t.toNat rd.toNat inst.toNat 0x3E)) ∧
        (∀ i, i ≤ classMax c → s.unitPresent c i = true → s.unitOff c i = false →
          (i = inst.toNat ∧ inst.toNat ≠ 0x7F ∨
            inst.toNat = 0x7F ∧ anyAllowed c (s.descAt t.toNat rs1.toNat) = true ∧
              ∀ m, m ≤ classMax c → s.unitPresent c m = true → s.unitOff c m = false →
                (s.ring c i (clusterOf t.toNat)).length < (s.ring c m (clusterOf t.toNat)).length ∨
                  ((s.ring c i (clusterOf t.toNat)).length = (s.ring c m (clusterOf t.toNat)).length ∧ i ≤ m)) →
          ((s.ring c i (clusterOf t.toNat)).length < 256 →
            ∃ s', exec (.j t rd rs1 cls inst) s = .next s' ∧ placed s s' t.toNat rd.toNat rs1.toNat c i) ∧
          (256 ≤ (s.ring c i (clusterOf t.toNat)).length →
            ∃ s', exec (.j t rd rs1 cls inst) s = .next s' ∧ s'.rings = s.rings ∧ (s'.thread t.toNat).st = .wait ∧
              (s'.thread t.toNat).pc = pc ∧ (s'.thread t.toNat).tickets = (s.thread t.toNat).tickets))))) ∧
  (∀ (t : BitVec 8) (rd rs1 cls inst : Nat) (s : State), (s.thread t.toNat).st = .wait →
    (s.thread t.toNat).wait = some (.ring rd rs1 cls inst) → (s.ring cls inst (clusterOf t.toNat)).length < 256 →
    (s.thread t.toNat).tickets.length < 64 →
    (s.unitOff cls inst = false → ∃ s', exec (.jRingResume t) s = .next s' ∧ placed s s' t.toNat rd rs1 cls inst) ∧
    (s.unitOff cls inst = true → ∃ s', exec (.jRingResume t) s = .next s' ∧ posted s s' t.toNat rd inst 0x3E))

/-- A completion on its way for a live ticket of a thread that runs becomes that ticket's completion and leaves nothing
else of the thread changed but the ticket; of a thread that drains its tickets in DONE, the last one leaves the thread
FREE. Of a thread waiting in WAIT.T for it, it completes the WAIT.T: RESULT in rd, bytes 0 to 7 of the record in
LASTJOB, the ticket no longer live, the thread running at the next word. Of a thread waiting in WAIT, it gives rd the
ticket. For a ready thread: WAIT returns the ticket whose completion arrived first, and with none waits; WAIT.T on a
live ticket consumes its completion or waits, POLL.T says whether it has one, and both take TICKET on a ticket that is
not live. The timeout of a WAIT gives rd 0. -/
def Obligations.TicketsAndWaits : Prop :=
  let low : Comp → Word := fun c => BitVec.ofNat 64 (c.status + c.unit * 2 ^ 8 + c.ticket * 2 ^ 16 + (c.aux % 2 ^ 32) * 2 ^ 32)
  let taken : Thread → Nat → Nat → Comp → Thread := fun th rd v c =>
    { th.setG rd (BitVec.ofNat 64 c.result) with lastjob := low c, tickets := SMap.del th.tickets (v % 64) }
  (∀ (k : Nat) (c : Comp) (tk : Ticket) (s : State), s.comps[k]? = some c → (s.thread c.gid).ticket c.ticket = some tk →
    ((s.thread c.gid).st = .run → (s.thread c.gid).wait = some .drainDone →
      (s.thread c.gid).tickets.Pairwise (fun p q => p.1 < q.1) →
      (∀ p ∈ (s.thread c.gid).tickets, p.1 ≠ c.ticket % 64 → p.2.comp ≠ none) →
      ∃ s', exec (.jobCompletion k) s = .next s' ∧ (s'.thread c.gid).st = .free ∧ (s'.thread c.gid).tickets = []) ∧
    ((s.thread c.gid).st = .run → (s.thread c.gid).wait = none → ∃ s' a, exec (.jobCompletion k) s = .next s' ∧
      s'.thread c.gid = { s.thread c.gid with
        tickets := SMap.put (s.thread c.gid).tickets (c.ticket % 64) { tk with comp := some c, arrived := a } } ∧
      (∀ p ∈ (s.thread c.gid).tickets, p.2.arrived < a) ∧ s'.comps.length + 1 = s.comps.length) ∧
    (∀ rd, (s.thread c.gid).st = .wait → (s.thread c.gid).wait = some (.waitT rd c.ticket) →
      ∃ s', exec (.jobCompletion k) s = .next s' ∧ s'.g c.gid rd = (if rd = 0 then 0 else BitVec.ofNat 64 c.result) ∧
        (s'.thread c.gid).lastjob = low c ∧ (s'.thread c.gid).ticket c.ticket = none ∧ (s'.thread c.gid).st = .run ∧
        (s'.thread c.gid).pc = (s.thread c.gid).pc + 4) ∧
    (∀ rd since tmo, (s.thread c.gid).st = .wait → (s.thread c.gid).wait = some (.wait rd since tmo) →
      (∀ p ∈ (s.thread c.gid).tickets, p.2.comp = none) →
      ∃ s', exec (.jobCompletion k) s = .next s' ∧ s'.g c.gid rd = (if rd = 0 then 0 else BitVec.ofNat 64 c.ticket) ∧
        (s'.thread c.gid).st = .run ∧ (s'.thread c.gid).pc = (s.thread c.gid).pc + 4)) ∧
  (∀ (t : BitVec 8) (rd rs1 : BitVec 5) (s : State), s.Ready t.toNat →
    let v := (s.g t.toNat rs1.toNat).toNat % 65536
    let pc := (s.thread t.toNat).pc
    (∀ tk, (s.thread t.toNat).firstArrived = some tk →
      exec (.wait t rd rs1) s = .next (s.retire t.toNat rd.toNat (BitVec.ofNat 64 tk.val))) ∧
    ((s.thread t.toNat).firstArrived = none →
      ∃ s', exec (.wait t rd rs1) s = .next s' ∧
        s'.thread t.toNat = { s.thread t.toNat with st := .wait, wait := some (.wait rd.toNat s.now (s.g t.toNat rs1.toNat).toNat) }) ∧
    ((s.thread t.toNat).ticket v = none →
      exec (.waitT t rd rs1) s = .next (s.trap t.toNat 0x08 (BitVec.ofNat 64 v) pc) ∧
      exec (.pollT t rd rs1) s = .next (s.trap t.toNat 0x08 (BitVec.ofNat 64 v) pc)) ∧
    (∀ tk, (s.thread t.toNat).ticket v = some tk →
      exec (.pollT t rd rs1) s = .next (s.retire t.toNat rd.toNat (if tk.comp = none then 0 else 1)) ∧
      (∀ c, tk.comp = some c → exec (.waitT t rd rs1) s =
        .next (s.updThread t.toNat (fun th => { taken th rd.toNat v c with pc := pc + 4 }))) ∧
      (tk.comp = none → ∃ s', exec (.waitT t rd rs1) s = .next s' ∧
        s'.thread t.toNat = { s.thread t.toNat with st := .wait, wait := some (.waitT rd.toNat v) }))) ∧
  (∀ (t : BitVec 8) (rd since tmo : Nat) (s : State), (s.thread t.toNat).st = .wait →
    (s.thread t.toNat).wait = some (.wait rd since tmo) → tmo ≠ 0 → since + tmo ≤ s.now →
    ∃ s', exec (.waitTimeout t) s = .next s' ∧ (s'.thread t.toNat).st = .run ∧ s'.g t.toNat rd = 0 ∧
      (s'.thread t.toNat).pc = (s.thread t.toNat).pc + 4)

/-- Where a thread of the cluster is FREE, on an enabled core and not marked for the keeper, and some candidate queue
has an item: DISPATCH takes the head item of a candidate queue such that no candidate has a higher PRIO, nor an equal
PRIO and an older head item. The thread then runs at HANDLER, g1 to g8 hold HEADER, g9 HANDLE, the others 0; the PC is
the eight bytes at the entry table address that ENTRY selects; its item is that slot, its ticket table is empty, PWRMODE
and CYCLE are 0, its search iterator is clear, and its budget is that of MQ_BUDGET (none when it is 0). The queue holds
the rest of its items and one handler more. That the exception flag starts clear is the model's reading (assumption log
53). -/
def Obligations.DispatchStartsTheBestCandidate : Prop :=
  ∀ (cl thr : Nat) (s : State), s.dispatchable cl thr = true →
    (∃ p ∈ s.queues, p.2.candidate cl = true) →
    (∀ p ∈ s.queues, s.queue p.1 = p.2 ∧ ∀ k ∈ p.2.items, (SMap.find s.items k).isSome = true) →
    ∃ (q : Nat) (w : HwQueue) (k : Nat) (rest : List Nat) (it : Item) (s' : State),
      (q, w) ∈ s.queues ∧ w.candidate cl = true ∧ w.items = k :: rest ∧ SMap.find s.items k = some it ∧
      (∀ p ∈ s.queues, p.2.candidate cl = true → p.2.prio < w.prio ∨ (p.2.prio = w.prio ∧ s.headStamp w ≤ s.headStamp p.2)) ∧
      exec (.dispatch cl thr) s = .next s' ∧
      (let th := s'.thread (32 * cl + thr)
       th.st = .run ∧ th.keeper = false ∧ th.item = some k ∧ th.tickets = [] ∧ th.pwrmode = 0 ∧ th.cycle = 0 ∧ th.iter = none ∧
       th.wait = none ∧ th.pc = BitVec.ofNat 64 (s.ldMem (64 * s.rd F.MQ_ENTRY_BASE_ADDR cl + 8 * (w.bind % 256)) 8) ∧
       th.budget = (if s.rd F.MQ_BUDGET_UNITS cl = 0 then none else some (1024 * s.rd F.MQ_BUDGET_UNITS cl)) ∧
       (∀ i, i < 8 → th.getG (i + 1) = it.hdr.getD i 0) ∧ th.getG 9 = it.handle ∧ (∀ r, 10 ≤ r → th.getG r = 0)) ∧
      (s'.queue q).items.take rest.length = rest ∧ (s'.queue q).running = w.running + 1 ∧
      (∀ u, u ≠ 32 * cl + thr → s'.thread u = s.thread u)

/-- START of a ready keeper thread whose target is FREE and marked in MQ_KEEPER starts it at g[rs1+1] with g1 from
g[rs1+2], the privilege of IMM12[0], no item, tickets or budget, and rd 1; of any other target rd is 0 and nothing else
changes. DONE of a thread whose tickets have all completed leaves it FREE without item or tickets, and its item slot and
promise released; of a thread with a ticket still open the thread stays in RUN and drains. Q.FWD of a thread without
live tickets moves its item to the tail of a queue that accepts it, stamped with the device time, and leaves the thread
FREE; a queue that refuses gives rd 0. A watchdog that is due, in a running or waiting thread that is in no exception,
takes WATCHDOG: a WAIT completes with rd 0 first and EPC is the instruction after it; otherwise EPC is the stalled or
next instruction. How the watchdog meets a stalled instruction is the model's reading (assumption log 10). -/
def Obligations.HandlersStartAndEnd : Prop :=
  (∀ (t : BitVec 8) (rd rs1 : BitVec 5) (imm : BitVec 12) (s : State), s.Ready t.toNat → (s.thread t.toNat).keeper = true →
    1 ≤ rs1.toNat → rs1.toNat ≤ 29 → imm.toNat < 2 →
    let u := (s.g t.toNat rs1.toNat).toNat % 256
    let marked := (s.rd F.MQ_KEEPER_KMASK (u / 32)).testBit (u % 32)
    ((s.thread u).st = .free → marked = true →
      ∃ s', exec (.start t rd rs1 imm) s = .next s' ∧ (rd ≠ 0 → s'.g t.toNat rd.toNat = 1) ∧
        (s'.thread t.toNat).pc = (s.thread t.toNat).pc + 4 ∧
        (let th := s'.thread u
         th.st = .run ∧ th.pc = s.g t.toNat (rs1.toNat + 1) ∧ th.getG 1 = s.g t.toNat (rs1.toNat + 2) ∧
         (∀ r, r ≠ 1 → th.getG r = 0) ∧ th.keeper = decide (imm = 1) ∧ th.item = none ∧ th.tickets = [] ∧ th.budget = none ∧
         th.wdog = false)) ∧
    (¬((s.thread u).st = .free ∧ marked = true) → exec (.start t rd rs1 imm) s = .next (s.retire t.toNat rd.toNat 0))) ∧
  (∀ (t : BitVec 8) (s : State), s.Ready t.toNat →
    ((∀ p ∈ (s.thread t.toNat).tickets, p.2.comp ≠ none) →
      ∃ s', exec (.done t) s = .next s' ∧
        s'.thread t.toNat = { s.thread t.toNat with st := .free, item := none, wait := none, tickets := [] } ∧
        (∀ u, u ≠ t.toNat → s'.thread u = s.thread u) ∧
        ∀ k, (s.thread t.toNat).item = some k → SMap.find s'.items k = none ∧ SMap.find s'.prms k = none) ∧
    ((∃ p ∈ (s.thread t.toNat).tickets, p.2.comp = none) →
      ∃ s', exec (.done t) s = .next s' ∧ s'.items = s.items ∧
        s'.thread t.toNat = { s.thread t.toNat with wait := some .drainDone })) ∧
  (∀ (t : BitVec 8) (rd rs1 : BitVec 5) (k : Nat) (it : Item) (s : State), s.Ready t.toNat → (s.thread t.toNat).tickets = [] →
    (s.thread t.toNat).item = some k → SMap.find s.items k = some it →
    let q := (s.g t.toNat rs1.toNat).toNat % 2 ^ 20
    ((s.queue q).accepts = true →
      ∃ s', exec (.qFwd t rd rs1) s = .next s' ∧ (s'.thread t.toNat).st = .free ∧ (s'.thread t.toNat).item = none ∧
        (s'.queue q).items = (s.queue q).items ++ [k] ∧ SMap.find s'.items k = some { it with queue := q, stamp := s.now }) ∧
    ((s.queue q).accepts = false → exec (.qFwd t rd rs1) s = .next ((s.updThread t.toNat (fun th => { th with tickets := [] })).retire t.toNat rd.toNat 0))) ∧
  (∀ (t : BitVec 8) (s : State), (s.thread t.toNat).wdog = true → (s.thread t.toNat).exc = false →
    ((s.thread t.toNat).st = .run ∨ (s.thread t.toNat).st = .wait) →
    ∃ s', exec (.watchdog t) s = .next s' ∧
      let th := match (s.thread t.toNat).st, (s.thread t.toNat).wait with
        | .wait, some (.wait rd _ _) => { (s.thread t.toNat).setG rd 0 with pc := (s.thread t.toNat).pc + 4 }
        | _, _ => s.thread t.toNat
      s'.thread t.toNat = { th with
        wdog := false, epc := th.pc, ecause := 0x09, eval := 0, pkeeper := th.keeper, keeper := true,
        exc := true, st := .run, wait := none, pc := th.evec + 0x240 })

/-- For a ready HANDLER thread: Q.TAKE, Q.FREE, Q.BIND, SRCH.RD, WKT.HZN, ERET, DINV.ALL, IINV.ALL and START take PRIV
with EVAL the instruction word and EPC its address, whatever their operands. So do CSR.R of EPC, ECAUSE, EVAL, EVEC,
KSCR0 and KSCR1, CSR.W of those and of STATUS, CSR.W of PWRMODE with mode 2, and SRCH.WR and SRCH.CLR of bank 0, and of
bank 1 while HWR1 is 0. -/
def Obligations.KeeperInstructionsTakePriv : Prop :=
  ∀ (t : BitVec 8) (rd rs1 rs2 : BitVec 5) (imm csr : BitVec 12) (s : State), s.Ready t.toNat → (s.thread t.toNat).keeper = false →
    let priv : Instr → Prop := fun i => ∃ w, encodeMeq i = some w ∧
      exec i s = .next (s.trap t.toNat 0x02 (w.setWidth 64) (s.thread t.toNat).pc)
    (∀ i ∈ ([.qTake t rd rs1, .qFree t rd rs1, .qBind t rd rs1 rs2, .srchRd t rd rs2, .wktHzn t rd rs1 rs2, .eret t, .dinvAll t,
        .iinvAll t, .start t rd rs1 imm] : List Instr), priv i) ∧
    (csr ∈ [0x002#12, 0x003, 0x004, 0x005, 0x006, 0x007] → priv (.csrR t rd csr) ∧ priv (.csrW t rs1 csr)) ∧
    priv (.csrW t rs1 0x001) ∧ ((s.g t.toNat rs1.toNat).toNat % 4 = 2 → priv (.csrW t rs1 0x020)) ∧
    priv (.srchWr t 0 rd rs1 rs2) ∧ ((s.g t.toNat rs2.toNat).toNat.testBit 15 = false → priv (.srchClr t rd rs2)) ∧
    (s.flag F.SRCH_CTL_HWR1 = false → priv (.srchWr t 1 rd rs1 rs2) ∧ priv (.srchClr t rd rs2))

/-- For a ready thread: Q.PUSH on an OPEN or PAUSED queue below its LIMIT, with a free slot, puts an item with g[rs1] to
g[rs1+8] in a slot that was free, at the tail of the queue, and returns 1; without INHERIT the item has no deadline,
class or tenant. With no free slot or on a queue that refuses it returns 0 and changes nothing else. At KEEPER: Q.TAKE
returns 2 on a queue that is no keeper queue and 0 on a PAUSED or empty one; else, where it is not SERIAL with an item
held, the head item becomes the thread's, g1 to g9 are loaded, the iterator is cleared and rd is 1. Q.FREE of the
thread's own slot releases it; of a slot nobody holds it returns 0. Q.BIND of a word with STATE 3 or a RSVD bit returns
0, of any other replaces the queue's binding and returns 1. Q.STAT reports the count, STATE and whether a handler runs.
Which free slot the pool gives is open (assumption log 4). -/
def Obligations.QueueOperations : Prop :=
  (∀ (t : BitVec 8) (inherit : Bool) (rd rs1 rs2 : BitVec 5) (s : State), s.Ready t.toNat → 1 ≤ rs1.toNat → rs1.toNat ≤ 23 →
    let q := (s.g t.toNat rs2.toNat).toNat % 2 ^ 20
    let w := (s.queue q).bind
    let n := (s.queue q).items.length
    let open_ := ((w >>> 19) % 4 = 1 ∨ (w >>> 19) % 4 = 2) ∧ ((w >>> 24) % 2 ^ 18 = 0 ∨ n < (w >>> 24) % 2 ^ 18)
    ((open_ ∧ s.items.length + s.slotRsv < 262144) →
      ∃ (s' : State) (k : Nat) (it : Item), exec (.qPush t inherit rd rs1 rs2) s = .next s' ∧ SMap.find s.items k = none ∧
        SMap.find s'.items k = some it ∧ (s'.queue q).items = (s.queue q).items ++ [k] ∧ it.queue = q ∧ it.stamp = s.now ∧ it.source = 0 ∧
        it.hdr = (List.range 8).map (fun i => s.g t.toNat (rs1.toNat + i)) ∧ it.handle = s.g t.toNat (rs1.toNat + 8) ∧
        (inherit = false → it.hasDl = false ∧ it.deadline = 0 ∧ it.cls = 0 ∧ it.tenant = 0) ∧
        (∀ k₀ it₀, inherit = true → (s.thread t.toNat).item = some k₀ → SMap.find s.items k₀ = some it₀ →
          it.hasDl = it₀.hasDl ∧ it.cls = it₀.cls ∧ it.tenant = it₀.tenant) ∧
        s'.thread t.toNat = { (s.thread t.toNat).setG rd.toNat 1 with pc := (s.thread t.toNat).pc + 4 }) ∧
    (¬(open_ ∧ s.items.length + s.slotRsv < 262144) → exec (.qPush t inherit rd rs1 rs2) s = .next (s.retire t.toNat rd.toNat 0))) ∧
  (∀ (t : BitVec 8) (rd rs1 : BitVec 5) (s : State), s.Ready t.toNat →
    let q := s.queue ((s.g t.toNat rs1.toNat).toNat % 2 ^ 20)
    exec (.qStat t rd rs1) s = .next (s.retire t.toNat rd.toNat
      (BitVec.ofNat 64 (q.items.length + ((q.bind >>> 19) % 4) * 2 ^ 18 + (if q.running = 0 then 0 else 2 ^ 20))))) ∧
  (∀ (t : BitVec 8) (rd rs1 rs2 : BitVec 5) (s : State), s.Ready t.toNat → (s.thread t.toNat).keeper = true →
    let qn := (s.g t.toNat rs1.toNat).toNat % 2 ^ 20
    let q := s.queue qn
    let k := (s.g t.toNat rs1.toNat).toNat % 2 ^ 18
    let b := (s.g t.toNat rs2.toNat).toNat
    ((s.thread t.toNat).item = none →
      (q.cmask ≠ 0 → exec (.qTake t rd rs1) s = .next (s.retire t.toNat rd.toNat 2)) ∧
      (q.cmask = 0 → q.state = 2 ∨ q.items = [] → exec (.qTake t rd rs1) s = .next (s.retire t.toNat rd.toNat 0)) ∧
      (∀ h rest it, q.cmask = 0 → q.state ≠ 2 → (q.serial = false ∨ q.running = 0) → q.items = h :: rest →
        SMap.find s.items h = some it →
        ∃ s', exec (.qTake t rd rs1) s = .next s' ∧ (s'.queue qn).items = rest ∧ (s'.queue qn).running = q.running + 1 ∧
          s'.thread t.toNat = { ((s.thread t.toNat).setGs 1 (it.hdr ++ [it.handle])).setG rd.toNat 1 with
            item := some h, iter := none, pc := (s.thread t.toNat).pc + 4 })) ∧
    ((s.thread t.toNat).item = some k → ∃ s', exec (.qFree t rd rs1) s = .next s' ∧ SMap.find s'.items k = none ∧
      (s'.thread t.toNat).item = none ∧ (rd ≠ 0 → s'.g t.toNat rd.toNat = 1)) ∧
    ((s.thread t.toNat).item ≠ some k → (∀ p ∈ s.threads, p.2.item = some k → p.2.st ≠ .halt) →
      exec (.qFree t rd rs1) s = .next (s.retire t.toNat rd.toNat 0)) ∧
    ((b >>> 19) % 4 = 3 ∨ (b >>> 21) % 8 ≠ 0 ∨ b >>> 42 ≠ 0 → exec (.qBind t rd rs1 rs2) s = .next (s.retire t.toNat rd.toNat 0)) ∧
    (F.MQ_QTAB_BASE_ADDR.off ∈ s.locked → (b >>> 19) % 4 ≠ 3 → (b >>> 21) % 8 = 0 → b >>> 42 = 0 →
      ∃ s', exec (.qBind t rd rs1 rs2) s = .next s' ∧ s'.queue qn = { q with bind := b } ∧ s'.items = s.items ∧
        s'.thread t.toNat = { (s.thread t.toNat).setG rd.toNat 1 with pc := (s.thread t.toNat).pc + 4 }))

/-- For a ready thread, with the buffers of the staging area in order and apart (StagingOk, an invariant stated as
EveryStepKeepsTheInvariants): STG.ALLOC of a length that fits returns a handle with the length, the start granule and
its GEN; the buffer lies in the area, apart from every buffer in use, and no lower run of free granules is long enough.
A length of 0, or one that fits nowhere, returns 0 and changes nothing else. STG.FREE of a current handle frees the
buffer, raises the GEN of its start granule modulo 256 and returns 1; of a handle that is not current it returns 0 and
changes nothing else. -/
def Obligations.StagingBuffersAllocateFirstFit : Prop :=
  ∀ (t : BitVec 8) (rd rs1 : BitVec 5) (s : State), s.Ready t.toNat → s.StagingOk →
    let len := (s.g t.toNat rs1.toNat).toNat % 2 ^ 21
    let h := (s.g t.toNat rs1.toNat).toNat
    let need := (len + 63) / 64
    let apart : Nat → Prop := fun b => b + need ≤ 1179648 ∧ ∀ p ∈ s.bufs, b + need ≤ p.1 ∨ p.1 + (p.2.len + 63) / 64 ≤ b
    ((len = 0 ∨ ∀ b, ¬apart b) → exec (.stgAlloc t rd rs1) s = .next (s.retire t.toNat rd.toNat 0)) ∧
    (len ≠ 0 → (∃ b, apart b) →
      ∃ (b : Nat) (s' : State), apart b ∧ (∀ b', apart b' → b ≤ b') ∧ exec (.stgAlloc t rd rs1) s = .next s' ∧
        SMap.find s'.bufs b = some { len := len } ∧ (∀ b', b' ≠ b → SMap.find s'.bufs b' = SMap.find s.bufs b') ∧
        s'.gens = s.gens ∧ s'.mem = s.mem ∧
        s'.thread t.toNat = { (s.thread t.toNat).setG rd.toNat (BitVec.ofNat 64 (b + len * 2 ^ 24 + s.gen b * 2 ^ 56)) with
          pc := (s.thread t.toNat).pc + 4 }) ∧
    (s.current h = false → exec (.stgFree t rd rs1) s = .next (s.retire t.toNat rd.toNat 0)) ∧
    (s.current h = true →
      ∃ s', exec (.stgFree t rd rs1) s = .next s' ∧ SMap.find s'.bufs (h % 2 ^ 21) = none ∧
        s'.gen (h % 2 ^ 21) = (s.gen (h % 2 ^ 21) + 1) % 256 ∧
        (∀ b, b ≠ h % 2 ^ 21 → SMap.find s'.bufs b = SMap.find s.bufs b ∧ s'.gen b = s.gen b) ∧ s'.mem = s.mem ∧
        s'.current h = false ∧
        s'.thread t.toNat = { (s.thread t.toNat).setG rd.toNat 1 with pc := (s.thread t.toNat).pc + 4 })

/-- For a ready thread, a bank that is initialised and not OFF or RETAIN, none of whose entries fails its parity:
SRCH.FIND with rs1 1 to 29 returns 0 where no valid entry matches the key, and else HIT, the bank, the lowest index that
matches and MULTI if and only if a higher one matches too; the thread's iterator holds the key, the bank and that index.
SRCH.NEXT returns in the same form the lowest match above the iterator's index, which becomes the iterator's; with no
match or no iterator it returns 0 and leaves the iterator. On a bank that is not initialised both return 0. An entry
matches when it is valid and agrees with the key in every bit of its mask. -/
def Obligations.SearchFindsTheLowestMatch : Prop :=
  ∀ (t : BitVec 8) (bank : BitVec 1) (rd rs1 : BitVec 5) (s : State), s.Ready t.toNat →
    (∀ p ∈ s.srch, p.2.badParity = false) → (s.srch.map Prod.fst).Pairwise (· < ·) →
    let hit : Nat → BitVec 160 → Nat → Prop := fun b key i =>
      i < 32768 ∧ (s.sent b i).valid = true ∧ ∀ n, (s.sent b i).mask.getLsbD n = true → (s.sent b i).value.getLsbD n = key.getLsbD n
    let word : Nat → Nat → Bool → Word := fun b i multi =>
      BitVec.ofNat 64 (i + b * 2 ^ 15 + (if multi then 2 ^ 62 else 0) + 2 ^ 63)
    let usable : Nat → Prop := fun b => s.bankReady b = true ∧ s.domState (61 + b) ≠ 2
    let leaves : Instr → Word → Option Iter → Prop := fun i w it => ∃ s', exec i s = .next s' ∧ s'.srch = s.srch ∧ s'.mem = s.mem ∧
      s'.thread t.toNat = { (s.thread t.toNat).setG rd.toNat w with iter := it, pc := (s.thread t.toNat).pc + 4 }
    (1 ≤ rs1.toNat → rs1.toNat ≤ 29 →
      let key := s.key160 t.toNat rs1.toNat
      (usable bank.toNat →
        ((∀ i, ¬hit bank.toNat key i) →
          leaves (.srchFind t bank rd rs1) 0 (some { bank := bank.toNat, key := key, last := none })) ∧
        (∀ i, hit bank.toNat key i → (∀ j, j < i → ¬hit bank.toNat key j) →
          ∀ multi : Bool, (multi = true ↔ ∃ j, i < j ∧ hit bank.toNat key j) →
          leaves (.srchFind t bank rd rs1) (word bank.toNat i multi) (some { bank := bank.toNat, key := key, last := some i }))) ∧
      (s.domState (61 + bank.toNat) ≠ 2 → s.bankReady bank.toNat = false →
        leaves (.srchFind t bank rd rs1) 0 (some { bank := bank.toNat, key := key, last := none }))) ∧
    ((s.thread t.toNat).iter = none → leaves (.srchNext t rd) 0 none) ∧
    (∀ it, (s.thread t.toNat).iter = some it → it.bank < 2 → usable it.bank →
      let above : Nat → Prop := fun i => hit it.bank it.key i ∧ ∀ l, it.last = some l → l < i
      ((∀ i, ¬above i) → leaves (.srchNext t rd) 0 (some it)) ∧
      (∀ i, above i → (∀ j, j < i → ¬above j) → ∀ multi : Bool, (multi = true ↔ ∃ j, i < j ∧ above j) →
        leaves (.srchNext t rd) (word it.bank i multi) (some { it with last := some i })))

/-- For a ready keeper thread and bank 1 in use: SRCH.WR makes the entry valid with the value and mask of six registers
and returns 1, SRCH.CLR clears VALID, both raise its WCOUNT, write its shadow and leave every other entry; on bank 0
they return 0 and change nothing else. SRCH.RD loads VALUE, MASK and VALID into seven registers. INIT0, INIT1 and
RESTORE1, once the shadow base is written, set BUSY and their end (SRCH_INIT_DONE) leaves every entry of the bank
invalid and INIT_DONE set. A scrub visit of an entry that equals its shadow changes no entry and moves to the next
index, bank 0 before bank 1. -/
def Obligations.SearchEntriesAreWrittenReadAndRestored : Prop :=
  (∀ (t : BitVec 8) (rd rs1 rs2 : BitVec 5) (s : State), s.Ready t.toNat → (s.thread t.toNat).keeper = true →
    s.domState 61 ≠ 2 → s.domState 62 ≠ 2 →
    let x := (s.g t.toNat rs2.toNat).toNat
    let i := x % 32768
    (1 ≤ rs1.toNat → rs1.toNat ≤ 26 →
      exec (.srchWr t 0 rd rs1 rs2) s = .next (s.retire t.toNat rd.toNat 0) ∧
      (s.bankReady 1 = true →
        ∃ s', exec (.srchWr t 1 rd rs1 rs2) s = .next s' ∧
          s'.sent 1 i = { value := s.key160 t.toNat rs1.toNat, mask := s.key160 t.toNat (rs1.toNat + 3), valid := true,
                          wcount := ((s.sent 1 i).wcount + 1) % 2 ^ 64, badParity := false } ∧
          (∀ b j, b < 2 → j < 32768 → (b, j) ≠ (1, i) → s'.sent b j = s.sent b j) ∧
          s'.getShadow 1 i = some (s'.sent 1 i) ∧
          s'.thread t.toNat = { (s.thread t.toNat).setG rd.toNat 1 with pc := (s.thread t.toNat).pc + 4 })) ∧
    (x.testBit 15 = false → exec (.srchClr t rd rs2) s = .next (s.retire t.toNat rd.toNat 0)) ∧
    (x.testBit 15 = true → s.bankReady 1 = true →
      ∃ s', exec (.srchClr t rd rs2) s = .next s' ∧
        s'.sent 1 i = { s.sent 1 i with valid := false, wcount := ((s.sent 1 i).wcount + 1) % 2 ^ 64, badParity := false } ∧
        (∀ b j, b < 2 → j < 32768 → (b, j) ≠ (1, i) → s'.sent b j = s.sent b j) ∧
        s'.thread t.toNat = { (s.thread t.toNat).setG rd.toNat 1 with pc := (s.thread t.toNat).pc + 4 }) ∧
    (1 ≤ rd.toNat → rd.toNat ≤ 25 →
      let e := s.sent ((x >>> 15) % 2) i
      ∃ s', exec (.srchRd t rd rs2) s = .next s' ∧ s'.srch = s.srch ∧
        (∀ n, n < 3 → s'.g t.toNat (rd.toNat + n) = (e.value >>> (64 * n)).setWidth 64) ∧
        (∀ n, n < 3 → s'.g t.toNat (rd.toNat + 3 + n) = (e.mask >>> (64 * n)).setWidth 64) ∧
        s'.g t.toNat (rd.toNat + 6) = (if e.valid then 1 else 0) ∧
        (∀ r, r < rd.toNat ∨ rd.toNat + 6 < r → s'.g t.toNat r = s.g t.toNat r) ∧
        (s'.thread t.toNat).pc = (s.thread t.toNat).pc + 4)) ∧
  (∀ (s : State), s.srchBased = true → s.srchBusy = [] →
    (∀ c ∈ ([.srchInit0, .srchInit1, .srchRestore1] : List Instr), ∃ s', exec c s = .next s' ∧ s'.flag F.SRCH_STATUS_BUSY = true ∧
      s'.srch = s.srch ∧ s'.srchBusy.length = 1) ∧
    (∀ b < 2, ∀ s₁, exec (if b = 0 then .srchInit0 else .srchInit1) s = .next s₁ →
      ∃ s₂, exec .srchInitDone s₁ = .next s₂ ∧ (∀ i, i < 32768 → (s₂.sent b i).valid = false) ∧
        (∀ i, i < 32768 → s₂.sent (1 - b) i = s.sent (1 - b) i) ∧
        s₂.flag (if b = 0 then F.SRCH_STATUS_INIT_DONE0 else F.SRCH_STATUS_INIT_DONE1) = true ∧
        s₂.flag F.SRCH_STATUS_BUSY = false)) ∧
  (∀ (s : State) (i b : Nat), s.rd F.SRCH_SCRUB_AT = i → s.rd F.SRCH_SCRUB_AT_BANK = b → i < 32768 → b < 2 →
    s.flag F.SRCH_CTL_SCRUB_EN = true → s.srchBased = true → s.bankReady b = true →
    (∃ e, s.getShadow b i = some e ∧ e.value = (s.sent b i).value ∧ e.mask = (s.sent b i).mask ∧ e.valid = (s.sent b i).valid) →
    (s.sent b i).badParity = false →
    ∃ s', exec .srchScrubVisit s = .next s' ∧ (∀ c j, s'.sent c j = s.sent c j) ∧ s'.mem = s.mem ∧
      s'.rd F.SRCH_SCRUB_AT = (i + 1) % 32768 ∧ s'.rd F.SRCH_SCRUB_AT_BANK = (if i + 1 = 32768 then 1 - b else b))

/-- Whenever the checks of a new admission grant it: the head is in ACTIVE or HANDOVER with ADMIT_EN set (and search
bank 0 usable, for a capsule), the thermal guard is not asserted, the group is neither MOVING nor OFFLINE (unless the
request is a flush to every namespace), the tenant is enabled (and may write, for a write), the class is VALID and below
its cap, no partner-late, CAP_CLOSED or journal back-pressure stands against a write, the effective budget is at least
60 us plus FIXED_NS, and the finish time of every resource of the footprint and of every named horizon, plus FIXED_NS
and 60 us, is not later than the deadline. Each booked horizon is booked at least at the horizon it had. -/
def Obligations.AdmissionOnlyWhileEveryCheckPasses : Prop :=
  ∀ (s : State) (r : AdmReq) (g : Grant), s.admCheck r = .inr g →
    let c := s.reqClass r
    (s.life = .active ∨ s.life = .handover) ∧ s.flag F.WKT_CTL_ADMIT_EN = true ∧ s.flag F.PWR_THERM_GUARD = false ∧
    (r.queue.isSome = true → s.flag F.SRCH_STATUS_INIT_DONE0 = true) ∧
    (r.allns = false → s.groupState r.vol < 2) ∧ s.flag F.WKT_TENANT_ENABLE r.tenant = true ∧ s.flag F.WKT_CLASS_VALID c = true ∧
    (r.kind = 1 → s.flag F.WKT_TENANT_NO_WRITE r.tenant = false ∧ s.flag F.WKT_CTL_CAP_CLOSED = false ∧
      s.flag F.JRN_LIMIT_BP = false ∧ (s.groupState r.vol = 0 → s.partnerGate = false)) ∧
    (s.rd F.WKT_CLASS_MAX_INFLIGHT c = 0 ∨ s.rd F.WKT_CLASS_INFLIGHT c < s.rd F.WKT_CLASS_MAX_INFLIGHT c) ∧
    60000 + s.rd F.WKT_CLASS_FIXED_NS c ≤ g.d ∧ g.d ≤ s.rd F.WKT_CLASS_BOUND_NS c ∧ (r.budget ≠ 0 → g.d ≤ r.budget) ∧
    (∀ x ∈ s.footprint r ++ r.hzns, (s.finish r.length x).1 + s.rd F.WKT_CLASS_FIXED_NS c + 60000 ≤ g.d) ∧
    (∀ b ∈ g.books, s.hzn b.1 ≤ b.2)

/-- For a ready thread and a request in g[rs1] to g[rs1+3] that is no CHILD: if a check refuses it, rd receives the
refusal word with bit 32 clear and the reason in bits 37 to 33, and no horizon, token, promise or memory byte changes.
If the checks pass and the request is malformed (ATTACH in a context with no item, or with an item that has a deadline,
included), reason 17 is returned in the same way. If they pass and it is well formed, rd receives the deadline with bit
32 set and the margin; with ATTACH the item's promise becomes LIVE until that deadline and the item's fields hold it. A
malformed CHILD request, or one in a context with no item, returns reason 17. A well-formed CHILD request outside BRACE
whose estimate misses the item's deadline returns reason 13, one that meets it returns the item's deadline with bit 32
set. In BRACE it waits behind the requests held before it. A horizon that is not well formed prices nothing (the model's
choice, assumption log 67). -/
def Obligations.AdmissionResultsAndFrames : Prop :=
  ∀ (t : BitVec 8) (rd rs1 rs2 : BitVec 5) (s : State), s.Ready t.toNat → 1 ≤ rs1.toNat → rs1.toNat ≤ 28 →
    let w : BitVec 256 := s.g t.toNat (rs1.toNat + 3) ++ s.g t.toNat (rs1.toNat + 2) ++ s.g t.toNat (rs1.toNat + 1) ++ s.g t.toNat rs1.toNat
    let budget := (s.g t.toNat rs2.toNat).toNat % 2 ^ 32
    let r := admReqOf w budget
    let gives : State → Nat → Prop := fun s' v =>
      s'.thread t.toNat = { (s.thread t.toNat).setG rd.toNat (BitVec.ofNat 64 v) with pc := (s.thread t.toNat).pc + 4 }
    let still : State → Prop := fun s' => s'.prms = s.prms ∧ s'.wktBuckets = s.wktBuckets ∧ s'.mem = s.mem ∧
      ∀ i, i < 8264 → s'.rd F.WKT_HZN_BOOKED i = s.rd F.WKT_HZN_BOOKED i
    let attachOk : Prop := reqFlag w 1 = false ∨ ∃ k it, (s.thread t.toNat).item = some k ∧ SMap.find s.items k = some it ∧ it.hasDl = false
    (reqFlag w 0 = true → (reqOk w = false ∨ (s.thread t.toNat).item = none) →
      ∃ s', exec (.wktAdm t rd rs1 rs2) s = .next s' ∧ gives s' (17 * 2 ^ 33) ∧ still s') ∧
    (reqFlag w 0 = false →
      (∀ x, s.admCheck r.sound = .inl x → ∃ s' hint, exec (.wktAdm t rd rs1 rs2) s = .next s' ∧ hint < 2 ^ 32 ∧
        gives s' (hint + x.reason * 2 ^ 33 + s.crd hint * 2 ^ 38) ∧ still s') ∧
      (∀ g, s.admCheck r.sound = .inr g → (reqOk w = false ∨ (reqFlag w 1 = true ∧ ((s.thread t.toNat).item = none ∨
          ∃ k it, (s.thread t.toNat).item = some k ∧ SMap.find s.items k = some it ∧ it.hasDl = true))) →
        ∃ s', exec (.wktAdm t rd rs1 rs2) s = .next s' ∧ gives s' (17 * 2 ^ 33) ∧ still s') ∧
      (∀ g, s.admCheck r.sound = .inr g → reqOk w = true → attachOk → ∃ s', exec (.wktAdm t rd rs1 rs2) s = .next s' ∧
        gives s' ((s.now + g.d) % 2 ^ 32 + 2 ^ 32 + min (2 ^ 20 - 1) ((g.d - (g.e + 60000)) / 1000) * 2 ^ 44) ∧ s'.mem = s.mem ∧
        (reqFlag w 1 = false → s'.prms = s.prms) ∧
        (∀ k, reqFlag w 1 = true → (s.thread t.toNat).item = some k →
          (∃ p it', SMap.find s'.prms k = some p ∧ p.st = .live ∧ p.time = s.now + g.d ∧ p.cls = s.reqClass r ∧ p.tenant = r.tenant ∧
            SMap.find s'.items k = some it' ∧ it'.hasDl = true ∧ it'.deadline = (s.now + g.d) % 2 ^ 32 ∧ it'.tenant = r.tenant)))) ∧
    (∀ k p, reqOk w = true → reqFlag w 0 = true → (s.thread t.toNat).item = some k → SMap.find s.prms k = some p → p.st = .live →
      let e := latest (r.hzns.map (s.finish r.length))
      (s.life ≠ .brace →
        (p.time - s.now < e + 60000 → ∃ s' hint crd, exec (.wktAdm t rd rs1 rs2) s = .next s' ∧ hint < 2 ^ 32 ∧ crd < 4 ∧
          gives s' (hint + 13 * 2 ^ 33 + crd * 2 ^ 38) ∧ still s') ∧
        (e + 60000 ≤ p.time - s.now → ∃ s', exec (.wktAdm t rd rs1 rs2) s = .next s' ∧ s'.prms = s.prms ∧
          gives s' (p.time % 2 ^ 32 + 2 ^ 32 + min (2 ^ 20 - 1) ((p.time - s.now - (e + 60000)) / 1000) * 2 ^ 44))) ∧
      (s.life = .brace → ∃ s' o, exec (.wktAdm t rd rs1 rs2) s = .next s' ∧ still s' ∧ (∀ h ∈ s.heldOrder, h.1 < o) ∧
        s'.thread t.toNat = { s.thread t.toNat with st := .wait, wait := some (.child rd.toNat w budget o) }))

/-- For a ready thread: WKT.SLK of an item without a deadline, or without an item, gives 0x7FFF_FFFF_FFFF_FFFF, and of
an item with a LIVE promise D - now. WKT.FIN gives that slack and leaves the promise ENDED, counted as kept with cause 0
and broken with another; of a promise that has ENDED, or without one, it gives 0. WKT.HZN at KEEPER of an index above
8263 gives 0; of a lower one, 1, and the horizon of a present resource then lies at least as far ahead as asked, up to 1
s. LEDGER_REPORT makes REPORTED of a present resource now plus what its unit has ahead of it, at most 1 s: the rest of
the program or erase of an own die, the drain of an engine's rings and at least 2 us for one in RETAIN, or the reported
time for front-end and Transom receive (the model's choice, assumption log 104); it changes nothing for an absent one. A
LIVE promise whose deadline has passed becomes EXPIRED with the cause that R125 gives. -/
def Obligations.PromisesReadEndAndExpire : Prop :=
  (∀ (t : BitVec 8) (rd rs1 : BitVec 5) (s : State), s.Ready t.toNat →
    ((s.thread t.toNat).item = none → exec (.wktSlk t rd) s = .next (s.retire t.toNat rd.toNat 0x7FFFFFFFFFFFFFFF#64) ∧
      exec (.wktFin t rd rs1) s = .next (s.retire t.toNat rd.toNat 0)) ∧
    (∀ k it, (s.thread t.toNat).item = some k → SMap.find s.items k = some it →
      (it.hasDl = false → exec (.wktSlk t rd) s = .next (s.retire t.toNat rd.toNat 0x7FFFFFFFFFFFFFFF#64)) ∧
      (∀ p, it.hasDl = true → SMap.find s.prms k = some p → p.st = .live → s.now ≤ p.time →
        exec (.wktSlk t rd) s = .next (s.retire t.toNat rd.toNat (BitVec.ofNat 64 (p.time - s.now))) ∧
        ∃ s', exec (.wktFin t rd rs1) s = .next s' ∧
          s'.thread t.toNat = { (s.thread t.toNat).setG rd.toNat (BitVec.ofNat 64 (p.time - s.now)) with pc := (s.thread t.toNat).pc + 4 } ∧
          (∃ p', SMap.find s'.prms k = some p' ∧ p'.st = .ended ∧ p'.ifw = []) ∧
          (p.ifw = [] → (s.g t.toNat rs1.toNat).toNat % 16 = 0 → (ctrAdd (s.regGet F.WKT_KEPT_CTR.off) 1).2 = false →
            s'.regGet F.WKT_KEPT_CTR.off = (ctrAdd (s.regGet F.WKT_KEPT_CTR.off) 1).1)) ∧
      (∀ p, SMap.find s.prms k = some p → p.st = .ended → p.late = none →
        exec (.wktFin t rd rs1) s = .next (s.retire t.toNat rd.toNat 0)))) ∧
  (∀ (t : BitVec 8) (rd rs1 rs2 : BitVec 5) (s : State), s.Ready t.toNat → (s.thread t.toNat).keeper = true →
    let i := (s.g t.toNat rs1.toNat).toNat % 2 ^ 14
    (8264 ≤ i → exec (.wktHzn t rd rs1 rs2) s = .next (s.retire t.toNat rd.toNat 0)) ∧
    (i < 8264 → ∃ s', exec (.wktHzn t rd rs1 rs2) s = .next s' ∧
      s'.thread t.toNat = { (s.thread t.toNat).setG rd.toNat 1 with pc := (s.thread t.toNat).pc + 4 } ∧
      (s.hznPresent i = true → min 1000000000 (ahead ((s.g t.toNat rs2.toNat).toNat % 2 ^ 32) s.now) ≤ s'.hzn i))) ∧
  (∀ (i time : Nat) (s : State), i < 8264 →
    (s.hznPresent i = false → exec (.ledgerReport i time) s = .next s) ∧
    (s.hznPresent i = true → ∃ s', exec (.ledgerReport i time) s = .next s' ∧
      let gives : Nat → Prop := fun x => s'.rd F.WKT_HZN_REPORTED i = (s.now + min 1000000000 x) % 2 ^ 32
      (i < 8192 → (SMap.find s.seg.dieOps i = none → gives 0) ∧ (∀ o, SMap.find s.seg.dieOps i = some o → gives (o.until_ - s.now))) ∧
      (((8192 ≤ i ∧ i < 8196) ∨ (8204 ≤ i ∧ i < 8208)) → gives (ahead time s.now)) ∧
      (8208 ≤ i → i < 8224 → gives (max (if s.domState (10 + (i - 8208)) = 2 then 2000 else 0) (s.ringsDrain 3 (i - 8208)))) ∧
      (8224 ≤ i → i < 8240 → gives (max (if s.domState (26 + (i - 8224) / 2) = 2 then 2000 else 0) (s.ringsDrain 2 (i - 8224)))))) ∧
  (∀ (k : Nat) (p : Promise) (s : State), SMap.find s.prms k = some p → p.st = .live → p.time ≤ s.now →
    let c := if p.supply = true ∨ (∃ b, s.braceAt = some b ∧ 50000 < s.now - b) then 1
      else if p.therm = true then 2
      else if p.partner = true ∧ (p.write = true ∨ p.fwd = true ∨ p.attach = true) then 3
      else 5
    ∃ s', exec (.promiseExpiry k) s = .next s' ∧ SMap.find s'.prms k = some { p with st := .expired, cause := c })

/-- After a store to word 0, 1 or 2 of a class entry VALID is set if and only if BOUND_NS lies in 100,000 to
1,000,000,000 and FIXED_NS is below BOUND_NS - 60,000, and a store to word 0 holds both values. A store to word 0 or 1
of a tenant entry holds RATE and BURST and leaves the matching bucket full; word 2 holds CLASSES and FLAGS. A store to
WKT_CTL sets its four fields, but a 1 to ADMIT_EN is ignored while INIT_DONE0 is 0. The 100 ms refresh leaves a time
later than now as it is and makes every other the current time. -/
def Obligations.WicketTablesFollowTheirWrites : Prop :=
  (∀ (c w v : Nat) (s : State), c < 16 → w < 3 → ∃ s', exec (.wktClassStore c w v) s = .next s' ∧
    (s'.flag F.WKT_CLASS_VALID c = true ↔
      100000 ≤ s'.rd F.WKT_CLASS_BOUND_NS c ∧ s'.rd F.WKT_CLASS_BOUND_NS c ≤ 1000000000 ∧
        s'.rd F.WKT_CLASS_FIXED_NS c < s'.rd F.WKT_CLASS_BOUND_NS c - 60000) ∧
    (w = 0 → s'.rd F.WKT_CLASS_BOUND_NS c = v % 2 ^ 32 ∧ s'.rd F.WKT_CLASS_FIXED_NS c = (v >>> 32) % 2 ^ 32) ∧
    (w = 1 → s'.rd F.WKT_CLASS_FOOTPRINT c = v % 2 ^ 12) ∧ (w = 2 → s'.rd F.WKT_CLASS_MAX_INFLIGHT c = v % 2 ^ 18)) ∧
  (∀ (n v : Nat) (s : State), n < 4096 →
    (∃ s', exec (.wktTenantStore n 0 v) s = .next s' ∧ s'.rd F.WKT_TENANT_CMD_RATE n = v % 2 ^ 32 ∧
      s'.rd F.WKT_TENANT_CMD_BURST n = (v >>> 32) % 2 ^ 24 ∧ (s'.tenBucket n 0).tokens = ((v >>> 32) % 2 ^ 24 * 1000000000 : Nat)) ∧
    (∃ s', exec (.wktTenantStore n 1 v) s = .next s' ∧ s'.rd F.WKT_TENANT_GRAIN_RATE n = v % 2 ^ 32 ∧
      s'.rd F.WKT_TENANT_GRAIN_BURST n = (v >>> 32) % 2 ^ 24 ∧ (s'.tenBucket n 1).tokens = ((v >>> 32) % 2 ^ 24 * 1000000000 : Nat)) ∧
    (∃ s', exec (.wktTenantStore n 2 v) s = .next s' ∧ s'.rd F.WKT_TENANT_CLASSES n = v % 2 ^ 12 ∧
      s'.rd F.WKT_TENANT_FLAGS n = (v >>> 16) % 4)) ∧
  (∀ (v : Nat) (s : State), ∃ s', exec (.wktCtlWrite v) s = .next s' ∧
    s'.flag F.WKT_CTL_CAP_CLOSED = v.testBit 1 ∧ s'.flag F.WKT_CTL_SUSP_EN = v.testBit 2 ∧ s'.flag F.WKT_CTL_RECON_EN = v.testBit 3 ∧
    (s.flag F.SRCH_STATUS_INIT_DONE0 = true → s'.flag F.WKT_CTL_ADMIT_EN = v.testBit 0) ∧
    (v.testBit 0 = false → s'.flag F.WKT_CTL_ADMIT_EN = false) ∧
    (s.flag F.SRCH_STATUS_INIT_DONE0 = false → s.flag F.WKT_CTL_ADMIT_EN = false → s'.flag F.WKT_CTL_ADMIT_EN = false)) ∧
  (∀ (s : State), ∃ s', exec .horizonRefresh s = .next s' ∧ ∀ i, i < 8264 →
    s'.rd F.WKT_HZN_REPORTED i =
      (if laterThan 32 (s.rd F.WKT_HZN_REPORTED i) s.now then s.rd F.WKT_HZN_REPORTED i else s.now % 2 ^ 32) ∧
    s'.rd F.WKT_HZN_BOOKED i =
      (if laterThan 32 (s.rd F.WKT_HZN_BOOKED i) s.now then s.rd F.WKT_HZN_BOOKED i else s.now % 2 ^ 32))

/-- For a ready keeper thread: CSR.R of TID, STATUS, EPC, ECAUSE, EVAL, EVEC, KSCR0, KSCR1, TIME, CYCLE, CAL, QCUR,
ITEM, DEADLINE (of an item whose promise is not PAUSED), BUDGET, PWRMODE, TKT_LIVE, TKT_NEXT and LASTJOB writes that
value to rd and goes on. CSR.W changes STATUS, EPC, EVEC (low 12 bits 0), KSCR0, KSCR1 or PWRMODE, and nothing else but
the PC; to any other listed register it changes only the PC. A number that R38 does not list takes ILLEGAL with EVAL the
word, and so does PWRMODE written with mode 3. A handler that reads EPC to KSCR1 or writes a K-write register takes
PRIV; it may read the others and write PWRMODE with modes 0 and 1. -/
def Obligations.ControlRegistersReadAndWrite : Prop :=
  ∀ (t : BitVec 8) (rd rs1 : BitVec 5) (csr : BitVec 12) (s : State), s.Ready t.toNat →
    let th := s.thread t.toNat
    let v := s.g t.toNat rs1.toNat
    let n : Nat → Word := BitVec.ofNat 64
    let bit : Bool → Nat → Word := fun b i => if b then n (2 ^ i) else 0
    let keeperOnly : List (BitVec 12 × Word) := [(0x002, th.epc), (0x003, n th.ecause), (0x004, th.eval), (0x005, th.evec),
      (0x006, th.kscr0), (0x007, th.kscr1)]
    let all : List (BitVec 12 × Word) := [(0x000, n (t.toNat + (t.toNat / 4) * 2 ^ 8 + (t.toNat % 4) * 2 ^ 14)),
      (0x001, bit th.keeper 0 + bit th.exc 1 + bit th.pkeeper 2), (0x010, n s.now),
      (0x011, if s.log.calValid then n s.log.cal else 0), (0x012, n th.cycle),
      (0x018, match th.item.bind (SMap.find s.items) with | some it => n it.queue | none => 0),
      (0x019, match th.item with | some k => n k | none => 0),
      (0x01B, match th.budget with | some b => n b | none => 0xFFFFFFFFFFFFFFFF#64),
      (0x020, n th.pwrmode), (0x021, n th.tickets.length), (0x022, n th.tktNext), (0x023, th.lastjob)]
    let listed := csr.toNat ≤ 7 ∨ (0x10 ≤ csr.toNat ∧ csr.toNat ≤ 0x12) ∨ (0x18 ≤ csr.toNat ∧ csr.toNat ≤ 0x1B) ∨
      (0x20 ≤ csr.toNat ∧ csr.toNat ≤ 0x23)
    let go : State → State := fun s => s.advance t.toNat
    let set : (Thread → Thread) → State := fun f => go (s.updThread t.toNat f)
    (∀ p ∈ all, exec (.csrR t rd p.1) s = .next (s.retire t.toNat rd.toNat p.2)) ∧
    (th.item = none → exec (.csrR t rd 0x01A) s = .next (s.retire t.toNat rd.toNat 0)) ∧
    (∀ k it, th.item = some k → SMap.find s.items k = some it → (∀ p, SMap.find s.prms k = some p → p.st ≠ .paused) →
      exec (.csrR t rd 0x01A) s = .next (s.retire t.toNat rd.toNat (n (it.deadline + if it.hasDl then 2 ^ 32 else 0)))) ∧
    (th.keeper = false → (∀ p ∈ keeperOnly, ∃ w, encodeMeq (.csrR t rd p.1) = some w ∧
        exec (.csrR t rd p.1) s = .next (s.trap t.toNat 0x02 (w.setWidth 64) th.pc)) ∧
      (∀ c ∈ [0x001#12, 0x002, 0x003, 0x004, 0x005, 0x006, 0x007], ∃ w, encodeMeq (.csrW t rs1 c) = some w ∧
        exec (.csrW t rs1 c) s = .next (s.trap t.toNat 0x02 (w.setWidth 64) th.pc))) ∧
    (th.keeper = true → ∀ p ∈ keeperOnly, exec (.csrR t rd p.1) s = .next (s.retire t.toNat rd.toNat p.2)) ∧
    (¬listed → ∃ w₁ w₂, encodeMeq (.csrR t rd csr) = some w₁ ∧ encodeMeq (.csrW t rs1 csr) = some w₂ ∧
      exec (.csrR t rd csr) s = .next (s.trap t.toNat 0x01 (w₁.setWidth 64) th.pc) ∧
      exec (.csrW t rs1 csr) s = .next (s.trap t.toNat 0x01 (w₂.setWidth 64) th.pc)) ∧
    (th.keeper = true →
      exec (.csrW t rs1 0x001) s = .next (set (fun th => { th with keeper := v.getLsbD 0, exc := v.getLsbD 1, pkeeper := v.getLsbD 2 })) ∧
      exec (.csrW t rs1 0x002) s = .next (set (fun th => { th with epc := v })) ∧
      exec (.csrW t rs1 0x005) s = .next (set (fun th => { th with evec := v &&& ~~~0xFFF#64 })) ∧
      exec (.csrW t rs1 0x006) s = .next (set (fun th => { th with kscr0 := v })) ∧
      exec (.csrW t rs1 0x007) s = .next (set (fun th => { th with kscr1 := v })) ∧
      (v.toNat % 4 = 2 → exec (.csrW t rs1 0x020) s = .next (set (fun th => { th with pwrmode := 2 })))) ∧
    (v.toNat % 4 < 2 → exec (.csrW t rs1 0x020) s = .next (set (fun th => { th with pwrmode := v.toNat % 4 }))) ∧
    (v.toNat % 4 = 3 → ∃ w, encodeMeq (.csrW t rs1 0x020) = some w ∧
      exec (.csrW t rs1 0x020) s = .next (s.trap t.toNat 0x01 (w.setWidth 64) th.pc)) ∧
    (∀ c ∈ [0x000#12, 0x010, 0x011, 0x012, 0x018, 0x019, 0x01A, 0x01B, 0x021, 0x022, 0x023],
      exec (.csrW t rs1 c) s = .next (set (fun th => th))) ∧
    (th.keeper = true → ∀ c ∈ [0x003#12, 0x004], exec (.csrW t rs1 c) s = .next (set (fun th => th)))

/-- For a ready thread FENCE changes only the PC. DINV removes the core's line that holds g[rs1], keeps every other line
and changes nothing else but the PC. At KEEPER, DINV.ALL leaves the core no line and sets its D_INVD bit, IINV.ALL sets
its I_INVD bit. A store to MQ_CACHE_CTL sets an enable bit only where it was set or its INVD flag is set, clears the
INVD flag of an enable bit that it clears, and sets EN_ERR if it refused one. A core whose data cache is off holds no
line afterwards. -/
def Obligations.FencesAndCacheMaintenance : Prop :=
  (∀ (t : BitVec 8) (rs1 : BitVec 5) (s : State), s.Ready t.toNat →
    let core := t.toNat / 4
    let a := (s.g t.toNat rs1.toNat).toNat
    exec (.fence t) s = .next (s.advance t.toNat) ∧
    (∃ s', exec (.dinv t rs1) s = .next s' ∧ s' = { s.advance t.toNat with dcache := s'.dcache } ∧
      s'.dlines core = (s.dlines core).filter (fun d => decide (d.addr ≠ a / 64 * 64)) ∧
      ∀ c, c ≠ core → s'.dlines c = s.dlines c) ∧
    ((s.thread t.toNat).keeper = true →
      (∃ s', exec (.dinvAll t) s = .next s' ∧ s'.dlines core = [] ∧ (∀ c, c ≠ core → s'.dlines c = s.dlines c) ∧
        (s'.rd F.MQ_CACHE_CTL_D_INVD (core / 8)).testBit (core % 8) = true ∧ s'.mem = s.mem ∧
        s'.thread t.toNat = { s.thread t.toNat with pc := (s.thread t.toNat).pc + 4 }) ∧
      (∃ s', exec (.iinvAll t) s = .next s' ∧ (s'.rd F.MQ_CACHE_CTL_I_INVD (core / 8)).testBit (core % 8) = true ∧
        s'.dcache = s.dcache ∧ s'.mem = s.mem ∧
        s'.thread t.toNat = { s.thread t.toNat with pc := (s.thread t.toNat).pc + 4 }))) ∧
  (∀ (cl v : Nat) (s : State), cl < 8 → ∃ s', exec (.mqCacheCtlWrite cl v) s = .next s' ∧
    (∀ p ∈ ([(F.MQ_CACHE_CTL_I_EN, F.MQ_CACHE_CTL_I_INVD, 0), (F.MQ_CACHE_CTL_D_EN, F.MQ_CACHE_CTL_D_INVD, 8)] : List (Fld × Fld × Nat)),
      ∀ i, i < 8 →
        (s'.rd p.1 cl).testBit i = (v.testBit (p.2.2 + i) && ((s.rd p.1 cl).testBit i || (s.rd p.2.1 cl).testBit i)) ∧
        (s'.rd p.2.1 cl).testBit i =
          ((s.rd p.2.1 cl).testBit i && !((s.rd p.1 cl).testBit i && !v.testBit (p.2.2 + i)))) ∧
    ((∃ i, i < 8 ∧ v.testBit (8 + i) = true ∧ (s.rd F.MQ_CACHE_CTL_D_EN cl).testBit i = false ∧
        (s.rd F.MQ_CACHE_CTL_D_INVD cl).testBit i = false) → s'.flag F.MQ_CACHE_CTL_EN_ERR cl = true) ∧
    (∀ i, i < 8 → (s.rd F.MQ_CACHE_CTL_D_EN cl).testBit i = true → v.testBit (8 + i) = false → s'.dlines (8 * cl + i) = []))

/-- An aligned 8-byte write of MQ_KEEPER, MQ_ENTRY_BASE, MQ_IDLE, MQ_BUDGET, MQ_KPR_BASE or MQ_KPR_LIMIT sets exactly
its RW bits and changes no other register; one of MQ_CODE_BASE, MQ_CODE_LIMIT or MQ_DISPATCHED changes none; one of
MQ_QTAB_BASE takes effect once and then never again; a write that is not 4 or 8 aligned bytes changes nothing. A store
to MQ_RUN leaves CORE_EN as written; threads of a core it disables go to STOP with the state they held, and threads in
STOP of a core it enables return to it (one that waits or drains may then go on at once). A store to MQ_WAKE ends the
WAIT of each thread it names with rd 0 and touches no other thread. REARM sets MIN to the free slots. -/
def Obligations.ClusterRegisterWrites : Prop :=
  (∀ (req : Port) (cl v : Nat) (s : State), cl < 8 →
    (∀ p ∈ ([(0x10, 0xFFFFFFFF), (0x18, 0xFFFFFFFFFFC0), (0x38, 0x7), (0x48, 0xFFFFFF), (0x50, 0xFFFFFFE00000), (0x58, 0xFFFFFFE00000)] : List (Nat × Nat)),
      ∃ s', exec (.registerWrite req (0x1000000 + 0x20000 * cl + p.1) 8 v) s = .next s' ∧
        (∀ i, i < 64 → (s'.regGet (0x1000000 + 0x20000 * cl + p.1)).getLsbD i =
          if p.2.testBit i then v.testBit i else (s.regGet (0x1000000 + 0x20000 * cl + p.1)).getLsbD i) ∧
        (∀ off, off ≠ 0x1000000 + 0x20000 * cl + p.1 → s'.regGet off = s.regGet off) ∧ s' = { s with regs := s'.regs }) ∧
    (∀ o ∈ [0x20, 0x28, 0x78], ∃ s', exec (.registerWrite req (0x1000000 + 0x20000 * cl + o) 8 v) s = .next s' ∧
      ∀ off, s'.regGet off = s.regGet off)) ∧
  (∀ (req : Port) (v v' : Nat) (s : State), F.MQ_QTAB_BASE_ADDR.off ∉ s.locked →
    ∃ s₁ s₂, exec (.registerWrite req 0x101F000 8 v) s = .next s₁ ∧ s₁.rd F.MQ_QTAB_BASE_ADDR = (v >>> 25) % 2 ^ 23 ∧
      F.MQ_QTAB_BASE_ADDR.off ∈ s₁.locked ∧ exec (.registerWrite req 0x101F000 8 v') s₁ = .next s₂ ∧
      s₂.regGet 0x101F000 = s₁.regGet 0x101F000) ∧
  (∀ (req : Port) (off size v : Nat) (s : State), ¬((size = 4 ∨ size = 8) ∧ off % size = 0) → exec (.registerWrite req off size v) s = .next s) ∧
  (∀ (cl v : Nat) (s : State), cl < 8 → ∃ s', exec (.mqRunWrite cl v) s = .next s' ∧ s'.rd F.MQ_RUN_CORE_EN cl = v % 256 ∧
    ∀ u, u < 256 →
      let was := (s.rd F.MQ_RUN_CORE_EN cl).testBit (u / 4 % 8)
      let now := v.testBit (u / 4 % 8)
      (u / 32 ≠ cl ∨ was = now → s'.thread u = s.thread u) ∧
      (u / 32 = cl → was = true → now = false → (s.thread u).st ≠ .stop →
        s'.thread u = { s.thread u with st := .stop, held := (s.thread u).st }) ∧
      (u / 32 = cl → was = false → now = true → (s.thread u).st = .stop → (s.thread u).wait = none →
        s'.thread u = { s.thread u with st := (s.thread u).held })) ∧
  (∀ (cl v : Nat) (s : State), cl < 8 → ∃ s', exec (.mqWakeWrite cl v) s = .next s' ∧ ∀ u,
    (∀ rd since tmo, u / 32 = cl → v.testBit (u % 32) = true → (s.thread u).st = .wait →
      (s.thread u).wait = some (.wait rd since tmo) →
      s'.thread u = { (s.thread u).setG rd 0 with st := .run, wait := none, pc := (s.thread u).pc + 4 }) ∧
    (u / 32 ≠ cl ∨ v.testBit (u % 32) = false → s'.thread u = s.thread u)) ∧
  (∀ s : State, ∃ s', exec .mqPoolRearm s = .next s' ∧ s'.rd F.MQ_POOL_FREE_MIN = (262144 - s.items.length - s.slotRsv) % 2 ^ 19)

/-- A store to FE_PORTMODE holds the modes of the present quads and sets MODE_ERR of a pair with only one quad in MODE
4. A store to FE_CTL enables a quad only if the three bases have been written or it was enabled, and closes every
connection of a quad it disables. Writing SAK or SALT of a secure association clears VALID. A link change sets the
port's nibble of FE_LINK (up and speed, or 0) and leaves every connection. On an enabled quad, a frame with a bad FCS, a
length outside 64 to 9,216, two tags, PAUSE or a foreign unicast address is counted in FE_FRAME_DROP and changes nothing
else; a priority flow control frame stops the priorities that it names and PFC_EN enables for its times; an unprotected
frame for firmware on a port with an interface that requires MACsec, or for such an interface, is counted in
FE_MACSEC_DROP; a frame for firmware goes to the oldest RAW_RX of its port, which completes DONE with the length in AUX
(its item's promise not having expired), or is counted in FE_IP_DROP. -/
def Obligations.FrontEndRegistersAndFrames : Prop :=
  (∀ (v : Nat) (s : State), ∃ s', exec (.fePortmodeWrite v) s = .next s' ∧
    s'.rd F.FE_PORTMODE_MODE = v % 2 ^ (4 * s.fuse.variant.quads) ∧ s'.rd F.FE_PORTMODE_MEDIA = (v >>> 16) % 16 ∧
    ∀ p, p < 2 → s'.pairBad p = true → (s'.rd F.FE_STATUS_MODE_ERR).testBit p = true) ∧
  (∀ (v : Nat) (s : State), ∃ s', exec (.feCtlWrite v) s = .next s' ∧ s'.flag F.FE_CTL_ACCEPT_EN = v.testBit 4 ∧
    (∀ q, q < 4 → (s'.rd F.FE_CTL_QUAD_EN).testBit q = (v.testBit q && decide (q < s.fuse.variant.quads) &&
      ((s.rd F.FE_CTL_QUAD_EN).testBit q ||
        decide (F.FE_CTX_BASE_ADDR.off ∈ s.locked ∧ F.FE_CIDX_BASE_ADDR.off ∈ s.locked ∧ F.FE_IFW_BASE_ADDR.off ∈ s.locked)))) ∧
    ∀ c x, s.conn c = some x → x.quad < 4 → (s.rd F.FE_CTL_QUAD_EN).testBit x.quad = true → v.testBit x.quad = false →
      x.st ≠ .closing → ∃ x', s'.conn c = some x' ∧ x'.st = .closing ∧ x'.wins = []) ∧
  (∀ (e w v : Nat) (s : State), e < 1024 → w ∈ [5, 6, 8, 9, 10, 11] →
    ∃ s', exec (.feMsaKeyWrite e w v) s = .next s' ∧ s'.flag F.FE_MSA_VALID e = false ∧
      (s'.regGet (0x2440000 + 0x80 * e + 8 * w)).toNat % 2 ^ 32 = v % 2 ^ 32 ∧
      (w ≠ 6 → (s'.regGet (0x2440000 + 0x80 * e + 8 * w)).toNat = v % 2 ^ 64)) ∧
  (∀ (port : Nat) (up : Bool) (s : State), port < 16 → (up = true → s.portSpeed port ≠ 0) →
    (s.rd F.FE_LINK_PORT >>> (4 * port)) % 16 ≠ (if up then 1 + 2 * s.portSpeed port else 0) →
    ∃ s', exec (.feLinkChange port up) s = .next s' ∧
      (s'.rd F.FE_LINK_PORT >>> (4 * port)) % 16 = (if up then 1 + 2 * s.portSpeed port else 0) ∧ s'.fe.conns = s.fe.conns) ∧
  (∀ (port : Nat) (f : RxFrame) (s : State), port < 16 → (s.rd F.FE_CTL_QUAD_EN).testBit (port / 4) = true → s.fe.paused = false →
    let broken := f.fcsOk = false ∨ f.len < 64 ∨ 9216 < f.len ∨ 2 ≤ f.tags ∨ f.pause = true
    let bad := broken ∨ (f.dst ≠ s.rd F.FE_MAC_ADDR port ∧ f.group = false)
    let needs : Nat → Prop := fun i => s.flag F.FE_IPIF_VALID i = true ∧ s.rd F.FE_IPIF_PORT i = port ∧ s.flag F.FE_IPIF_MACSEC_REQ i = true
    (∀ en times, ¬broken → f.pfc = some (en, times) → ∃ s', exec (.feFrameRx port f) s = .next s' ∧ s'.fe.conns = s.fe.conns ∧
      ∀ p, p < 8 → en.testBit p = true → (s.rd F.FE_MAC_PFC_EN port).testBit p = true →
        SMap.find s'.fe.pfcUntil (8 * port + p) = some (s.now + s.pauseNs port (times[p]?.getD 0))) ∧
    (f.pfc = none ∨ broken → bad → exec (.feFrameRx port f) s = .next (s.ctr F.FE_FRAME_DROP_CTR (port / 4))) ∧
    (∀ i, ¬bad → f.pfc = none → f.sec = none → i < 64 → needs i →
      (f.kind = .firmware ∨ ∃ v6 dst proto dport frag opts ext badSum urg, f.kind = .ip v6 dst proto dport frag opts ext badSum urg ∧
        s.ipifOf port f v6 dst = some i) →
      exec (.feFrameRx port f) s = .next (s.ctr F.FE_MACSEC_DROP_CTR (port / 4))) ∧
    (¬bad → f.pfc = none → f.sec = none → f.kind = .eapol ∨ (f.kind = .firmware ∧ ∀ i, i < 64 → ¬needs i) →
      ((∀ r ∈ s.fe.raw, r.port ≠ port) → exec (.feFrameRx port f) s = .next (s.ctr F.FE_IP_DROP_CTR (port / 4))) ∧
      (∀ r rest, s.fe.raw = r :: rest → r.port = port → s.InTime r.job → s.current (r.job.fld 8 8) = true →
        s.badIn (hAddr (r.job.fld 8 8) (r.job.fld 16 4)) f.data.length = false → r.job.fld 16 4 + f.data.length ≤ hLen (r.job.fld 8 8) →
        f.data.length < 2 ^ 32 →
        ∃ s', exec (.feFrameRx port f) s = .next s' ∧ s'.fe.raw = rest ∧
          s'.bytes (hAddr (r.job.fld 8 8) (r.job.fld 16 4)) f.data.length = f.data ∧
          { gid := r.job.gid, status := 0, unit := r.inst, ticket := r.job.ticket, aux := f.data.length, result := port } ∈ s'.comps)))

/-- A SYN to a listener while ACCEPT_EN is set and the bucket has room takes the lowest FREE index, raises its GEN and
leaves the connection in SYN_RCVD with an MSS that the interface's MTU and the SYN allow; one without a listener opens
nothing. On a connection whose context is on chip, whose quad is enabled and of which no segment waits: the ACK of the
SYN-ACK moves SYN_RCVD to AWAIT_IC; a good ICReq moves AWAIT_IC to AWAIT_CONNECT with the digests both sides allow,
another PDU there closes the connection; a Fabrics Connect with good digests moves AWAIT_CONNECT to AWAIT_BIND and puts
an item without a deadline on CONNECT_Q; H2CTermReq and RST close it. Three unanswered SYN-ACKs, or CLOSING_DONE, remove
it; IC_MS passing in AWAIT_IC, or a retransmission timer that is due beyond RETRIES, closes it. A context fetch brings
the context on chip and processes the acknowledgements that wait for it. -/
def Obligations.ConnectionsOpenAndClose : Prop :=
  (∀ (quad ipif lport : Nat) (y : SynSeg) (s : State), quad < s.fuse.variant.quads → ipif < 64 → (s.rd F.FE_CTL_QUAD_EN).testBit quad = true →
    s.fe.paused = false → (∀ p ∈ s.fe.conns, p.2.tuple ≠ y.tuple) →
    (s.listener ipif lport = false → ∃ s', exec (.synRx quad ipif lport y) s = .next s' ∧ s'.fe.conns = s.fe.conns) ∧
    (s.listener ipif lport = true → s.bucketFull y.tuple = false → s.flag F.FE_CTL_ACCEPT_EN = true → s.fe.conns.length < 1048576 →
      ∃ s' c x, exec (.synRx quad ipif lport y) s = .next s' ∧ c < 1048576 ∧ s.conn c = none ∧ (∀ d, d < c → s.conn d ≠ none) ∧
        s'.conn c = some x ∧ x.st = .synRcvd ∧ x.tuple = y.tuple ∧ x.quad = quad ∧
        x.mss = min (s.rd F.FE_IPIF_MTU ipif - (if s.flag F.FE_IPIF_IPV6 ipif then 60 else 40)) (if y.opts.mss = 0 then 536 else y.opts.mss) ∧ x.gen = (SMap.findD s.fe.gens c 0 + 1) % 256)) ∧
  (∀ (c bytes : Nat) (x : Conn) (s : State), s.Hears c x →
    (x.st = .synRcvd → ∃ s' x', exec (.synackAckRx c bytes) s = .next s' ∧ s'.conn c = some x' ∧ x'.st = .awaitIc) ∧
    (∀ type pfv hpda hd dd, x.st = .awaitIc →
      (type = 0 ∧ pfv = 0 ∧ hpda ≤ 31 → ∃ s' x', exec (.icreqRx c bytes type pfv hpda hd dd) s = .next s' ∧ s'.conn c = some x' ∧
        x'.st = .awaitConnect ∧ x'.hdgst = (hd && s.flag F.FE_NVME_HDGST_ALLOW) ∧ x'.ddgst = (dd && s.flag F.FE_NVME_DDGST_ALLOW)) ∧
      (¬(type = 0 ∧ pfv = 0 ∧ hpda ≤ 31) → ∃ s' x', exec (.icreqRx c bytes type pfv hpda hd dd) s = .next s' ∧ s'.conn c = some x' ∧
        x'.st = .closing)) ∧
    (∀ plen sqe data hd dd, x.st = .awaitConnect → plen ≤ 16456 → isConnect sqe = true →
      (x.hdgst = true → hd = crc32c (x.capHead plen sqe data)) → (x.ddgst = true → data ≠ [] → dd = crc32c data) →
      (firstFit ((64 + data.length + 63) / 64) 0 s.bufs).isSome = true →
      0 < s.poolFree → (s.queue (s.rd F.FE_NVME_CONNECT_Q)).accepts = true →
      ∃ s' x' k it, exec (.connectCapsuleRx c bytes plen sqe data hd dd) s = .next s' ∧ s'.conn c = some x' ∧ x'.st = .awaitBind ∧
        (s'.queue (s.rd F.FE_NVME_CONNECT_Q)).items = (s.queue (s.rd F.FE_NVME_CONNECT_Q)).items ++ [k] ∧
        SMap.find s'.items k = some it ∧ it.hasDl = false ∧ it.source = 1) ∧
    (∀ len, x.st ≠ .awaitIc → x.st ≠ .synRcvd → len ≤ 152 → ∃ s' x', exec (.h2ctermreqRx c bytes len) s = .next s' ∧
      s'.conn c = some x' ∧ x'.st = .closing) ∧
    (∃ s' x', exec (.rstRx c bytes) s = .next s' ∧ s'.conn c = some x' ∧ x'.st = .closing)) ∧
  (∀ (c : Nat) (x : Conn) (s : State), s.conn c = some x → (x.cached = true ∨ s.segHeld c = false) →
    (x.st = .synRcvd → 3 ≤ x.tries → ∃ s', exec (.synackRetryTimeout c) s = .next s' ∧ s'.conn c = none) ∧
    (x.st = .synRcvd → x.tries < 3 → ∃ s' x', exec (.synackRetryTimeout c) s = .next s' ∧ s'.conn c = some x' ∧
      x'.st = .synRcvd ∧ x'.tries = x.tries + 1) ∧
    (x.st = .awaitIc → x.since + 1000000 * s.rd F.FE_TIMERS_IC_MS ≤ s.now → ∃ s' x', exec (.icTimeout c) s = .next s' ∧
      s'.conn c = some x' ∧ x'.st = .closing) ∧
    (x.st = .closing → ∃ s', exec (.closingDone c) s = .next s' ∧ s'.conn c = none ∧ ∀ d, d ≠ c → s'.conn d = s.conn d) ∧
    (∀ at₀, x.st ≠ .closing → x.tcp.timerAt = some at₀ → at₀ + 1000 * x.tcp.rto ≤ s.now →
      (x.retries < s.rd F.FE_TCP_RETRIES → ∃ s' x', exec (.tcpRtoExpiry c) s = .next s' ∧ s'.conn c = some x' ∧
        x'.st = x.st ∧ x'.retries = x.retries + 1) ∧
      (s.rd F.FE_TCP_RETRIES ≤ x.retries → ∃ s' x', exec (.tcpRtoExpiry c) s = .next s' ∧ s'.conn c = some x' ∧ x'.st = .closing)) ∧
    (x.st = .closing → ∀ at₀, x.tcp.timerAt = some at₀ → at₀ + 1000 * x.tcp.rto ≤ s.now → s.rd F.FE_TCP_RETRIES ≤ x.retries →
      ∃ s', exec (.tcpRtoExpiry c) s = .next s' ∧ s'.conn c = none)) ∧
  (∀ (c : Nat) (x : Conn) (s : State), s.conn c = some x →
    (s.fetching.contains c = true → s.cachedCount < 4096 → (∀ n ∈ s.fe.miss, n.conn = c → ∃ a, n.seg = .ack a) →
      ∃ s' x', exec (.ctxFetchComplete c) s = .next s' ∧ s'.conn c = some x' ∧ x'.cached = true ∧ ∀ n ∈ s'.fe.miss, n.conn ≠ c))

/-- On a READY connection whose context is on chip and of which no segment waits: a capsule whose digests are good,
whose PLEN is in range, which passes the ingress checks and for which a buffer is free, joins the tail of the receive
ring with the command outstanding; one that fails a check, or has a bad data digest, joins nothing and completes with a
status; one with a bad header digest closes the connection. CAPSULE_ADMISSION takes the oldest record: an admin or
Fabrics capsule becomes an item without a deadline; a command that the checks grant becomes, while events are masked and
so make no items, an item with the deadline in the item and a LIVE promise; one they refuse creates no item and frees
its buffer. H2CData with good digests at the next expected offset of an open window (the window's offset in the
command's data plus the bytes received) adds its bytes, at another closes the connection. XFER_MS passing completes the
SOLICIT with RESULT 1 and the data bytes received. A TCP acknowledgement of what was sent, which PAWS lets pass,
completes the RESPONDs whose last byte it covers. -/
def Obligations.CapsulesAndDataReachTheDevice : Prop :=
  (∀ (c bytes plen : Nat) (x : Conn) (sqe : BitVec 512) (data : List Byte) (s : State), s.Hears c x → x.st = .ready →
    let x₁ := Conn.sqTake { x with used := s.now, adv := x.adv - bytes }
    let s₁ := s.setConn c x₁
    let head : Nat → Prop := fun hd => x.hdgst = true → hd = crc32c (x.capHead plen sqe data)
    let body : Nat → Prop := fun dd => x.ddgst = true → data ≠ [] → dd = crc32c data
    (∀ hd dd, head hd → body dd → plen ≤ 16456 → s₁.ingress x₁ sqe data = .ok → (s₁.capsuleBuf c x₁ sqe data).isSome = true →
      ∃ s' x' cap, exec (.capsuleCmdRx c bytes plen sqe data hd dd) s = .next s' ∧ s'.rxRing = s.rxRing ++ [cap] ∧
        cap.conn = x.handle c ∧ cap.cid = (sqe.toNat >>> 16) % 2 ^ 16 ∧ cap.hdr = sqe ∧ s'.conn c = some x' ∧
        (∃ m ∈ x'.cmds, m.cid = (sqe.toNat >>> 16) % 2 ^ 16)) ∧
    (∀ hd dd sct sc dnr, head hd → body dd → plen ≤ 16456 → s₁.ingress x₁ sqe data = .status sct sc dnr →
      ∃ s' x', exec (.capsuleCmdRx c bytes plen sqe data hd dd) s = .next s' ∧ s'.rxRing = s.rxRing ∧ s'.conn c = some x' ∧
        x'.cmds = x.cmds) ∧
    (∀ hd dd, head hd → ¬body dd → plen ≤ 16456 → ∃ s' x', exec (.capsuleCmdRx c bytes plen sqe data hd dd) s = .next s' ∧
      s'.rxRing = s.rxRing ∧ s'.conn c = some x' ∧ x'.st = .ready ∧ x'.cmds = x.cmds) ∧
    (∀ hd dd, ¬head hd → ∃ s' x', exec (.capsuleCmdRx c bytes plen sqe data hd dd) s = .next s' ∧ s'.conn c = some x' ∧ x'.st = .closing ∧ s'.rxRing = s.rxRing) ∧
    (∀ (t : H2cTag) off hd dd w, x.wins = [w] → w.tag = t.tag → (x.hdgst = true → hd = crc32c (x.h2cHead t.cid t.tag off t.last data)) → body dd →
      (off = w.off + w.raw.length → off + data.length < w.off + w.wire → data.length ≤ 131072 →
        ∃ s' x', exec (.h2cdataRx c bytes t off data hd dd) s = .next s' ∧ s'.conn c = some x' ∧
          x'.wins = [{ w with raw := w.raw ++ data }]) ∧
      (off ≠ w.off + w.raw.length ∨ w.off + w.wire < off + data.length ∨ 131072 < data.length →
        ∃ s' x', exec (.h2cdataRx c bytes t off data hd dd) s = .next s' ∧ s'.conn c = some x' ∧ x'.st = .closing)) ∧
    (∀ (a : TcpAck) r, x.resps = [r] → s.InTime r.job → x.tcp.paws a = true → x.acked < a.upTo → a.upTo ≤ x.tcp.top →
      ∃ s' x', exec (.tcpAckRx c bytes a) s = .next s' ∧ s'.conn c = some x' ∧ x'.acked = a.upTo ∧
        (r.endAt ≤ a.upTo → x'.resps = [] ∧
          { gid := r.job.gid, status := 0, unit := r.inst, ticket := r.job.ticket, aux := 0, result := 0 } ∈ s'.comps) ∧
        (a.upTo < r.endAt → x'.resps = [r] ∧ s'.comps = s.comps))) ∧
  (∀ (c tag : Nat) (x : Conn) (w : Win) (s : State), s.conn c = some x → x.wins = [w] → w.tag = tag → w.raw.length < 2 ^ 32 →
    (x.cached = true ∨ s.segHeld c = false) → w.start + 1000000 * s.rd F.FE_TIMERS_XFER_MS ≤ s.now →
    ∃ s' x', exec (.xferTimeout c tag) s = .next s' ∧ s'.conn c = some x' ∧ x'.wins = [] ∧
      { gid := w.job.gid, status := 0, unit := w.inst, ticket := w.job.ticket, aux := w.dataBytes ((x.cmds.find? (fun m => decide (m.cid = w.job.fld 32 2))).any (·.pi)), result := 1 } ∈ s'.comps) ∧
  (∀ (cap : RxCap) (rest : List RxCap) (s : State), s.rxRing = cap :: rest → 0 < s.poolFree → (s.queue cap.queue).accepts = true →
    let s₀ := { s with rxRing := rest }
    (cap.admin = true ∨ cap.fabrics = true → ∃ s' k it, exec .capsuleAdmission s = .next s' ∧ s'.rxRing = rest ∧
      (s'.queue cap.queue).items = (s.queue cap.queue).items ++ [k] ∧ SMap.find s'.items k = some it ∧ it.hasDl = false ∧
      it.handle = BitVec.ofNat 64 cap.handle ∧ s'.prms = s.prms) ∧
    (cap.admin = false → cap.fabrics = false →
      (∀ g, s₀.admCheck (capReq cap) = .inr g → s.flag F.EVT_CTL_EN = false →
        ∃ s' k it p, exec .capsuleAdmission s = .next s' ∧ s'.rxRing = rest ∧ SMap.find s.items k = none ∧
        SMap.find s'.items k = some it ∧ it.hasDl = true ∧ it.deadline = (s.now + g.d) % 2 ^ 32 ∧ it.queue = cap.queue ∧
        SMap.find s'.prms k = some p ∧ p.st = .live ∧ p.time = s.now + g.d ∧ p.tenant = cap.tenant ∧
        p.write = decide (cap.kind = 1)) ∧
      (∀ r, s₀.admCheck (capReq cap) = .inl r → s.current cap.handle = true →
        ∃ s', exec .capsuleAdmission s = .next s' ∧ s'.rxRing = rest ∧ s'.prms = s.prms ∧
          SMap.find s'.bufs (cap.handle % 2 ^ 21) = none)))

/-- For every unit class with cluster rings but the map unit (whose rows also let waiting work of the unit go on), when
the job at the head of a ring has an OP that the class does not define, and the unit is present, in RUN and holds its
arbiter's grant for that ring, a row of the unit ends the job BAD_JOB, with AUX and RESULT 0, and takes it off its ring.
A job with an undefined OP waits while the unit is not in RUN or the ring has no grant, and a row does nothing on an
empty ring. -/
def Obligations.JobsThatFailTheirChecksEndBadJob : Prop :=
  ∀ p ∈ ([(0x01, fun i c => .feRespond i c), (0x02, fun i c => .dgStartJob i c), (0x03, fun i c => .oxCompress i c),
      (0x04, fun _ c => .ddxLookup c), (0x05, fun i c => .xtsEncrypt i c), (0x06, fun i c => .rdnEncode i c),
      (0x08, fun _ c => .segOpen c), (0x09, fun i c => .nmlJobRead i c), (0x0A, fun _ c => .trnWrite c),
      (0x0B, fun _ c => .muleJload c), (0x0C, fun _ c => .goatScan c []), (0x0D, fun _ c => .mbxSend c)] :
      List (Nat × (Nat → Nat → Instr))), ∀ (inst cl : Nat) (s : State), (p.1 ∈ [0x04, 0x08, 0x0A, 0x0B, 0x0C, 0x0D] → inst = 0) →
    (s.ring p.1 inst cl = [] → exec (p.2 inst cl) s = .next s) ∧
    (∀ j, (s.ring p.1 inst cl).head? = some j → opDefined p.1 j.op = false →
      (s.unitPresent p.1 inst = true → s.domRuns (unitDomain p.1 inst) = true → s.granted p.1 inst cl = true →
        ∃ s', exec (p.2 inst cl) s = .next s' ∧ s.Finished s' p.1 inst cl j 0x3E 0 0) ∧
      (s.domRuns (unitDomain p.1 inst) = false ∨ s.granted p.1 inst cl = false → exec (p.2 inst cl) s = .next s)) ∧
    (∀ j, (s.ring p.1 inst cl).head? = some j → opDefined p.1 j.op = true → j.op = 1 → j.flagsOk = false → p.1 ∉ [0x0A, 0x0B] →
      s.unitPresent p.1 inst = true → s.domRuns (unitDomain p.1 inst) = true → s.granted p.1 inst cl = true →
      ∃ s', exec (p.2 inst cl) s = .next s' ∧ s.Finished s' p.1 inst cl j 0x3E 0 0)

/-- For a job of quad instance inst whose item's promise has not expired, whose connection handle is current, on chip,
not closing and on that quad, with its reserved fields 0, where what it sends leaves at once (both TCP windows have room
and nothing waits before it, the port exists, is not stopped and needs no MACsec, transmitters are on): RESPOND sends
its data as C2HData and a response capsule (or the data alone with SUCCESS when flow control is off and the status is
0), ends the command and waits for the acknowledgement of the last byte; SOLICIT, for commands without protection
information and not solicited before, opens a window at DOFF, sends the R2T and pauses the item's LIVE promise at its
slack; REFUSE sends the status of its reason, ends the command and completes DONE; AEN completes the oldest Asynchronous
Event Request, or with AUX 2 when there is none. DW0 of the answer to an Abort has bit 0 set. PDUs take their places in
the stream and carry the digests that are enabled. A job with a stale handle completes DONE with AUX 1. -/
def Obligations.FrontEndJobsRun : Prop :=
  ∀ (inst cl : Nat) (j : Job) (s : State), s.JobReady 0x01 inst cl j → connOk j = true → s.InTime j →
    (s.connAt (j.fld 4 4) = none →
      (j.op = 3 → j.zero 2 3 = true → j.zero 8 31 = true → j.zero 34 39 = true → j.zero 48 63 = true →
        ∃ s', exec (.feRefuse inst cl) s = .next s' ∧ s.Finished s' 0x01 inst cl j 0 1 0) ∧
      (j.op = 4 → j.zero 2 3 = true → j.zero 8 23 = true → j.zero 32 63 = true →
        ∃ s', exec (.feAen inst cl) s = .next s' ∧ s.Finished s' 0x01 inst cl j 0 1 0)) ∧
    (∀ c x, s.connAt (j.fld 4 4) = some (c, x) → x.quad = inst → x.st ≠ .closing → x.cached = true →
      let cid := j.fld 32 2
      let len := j.fld 20 4
      let port := s.rd F.FE_IPIF_PORT x.ipif
      let sent := fun (p : Pdu) (at₀ w : Nat) => Out.fe port false (.pdu (x.handle c) w at₀ (x.txHd p) (x.txDd p) p)
      let room := fun (l : List Pdu) => s.SendsNow x (l.map (pduBytes x)).sum
      let resp := Pdu.capsuleResp cid (x.dw0 cid (j.fld 24 4)) (j.fld 28 4) x.sqhd x.qid (j.fld 34 2)
      let ends := fun (s' : State) => ∃ x', s'.conn c = some x' ∧ x'.cmds = x.cmds.filter (fun m => decide (m.cid ≠ cid)) ∧
        x'.resps = x.resps ++ [{ job := j, inst := inst, endAt := x'.sent }] ∧ s'.comps = s.comps ∧
        s'.ring 0x01 inst cl = (s.ring 0x01 inst cl).tail
      (j.op = 1 → j.zero 2 3 = true → j.zero 36 63 = true → bitOf (j.fld 34 2) 15 = false →
        (len = 0 → j.fld 8 8 = 0 → room [resp] →
          ∃ s' w, exec (.feRespond inst cl) s = .next s' ∧ ends s' ∧ s'.out = s.out ++ [sent resp x.sent w]) ∧
        (0 < len → len ≤ 131072 → s.inHandle (j.fld 8 8) (j.fld 16 4) len = true → j.fld 8 8 ≠ 0 →
          s.badIn (hAddr (j.fld 8 8) (j.fld 16 4)) len = false → s.fixIn (hAddr (j.fld 8 8) (j.fld 16 4)) len = [] →
          (∀ m ∈ x.cmds, m.pi = false) →
          let ok := x.noFlow && decide (j.fld 34 2 % 2 ^ 15 = 0 ∧ j.fld 24 4 = 0 ∧ j.fld 28 4 = 0)
          let data := Pdu.c2hData cid 0 (s.bytes (hAddr (j.fld 8 8) (j.fld 16 4)) len) true ok
          room (if ok then [data] else [data, resp]) →
          ∃ s' w w', exec (.feRespond inst cl) s = .next s' ∧ ends s' ∧
            s'.out = s.out ++ sent data x.sent w :: (if ok then [] else [sent resp (x.sent + pduBytes x data) w']))) ∧
      (j.op = 2 → j.zero 2 3 = true → j.zero 24 31 = true → j.zero 34 35 = true → j.zero 40 63 = true → 0 < len → len ≤ 1048576 →
        s.inHandle (j.fld 8 8) (j.fld 16 4) len = true → x.wins.length < 64 → (∀ m ∈ x.cmds, m.pi = false ∧ m.asked = false) →
        room [.r2t cid x.nextTag (j.fld 36 4) len] → ∃ s' x' w, exec (.feSolicit inst cl) s = .next s' ∧ s'.conn c = some x' ∧
          x'.wins = x.wins ++ [{ tag := x.nextTag, job := j, inst := inst, off := j.fld 36 4, wire := len, raw := [], start := s.now, digestErr := false }] ∧
          sent (.r2t cid x.nextTag (j.fld 36 4) len) x.sent w ∈ s'.out ∧ s'.ring 0x01 inst cl = (s.ring 0x01 inst cl).tail ∧
          ∀ k p, j.item = some k → s.prm k = some p → p.st = .live →
            s'.prm k = some { p with st := .paused, time := p.time - s.now }) ∧
      (j.op = 3 → j.zero 2 3 = true → j.zero 8 31 = true → j.zero 34 39 = true → j.zero 48 63 = true →
        let r := bitsOf (j.fld 40 8) 33 5
        let word := fun st => Pdu.capsuleResp cid (x.dw0 cid 0) 0 x.sqhd x.qid st
        room [word 0] → ∃ s' x' w st, exec (.feRefuse inst cl) s = .next s' ∧ s.Finished s' 0x01 inst cl j 0 0 0 ∧ s'.conn c = some x' ∧
          x'.cmds = x.cmds.filter (fun m => decide (m.cid ≠ cid)) ∧
          s'.out = s.out ++ [sent (word st) x.sent w] ∧
          (r = 6 → st = 0x4006) ∧ (r = 8 → st = 0x4081) ∧ (r = 12 → st = 0x0006) ∧ (r = 16 → st = 0x07C0) ∧
          (r ∈ [1, 2, 3, 7, 9, 10, 11, 13, 14, 15] → st = 0x0021 ∨ st = 0x0021 + bitsOf (j.fld 40 8) 38 2 * 2 ^ 11)) ∧
      (j.op = 4 → j.zero 2 3 = true → j.zero 8 23 = true → j.zero 32 63 = true →
        (x.aers = [] → ∃ s', exec (.feAen inst cl) s = .next s' ∧ s.Finished s' 0x01 inst cl j 0 2 0) ∧
        (∀ a rest, x.aers = a :: rest → a ∉ rest → room [.capsuleResp a (x.dw0 a (j.fld 24 4)) (j.fld 28 4) x.sqhd x.qid 0] → ∃ s' x' w, exec (.feAen inst cl) s = .next s' ∧ s.Finished s' 0x01 inst cl j 0 0 0 ∧
          s'.conn c = some x' ∧ x'.aers = rest ∧
          s'.out = s.out ++ [sent (.capsuleResp a (x.dw0 a (j.fld 24 4)) (j.fld 28 4) x.sqhd x.qid 0) x.sent w])))

/-- For a job whose item's promise has not expired, on a current connection of its quad that is not closing and whose
context is on chip, or comes on chip with no segment waiting for it: BIND of one in AWAIT_BIND makes it READY with the
queue, tenant, queue id, size, controller id and flags of the job, and of one in another state ends BAD_JOB; SET_MSS
between 536 and 8,960 sets the segment size; TERMINATE closes the connection and completes DONE. A job of another quad's
connection ends BAD_JOB. RAW_TX sends the frame's bytes at once on a port that exists, with transmitters on and no
priority stopped, unprotected where no interface of the port requires MACsec, and completes DONE. RAW_RX is posted
behind the posts before it until a frame comes, and stays on its ring while the quad has 64 posts. -/
def Obligations.ConnectionControlAndRawJobs : Prop :=
  (∀ (inst cl : Nat) (j : Job) (s : State) (c : Nat) (x : Conn), s.JobReady 0x01 inst cl j → j.op = 5 → connOk j = true → s.InTime j →
    s.connAt (j.fld 4 4) = some (c, x) → x.st ≠ .closing → (x.cached = true ∨ (s.cachedCount < 4096 ∧ s.segHeld c = false)) →
    (j.fld 2 1 = 1 → j.zero 3 3 = true → j.zero 8 39 = true → j.zero 51 63 = true → j.fld 40 4 < 2 ^ 20 → j.fld 44 2 < 2 ^ 12 →
      j.fld 50 1 < 8 → (if bitOf (j.fld 50 1) 2 then j.fld 47 1 = 3 else j.fld 47 1 ≤ 127) →
      (x.quad = inst → x.st = .awaitBind → ∃ s' x', exec (.feBind inst cl) s = .next s' ∧ s.Finished s' 0x01 inst cl j 0 0 0 ∧
        s'.conn c = some x' ∧ x'.st = .ready ∧ x'.queue = j.fld 40 4 ∧ x'.tenant = j.fld 44 2 ∧ x'.qid = j.fld 46 1 ∧
        x'.sqsize = 8 * (j.fld 47 1 + 1) ∧ x'.cntlid = j.fld 48 2 ∧ x'.admin = bitOf (j.fld 50 1) 2 ∧ x'.sqhd = 0 ∧
        x'.cmds = x.cmds ∧ x'.gen = x.gen) ∧
      (x.quad ≠ inst ∨ x.st ≠ .awaitBind → ∃ s', exec (.feBind inst cl) s = .next s' ∧ s.Finished s' 0x01 inst cl j 0x3E 0 0)) ∧
    (j.fld 2 1 = 2 → j.zero 3 3 = true → j.zero 8 47 = true → j.zero 50 63 = true → 536 ≤ j.fld 48 2 → j.fld 48 2 ≤ 8960 →
      x.quad = inst → ∃ s' x', exec (.feSetMss inst cl) s = .next s' ∧ s.Finished s' 0x01 inst cl j 0 0 0 ∧
        s'.conn c = some x' ∧ x'.mss = j.fld 48 2 ∧ x'.st = x.st) ∧
    (j.fld 2 1 = 3 → j.zero 8 63 = true → x.quad = inst → ∃ s' x', exec (.feTerminate inst cl) s = .next s' ∧
      s.Finished s' 0x01 inst cl j 0 0 0 ∧ s'.conn c = some x' ∧ x'.st = .closing)) ∧
  (∀ (inst cl : Nat) (j : Job) (s : State), s.JobReady 0x01 inst cl j → s.InTime j → j.zero 3 7 = true → j.fld 2 1 / 4 = inst →
    (j.op = 6 → j.zero 24 63 = true → 60 ≤ j.fld 20 4 → j.fld 20 4 ≤ 9212 →
      s.inHandle (j.fld 8 8) (j.fld 16 4) (j.fld 20 4) = true → s.badIn (hAddr (j.fld 8 8) (j.fld 16 4)) (j.fld 20 4) = false →
      s.fixIn (hAddr (j.fld 8 8) (j.fld 16 4)) (j.fld 20 4) = [] → s.squelched = false → s.portSpeed (j.fld 2 1) ≠ 0 →
      s.fe.pfc = [] → s.fe.pfcUntil = [] →
      (∀ i, i < 64 → s.flag F.FE_IPIF_VALID i = true → s.flag F.FE_IPIF_MACSEC_REQ i = true → s.rd F.FE_IPIF_PORT i ≠ j.fld 2 1) →
      ∃ s', exec (.feRawTx inst cl) s = .next s' ∧ s.Finished s' 0x01 inst cl j 0 0 0 ∧
        s'.out = s.out ++ [.fe (j.fld 2 1) false (.raw (s.bytes (hAddr (j.fld 8 8) (j.fld 16 4)) (j.fld 20 4)))]) ∧
    (j.op = 7 → j.zero 20 63 = true → s.inHandle (j.fld 8 8) (j.fld 16 4) 0 = true →
      ((s.fe.raw.filter (fun r => decide (r.inst = inst))).length < 64 → ∃ s', exec (.feRawRx inst cl) s = .next s' ∧
        s'.fe.raw = s.fe.raw ++ [{ job := j, inst := inst, port := j.fld 2 1 }] ∧
        s'.ring 0x01 inst cl = (s.ring 0x01 inst cl).tail ∧ s'.comps = s.comps) ∧
      (64 ≤ (s.fe.raw.filter (fun r => decide (r.inst = inst))).length → exec (.feRawRx inst cl) s = .next s)))

/-- While the journal is enabled and the head is not in VAULTING or DOWN, an append job on a journal queue pair whose
buffer holds a record of TYPE 1 to 4 with LENGTH equal to the job's, a multiple of 64, that fits without a PAD: writes
at HEAD the record with FLAGS, JOFF and CHECK filled and advances HEAD by its length; under SINGLE it completes DONE
with JOFF in RESULT; otherwise it is sent as a WRITE of the same record to the partner on the active queue pair and
completes with that message. A retire mark under SINGLE for a live record sets RETIRED and completes DONE, and TAIL
passes a record that was at TAIL. In VAULTING and DOWN both end REFUSED. EN stays 0 until JRN_BASE is written; JRN_START
sets HEAD and TAIL only while EN is 0. -/
def Obligations.JournalAppendsAndRetires : Prop :=
  (∀ (cl : Nat) (j : Job) (s : State), s.JobReady 0x0A 0 cl j → s.isJrnQp (j.fld 2 2) = true → trnCheck j s = true →
    (s.life = .vaulting ∨ s.life = .down →
      (j.op = 1 → ∃ s', exec (.journalAppend cl) s = .next s' ∧ s.Finished s' 0x0A 0 cl j 0x32 0 0 ∧ s'.mem = s.mem) ∧
      (j.op = 2 → ∃ s', exec (.journalRetireMark cl) s = .next s' ∧ s.Finished s' 0x0A 0 cl j 0x32 0 0 ∧ s'.mem = s.mem)) ∧
    (s.life ≠ .vaulting → s.life ≠ .down → s.flag F.JRN_CTL_EN = true → s.rd F.JRN_HEAD_JOFF < 2 ^ 63 →
      let n := j.fld 4 4
      let a := hAddr (j.fld 8 8) (j.fld 16 4)
      let d := s.bytes a n
      let head := s.rd F.JRN_HEAD_JOFF
      (j.op = 1 → j.fld 8 8 ≠ 0 → j.fld 24 8 = 0 → j.fld 32 4 = 0 → 64 ≤ n → n % 64 = 0 → s.badIn a n = false → s.fixIn a n = [] →
        1 ≤ lfld d 0 1 → lfld d 0 1 ≤ 4 → lfld d 4 4 = n → padNeed head n = 0 → head + n ≤ s.rd F.JRN_TAIL_JOFF + 2 ^ 30 →
        (s.flag F.JRN_CTL_SINGLE = true → ∃ s', exec (.journalAppend cl) s = .next s' ∧ s.Finished s' 0x0A 0 cl j 0 0 head ∧
          s'.rd F.JRN_HEAD_JOFF = head + n ∧ s'.bytes (ringAddr s.jrnBase head) n = fillRecord d true head) ∧
        (s.flag F.JRN_CTL_SINGLE = false → s.qpGate s.jrnQp = none → ∃ s' m, exec (.journalAppend cl) s = .next s' ∧
          s'.comps = s.comps ∧ s'.ring 0x0A 0 cl = (s.ring 0x0A 0 cl).tail ∧ s'.rd F.JRN_HEAD_JOFF = head + n ∧
          s'.bytes (ringAddr s.jrnBase head) n = fillRecord d false head ∧
          (s'.qp s.jrnQp).msgs = (s.qp s.jrnQp).msgs ++ [m] ∧ m.src = .append j head ∧ m.op = 1 ∧ m.raddr = head % 2 ^ 30 ∧
          m.rkey = s.rd F.JRN_RKEY_RKEY ∧ m.data = fillRecord d false head)) ∧
      (j.op = 2 → n = 0 → j.fld 20 4 = 0 → j.fld 32 4 = 0 → j.fld 24 8 ∈ s.jrnRecs → s.recRetired s.jrnBase (j.fld 24 8) = false →
        s.flag F.JRN_CTL_SINGLE = true → ∃ s', exec (.journalRetireMark cl) s = .next s' ∧ s.Finished s' 0x0A 0 cl j 0 0 0 ∧
          s'.recRetired s.jrnBase (j.fld 24 8) = true ∧
          (j.fld 24 8 = s.rd F.JRN_TAIL_JOFF → s.rd F.JRN_TAIL_JOFF < s'.rd F.JRN_TAIL_JOFF)))) ∧
  (∀ (v : Nat) (s : State), ∃ s', exec (.jrnCtlWrite v) s = .next s' ∧
    s'.flag F.JRN_CTL_EN = (if v.testBit 0 = false ∨ F.JRN_BASE_ADDR.off ∈ s.locked then v.testBit 0 else s.flag F.JRN_CTL_EN) ∧
    s'.flag F.JRN_CTL_SINGLE = v.testBit 1 ∧ s'.rd F.JRN_CTL_QP0 = bitsOf v 8 12 ∧ s'.rd F.JRN_CTL_QP1 = bitsOf v 20 12 ∧
    s'.rd F.JRN_CTL_VAULT_MIN = bitsOf v 32 3) ∧
  (∀ (v : Nat) (s : State), (s.flag F.JRN_CTL_EN = true → exec (.jrnStartWrite v) s = .next s) ∧
    (s.flag F.JRN_CTL_EN = false → ∃ s', exec (.jrnStartWrite v) s = .next s' ∧ s'.rd F.JRN_HEAD_JOFF = v % 2 ^ 64 / 64 * 64 ∧
      s'.rd F.JRN_TAIL_JOFF = v % 2 ^ 64 / 64 * 64 ∧ s'.mem = s.mem))

/-- A fall of PFAIL_N while VDD_AON stands and PFAIL_SEEN is 0 sets PFAIL_SEEN; with HEAD_RST_N high in ACTIVE, BRACE
and HANDOVER it moves the head to VAULTING with the flush begun, every armed area in STATE 1 with PAGES 0; in other
states the lifecycle state stays. With PFAIL_SEEN set it does nothing. 100 µs after the flush began every append that
waits for the partner completes MEDIA_TIMEOUT. While no append waits, each step of the flush goes on by a page in every
area that is neither DONE nor FAILED, the head staying in VAULTING, or leaves it FAILED (one page a step is the model's
choice, assumption log 46); a LEASE_STALE, or a step with no such area left, ends the flush: every area is disarmed and
the head in DOWN, unless a PIN reset waited. -/
def Obligations.VaultFlushRuns : Prop :=
  (∀ s : State, (s.pins.aon = false ∨ s.flag F.PWR_VMON_PFAIL_SEEN = true → exec .pfailFall s = .next s) ∧
    (s.pins.aon = true → s.flag F.PWR_VMON_PFAIL_SEEN = false → ∃ s', exec .pfailFall s = .next s' ∧
      s'.flag F.PWR_VMON_PFAIL_SEEN = true ∧ s'.flag F.PWR_VMON_PFAIL_N = false ∧
      (s.pins.headRstN = true → s.life = .active ∨ s.life = .brace ∨ s.life = .handover →
        s'.life = .vaulting ∧ s'.pwr.flush = some (s.now, s.calNow, false) ∧
        ∀ a, a < 4 → s.flag F.JRN_VAULT_ARMED a = true → s'.rd F.JRN_VAULT_STATE a = 1 ∧ s'.rd F.JRN_VAULT_PAGES a = 0) ∧
      (s.pins.headRstN = false ∨ (s.life ≠ .active ∧ s.life ≠ .brace ∧ s.life ≠ .handover) →
        s'.life = s.life ∧ s'.pwr.flush = s.pwr.flush))) ∧
  (∀ (t c : Nat) (s : State), s.life = .vaulting → s.pwr.flush = some (t, c, false) →
    (s.now < t + 100000 → exec .vaultAppendTimeout s = .next s) ∧
    (t + 100000 ≤ s.now → ∃ s', exec .vaultAppendTimeout s = .next s' ∧ s'.pwr.flush = some (t, c, true) ∧ s'.mem = s.mem ∧
      ∀ p ∈ s.trn.qps, ∀ m ∈ p.2.msgs, ∀ (j : Job) (o : Nat), m.src = .append j o →
        { gid := j.gid, status := 0x21, unit := 0, ticket := j.ticket, aux := 0, result := 0 } ∈ s'.comps)) ∧
  (∀ (t cal : Nat) (ended : Bool) (bad : List (Nat × Nat)) (s : State), s.life = .vaulting → s.pwr.flush = some (t, cal, ended) →
    (ended = true ∨ ∀ p ∈ s.trn.qps, ∀ m ∈ p.2.msgs, m.isAppend = false) →
    let round := s.vaultRound cal bad s.vaultOpen
    (s.vaultOpen ≠ [] → round.2 = true → ∃ s', exec (.vaultFlushComplete bad) s = .next s' ∧ s'.life = .vaulting ∧ s'.pwr.flush = s.pwr.flush ∧
      ∀ a ∈ s.vaultOpen, s'.rd F.JRN_VAULT_STATE a = 5 ∨ s'.rd F.JRN_VAULT_PAGES a = (s.rd F.JRN_VAULT_PAGES a + 1) % 2 ^ 16) ∧
    (s.vaultOpen = [] ∨ round.2 = false → s.pwr.pinWait = false →
      ∃ s', exec (.vaultFlushComplete bad) s = .next s' ∧ s'.life = .down ∧ s'.pwr.flush = none ∧
        (∀ a, a < 4 → s'.flag F.JRN_VAULT_ARMED a = false) ∧ s'.log.dirty = []) ∧
    (s.vaultOpen = [] → s.pwr.pinWait = false →
      ∃ s', exec (.vaultFlushComplete bad) s = .next s' ∧ s'.flag F.GLB_STATE_FAULT = true))

/-- For a digest job that passes its checks and whose input reads without error: START opens the slot with the algorithm
and its first data; UPDATE feeds the open message; FINAL feeds it, finishes it, and writes the digest at OUT where OUT
is given, its first 8 bytes in RESULT; an unkeyed ONESHOT gives the digest of its data, and a keyed one the HMAC under
the key that KEYLOAD put in the slot; KEYLOAD clears the slot and stores the key states of its data, or none for length
0. Each completes DONE with its length in AUX and nothing of memory changes but the digest's bytes. -/
def Obligations.DigestJobsWriteTheirDigests : Prop :=
  ∀ (inst cl : Nat) (j : Job) (s : State), s.JobReady 0x02 inst cl j → dgCheck inst j s = true →
    let a := hAddr (j.fld 8 8) (j.fld 16 4)
    let len := j.fld 20 4
    let slot := j.fld 2 2
    let alg := j.fld 4 1
    let out := hAddr (j.fld 24 8) (j.fld 32 4)
    s.badIn a len = false → s.fixIn a len = [] →
    let d := s.bytes a len
    let x := s.dgSlot slot
    let stored := fun (s' : State) (dig : List Byte) => s'.mem = if j.fld 24 8 = 0 then s.mem else memWrite s.mem out dig
    (j.op = 1 → ∃ s', exec (.dgStartJob inst cl) s = .next s' ∧ s.Finished s' 0x02 inst cl j 0 len 0 ∧ s'.mem = s.mem ∧
      s'.dgSlot slot = (x.start alg (decide (j.fld 5 1 = 1))).feed d ∧ (s'.dgSlot slot).st = 1) ∧
    (j.op = 2 → ∃ s', exec (.dgUpdate inst cl) s = .next s' ∧ s.Finished s' 0x02 inst cl j 0 len 0 ∧ s'.mem = s.mem ∧
      s'.dgSlot slot = DgSlot.feed { x with pre := false, stamp := none } d) ∧
    (j.op = 3 → s.badIn out (shaLen x.alg) = false →
      let dig := (x.feed d).digest
      ∃ s', exec (.dgFinal inst cl) s = .next s' ∧ s.Finished s' 0x02 inst cl j 0 len (leNat (dig.take 8)) ∧ stored s' dig ∧
        (s'.dgSlot slot).st = 2 ∧ ∀ k, k ≠ slot → s'.dgSlot k = s.dgSlot k) ∧
    (j.op = 4 → s.badIn out (shaLen alg) = false →
      (j.fld 5 1 = 0 → ∃ s', exec (.dgOneshot inst cl) s = .next s' ∧ stored s' (sha alg d) ∧
        s.Finished s' 0x02 inst cl j 0 len (leNat ((sha alg d).take 8)) ∧ (j.transient = true → s'.dg = s.dg)) ∧
      (∀ key, j.fld 5 1 = 1 → x.key = some (dgKey alg key) → ∃ s', exec (.dgOneshot inst cl) s = .next s' ∧
        stored s' (hmac alg key d) ∧ s.Finished s' 0x02 inst cl j 0 len (leNat ((hmac alg key d).take 8)))) ∧
    (j.op = 5 → ∃ s', exec (.dgKeyload inst cl) s = .next s' ∧ s.Finished s' 0x02 inst cl j 0 len 0 ∧ s'.mem = s.mem ∧
      (s'.dgSlot slot).st = 0 ∧ (s'.dgSlot slot).key = if len = 0 then none else some (dgKey alg d))

/-- However a message is cut into pieces, opening a slot for one of the five algorithms and feeding the pieces in order
leaves a state whose digest is the hash of the joined pieces; with the key states of a key in the slot and KEYED set, it
is the HMAC of the joined pieces under that key. The length of the result is that of the algorithm. -/
def Obligations.DigestOfPiecesIsDigestOfTheMessage : Prop :=
  ∀ (alg : Nat) (x : DgSlot) (pieces : List (List Byte)) (key : List Byte), alg ≤ 4 →
    (pieces.foldl DgSlot.feed (x.start alg false)).digest = sha alg pieces.flatten ∧
    (x.key = some (dgKey alg key) → (pieces.foldl DgSlot.feed (x.start alg true)).digest = hmac alg key pieces.flatten) ∧
    (sha alg pieces.flatten).length = shaLen alg ∧ (hmac alg key pieces.flatten).length = shaLen alg

/-- A register access first wakes the lane's domain from DOZE or RETAIN (it leaves it at once or begins its exit); what
follows is said of the state after that. On an enabled port of a present lane: START opens a message in slot 15 with the
port's algorithm, or sets ORDER_ERR when KEYED asks for a key the slot lacks; data stored while a message is open is fed
to it; data stored while none is open sets ORDER_ERR under COMPAT and otherwise starts a message first; DG_LAST and FIN0
end the message, whose digest the result registers then give; under COMPAT a result read while a message is open returns
0 and sets EARLY_RD. A port that is not enabled ignores these stores. DG_CTL stores its fields, drops the message of a
port it disables, and refuses with ORDER_ERR to enable a port whose slot is open. -/
def Obligations.DigestPortsFollowTheirWrites : Prop :=
  ∀ (lane v n k : Nat) (s₀ : State),
    let s := s₀.laneWake lane
    let run : Instr → Host.Outcome State Fault Refusal := fun i => exec i s₀
    (lane < s₀.fuse.variant.engines → s₀.domState (26 + lane / 2) = 1 ∨ s₀.domState (26 + lane / 2) = 2 →
      s.domState (26 + lane / 2) = 0 ∨ s.domState (26 + lane / 2) = 5) ∧
    let x := s.dgSlot (portSlot lane)
    let keyed := s.flag F.DG_CTL_KEYED lane
    (s.portOn lane = false → run (.dgPortStart lane) = .next s ∧ run (.dgPortFin0 lane) = .next s ∧
      run (.dgDataWrite lane v) = .next s ∧ (1 ≤ n → n ≤ 8 → run (.dgLastWrite lane n v) = .next s)) ∧
    (s.portOn lane = true →
      (keyed = true → x.keyFor (s.portAlg lane) = false → run (.dgPortStart lane) = .next (s.orderErr lane)) ∧
      (keyed = false ∨ x.keyFor (s.portAlg lane) = true → ∃ s', run (.dgPortStart lane) = .next s' ∧
        s'.dgSlot (portSlot lane) = x.start (s.portAlg lane) keyed ∧ s'.mem = s.mem ∧ s'.dg.results = s.dg.results) ∧
      (x.st = 1 → (∃ s', run (.dgDataWrite lane v) = .next s' ∧ s'.dgSlot (portSlot lane) = x.feed (leBytes 8 v)) ∧
        (1 ≤ n → n ≤ 8 → ∃ s', run (.dgLastWrite lane n v) = .next s' ∧ (s'.dgSlot (portSlot lane)).st = 2 ∧
          SMap.find s'.dg.results lane = some (x.feed (leBytes n v)).digest) ∧
        (∃ s', run (.dgPortFin0 lane) = .next s' ∧ (s'.dgSlot (portSlot lane)).st = 2 ∧
          SMap.find s'.dg.results lane = some (x.feed []).digest) ∧
        (s.flag F.DG_CTL_COMPAT lane = true → run (.dgResultRead lane k) =
          .next ((s.setFlag F.DG_STATUS_EARLY_RD lane).emit (.readData 0)))) ∧
      (x.st ≠ 1 → run (.dgPortFin0 lane) = .next s ∧
        (s.flag F.DG_CTL_COMPAT lane = true → run (.dgDataWrite lane v) = .next (s.orderErr lane)) ∧
        (s.flag F.DG_CTL_COMPAT lane = false → keyed = false → ∃ s', run (.dgDataWrite lane v) = .next s' ∧
          s'.dgSlot (portSlot lane) = (x.start (s.portAlg lane) false).feed (leBytes 8 v)) ∧
        ∃ s', run (.dgResultRead lane k) = .next s' ∧
          s'.out = s.out ++ [.readData (BitVec.ofNat 64 (leNat (((SMap.findD s.dg.results lane []).drop (8 * k)).take 8)))])) ∧
    (lane < s.fuse.variant.engines →
      (s.flag F.DG_CTL_PORT_EN lane = false → v.testBit 0 = true → x.st = 1 → run (.dgCtlWrite lane v) = .next (s.orderErr lane)) ∧
      (s.flag F.DG_CTL_PORT_EN lane = true ∨ v.testBit 0 = false ∨ x.st ≠ 1 → ∃ s', run (.dgCtlWrite lane v) = .next s' ∧
        s'.flag F.DG_CTL_PORT_EN lane = v.testBit 0 ∧ s'.flag F.DG_CTL_COMPAT lane = v.testBit 1 ∧
        s'.rd F.DG_CTL_ALG lane = bitsOf v 2 3 ∧ s'.flag F.DG_CTL_KEYED lane = v.testBit 5 ∧
        (s.flag F.DG_CTL_PORT_EN lane = true → v.testBit 0 = false → s'.dgSlot (portSlot lane) = x.drop)))

/-- For a job of the index unit that was issued while it was enabled, passes its checks and whose bucket reads without
error: an operation that hits a way refreshes its AGE and completes DONE with HIT, and PINNED for a count that has
reached its largest value, but not for REPOINT; LOOKUP gives the entry in RESULT; LOOKUP_REF and a matching REF add one
to REFCNT unless it is pinned; a matching UNREF takes one off, or at 1 clears the way with FREED; a matching REPOINT
replaces the entry; INSERT of a known fingerprint changes nothing else. A miss of another operation than INSERT changes
no memory. INSERT of a new fingerprint takes the lowest free way with REFCNT 1, else evicts the victim of R211 and
returns its entry, else ends NO_SPACE. Memory outside the 32 bytes of the way never changes. -/
def Obligations.DdxOperationsOnABucket : Prop :=
  ∀ (cl : Nat) (j : Job) (s : State), s.JobReady 0x04 0 cl j → ddxCheck j s = true →
    let fp := j.fld 8 20
    let ba := s.ddxBase + 256 * ddxBucket fp
    s.badIn ba 256 = false → s.fixIn ba 256 = [] →
    let ws := ddxWays (s.bytes ba 256)
    let now := s.rd F.DDX_AGE_NOW
    let ends := fun (s' : State) (aux result : Nat) => s.Finished s' 0x04 0 cl j 0 aux result
    let way := fun (s' : State) (w : Nat) (e : DdxEntry) => s'.mem = memWrite s.mem (ba + 32 * w) e.bytes
    (((List.range 8).zip ws).find? (fun p => p.2.isFp fp) = none →
      (j.op = 1 → ∃ s', exec (.ddxLookup cl) s = .next s' ∧ ends s' 0 0 ∧ s'.mem = s.mem) ∧
      (j.op = 2 → ∃ s', exec (.ddxLookupRef cl) s = .next s' ∧ ends s' 0 0 ∧ s'.mem = s.mem) ∧
      (j.op = 3 → ∃ s', exec (.ddxRef cl) s = .next s' ∧ ends s' 0 0 ∧ s'.mem = s.mem) ∧
      (j.op = 5 → ∃ s', exec (.ddxUnref cl) s = .next s' ∧ ends s' 0 0 ∧ s'.mem = s.mem) ∧
      (j.op = 6 → ∃ s', exec (.ddxRepoint cl) s = .next s' ∧ ends s' 0 0 ∧ s'.mem = s.mem) ∧
      (j.op = 4 →
        let new : DdxEntry := { tag := fp / 2 ^ 32, hi := bitsOf fp 25 7, valid := true, age := now, refcnt := 1, entry := j.fld 32 8 }
        (∀ w e, ((List.range 8).zip ws).find? (fun p => !p.2.valid) = some (w, e) →
          ∃ s', exec (.ddxInsert cl) s = .next s' ∧ ends s' 4 0 ∧ way s' w new) ∧
        ((∀ e ∈ ws, e.valid = true) →
          (∀ w e, ddxVictim now ws = some w → ws[w]? = some e →
            ∃ s', exec (.ddxInsert cl) s = .next s' ∧ ends s' 20 e.entry ∧ way s' w new) ∧
          (ddxVictim now ws = none → ∃ s', exec (.ddxInsert cl) s = .next s' ∧ s.Finished s' 0x04 0 cl j 0x31 0 0 ∧ s'.mem = s.mem)))) ∧
    (∀ w e, ((List.range 8).zip ws).find? (fun p => p.2.isFp fp) = some (w, e) →
      let e1 := { e with age := now }
      let pin := if e.refcnt = 0xFFFFFFFF then 2 else 0
      let same := j.fld 40 8 = e.entry
      (j.op = 1 → ∃ s', exec (.ddxLookup cl) s = .next s' ∧ ends s' (1 + pin) e.entry ∧ way s' w e1) ∧
      (j.op = 2 → ∃ s', exec (.ddxLookupRef cl) s = .next s' ∧ (pin = 2 → ends s' 3 e.entry ∧ way s' w e1) ∧
        (pin = 0 → ends s' 5 e.entry ∧ way s' w { e1 with refcnt := e.refcnt + 1 })) ∧
      (j.op = 3 → ∃ s', exec (.ddxRef cl) s = .next s' ∧ (pin = 2 ∨ ¬same → ends s' (1 + pin) e.entry ∧ way s' w e1) ∧
        (pin = 0 → same → ends s' 5 e.entry ∧ way s' w { e1 with refcnt := e.refcnt + 1 })) ∧
      (j.op = 4 → ∃ s', exec (.ddxInsert cl) s = .next s' ∧ ends s' (1 + pin) 0 ∧ way s' w e1) ∧
      (j.op = 5 → ∃ s', exec (.ddxUnref cl) s = .next s' ∧ (pin = 2 ∨ ¬same → ends s' (1 + pin) 0 ∧ way s' w e1) ∧
        (pin = 0 → same → 1 < e.refcnt → ends s' 5 0 ∧ way s' w { e1 with refcnt := e.refcnt - 1 }) ∧
        (pin = 0 → same → e.refcnt ≤ 1 → ends s' 13 0 ∧ s'.mem = memWrite s.mem (ba + 32 * w) (List.replicate 32 0))) ∧
      (j.op = 6 → ∃ s', exec (.ddxRepoint cl) s = .next s' ∧ (¬same → ends s' 1 0 ∧ way s' w e1) ∧
        (same → ends s' 5 0 ∧ way s' w { e1 with entry := j.fld 32 8 })))

/-- INIT, while the unit is present and EN is 0, starts a clear and clears INIT_DONE; the end of the clear makes every
byte of the region 0, leaves every byte outside it, sets INIT_DONE and zeroes the count of valid entries. After
PERIOD_MS the age clock NOW advances by one modulo 2^16, and not before. A visit of the sweep while it holds the grant
of the index arbiter (as the model's requester 8, assumption log 89) moves on to the next bucket, rewrites to NOW minus
2^15 the AGE of each valid way that is older than 2^15, and leaves every other way and every byte outside the bucket. -/
def Obligations.DdxUpkeepRuns : Prop :=
  (∀ s : State, (s.flag F.DDX_CTL_EN = true ∨ s.fuse.variant.ddx = false → exec .ddxInit s = .next s) ∧
    (s.flag F.DDX_CTL_EN = false → s.fuse.variant.ddx = true → ∃ s', exec .ddxInit s = .next s' ∧ s'.ddx.clearing = true ∧
      s'.flag F.DDX_CTL_INIT_DONE = false ∧ s'.mem = s.mem) ∧
    (s.ddx.clearing = true → ∃ s', exec .ddxInitDone s = .next s' ∧ s'.ddx.clearing = false ∧
      s'.flag F.DDX_CTL_INIT_DONE = true ∧ s'.rd F.DDX_OCC_VALID = 0 ∧
      ∀ a, memGet s'.mem a = if s.ddxBase ≤ a ∧ a < s.ddxBase + 256 * ddxBuckets then 0 else memGet s.mem a)) ∧
  (∀ s : State, s.fuse.variant.ddx = true →
    (s.now < s.ddx.nowAt + 1000000 * s.ddxPeriod → exec .ddxAgeTick s = .next s) ∧
    (s.ddx.nowAt + 1000000 * s.ddxPeriod ≤ s.now → ∃ s', exec .ddxAgeTick s = .next s' ∧
      s'.rd F.DDX_AGE_NOW = (s.rd F.DDX_AGE_NOW + 1) % 65536 ∧ s'.ddx.nowAt = s.now ∧ s'.mem = s.mem)) ∧
  (∀ s : State, s.fuse.variant.ddx = true → s.flag F.DDX_CTL_SWEEP_EN = true → s.flag F.DDX_CTL_INIT_DONE = true →
    let b := s.rd F.DDX_OCC_SWEEP_AT
    let ba := s.ddxBase + 256 * b
    let now := s.rd F.DDX_AGE_NOW
    s.holds 5 0 8 = true → s.badIn ba 256 = false → ∃ s', exec .ddxSweepVisit s = .next s' ∧ s'.rd F.DDX_OCC_SWEEP_AT = (b + 1) % ddxBuckets ∧
      (∀ a, a < ba ∨ ba + 256 ≤ a → memGet s'.mem a = memGet s.mem a) ∧
      ∀ w, w < 8 → let e := ddxOf (s.bytes (ba + 32 * w) 32)
        s'.bytes (ba + 32 * w) 32 = if e.valid = true ∧ 32768 < (now + 65536 - e.age) % 65536
          then DdxEntry.bytes { e with age := (now + 32768) % 65536 } else s.bytes (ba + 32 * w) 32)

/-- For jobs that pass their checks and whose buffers read without error: COMPRESS of a zero grain completes DONE with
no cells, of another writes the encoder's block when it fits 63 cells and decodes to the grain, else the grain raw, with
the CRC in RESULT; DECOMPRESS writes what the block decodes to and completes DONE exactly when it is valid and its CRC
is the one given. ENCRYPT and DECRYPT write XTS of the data unit under the slot's key, and end BAD_JOB without one. A
parity job on current handles without SKIP: ENCODE writes each parity position, DECODE each missing position, VERIFY the
mask of the positions that differ. The encoder's choice is free. -/
def Obligations.OxXtsAndParityJobsTransformTheirData : Prop :=
  (∀ (inst cl : Nat) (j : Job) (s : State), s.JobReady 0x03 inst cl j → oxCheck j s = true →
    let src := hAddr (j.fld 8 8) (64 * j.fld 24 2)
    let out := hAddr (j.fld 16 8) (64 * j.fld 26 2)
    s.badIn out 4096 = false →
    (j.op = 1 → s.badIn src 4096 = false → s.fixIn src 4096 = [] →
      let g := s.bytes src 4096
      ((∀ b ∈ g, b = 0) → ∃ s', exec (.oxCompress inst cl) s = .next s' ∧ s.Finished s' 0x03 inst cl j 0 0 (crc32c g + 2 ^ 32) ∧ s'.mem = s.mem) ∧
      ((∃ b ∈ g, b ≠ 0) →
        ∃ s', exec (.oxCompress inst cl) s = .next s' ∧
          match oxBlock (j.fld 2 1) g with
          | some b => oxDecode b = (g, true) ∧ b.length ≤ 4032 ∧ s.Finished s' 0x03 inst cl j 0 (b.length / 64) (crc32c g) ∧
            s'.mem = memWrite s.mem out b
          | none => s.Finished s' 0x03 inst cl j 1 64 (crc32c g) ∧ s'.mem = memWrite s.mem out g)) ∧
    (j.op = 2 → j.fld 29 1 = 0 →
      let n := 64 * (j.fld 28 1 + 1)
      s.badIn src n = false → s.fixIn src n = [] →
      let d := oxDecode (s.bytes src n)
      ∃ s', exec (.oxDecompress inst cl) s = .next s' ∧ s'.mem = memWrite s.mem out d.1 ∧
        (d.2 = true ∧ crc32c d.1 = j.fld 4 4 → s.Finished s' 0x03 inst cl j 0 4096 (crc32c d.1)) ∧
        (¬(d.2 = true ∧ crc32c d.1 = j.fld 4 4) → s.Finished s' 0x03 inst cl j 0x10 d.1.length (crc32c d.1)))) ∧
  (∀ (inst cl : Nat) (j : Job) (s : State), s.JobReady 0x05 inst cl j → xtsCheck j s = true →
    let n := j.fld 12 4
    let src := hAddr (j.fld 16 8) (j.fld 24 4)
    let out := hAddr (j.fld 32 8) (j.fld 40 4)
    let unit := j.fld 4 4 * 2 ^ 18 + j.fld 8 4
    (SMap.find s.xtsKeys (j.fld 2 1) = none →
      (j.op = 1 → ∃ s', exec (.xtsEncrypt inst cl) s = .next s' ∧ s.Finished s' 0x05 inst cl j 0x3E 0 0 ∧ s'.mem = s.mem) ∧
      (j.op = 2 → ∃ s', exec (.xtsDecrypt inst cl) s = .next s' ∧ s.Finished s' 0x05 inst cl j 0x3E 0 0 ∧ s'.mem = s.mem)) ∧
    (∀ key, SMap.find s.xtsKeys (j.fld 2 1) = some key → s.badIn src n = false → s.fixIn src n = [] → s.badIn out n = false →
      (j.op = 1 → ∃ s', exec (.xtsEncrypt inst cl) s = .next s' ∧ s.Finished s' 0x05 inst cl j 0 0 0 ∧
        s'.mem = memWrite s.mem out (xts true key unit (s.bytes src n))) ∧
      (j.op = 2 → ∃ s', exec (.xtsDecrypt inst cl) s = .next s' ∧ s.Finished s' 0x05 inst cl j 0 0 0 ∧
        s'.mem = memWrite s.mem out (xts false key unit (s.bytes src n))))) ∧
  (∀ (inst cl : Nat) (j : Job) (s : State), s.JobReady 0x06 inst cl j → rdnCheck j s = true → j.fld 20 4 = 0 → s.eccBad = [] →
    s.eccFix = [] →
    let w := rdnW j
    let n := rdnW j + rdnP j
    let len := rdnLen j
    let h := fun (i : Nat) => leNat ((s.bytes (hAddr (j.fld 8 8) 0) (8 * n)).drop (8 * i) |>.take 8)
    (∀ i, i < n → s.inHandle (h i) 0 len = true) →
    let pos := fun (i : Nat) => (i, s.bytes (hAddr (h i) 0) len)
    let data := rsData w (((List.range n).filter (fun i => !rdnMiss j i)).map pos)
    let writes := fun (s' : State) => s'.mem = ((List.range n).filter (fun i => rdnMiss j i)).foldl
      (fun m i => memWrite m (hAddr (h i) 0) (rsPos w len i data)) s.mem
    (j.op = 1 → ∃ s', exec (.rdnEncode inst cl) s = .next s' ∧ s.Finished s' 0x06 inst cl j 0 0 0 ∧ writes s') ∧
    (j.op = 2 → ∃ s', exec (.rdnDecode inst cl) s = .next s' ∧ s.Finished s' 0x06 inst cl j 0 0 0 ∧ writes s') ∧
    (j.op = 3 → ∃ s' m, exec (.rdnVerify inst cl) s = .next s' ∧ s'.mem = s.mem ∧
      s.Finished s' 0x06 inst cl j (if m = 0 then 0 else 0x10) 0 m ∧ m < 2 ^ n ∧
      ∀ i, i < n → (m.testBit i = true ↔ rsPos w len i data ≠ (pos i).2)))

/-- While the map unit is quiet, with readable view records: a GET of the live view whose level 0 node is cached
completes DONE with the entry in RESULT, or for several entries with the entries at OUT; on a view all of whose path is
a ZERO root it gives the ZERO entry; on a frozen view that does not exist it ends REFUSED with AUX 2. A SET of a cached
node that needs no copy, with no commit error standing, stores the entry, marks the line dirty and gives the old entry;
a SETIF does so with AUX 1 where the entry compared matches and is not shared; on a mismatch it writes nothing, with AUX
0, and on a shared entry, matching or not, with AUX 2; the current entry is its result. A SET or SETIF on a frozen view
is refused. When a node read ends, jobs on a line that could not be read complete LOST, a good line without jobs becomes
valid and clean, and a read that must wait leaves the line filling. -/
def Obligations.MapRequestsReadAndWriteEntries : Prop :=
  (∀ (cl : Nat) (j : Job) (s : State), s.JobReady 0x07 0 cl j → s.MapQuiet → s.viewsOk (j.fld 2 2) (j.fld 4 2) = true →
    let vol := j.fld 2 2
    let g := j.fld 8 8
    let count := j.fld 6 2
    (j.op = 1 → mapGetCheck j s = true →
      (∀ n, j.fld 4 2 = 0 → s.Cached (liveKey vol 0 g) n →
        let es := (List.range count).map (fun i => s.lineWord n (g % 512 + i))
        (∀ e ∈ es, entryOk e = true) →
        (∀ e, es = [e] → ∃ s', exec (.mapGet cl) s = .next s' ∧ s.Finished s' 0x07 0 cl j 0 0 e) ∧
        (1 < count → s.badIn (hAddr (j.fld 32 8) 0) (8 * count) = false → ∃ s', exec (.mapGet cl) s = .next s' ∧
          s.Finished s' 0x07 0 cl j 0 0 0 ∧ s'.bytes (hAddr (j.fld 32 8) 0) (8 * count) = (es.map (leBytes 8)).flatten)) ∧
      (j.fld 4 2 = 0 → count = 1 → s.map.fills = [] → s.map.vb = [] → s.vRoot vol = zeroEntry →
        (∀ l, l < 4 → s.hdrOk (s.mapSet (liveKey vol l g)) = true ∧ s.lineOf (liveKey vol l g) = none) →
        ∃ s', exec (.mapGet cl) s = .next s' ∧ s.Finished s' 0x07 0 cl j 0 0 zeroEntry ∧ s'.mem = s.mem) ∧
      (j.fld 4 2 ≠ 0 → s.frozenRec vol (j.fld 4 2) = none →
        ∃ s', exec (.mapGet cl) s = .next s' ∧ s.Finished s' 0x07 0 cl j 0x32 2 0 ∧ s'.mem = s.mem)) ∧
    (mapSetCheck j s = true →
      (j.fld 4 2 ≠ 0 → (j.op = 2 → ∃ s', exec (.mapSet cl) s = .next s' ∧ s.Finished s' 0x07 0 cl j 0x32 1 0 ∧ s'.mem = s.mem) ∧
        (j.op = 3 → ∃ s', exec (.mapSetif cl) s = .next s' ∧ s.Finished s' 0x07 0 cl j 0x32 1 0 ∧ s'.mem = s.mem)) ∧
      (∀ n, j.fld 4 2 = 0 → s.Cached (liveKey vol 0 g) n → s.map.holdVol ≠ some vol → s.needCow vol n = false →
        s.flag F.MAP_STATUS_COMMIT_ERR = false →
        let cur := s.lineWord n (g % 512)
        let stored := fun (s' : State) => s'.lineWord n (g % 512) = j.fld 16 8 ∧ (s'.mtag n).dirty = true ∧ (s'.mtag n).valid = true
        entryOk cur = true →
        (j.op = 2 → ∃ s', exec (.mapSet cl) s = .next s' ∧ s.Finished s' 0x07 0 cl j 0 0 cur ∧ stored s') ∧
        (j.op = 3 → ∃ s', exec (.mapSetif cl) s = .next s' ∧
          (eMasked (j.fld 24 8) = eMasked cur → eShared cur = false → s.Finished s' 0x07 0 cl j 0 1 cur ∧ stored s') ∧
          (eMasked (j.fld 24 8) ≠ eMasked cur → eShared cur = false → s.Finished s' 0x07 0 cl j 0 0 cur ∧ s'.lineWord n (g % 512) = cur) ∧
          (eShared cur = true →
            s.Finished s' 0x07 0 cl j 0 2 (setShared cur true) ∧ s'.lineWord n (g % 512) = cur))))) ∧
  (∀ (n bad : Nat) (f : MFill) (s : State), s.MapQuiet → SMap.find s.map.fills n = some f → f.poison = false →
    ∃ s', exec (.mapNodeReadComplete n bad) s = .next s' ∧
      match (s.readNode f.ptr f.level bad).2 with
      | .wait => SMap.find s'.map.fills n = some f
      | .got _ => f.waiters = [] → SMap.find s'.map.fills n = none ∧ (s'.mtag n).valid = true ∧ (s'.mtag n).dirty = false ∧
        (s'.mtag n).frozen = f.key.isFrozen
      | _ => SMap.find s'.map.fills n = none ∧
        ∀ j ∈ f.waiters, { gid := j.gid, status := 0x12, unit := 0, ticket := j.ticket, aux := 0, result := 0 } ∈ s'.comps)

/-- While the map unit is quiet, with good set headers and readable view records: CLEAN and CLEAN_SW of a key with no
dirty line complete DONE; of a dirty line they wait for a commit; INVAL and INVAL_SW drop a valid line, AUX 2 where
dirty changes are lost and 0 otherwise. RANGE_CLEAN, SNAP, CLONE of the live view into an empty volume, and SNAP_DEL of
a volume without views each become the running operation and ask for a commit of what they need, which waits for the
watermark; RANGE_INVAL asks the map's arbiter for the engine, and completes DONE, at once or when it holds the grant
(requester 9, assumption log 89). SNAP that may not create a view, CLONE into a volume that is not empty, SNAP_DEL of a
volume with views or of a view that does not exist end REFUSED with the reason in AUX. With 17 operations in the engine
another ends NO_SPACE. -/
def Obligations.MapMaintenanceAndEngineStart : Prop :=
  (∀ (cl : Nat) (j : Job) (s : State), s.JobReady 0x07 0 cl j → s.MapQuiet →
    let vol := j.fld 2 2
    let k := liveKey vol 0 (j.fld 8 8)
    let waits := fun (s' : State) (k : MKey) => s'.map.cleans = s.map.cleans ++ [(k, j)] ∧ s'.comps = s.comps ∧
      s'.ring 0x07 0 cl = (s.ring 0x07 0 cl).tail
    (j.op = 4 → mapMaintCheck j s = true → j.fld 4 2 = 0 → s.hdrOk (s.mapSet k) = true →
      (k ∉ s.dirtyKeys → ∃ s', exec (.mapClean cl) s = .next s' ∧ s.Finished s' 0x07 0 cl j 0 0 0 ∧ s'.mem = s.mem) ∧
      (k ∈ s.dirtyKeys → ∃ s', exec (.mapClean cl) s = .next s' ∧ waits s' k)) ∧
    (j.op = 5 → mapMaintCheck j s = true → j.fld 4 2 = 0 → ∀ n, s.lineOf k = some n → SMap.find s.map.fills n = none →
      ∃ s', exec (.mapInval cl) s = .next s' ∧ s.Finished s' 0x07 0 cl j 0 (if (s.mtag n).dirty then 2 else 0) 0 ∧
        (s'.mtag n).valid = false) ∧
    (mapSwCheck j s = true → s.hdrOk (swLine j / 16) = true → SMap.find s.map.fills (swLine j) = none →
      (s.mtag (swLine j)).valid = true →
      (j.op = 6 → s.hdrOk (s.mapSet (s.mtag (swLine j)).mkey) = true → ((s.mtag (swLine j)).mkey ∉ s.dirtyKeys → ∃ s', exec (.mapCleanSw cl) s = .next s' ∧
          s.Finished s' 0x07 0 cl j 0 0 0 ∧ s'.mem = s.mem) ∧
        ((s.mtag (swLine j)).mkey ∈ s.dirtyKeys → ∃ s', exec (.mapCleanSw cl) s = .next s' ∧ waits s' (s.mtag (swLine j)).mkey)) ∧
      (j.op = 7 → ∃ s', exec (.mapInvalSw cl) s = .next s' ∧
        s.Finished s' 0x07 0 cl j 0 (if (s.mtag (swLine j)).dirty then 2 else 0) 0 ∧ (s'.mtag (swLine j)).valid = false))) ∧
  (∀ (cl : Nat) (j : Job) (s : State), s.JobReady 0x07 0 cl j → s.MapQuiet → s.CommitWaits → mapBgCheck j s = true → s.map.phase = 0 →
    s.map.held = [] → s.viewsOk (j.fld 2 2) (j.fld 4 2) = true →
    let vol := j.fld 2 2
    let view := j.fld 4 2
    let target := j.fld 40 2
    let runs := fun (s' : State) (wants : List MWant) => s'.map.bg = [.job j] ∧ s'.map.phase = 1 ∧ s.CommitAt2 s' wants true ∧
      s'.comps = s.comps ∧ s'.mem = s.mem
    let refused := fun (s' : State) (r : Nat) => s.Finished s' 0x07 0 cl j 0x32 r 0 ∧ s'.map.bg = [] ∧ s'.mem = s.mem
    (j.op = 8 → ∃ s', exec (.mapRangeClean cl) s = .next s' ∧ runs s' [.range vol (j.fld 8 8) (j.fld 40 8)]) ∧
    (j.op = 9 → (∀ k ∈ s.knownKeys, s.hdrOk (s.mapSet k) = true) → (∀ n ∈ s.hdrSets, s.hdrOk n = true) →
      ∃ s', exec (.mapRangeInval cl) s = .next s' ∧
        ((s'.map.bg = [.job j] ∧ (s'.arb 4 0).requests 9 = true ∧ s'.comps = s.comps) ∨ (s.Finished s' 0x07 0 cl j 0 0 0 ∧ s'.map.bg = []))) ∧
    (j.op = 0x0A → (s.viewGate vol true = none → ∃ s', exec (.mapSnap cl) s = .next s' ∧ runs s' [.vol vol]) ∧
      (∀ r, s.viewGate vol true = some r → ∃ s', exec (.mapSnap cl) s = .next s' ∧ refused s' r)) ∧
    (j.op = 0x0B → (s.volEmpty target = false → ∃ s', exec (.mapClone cl) s = .next s' ∧ refused s' 6) ∧
      (s.volEmpty target = true → view = 0 → s.viewGate vol true = none → ∃ s', exec (.mapClone cl) s = .next s' ∧ runs s' [.vol vol]) ∧
      (s.volEmpty target = true → view ≠ 0 → s.frozenRec vol view = none → ∃ s', exec (.mapClone cl) s = .next s' ∧ refused s' 2)) ∧
    (j.op = 0x0C → (view = 0 → s.nviews vol = 0 → ∃ s', exec (.mapSnapDel cl) s = .next s' ∧ runs s' [.vol vol]) ∧
      (view = 0 → s.nviews vol ≠ 0 → ∃ s', exec (.mapSnapDel cl) s = .next s' ∧ refused s' 4) ∧
      (view ≠ 0 → s.frozenRec vol view = none → ∃ s', exec (.mapSnapDel cl) s = .next s' ∧ refused s' 2))) ∧
  (∀ (cl : Nat) (j : Job) (s : State), s.JobReady 0x07 0 cl j → mapBgCheck j s = true → 17 ≤ s.map.bg.length →
    s.map.phase = 1 → s.vbDirty ≤ s.rd F.MAP_COMMIT_CFG_VB_HI → s.map.commit = none → s.flag F.MAP_STATUS_COMMIT_ERR = true → j.op = 0x0A →
    ∃ s', exec (.mapSnap cl) s = .next s' ∧ s.Finished s' 0x07 0 cl j 0x31 0 0 ∧ s'.map.bg = s.map.bg) ∧
  (∀ (cl : Nat) (j : Job) (s : State), s.ring 0x07 0 cl = [] → s.map.bg = [.job j] → s.map.phase = 0 → j.op = 9 → s.holds 4 0 9 = true →
    s.map.commit = none → s.map.next = none → s.vbDirty ≤ s.rd F.MAP_COMMIT_CFG_VB_HI → s.viewsOk (j.fld 2 2) (j.fld 4 2) = true →
    (∀ k ∈ s.knownKeys, s.hdrOk (s.mapSet k) = true) → (∀ n ∈ s.hdrSets, s.hdrOk n = true) →
    ∃ s', exec (.mapRangeInval cl) s = .next s' ∧ s'.map.bg = [] ∧
      { gid := j.gid, status := 0, unit := 0, ticket := j.ticket, aux := 0, result := 0 } ∈ s'.comps)

/-- While the map unit is quiet and the watermark holds a commit back, COMMIT starts one with counter C one below the
sequence counter, CLEANALL one of all dirty lines for the engine, and the period one once PERIOD_US has passed with
something dirty or a clean waiting. While COMMIT_ERR stands, or a commit waits for the watermark, COMMIT only asks for
the next. The period does nothing before its time, without need or while a commit runs; a commit row does nothing while
the unit is quiet. A wait at the watermark longer than WM_MS warns once. With its last sync done a commit that captured
nothing more ends: MAP_COMMIT holds C and the commit page's place, BUSY clears, waiting cleans complete DONE with AUX 1;
a snapshot in its second phase then freezes the view, which makes the volume's newest view the old generation, raises
the generation by one, and completes DONE with view number and generation in RESULT. -/
def Obligations.MapCommitsRun : Prop :=
  (∀ s : State, s.MapQuiet → s.CommitWaits → s.map.phase = 0 →
    (∃ s', exec .mapCommitRequest s = .next s' ∧ s.CommitAt2 s' [] false ∧ s'.mem = s.mem) ∧
    (∃ s', exec .mapCleanall s = .next s' ∧ s'.map.bg = [.cleanAll] ∧ s.CommitAt2 s' [.all] true ∧ s'.mem = s.mem) ∧
    (1000 * s.rd F.MAP_COMMIT_CFG_PERIOD_US ≤ s.now - s.map.lastEnd → s.vbDirty ≠ 0 ∨ s.map.cleans ≠ [] →
      ∃ s', exec .mapCommitPeriod s = .next s' ∧ s.CommitAt2 s' [] false) ∧
    (s.now - s.map.lastEnd < 1000 * s.rd F.MAP_COMMIT_CFG_PERIOD_US ∨ (s.vbDirty = 0 ∧ s.map.cleans = []) →
      exec .mapCommitPeriod s = .next s)) ∧
  (∀ s : State, s.MapQuiet → s.flag F.MAP_STATUS_COMMIT_ERR = true →
    ∃ s', exec .mapCommitRequest s = .next s' ∧ s'.map.commit = none ∧ s'.map.next = some ([], false)) ∧
  (∀ (c : MCommit) (s : State), s.map.commit = some c →
    exec .mapCommitPeriod s = .next s ∧
    (c.step = 2 → s.ldMem (s.rd F.MAP_WM_ADDR_ADDR * 8) 8 ≤ c.c → s.map.bg = [] →
      ∃ s', exec .mapCommitRequest s = .next s' ∧ s'.map.commit = some c ∧ s'.map.next = some (s.map.next.getD ([], false)) ∧ s'.mem = s.mem)) ∧
  (∀ s : State, (s.MapQuiet → exec .mapCommitComplete s = .next s) ∧ (s.map.commit = none → exec .mapWmTimeout s = .next s)) ∧
  (∀ (c : MCommit) (s : State), s.map.commit = some c → c.step = 2 →
    (c.warned = false → 1000000 * s.rd F.MAP_COMMIT_CFG_WM_MS < s.now - c.since →
      ∃ s', exec .mapWmTimeout s = .next s' ∧ s'.map.commit = some { c with warned := true } ∧ s'.mem = s.mem) ∧
    (c.warned = true ∨ s.now - c.since ≤ 1000000 * s.rd F.MAP_COMMIT_CFG_WM_MS → exec .mapWmTimeout s = .next s)) ∧
  (∀ (c : MCommit) (s : State), s.map.commit = some c → c.step = 7 → s.mapSyncs 3 = false → s.map.syncBad = false → c.nodes = [] →
    s.map.next = none → s.map.stalled = [] → c.c < 2 ^ 64 → c.ptr < 2 ^ 64 →
    (c.bg = false → s.map.bg = [] → ∃ s', exec .mapCommitComplete s = .next s' ∧ s'.map.commit = none ∧
      s'.rd F.MAP_COMMIT_SEQ_C = c.c ∧ s'.rd F.MAP_COMMIT_LOC = c.ptr ∧ s'.flag F.MAP_STATUS_COMMIT_BUSY = false ∧ s'.mem = s.mem ∧
      ∀ p ∈ c.cleans, { gid := p.2.gid, status := 0, unit := 0, ticket := p.2.ticket, aux := 1, result := 0 } ∈ s'.comps) ∧
    (∀ j, c.bg = true → s.map.bg = [.job j] → j.op = 0x0A → s.map.phase = 2 → s.map.held = [] → j.fld 2 2 < 16384 →
      let vol := j.fld 2 2
      ∃ s' view, exec .mapCommitComplete s = .next s' ∧ s'.map.bg = [] ∧ s'.map.commit = none ∧ s'.map.holdVol = none ∧
        s'.newest vol = s.lgen vol ∧ s'.newestValid vol = true ∧ s'.lgen vol = (s.lgen vol + 1) % 2 ^ 32 ∧
        { gid := j.gid, status := 0, unit := 0, ticket := j.ticket, aux := 0,
          result := (view + s.lgen vol * 2 ^ 32) % 2 ^ 64 } ∈ s'.comps))

/-- EN is set only when INVD and MOUNTED are set and the three bases written, else EN_ERR; it can be cleared. INVALL is
taken while EN is 0 with the bases written; its end leaves every fill poisoned, the victim buffer empty, every set
header good and without a valid tag, and INVD set. MOUNT and FORMAT are taken with the bases written; a format ends with
MOUNTED and the live record of every volume as never written; a mount ends with MOUNTED when every page passes its
check, else with MOUNT_ERR. A write of MAP_VQ_KEY with view 0 finds the volume's live record and shows it in the data
registers; a frozen view that does not exist shows FOUND 0 and zeros. -/
def Obligations.MapEnablesInvalidatesAndMounts : Prop :=
  (∀ (s : State),
    (∃ s', exec (.mapCtlEnWrite false) s = .next s' ∧ s'.flag F.MAP_CTL_EN = false ∧ s'.map = s.map) ∧
    (s.flag F.MAP_CTL_EN = false → ∃ s', exec (.mapCtlEnWrite true) s = .next s' ∧
      s'.flag F.MAP_CTL_EN = (s.flag F.MAP_CTL_INVD && s.flag F.MAP_CTL_MOUNTED && s.mapBases) ∧
      (s'.flag F.MAP_CTL_EN = false → s'.flag F.MAP_STATUS_EN_ERR = true)) ∧
    (s.flag F.MAP_CTL_EN = false → s.mapBases = true → ∃ s', exec .mapInvall s = .next s' ∧ s'.map.invall = true ∧ s'.mem = s.mem) ∧
    (s.flag F.MAP_CTL_EN = true ∨ s.mapBases = false → exec .mapInvall s = .next s) ∧
    (s.map.invall = true → ∃ s', exec .mapInvallDone s = .next s' ∧ s'.map.invall = false ∧ (∀ p ∈ s'.map.fills, p.2.poison = true) ∧
      s'.map.vb = [] ∧ s'.flag F.MAP_CTL_INVD = true ∧
      ∀ n, n < 16 * s.mapSets → (s'.mtag n).valid = false ∧ s'.hdrOk (n / 16) = true) ∧
    (s.mapBases = true → (∃ s', exec .mapMount s = .next s' ∧ s'.map.mounting = some false ∧ s'.mem = s.mem) ∧
      (∃ s', exec .mapFormat s = .next s' ∧ s'.map.mounting = some true ∧ s'.mem = s.mem)) ∧
    (s.mapBases = false → exec .mapMount s = .next s ∧ exec .mapFormat s = .next s) ∧
    (s.map.mounting = some true → ∃ s', exec .mapMountDone s = .next s' ∧ s'.flag F.MAP_CTL_MOUNTED = true ∧ s'.map.mounting = none ∧
      ∀ v, v < 16384 → s'.bytes (s.recAddr v) 32 = emptyRec v) ∧
    (s.map.mounting = some false →
      ∃ s', exec .mapMountDone s = .next s' ∧
        match State.mountDo { s with map := { s.map with mounting := none } } with
        | some s₁ => s'.flag F.MAP_CTL_MOUNTED = true ∧ s'.mem = s₁.mem
        | none => s'.flag F.MAP_STATUS_MOUNT_ERR = true ∧ s'.mem = s.mem ∧ s'.flag F.MAP_CTL_MOUNTED = s.flag F.MAP_CTL_MOUNTED)) ∧
  (∀ (v : Nat) (s : State), ∃ s', exec (.mapVqKeyWrite v) s = .next s' ∧ s'.mem = s.mem ∧
    (bitsOf v 16 16 = 0 → s'.flag F.MAP_VQ_KEY_FOUND = true ∧
      ∀ k, k < 4 → s'.rd F.MAP_VQ_DATA0_BYTES k = s.vrec (bitsOf v 0 14) (8 * k) 8) ∧
    (bitsOf v 16 16 ≠ 0 → s.frozenRec (bitsOf v 0 14) (bitsOf v 16 16) = none → s'.flag F.MAP_VQ_KEY_FOUND = false ∧
      ∀ k, k < 4 → s'.rd F.MAP_VQ_DATA0_BYTES k = 0))

/-- Of jobs whose item's promise has not expired: a checked OPEN of a stream whose band fits begins the band's next slot
and gives the segment in RESULT; without one, a pool that may not be allocated from gives NO_SPACE. APPEND with no open
segment ends NO_SPACE AUX 2, with a full one AUX 1 after closing its last stripe; else it stores the grain's descriptor
and cells in the segment buffer where the stream stands, moves the stream past them and gives the map entry. SEAL ends
the open segment with its stripe closed. SYNC completes when every closed stripe has ended, DONE, or MEDIA_ERR where one
was lost; before that it waits. READ of a segment that is not live is REFUSED with AUX 1, of a LOST position LOST; from
the buffer or directly from the sled it gives the grain's cells, its CRC and EPOCH, and TAG_FAIL where the buffer has no
such descriptor. RELEASE clears the slot. A stripe's programs end a stripe with at most P positions missing as durable,
one with more as LOST once the LOST table has it, and its syncs complete DONE or MEDIA_ERR; a LOST stripe for which the
table has no room stays. A held segment report is posted when its queue takes it. -/
def Obligations.SegmentJobsRun : Prop :=
  (∀ (cl : Nat) (j : Job) (s : State), s.JobReady 0x08 0 cl j → s.InTime j →
    let x := j.fld 2 1
    let y := s.stream x
    (j.op = 1 → segOpenCheck j s = true →
      (s.bandFits x (j.fld 3 1) (j.fld 4 1) (j.fld 5 1) = true → ∃ s', exec (.segOpen cl) s = .next s' ∧
        s.Finished s' 0x08 0 cl j 0 0 (mkSeg y.band y.slotNext % 2 ^ 64) ∧
        s'.bytes (s.bandAddr y.band) 128 = ({ s.band y.band with slots := (s.band y.band).slots ||| 2 ^ y.slotNext } : BandRec).bytes ∧
        s'.stream x = { y with slotNext := y.slotNext + 1, seg := some (mkSeg y.band y.slotNext), page := 0, cell := 0, ndesc := 0, begun := false }) ∧
      (y.band = 0 → (s.pool (j.fld 3 1)).noAlloc = true ∨ s.flag F.MUL_CTL_LOADED = false → ∃ s', exec (.segOpen cl) s = .next s' ∧
        s.Finished s' 0x08 0 cl j 0x31 0 0 ∧ s'.mem = s.mem ∧ s'.seg = s.seg)) ∧
    (j.op = 2 → segAppendCheck j s = true →
      let n := j.fld 3 1 + 1
      let a := hAddr (j.fld 8 8) (j.fld 16 4)
      s.badIn a (64 * n) = false → s.fixIn a (64 * n) = [] →
      (y.seg = none → ∃ s', exec (.segAppend cl) s = .next s' ∧ s.Finished s' 0x08 0 cl j 0x31 2 0 ∧ s'.mem = s.mem) ∧
      (∀ g, y.seg = some g →
        (y.place n = none → ∃ s', exec (.segAppend cl) s = .next s' ∧ s.Finished s' 0x08 0 cl j 0x31 1 0 ∧ (s'.stream x).begun = false ∧
          (y.begun = false → s'.mem = s.mem) ∧
          (y.begun = true → (s'.stream x).closed = y.closed + 1 ∧ ∃ f, (s'.stream x).flight = y.flight ++ [f] ∧ f.seg = g ∧ f.stripe = y.page / y.w)) ∧
        (∀ k c, y.place n = some (k, c, false) → y.flight.length < 64 →
          let b := s.bufPage x y.closed (k % y.w)
          let nd := if k = y.page ∧ y.begun = true then y.ndesc else 0
          ∃ s', exec (.segAppend cl) s = .next s' ∧
            s.Finished s' 0x08 0 cl j 0 0 (mkEntry g (k * 248 + c) (n - 1) (bitOf (j.fld 4 1) 0) % 2 ^ 64) ∧
            s'.stream x = { y with page := k, cell := c + n, ndesc := nd + 1, begun := true } ∧
            s'.bytes (b + 512 + 64 * c) (64 * n) = s.bytes a (64 * n) ∧ s'.ldMem (b + 498) 1 = (nd + 1) % 256 ∧
            gdescOf (s'.bytes (b + 16 + 24 * nd) 24) =
              { vol := j.fld 6 2, lba := j.fld 24 5, seq := j.fld 32 8, epoch := s.rd F.SEG_EPOCH_EPOCH
                cell := c, lenm1 := n - 1, flags := j.fld 4 1, crc := j.fld 20 4 }))) ∧
    (j.op = 3 → segStreamCheck j s = true → ∃ s', exec (.segSeal cl) s = .next s' ∧ s.Finished s' 0x08 0 cl j 0 0 0 ∧
      (s'.stream x).seg = none ∧
      (∀ g, y.seg = some g → y.begun = true → s.bufReadable x y.closed y.w = true → (s'.stream x).closed = y.closed + 1 ∧
        (s'.stream x).flight = y.flight ++ [{ seg := g, stripe := y.page / y.w, num := y.closed, w := y.w, p := y.p, dead := false, sent := !s.mediaHold }])) ∧
    (j.op = 4 → segStreamCheck j s = true → y.begun = false →
      (y.closed ≤ y.ended → y.syncs = [] → ∃ s', exec (.segSync cl) s = .next s' ∧
        s.Finished s' 0x08 0 cl j (if y.lost then 0x20 else 0) 0 0 ∧ (s'.stream x).lost = false) ∧
      (y.ended < y.closed → ∃ s' w, exec (.segSync cl) s = .next s' ∧ w ∈ (s'.stream x).syncs ∧ w.job = some j ∧ w.upTo = y.closed ∧
        s'.ring 0x08 0 cl = (s.ring 0x08 0 cl).tail)) ∧
    (j.op = 5 → segReadCheck j s = true → ∀ bad : Nat,
      let seg := j.fld 4 4
      let b := s.band (segBand seg)
      let k := j.fld 8 4 / 248
      let c := j.fld 8 4 % 248
      let t := k / max 1 b.w
      let q := k % max 1 b.w
      let dst := hAddr (j.fld 16 8) (j.fld 24 4)
      let gives := fun (s' : State) (g : GDesc) (d : List Byte) =>
        s.Finished s' 0x08 0 cl j 0 0 ((g.crc + g.epoch * 2 ^ 32) % 2 ^ 64) ∧ s'.mem = memWrite s.mem dst (pageCells d c (j.fld 3 1 + 1))
      (b.liveSlot (segSlot seg) = false → ∃ s', exec (.segRead cl bad) s = .next s' ∧ s.Finished s' 0x08 0 cl j 0x32 1 0 ∧ s'.mem = s.mem) ∧
      (b.liveSlot (segSlot seg) = true → s.isLost seg t q = true → ∃ s', exec (.segRead cl bad) s = .next s' ∧
        s.Finished s' 0x08 0 cl j 0x12 0 0 ∧ s'.mem = s.mem) ∧
      (b.liveSlot (segSlot seg) = true → s.isLost seg t q = false →
        (∀ x num, s.inBuffer seg t = some (x, num) → s.badIn (s.bufPage x num q) 16384 = false → s.fixIn (s.bufPage x num q) 16384 = [] →
          let d := s.bytes (s.bufPage x num q) 16384
          (∀ g, findDesc d c (j.fld 3 1) = some g → s.badIn dst (pageCells d c (j.fld 3 1 + 1)).length = false →
            ∃ s', exec (.segRead cl bad) s = .next s' ∧ gives s' g d) ∧
          (findDesc d c (j.fld 3 1) = none → ∃ s', exec (.segRead cl bad) s = .next s' ∧ s.Finished s' 0x08 0 cl j 0x11 0 0 ∧ s'.mem = s.mem)) ∧
        (s.inBuffer seg t = none → j.fld 2 1 = 1 → b.pstate q = 0 → ∀ d g, s.readPos seg t q bad = .page d →
          s.dataPageOk seg t q d = true → findDesc d c (j.fld 3 1) = some g → s.badIn dst (pageCells d c (j.fld 3 1 + 1)).length = false →
          ∃ s', exec (.segRead cl bad) s = .next s' ∧ gives s' g d))) ∧
    (j.op = 6 → segReleaseCheck j s = true → (∀ p ∈ s.seg.streams, ∀ f ∈ p.2.flight, f.seg ≠ j.fld 4 4) →
      let b := s.band (segBand (j.fld 4 4))
      let left := setBitsOf b.slots (segSlot (j.fld 4 4)) 1 0
      ∃ s', exec (.segRelease cl) s = .next s' ∧ s.Finished s' 0x08 0 cl j 0 0 0 ∧
        ((s.setBand (segBand (j.fld 4 4)) { b with slots := left }).lostOf (j.fld 4 4) = [] → b.state = 1 ∨ left % 2 ^ 256 ≠ 0 →
          s'.bytes (s.bandAddr (segBand (j.fld 4 4))) 128 = ({ b with slots := left } : BandRec).bytes))) ∧
  (∀ (x bad : Nat) (f : Flight) (fs : List Flight) (s : State), s.MapQuiet → (s.stream x).flight = f :: fs →
    (f.dead = true → (s.lostFind f.seg f.stripe).isSome = true → ∃ s', exec (.stripeProgramComplete x bad) s = .next s' ∧
      (s'.stream x).flight = fs ∧ (s'.stream x).ended = (s.stream x).ended + 1 ∧ s'.mem = s.mem) ∧
    (f.dead = true → s.declareLost f.seg f.stripe (2 ^ (f.w + f.p) - 1) = none → ∃ s', exec (.stripeProgramComplete x bad) s = .next s' ∧
      (s'.stream x).flight = f :: fs ∧ lostBucket f.seg ∈ s'.seg.heldBy ∧ s'.mem = s.mem) ∧
    (f.dead = false → s.mediaHold = false → s.seg.opens = [] → ∀ s₁ m, s.programAll x f bad (List.range (f.w + f.p)) = (s₁, m, false) →
      s₁.MapQuiet → countBits m (f.w + f.p) ≤ f.p ∨ (s₁.declareLost f.seg f.stripe m).isSome = true →
      ∃ s', exec (.stripeProgramComplete x bad) s = .next s' ∧ (s'.stream x).flight = (s₁.stream x).flight.tail ∧
        (s'.stream x).ended = (s₁.stream x).ended + 1 ∧
        ∀ w ∈ (s₁.stream x).syncs, w.upTo = (s₁.stream x).ended + 1 → f.num < w.upTo → ∀ j, w.job = some j → s₁.InTime j →
          { gid := j.gid, status := if w.bad = true ∨ f.p < countBits m (f.w + f.p) then 0x20 else w.status, unit := 0, ticket := j.ticket,
            aux := w.aux % 2 ^ 32, result := w.result % 2 ^ 64 } ∈ s'.comps)) ∧
  (∀ s : State, (s.seg.reports = [] ∨ s.flag F.SEG_RPTQ_VALID = false → ∃ s', exec .segReportRetry s = .next s' ∧ s'.seg.reports = s.seg.reports ∧
      s'.items = s.items) ∧
    (∀ r k s₁, s.seg.reports = [r] → s.flag F.SEG_RPTQ_VALID = true →
      State.enqueue { s with seg := { s.seg with reports := [] } } (plainItem (s.rd F.SEG_RPTQ_QUEUE) r 0) = some (k, s₁) →
      exec .segReportRetry s = .next s₁))

/-- The census starts only while EN is 0 with the four bases written, and sets CENSUS_DONE; where the media holds no
page that passes, every band is FREE; where one erase unit carries one, its band is SEALED with that unit at its
position, or FREE where the header cannot be read (a free value, assumption log 101). Writing SEG_LANE stores FAILED,
and the position of a SEALED band that stands on a newly failed lane becomes FAILED and is queued, as does one added for
rebuild, which seals its band; a queued position, or one of no such band, changes nothing. The rebuild engine takes the
oldest queued position whose band has no stripe in flight: with a replacement the position is REBUILDING on the new
unit, without one it goes to the end of the queue. With its parity engine's grant a stripe of which W pages can be read
is rebuilt onto the new unit; of a LOST one the unit gets a filler page, and a full LOST bucket holds the rebuild. A
position with nothing left to do becomes OK. START with no band to move sets the pool's CUR to the other table and ends;
while a reshape runs it does nothing. ABORT with no copy in flight ends it. The copy of a moving position goes on by a
page with the pool's LAYG and the raised MOVE; a page that cannot be read makes the position FAILED; after the last one
the position is OK on its new unit. -/
def Obligations.CensusRebuildAndReshapeRun : Prop :=
  (∀ s : State,
    (s.flag F.SEG_CTL_EN = true ∨ s.segBases = false → exec .segCensus s = .next s) ∧
    (s.flag F.SEG_CTL_EN = false → s.segBases = true → ∃ s', exec .segCensus s = .next s' ∧ s'.seg.census = true ∧
      s'.flag F.SEG_STATUS_CENSUS_BUSY = true ∧ s'.mem = s.mem) ∧
    (s.seg.census = false → exec .segCensusDone s = .next s) ∧
    (s.seg.census = true → ∃ s', exec .segCensusDone s = .next s' ∧ s'.seg.census = false ∧ s'.flag F.SEG_CTL_CENSUS_DONE = true ∧
      s'.flag F.SEG_STATUS_CENSUS_BUSY = false ∧
      ((List.range s.fuse.variant.lanes).flatMap s.headsOn = [] → ∀ n, n < 2 ^ 24 → (s'.band n).state = 0) ∧
      (∀ f, (List.range s.fuse.variant.lanes).flatMap s.headsOn = [f] → f.tag.pos < 20 → f.die < 256 → f.eu < 2 ^ 18 →
        (s.censusBad f.lane f.die f.eu 0 = true → (s'.band (segBand f.tag.seg)).state = 0) ∧
        (s.censusBad f.lane f.die f.eu 0 = false → (s'.band (segBand f.tag.seg)).state = 2 ∧
          (s'.band (segBand f.tag.seg)).at_ f.tag.pos = (f.lane, f.die, f.eu))))) ∧
  (∀ (v : Nat) (s : State),
    ((∀ n ∈ s.bandsListed, ∀ q, q < (s.band n).n → bitOf v ((s.band n).at_ q).1 = false) →
      ∃ s', exec (.segLaneWrite v) s = .next s' ∧ s'.rd F.SEG_LANE_FAILED = v % 2 ^ 64 ∧ s'.mem = s.mem ∧ s'.seg = s.seg) ∧
    (∀ n q, s.bandsListed = [n] → s.ownBand n = true → (s.band n).state = 2 → s.seg.rebuild = [] → s.seg.reshape = none → q < (s.band n).n →
      q < 20 → (s.band n).pstate q ≠ 1 → (n, q) ∉ s.seg.failed → ((s.band n).at_ q).1 < 64 → bitOf (s.rd F.SEG_LANE_FAILED) ((s.band n).at_ q).1 = false →
      (∀ p, p < (s.band n).n → (bitOf v ((s.band n).at_ p).1 = true ↔ p = q)) →
      ∃ s', exec (.segLaneWrite v) s = .next s' ∧ s'.seg.failed = s.seg.failed ++ [(n, q)] ∧ (s'.band n).pstate q = 1)) ∧
  (∀ (v : Nat) (s : State),
    let n := bitsOf v 0 24
    let q := bitsOf v 24 5
    let b := s.band n
    (b.state = 0 ∨ b.state = 3 ∨ b.n ≤ q ∨ (b.pstate q = 1 ∧ ((n, q) ∈ s.seg.failed ∨ s.answersFor n = false)) →
      exec (.segRbldAddWrite v) s = .next s) ∧
    ((b.state = 1 ∨ b.state = 2) → q < b.n → b.pstate q = 1 → (n, q) ∉ s.seg.failed → s.answersFor n = true →
      ∃ s', exec (.segRbldAddWrite v) s = .next s' ∧ s'.seg.failed = s.seg.failed ++ [(n, q)] ∧ s'.mem = s.mem) ∧
    (b.state = 2 ∨ (b.state = 1 ∧ s.bandOpenSeg n = false ∧ b.slots ≠ 0) → q < b.n → q < 20 → b.pstate q ≠ 1 → s.answersFor n = true →
      (n, q) ∉ s.seg.failed → s.seg.rebuild = [] → s.seg.reshape = none →
      ∃ s', exec (.segRbldAddWrite v) s = .next s' ∧ s'.seg.failed = s.seg.failed ++ [(n, q)] ∧ (s'.band n).pstate q = 1 ∧
        (s'.band n).state = 2)) ∧
  (∀ s : State,
    (s.rbldRuns = false ∨ s.seg.failed = [] → exec .rebuildPositionStart s = .next s) ∧
    (∀ n q rest, s.seg.failed = (n, q) :: rest → s.bandInFlight n = true → exec .rebuildPositionStart s = .next s) ∧
    (∀ n q rest, s.rbldRuns = true → s.seg.failed = (n, q) :: rest → s.bandInFlight n = false → (∀ x ∈ rest, x.1 ≠ n) →
      (∀ l d u, s.replacement n q = some (l, d, u) → ∃ s', exec .rebuildPositionStart s = .next s' ∧
        s'.bytes (s.bandAddr n) 128 = (((s.band n).setPos q l (s.physDie d) u).setPstate q 2).bytes ∧ s'.moveOf n q = (s.moveOf n q + 1) % 8 ∧
        s'.seg.rebuild = s.seg.rebuild ++
          [{ band := n, pos := q, lane := l, die := s.physDie d, eu := u, slot := 0, stripe := 0, old := (s.band n).at_ q }]) ∧
      (s.replacement n q = none → ∃ s', exec .rebuildPositionStart s = .next s' ∧ s'.seg.failed = rest ++ [(n, q)] ∧
        (n, q) ∈ s'.seg.noRepl ∧ s'.mem = s.mem))) ∧
  (∀ (bad : Nat) (m : PosMove) (slot t : Nat) (s : State), s.seg.rebuild = [m] → s.mediaHold = false → s.seg.heldBy = [] →
    s.flag F.SEG_RBLD_CTL_EN = true → s.rbldNext m = some (slot, t) → s.holds 3 (rbldEngine m.band) 9 = true →
    s.bgBusy m.band ((s.okPositions m.band 32).take (s.band m.band).w) = false →
    let seg := mkSeg m.band slot
    let b := s.band (segBand seg)
    let g := s.gatherFor seg t bad 32 true
    let d := s.rebuiltPage seg t m.pos (s.stripeData seg t bad g.good)
    let takes := s.mediaGate m.lane (s.engCmd 2 m.die m.eu (64 * slot + t) false false) = .open_
    let puts := fun (s' : State) (d : List Byte) => s'.seg.rebuild = [{ m with slot := slot, stripe := t + 1 }] ∧
      (s'.sled m.lane).page m.die m.eu (64 * slot + t) = some d ∧ s'.mem = s.mem
    g.stale = none →
    (b.w ≤ g.good.length → s.rebuiltOk seg m.pos d = true → takes →
      ∃ s', exec (.rebuildStripe 0 bad false) s = .next s' ∧ puts s' d) ∧
    (g.good.length < b.w → s.isLost seg t m.pos = true → takes →
      ∃ s', exec (.rebuildStripe 0 bad false) s = .next s' ∧ puts s' (s.fillPage seg t m.pos)) ∧
    (g.good.length < b.w → s.isLost seg t m.pos = false → s.declareLost seg t (b.missMask g.good) = none →
      ∃ s', exec (.rebuildStripe 0 bad false) s = .next s' ∧ s'.flag F.SEG_STATUS_LOST_FULL = true ∧
        s'.seg.heldBy = [lostBucket seg] ∧ s'.seg.rebuild = [m] ∧ s'.mem = s.mem)) ∧
  (∀ (i : Nat) (m : PosMove) (s : State), s.seg.rebuild[i]? = some m →
    ((s.rbldNext m).isSome = true → exec (.rebuildPositionDone i) s = .next s) ∧
    (s.rbldNext m = none → s.ownDie m.old.2.1 = false → ∃ s', exec (.rebuildPositionDone i) s = .next s' ∧
      s'.seg.rebuild = delAt s.seg.rebuild i ∧ s'.bytes (s.bandAddr m.band) 128 = ((s.band m.band).setPstate m.pos 0).bytes)) ∧
  (∀ s : State,
    (s.seg.reshape.isSome = true → exec .reshapeStart s = .next s) ∧
    (s.seg.reshape = none → (∀ n ∈ s.bandsListed, s.ownBand n = false) → ∃ s', exec .reshapeStart s = .next s' ∧ s'.seg.reshape = none ∧
      s'.flag F.SEG_RSHP_CTL_BUSY = false ∧ (s'.pool (s.rd F.SEG_RSHP_CTL_POOL)).cur = 1 - (s.pool (s.rd F.SEG_RSHP_CTL_POOL)).cur) ∧
    (s.seg.reshape = none → exec .reshapeAbort s = .next s) ∧
    (∀ r, s.seg.reshape = some r → r.moving = [] → ∃ s', exec .reshapeAbort s = .next s' ∧ s'.seg.reshape = none ∧
      s'.flag F.SEG_RSHP_CTL_BUSY = false ∧ (s'.pool r.pool).cur = 1 - (s.pool r.pool).cur) ∧
    (∀ bad, s.seg.reshape = none → exec (.reshapeMoveDone bad) s = .next s) ∧
    (∀ bad r m rest, s.seg.reshape = some r → r.moving = m :: rest → s.mediaHold = false →
      let x := s.sled m.old.1
      let left := (rangeFrom m.stripe ((x.eu m.old.2.1 m.old.2.2).top - m.stripe)).filter (fun i => (x.page m.old.2.1 m.old.2.2 i).isSome)
      (left = [] → rest ≠ [] → s.ownDie m.old.2.1 = false → ∃ s', exec (.reshapeMoveDone bad) s = .next s' ∧
        s'.seg.reshape = some { r with moving := rest } ∧ s'.moveOf m.band m.pos = (s.moveOf m.band m.pos + 1) % 8 ∧
        s'.bytes (s.bandAddr m.band) 128 = (((s.band m.band).setPos m.pos m.lane m.die m.eu).setPstate m.pos 0).bytes) ∧
      (∀ p ps d, left = p :: ps → s.bgWaits m.old.1 m.old.2.1 = false → bad = .none →
        s.mediaRead m.old.1 m.old.2.1 m.old.2.2 p false = .page d → headOk d = true →
        s.mediaGate m.lane (s.engCmd 2 m.die m.eu p false false) = .open_ →
        let t : PageTag := { tagOf d with layg := (s.pool (s.band m.band).pool).layg, move := s.moveOf m.band m.pos + 1 }
        ∃ s', exec (.reshapeMoveDone bad) s = .next s' ∧ s'.seg.reshape = some { r with moving := { m with stripe := p + 1 } :: rest } ∧
          (s'.sled m.lane).page m.die m.eu p = some (t.bytes ++ d.drop 16) ∧ s'.mem = s.mem) ∧
      (∀ p ps, left = p :: ps → s.bgWaits m.old.1 m.old.2.1 = false → bad = .read →
        s.mediaRead m.old.1 m.old.2.1 m.old.2.2 p true = .bad → (∃ x ∈ rest, (x.band, x.pos) ≠ (m.band, m.pos)) →
        (s.band m.band).state = 2 → m.pos < (s.band m.band).n → m.pos < 20 → (s.band m.band).pstate m.pos ≠ 1 → s.answersFor m.band = true →
        m.band < 2 ^ 24 → ∃ s', exec (.reshapeMoveDone bad) s = .next s' ∧ (s'.band m.band).pstate m.pos = 1 ∧ (m.band, m.pos) ∈ s'.seg.failed)))

/-- LOAD is taken once the table base and STRIDE are written, and ends with LOADED and the entry of every erase unit of
every own die at the state the sled and the band records give. The Mule's erase of a DIRTY unit that nothing holds back
and the sled accepts leaves it FREE and its pages erased, a failed one RETIRED; a unit of a released band whose fence is
not met waits with FENCE_WAIT; a unit that is not DIRTY stays. MOVE of a segment that is not live ends REFUSED AUX 1, of
a stream above 2 AUX 2; a MOVE with its grants that reaches the end of its pages, with nothing of stream 2 to wait for,
completes with the grains moved in AUX and cells, held grains and LOST pages in RESULT. JLOAD copies a record of the
ring into the buffer, DONE or CHECK_FAIL by its CHECK, REFUSED where no record stands there. The patrol is idle without
EN, moves on by one stripe with its grants, and counts a pass at the end. CHECK of a segment that is not live ends
BAD_JOB (the model's choice, assumption log 24); else it checks one stripe more, and after the last ends DONE, or LOST
where it found a stripe lost. SCAN of an absent lane ends ABSENT; else it writes its records, their number in AUX and
the page it stopped at in RESULT. -/
def Obligations.MuleAndGoatRun : Prop :=
  (∀ s : State,
    (s.locked.contains F.MUL_EUT_BASE_ADDR.off = false ∨ s.rd F.MUL_GEOM_STRIDE = 0 → exec .mulLoad s = .next s) ∧
    (s.locked.contains F.MUL_EUT_BASE_ADDR.off = true → s.rd F.MUL_GEOM_STRIDE ≠ 0 → ∃ s', exec .mulLoad s = .next s' ∧ s'.seg.load = true ∧
      s'.mem = s.mem) ∧
    (s.seg.load = false → exec .mulLoadDone s = .next s) ∧
    (s.seg.load = true → ∃ s', exec .mulLoadDone s = .next s' ∧ s'.flag F.MUL_CTL_LOADED = true ∧ s'.seg.load = false ∧
      ∀ lane d u, lane < s.fuse.variant.lanes → d < 128 → u < s.eutStride →
        eutState (s'.eut lane d u) = (s.loadEntry s.unitsInBands lane d u).1)) ∧
  (∀ (lane d u : Nat) (bad : Bool) (s : State),
    (eutState (s.eut lane d u) ≠ 3 ∨ s.mediaHold = true ∨ s.flag F.MUL_CTL_ERASE_EN = false →
      exec (.muleEraseStart lane d u bad) s = .next s) ∧
    (s.mediaHold = false → s.flag F.MUL_CTL_ERASE_EN = true → s.flag F.MUL_CTL_LOADED = true → d < 128 → u < s.eutStride →
      eutState (s.eut lane d u) = 3 → s.flag F.MUL_LANE_READONLY lane = false → s.laneUp lane = true →
      (s.releasedBy (lane, d, u) = none → s.mediaGate lane (s.engCmd 3 (s.physDie d) u 0 false false) = .open_ → ∃ s', exec (.muleEraseStart lane d u bad) s = .next s' ∧
        eutState (s'.eut lane d u) = (if bad then 5 else 0) ∧
        (bad = false → ∀ p, p < 2 ^ 16 → (s'.sled lane).page (s.physDie d) u p = none)) ∧
      (∀ n r, s.releasedBy (lane, d, u) = some (n, r) → s.fenceMet r.fence = false → ∃ s', exec (.muleEraseStart lane d u bad) s = .next s' ∧
        s'.flag F.MUL_STATUS_FENCE_WAIT = true ∧ s'.mem = s.mem ∧ s'.sleds = s.sleds))) ∧
  (∀ (cl bad : Nat) (j : Job) (s : State), s.JobReady 0x0B 0 cl j → j.op = 1 → moveCheck j s = true → s.MapQuiet → s.seg.move = none →
    let seg := j.fld 4 4
    let b := s.band (segBand seg)
    (b.liveSlot (segSlot seg) = false → ∃ s', exec (.muleMove cl bad) s = .next s' ∧ s.Finished s' 0x0B 0 cl j 0x32 1 0 ∧ s'.mem = s.mem) ∧
    (b.liveSlot (segSlot seg) = true → 2 < b.stream → ∃ s', exec (.muleMove cl bad) s = .next s' ∧ s.Finished s' 0x0B 0 cl j 0x32 2 0 ∧
      s'.mem = s.mem) ∧
    (b.liveSlot (segSlot seg) = true → b.stream ≤ 2 → (∀ a ∈ s.muleArbs j, s.holds a.1 a.2.1 a.2.2 = true) → ∀ m s₁,
      State.movePages j seg bad (64 * b.w) { job := j, page := 0, desc := 0, moved := 0, cells := 0, held := 0, lost := 0 } s = (s₁, m, .done) →
      s₁.MapQuiet → (s₁.stream 2).begun = false → (s₁.stream 2).closed ≤ (s₁.stream 2).ended → (s₁.stream 2).syncs = [] →
      (s₁.stream 2).lost = false → ∃ s', exec (.muleMove cl bad) s = .next s' ∧ s'.seg.move = none ∧
        s₁.Finished s' 0x0B 0 cl j 0 (m.moved % 2 ^ 32)
          ((m.cells % 2 ^ 32 + min 65535 m.held * 2 ^ 32 + min 65535 m.lost * 2 ^ 48) % 2 ^ 64))) ∧
  (∀ (cl : Nat) (j : Job) (s : State), s.JobReady 0x0B 0 cl j → j.op = 2 → jloadCheck j s = true →
    let base := if j.fld 2 1 = 1 then s.jrnMbase else s.jrnBase
    let joff := j.fld 24 8
    let n := s.recLen base joff
    let d := s.bytes (ringAddr base joff) n
    (joff ∉ s.ringRecs (decide (j.fld 2 1 = 1)) → ∃ s', exec (.muleJload cl) s = .next s' ∧ s.Finished s' 0x0B 0 cl j 0x32 0 0 ∧ s'.mem = s.mem) ∧
    (joff ∈ s.ringRecs (decide (j.fld 2 1 = 1)) → s.inHandle (j.fld 8 8) 0 n = true → s.badIn (ringAddr base joff) n = false →
      s.fixIn (ringAddr base joff) n = [] → s.badIn (hAddr (j.fld 8 8) 0) n = false → ∃ s', exec (.muleJload cl) s = .next s' ∧
        s.Finished s' 0x0B 0 cl j (if lfld d 48 8 = recSum d then 0 else 0x10) 0 0 ∧ s'.mem = memWrite s.mem (hAddr (j.fld 8 8) 0) d)) ∧
  (∀ (bad : Nat) (bits : List Nat) (s : State), s.seg.findings = [] →
    (s.flag F.GT_CTL_EN = false → exec (.goatPatrolStep bad bits) s = .next s) ∧
    (s.flag F.GT_CTL_EN = true → s.goatNext = none → ∃ s', exec (.goatPatrolStep bad bits) s = .next s' ∧
      s'.rd F.GT_POS_PASSES = min (2 ^ 32 - 1) (s.rd F.GT_POS_PASSES + 1) ∧ s'.rd F.GT_POS_BAND = 0 ∧ s'.rd F.GT_POS_SLOT = 0 ∧
      s'.seg.goatStripe = 0) ∧
    (∀ n i t, s.flag F.GT_CTL_EN = true → s.goatNext = some (n, i, t) → s.bgBusy n (s.okPositions n 32) = false →
      (1 ≤ s.goatLevel → s.holds 3 (rbldEngine n) 10 = true) → (2 ≤ s.goatLevel → s.holds 2 (n % s.fuse.variant.engines) 10 = true) → ∃ s', exec (.goatPatrolStep bad bits) s = .next s' ∧
      s'.rd F.GT_POS_BAND = n % 2 ^ 23 ∧ s'.rd F.GT_POS_SLOT = i ∧ s'.seg.goatStripe = t + 1)) ∧
  (∀ (cl bad : Nat) (bits : List Nat) (j : Job) (s : State), s.JobReady 0x0C 0 cl j → j.op = 2 → goatCheckOk j s = true →
    let seg := j.fld 4 4
    let n := segBand seg
    let cnt := s.stripesOf n (segSlot seg)
    let c := s.checkOf j
    ((s.band n).liveSlot (segSlot seg) = false → ∃ s', exec (.goatCheck cl bad bits) s = .next s' ∧
      s.Finished s' 0x0C 0 cl j 0x3E 0 0 ∧ s'.mem = s.mem) ∧
    ((s.band n).liveSlot (segSlot seg) = true → cnt ≤ c.stripe → ∃ s', exec (.goatCheck cl bad bits) s = .next s' ∧
      s.Finished s' 0x0C 0 cl j (if c.lost then 0x12 else 0) 0 0 ∧ s'.mem = s.mem) ∧
    ((s.band n).liveSlot (segSlot seg) = true → c.stripe < cnt → s.bgBusy n (s.okPositions n 32) = false →
      (1 ≤ j.fld 3 1 → s.holds 3 (rbldEngine n) 10 = true) → (2 ≤ j.fld 3 1 → s.holds 2 (n % s.fuse.variant.engines) 10 = true) →
      let t := s.goatStripe (j.fld 3 1) (j.fld 30 1) seg c.stripe bad bits (decide (c.stripe + 1 = cnt))
      ∃ s', exec (.goatCheck cl bad bits) s = .next s' ∧ s'.mem = t.mem ∧ (s'.checkOf j).stripe = c.stripe + 1 ∧
        (s'.checkOf j).lost = (c.lost || decide (t.lostCount ≠ s.lostCount)))) ∧
  (∀ (cl : Nat) (bad : List (Nat × Nat)) (j : Job) (s : State), s.JobReady 0x0C 0 cl j → j.op = 1 → goatScanOk j s = true →
    (s.fuse.variant.lanes ≤ j.fld 2 1 → ∃ s', exec (.goatScan cl bad) s = .next s' ∧ s.Finished s' 0x0C 0 cl j 0x3F 0 0 ∧ s'.mem = s.mem) ∧
    (j.fld 2 1 < s.fuse.variant.lanes → j.fld 24 4 = 1 → j.fld 20 4 < (s.sled (j.fld 2 1)).geo.eus →
      let ppe := (s.sled (j.fld 2 1)).geo.ppe false
      let r := s.scanPages (j.fld 2 1) (j.fld 16 2) bad
        ((List.range (ppe - j.fld 28 2)).map (fun p => (j.fld 20 4, j.fld 28 2 + p))) (hLen (j.fld 8 8) / 32)
      s.badIn (hAddr (j.fld 8 8) 0) r.1.flatten.length = false → ∃ s', exec (.goatScan cl bad) s = .next s' ∧
        s'.mem = memWrite s.mem (hAddr (j.fld 8 8) 0) r.1.flatten ∧
        s.Finished s' 0x0C 0 cl j 0 (r.1.length % 2 ^ 32) ((match r.2 with
          | none => 2 ^ 64 - 1
          | some (u, p) => u + p * 2 ^ 32) % 2 ^ 64)))

/-- Clearing a lane's LANE_EN puts it DOWN and ends its commands MEDIA_TIMEOUT. A lane goes DOWN to TRAIN on signal, to
INIT with HELLO, to UP with HELLO of its own port and absolute CREDIT, to FAULT on a wrong port or the third training
timeout, back to TRAIN on loss of lock, silence or too many replays, and DOWN after RETRAIN_MS. An ACK frees the held
frames it covers; NAK and the replay timer send held frames again, at most REPLAY_MAX times without progress; a
delivered frame is acknowledged within 2 µs. Credits are set in INIT, less those of the commands still outstanding (log
73), and added later, at most 1,024. A frame that fails its checks changes neither memory nor NEXT. A good RDATA frame
lands at its offset in the job's buffer; a good RSP completes its job with the status R298 gives, frees the tag and
returns its credit, unless a part of its pages is still to go out; STALE takes an ACTIVE head DOWN. A command over its
limit ends MEDIA_TIMEOUT with its tag held, and its RSP is discarded. A job on a DOWN or FAULT lane ends MEDIA_TIMEOUT,
on a lane in TRAIN or INIT waits, on an UP lane sends its CMD frame, and a PROGRAM its pages after it: all, or one page
where another request waits for its die (log 96). -/
def Obligations.NmlLanesAndJobsRun : Prop :=
  (∀ (v : Nat) (s : State), ∃ s', exec (.nmlCtlWrite v) s = .next s' ∧ s'.rd F.NML_CTL_LANE_EN = v % 2 ^ 64 ∧ s'.mem = s.mem ∧
    ∀ n, n < s.fuse.variant.lanes → bitOf (s.rd F.NML_CTL_LANE_EN) n = true → bitOf v n = false → s'.laneState n = 0 ∧
      ∀ p ∈ (s.lane n).cmds, p.2.dead = false →
        { gid := p.2.job.gid, status := 0x21, unit := n, ticket := p.2.job.ticket, aux := 0, result := 0 } ∈ s'.comps) ∧
  (∀ (n : Nat) (s : State), n < s.fuse.variant.lanes → s.squelched = false →
    let x := s.lane n
    let st := s.laneState n
    let ended := fun (s' : State) => ∀ p ∈ x.cmds, p.2.dead = false →
      { gid := p.2.job.gid, status := 0x21, unit := n, ticket := p.2.job.ticket, aux := 0, result := 0 } ∈ s'.comps
    let retrains := fun (s' : State) => s'.laneState n = 1 ∧ (s'.lane n).held = x.held ∧ (s'.lane n).cmds = x.cmds ∧ (s'.lane n).leftUp = s.now
    (st = 0 → bitOf (s.rd F.NML_CTL_LANE_EN) n = true → ∃ s', exec (.nmlSignalDetect n) s = .next s' ∧ s'.laneState n = 1) ∧
    (st ≠ 0 → exec (.nmlSignalDetect n) s = .next s) ∧
    (st = 1 → 0 < x.tries ∨ x.since + 1000000 ≤ s.now → ∃ s', exec (.nmlTrainExit n) s = .next s' ∧ s'.laneState n = 2 ∧ (s'.lane n).helloOk = false ∧
      s'.out = s.out ++ [.nml n (.hello s.headId)]) ∧
    (st = 1 → x.tries = 0 → s.now < x.since + 1000000 → exec (.nmlTrainExit n) s = .next s) ∧
    (st ≠ 1 → exec (.nmlTrainExit n) s = .next s ∧ exec (.nmlTrainTimeout n) s = .next s) ∧
    (st = 1 → x.since + 20000000 ≤ s.now → ∃ s', exec (.nmlTrainTimeout n) s = .next s' ∧
      (x.tries < 2 → s'.laneState n = 1 ∧ (s'.lane n).tries = x.tries + 1) ∧ (2 ≤ x.tries → s'.laneState n = 4)) ∧
    (st = 2 → (∃ s', exec (.nmlHelloRx n s.headId false) s = .next s' ∧ s'.laneState n = if x.creditOk then 3 else 2) ∧
      (∀ p, p ≠ s.headId → ∃ s', exec (.nmlHelloRx n p false) s = .next s' ∧ s'.laneState n = 4 ∧ s'.flag F.NML_LINK_MISWIRE n = true) ∧
      ((∀ p ∈ x.cmds, p.2.idle = false) → ∀ c d, ∃ s', exec (.nmlCreditRx n c d true) s = .next s' ∧
        (s'.lane n).cmdCr = min 1024 c - x.cmds.length ∧
        (s'.lane n).dataCr = d - (x.cmds.map (fun p => if p.2.cmd.opc = 2 then p.2.cmd.count else 0)).sum ∧
        s'.laneState n = if x.helloOk then 3 else 2)) ∧
    (st = 3 → (∀ p, ∃ s', exec (.nmlHelloRx n p false) s = .next s' ∧ s'.laneState n = 3 ∧ (s'.lane n).rxAt = s.now) ∧
      ((∀ p ∈ x.cmds, p.2.idle = false) → ∀ c d, ∃ s', exec (.nmlCreditRx n c d false) s = .next s' ∧ (s'.lane n).cmdCr = min 1024 (x.cmdCr + c) ∧
        (s'.lane n).dataCr = x.dataCr + d) ∧
      (x.helloAt + 100000 ≤ s.now → ∃ s', exec (.nmlHelloTimer n) s = .next s' ∧ s'.out = s.out ++ [.nml n (.hello s.headId)] ∧
        (s'.lane n).helloAt = s.now) ∧
      exec (.nmlRetrainTimeout n) s = .next s ∧
      (∃ s', exec (.nmlFecLockLoss n) s = .next s' ∧ retrains s') ∧
      (x.rxAt + 1000000 ≤ s.now → ∃ s', exec (.nmlIdleTimeout n) s = .next s' ∧ retrains s') ∧
      (s.now < x.rxAt + 1000000 → exec (.nmlIdleTimeout n) s = .next s)) ∧
    (st = 0 ∨ st = 1 → exec (.nmlHelloTimer n) s = .next s) ∧
    (st = 4 → x.tries < 2 → s.flag F.NML_LINK_MISWIRE n = false → x.helloAt + 10000 ≤ s.now → ∃ s', exec (.nmlHelloTimer n) s = .next s' ∧
      s'.out = s.out ++ [.nml n (.hello s.headId)]) ∧
    (st = 2 → x.wasUp = false → x.since + s.retrainNs ≤ s.now → ∃ s', exec (.nmlRetrainTimeout n) s = .next s' ∧ s'.laneState n = 4) ∧
    (st ≠ 3 → exec (.nmlFecLockLoss n) s = .next s) ∧
    (st = 1 ∨ st = 2 → x.wasUp = true → x.leftUp + s.retrainNs ≤ s.now →
      ∃ s', exec (.nmlRetrainTimeout n) s = .next s' ∧ s'.laneState n = 0 ∧ (s'.lane n).cmds = [] ∧ ended s') ∧
    (st = 3 → ∀ t l, x.held = t :: l →
      (∀ next, 1 ≤ (next % 4096 + 4096 - t.fseq) % 4096 → (next % 4096 + 4096 - t.fseq) % 4096 ≤ x.held.length →
        ∃ s', exec (.nmlAckRx n next) s = .next s' ∧ (s'.lane n).held = x.held.drop ((next % 4096 + 4096 - t.fseq) % 4096) ∧
          (s'.lane n).replays = 0) ∧
      (∀ next, (next % 4096 + 4096 - t.fseq) % 4096 = 0 → ∃ s', exec (.nmlNakRx n next) s = .next s' ∧ (s'.lane n).held = x.held ∧
        (x.replays < s.rd F.NML_CFG_REPLAY_MAX → (s'.lane n).replays = x.replays + 1 ∧ ∀ f ∈ x.held, .nml n f ∈ s'.out) ∧
        (s.rd F.NML_CFG_REPLAY_MAX ≤ x.replays → retrains s')) ∧
      (x.progAt + 1000 * s.rd F.NML_CFG_REPLAY_US ≤ s.now → ∃ s', exec (.nmlReplayTimer n) s = .next s' ∧
        (x.replays < s.rd F.NML_CFG_REPLAY_MAX → (s'.lane n).replays = x.replays + 1 ∧ ∀ f ∈ x.held, .nml n f ∈ s'.out) ∧
        (s.rd F.NML_CFG_REPLAY_MAX ≤ x.replays → retrains s'))) ∧
    (st = 3 → 0 < x.ackPend → x.ackAt + 2000 ≤ s.now → ∃ s', exec (.nmlAckTimer n) s = .next s' ∧ (s'.lane n).ackPend = 0 ∧
      s'.out = s.out ++ [.nml n (.ack x.next)]) ∧
    (x.ackPend = 0 → exec (.nmlAckTimer n) s = .next s) ∧
    (st = 3 → ∀ f : NmlRx,
      (f.hchkOk = false ∨ f.lenOk = false ∨ f.fcrcOk = false →
        (∃ s', exec (.nmlRdataRx n f) s = .next s' ∧ s'.mem = s.mem ∧ (s'.lane n).next = x.next ∧ s'.comps = s.comps) ∧
        (∃ s', exec (.nmlRspRx n f) s = .next s' ∧ s'.mem = s.mem ∧ (s'.lane n).next = x.next ∧ s'.comps = s.comps)) ∧
      (∀ o, f.hchkOk = true → f.lenOk = true → f.fcrcOk = true → f.fseq % 4096 = x.next → SMap.find x.cmds f.tag = some o → o.idle = false →
        (o.dead = false → f.off = o.got → o.cmd.opc ≠ 2 → o.got + f.data.length ≤ cmdBytes o.cmd →
          s.badIn (o.buf + 16384 * o.pages + f.off) f.data.length = false →
          ∃ s', exec (.nmlRdataRx n f) s = .next s' ∧ s'.mem = memWrite s.mem (o.buf + 16384 * o.pages + f.off) f.data ∧
            SMap.find (s'.lane n).cmds f.tag = some { o with got := o.got + f.data.length } ∧ (s'.lane n).next = (x.next + 1) % 4096) ∧
        (∀ st' rest : List Byte, f.data = st' ++ rest → st'.length = 16 →
          let code := lfld f.data 0 1
          let pages := lfld f.data 4 2
          (o.late = true → (∀ p ∈ x.cmds, p.2.idle = false) → ∃ s', exec (.nmlRspRx n f) s = .next s' ∧
            SMap.find (s'.lane n).cmds f.tag = none ∧ s'.comps = s.comps ∧ s'.life = s.life) ∧
          (o.dead = false → o.late = false → code = 0 → o.pages + o.cmd.count < o.total → o.cmd.opc = 1 → s.lossWait = false →
            (∀ p ∈ x.cmds, p.2.idle = false) → ∃ s' o', exec (.nmlRspRx n f) s = .next s' ∧ SMap.find (s'.lane n).cmds f.tag = some o' ∧
              o'.pages = o.pages + o.cmd.count ∧ s'.comps = s.comps) ∧
          (o.dead = false → o.late = false → code ≠ 0 ∨ o.total ≤ o.pages + o.cmd.count → (∀ p ∈ x.cmds, p.2.idle = false) →
            ∃ s', exec (.nmlRspRx n f) s = .next s' ∧ SMap.find (s'.lane n).cmds f.tag = none ∧ (s'.lane n).cmdCr = min 1024 (x.cmdCr + 1) ∧
            { gid := o.job.gid, status := if code = 0 then 0 else if code ≤ 3 then 0x20 else if code = 4 then 0x22 else 0x32, unit := n,
              ticket := o.job.ticket, aux := if code ≤ 2 then (o.pages + pages) % 2 ^ 32 else if code ≤ 4 then 0 else if code = 5 then 1 else if code = 6 then 2 else 3,
              result := lfld f.data 8 8 } ∈ s'.comps ∧
            (code = 4 → s.life = .active → s'.life = .down))))) ∧
    (∀ tag o t, SMap.find x.cmds tag = some o → o.acked = some t → o.dead = false →
      (t + s.nmlTmo o.cmd.opc ≤ s.now → ∃ s', exec (.nmlCmdTimeout n tag) s = .next s' ∧
        SMap.find (s'.lane n).cmds tag = some { o with dead := true, late := true } ∧
        { gid := o.job.gid, status := 0x21, unit := n, ticket := o.job.ticket, aux := 0, result := 0 } ∈ s'.comps) ∧
      (s.now < t + s.nmlTmo o.cmd.opc → exec (.nmlCmdTimeout n tag) s = .next s))) ∧
  (∀ (n cl : Nat) (j : Job) (i : Instr) (s : State), s.JobReady 0x09 n cl j → nmlCheck j s = true →
    (j.op = 1 ∧ i = .nmlJobRead n cl) ∨ (j.op = 2 ∧ i = .nmlJobProgram n cl) ∨ (j.op = 3 ∧ i = .nmlJobErase n cl) ∨
      (j.op = 4 ∧ i = .nmlJobSuspend n cl) ∨ (j.op = 5 ∧ i = .nmlJobResume n cl) ∨ (j.op = 6 ∧ i = .nmlJobHdrRead n cl) ∨
      (j.op = 7 ∧ i = .nmlJobGeometry n cl) ∨ (j.op = 8 ∧ i = .nmlJobHealth n cl) ∨
      (j.op = 9 ∧ ((j.fld 28 1 = 0 ∧ i = .nmlJobLeaseStatus n cl) ∨ (j.fld 28 1 = 1 ∧ i = .nmlJobLeaseAcquire n cl) ∨
        (j.fld 28 1 = 2 ∧ i = .nmlJobLeaseTakeover n cl) ∨ (j.fld 28 1 = 3 ∧ i = .nmlJobLeaseGrant n cl) ∨
        (j.fld 28 1 = 4 ∧ i = .nmlJobLeaseRelease n cl))) →
    let x := s.lane n
    let all := s.nmlCmd j
    let c := cmdPart all all.page 0 all.count (s.dieAlone n all.die)
    let a := hAddr (j.fld 16 8) (j.fld 24 4)
    let sent : NmlOut := { job := j, cmd := c, fseq := x.txSeq, acked := none, buf := a, got := 0, dead := false
                           late := false, pages := 0, total := all.count, idle := false }
    (s.laneState n = 0 ∨ s.laneState n = 4 → ∃ s', exec i s = .next s' ∧ s.Finished s' 0x09 n cl j 0x21 0 0 ∧
      (s.flag F.ARB_CTL_HINT_EN = false → s'.mem = s.mem)) ∧
    (s.laneState n = 1 ∨ s.laneState n = 2 → exec i s = .next s) ∧
    (∀ tag, s.laneState n = 3 → s.nmlWaits c = false → x.tooFull c = false →
      freeTag x.cmds 1025 0 = some tag → (j.op = 2 → s.badIn a (16384 * c.count) = false ∧ s.fixIn a (16384 * c.count) = []) →
      ∃ s', exec i s = .next s' ∧ s'.ring 0x09 n cl = (s.ring 0x09 n cl).tail ∧ s'.comps = s.comps ∧
        (s.flag F.ARB_CTL_HINT_EN = false → s'.mem = s.mem) ∧
        (s'.lane n).cmdCr = x.cmdCr - 1 ∧
        SMap.find (s'.lane n).cmds tag = some sent ∧
        (s'.lane n).held = x.held ++ .cmd x.txSeq tag c :: (if j.op = 2 then
          (List.range c.count).map (fun k =>
            .wdata ((x.txSeq + 1 + k) % 4096) tag (16384 * k) (decide (k + 1 = c.count)) (s.bytes (a + 16384 * k) 16384)) else [])))

/-- READ, PROGRAM, ERASE and HDR_READ to a present lane: refused STALE by the lease checks of R307, INVALID out of
range, READ_ONLY on a read-only sled, else they run on an idle die or wait for a busy one; a READ that may suspend
suspends a running program or erase. SUSPEND and RESUME suspend and resume the die's operation and answer OK. A
suspended operation goes on by itself after 10 ms, after 2 ms where a read suspended it, and when its suspending reads
are done. GEOMETRY and HEALTH answer with their record and OK. A WDATA frame that is next in order is taken, one that
belongs to no PROGRAM is answered INVALID. LEASE: STATUS changes nothing; ACQUIRE takes a free half at its epoch or a
later one; TAKEOVER with a later epoch takes the half and fences its owner; GRANT by the owner hands it to the other
port and lifts its fence; RELEASE by the owner leaves it unowned; each refusal leaves the sled as it was. A read that
ends answers with its pages; a program leaves its pages; an erase leaves its unit erased, a failed one bad and, once the
sled is read-only, no write waiting. -/
def Obligations.SledsCarryOutCommands : Prop :=
  let replies := fun (s s' : State) (lane port tag st : Nat) => ∃ r : SledRsp, s'.out = s.out ++ [.sled lane port (.rsp r)] ∧ r.tag = tag ∧ r.status = st
  (∀ (lane port tag : Nat) (c c' : NmlCmd) (i : Instr) (s : State), lane < s.fuse.variant.lanes → port ≤ 1 → c.die < (s.sled lane).geo.dies →
    (i = .sledRead lane port tag c ∧ c' = { c with opc := 1 }) ∨ (i = .sledProgram lane port tag c ∧ c' = { c with opc := 2 }) ∨
      (i = .sledErase lane port tag c ∧ c' = { c with opc := 3 }) ∨ (i = .sledHdrRead lane port tag c ∧ c' = { c with opc := 6 }) →
    let x := s.sled lane
    let d := x.die c.die
    (x.stale port c' = true → ∃ s', exec i s = .next s' ∧ replies s s' lane port tag 4 ∧ s'.sleds = s.sleds) ∧
    (x.stale port c' = false → x.inRange c' = false → x.ro = false ∨ c'.opc = 1 ∨ c'.opc = 6 → ∃ s', exec i s = .next s' ∧ replies s s' lane port tag 5 ∧ s'.sleds = s.sleds) ∧
    (x.stale port c' = false → x.ro = true → c'.opc = 2 ∨ c'.opc = 3 →
      ∃ s', exec i s = .next s' ∧ replies s s' lane port tag 6 ∧ s'.sleds = s.sleds) ∧
    (x.stale port c' = false → x.inRange c' = true → x.ro = false ∨ c'.opc = 1 ∨ c'.opc = 6 → ∃ s', exec i s = .next s' ∧ s'.out = s.out ∧
      (d.run = none → ((s'.sled lane).die c.die).run = some (newOp port tag c')) ∧
      (d.run.isSome = true → c'.opc = 2 ∨ c'.opc = 3 → ((s'.sled lane).die c.die).wait = d.wait ++ [newOp port tag c'] ∧
        ((s'.sled lane).die c.die).run = d.run) ∧
      (∀ o, d.run = some o → o.writes = true → o.susp = none → o.suspCount < x.geo.suspMax → c'.opc = 1 → c.susp = true →
        ((s'.sled lane).die c.die).run = some { o with susp := some (s.now, true), suspCount := o.suspCount + 1 } ∧
        ((s'.sled lane).die c.die).reads = [{ newOp port tag c' with suspended := true }]))) ∧
  (∀ (lane port tag : Nat) (c : NmlCmd) (s : State), lane < s.fuse.variant.lanes → port ≤ 1 → c.die < (s.sled lane).geo.dies →
    let x := s.sled lane
    let d := x.die c.die
    (x.stale port { c with opc := 4 } = false → ∃ s', exec (.sledSuspend lane port tag c) s = .next s' ∧ replies s s' lane port tag 0 ∧
      ∀ o, d.run = some o → o.writes = true → o.susp = none →
        ((s'.sled lane).die c.die).run = some { o with susp := some (s.now, false), suspCount := o.suspCount + 1 }) ∧
    (x.stale port { c with opc := 4 } = false → ∀ o t, d.run = some o → o.susp = some (t, true) →
      ∃ s', exec (.sledSuspend lane port tag c) s = .next s' ∧
        ((s'.sled lane).die c.die).run = some { o with susp := some (s.now, false), suspNs := o.suspNs + (s.now - t) }) ∧
    (x.stale port { c with opc := 4 } = true → ∃ s', exec (.sledSuspend lane port tag c) s = .next s' ∧ replies s s' lane port tag 4 ∧
      s'.sleds = s.sleds) ∧
    (x.stale port { c with opc := 5 } = false → ∃ s', exec (.sledResume lane port tag c) s = .next s' ∧ replies s s' lane port tag 0 ∧
      ∀ o t b, d.run = some o → o.susp = some (t, b) →
        ((s'.sled lane).die c.die).run = some { o with susp := none, suspNs := o.suspNs + (s.now - t) })) ∧
  (∀ (lane die : Nat) (o : SledOp) (t : Nat) (b : Bool) (s : State), ((s.sled lane).die die).run = some o → o.susp = some (t, b) →
    let goes := fun (s' : State) => ((s'.sled lane).die die).run = some { o with susp := none, suspNs := o.suspNs + (s.now - t) }
    (b = false → t + 10000000 ≤ s.now → ∃ s', exec (.sledAutoResume lane die) s = .next s' ∧ goes s') ∧
    (b = true ∨ s.now < t + 10000000 → exec (.sledAutoResume lane die) s = .next s) ∧
    (b = true → t + 2000000 ≤ s.now → ∃ s', exec (.sledSuspReadResume lane die) s = .next s' ∧ goes s') ∧
    (b = false ∨ s.now < t + 2000000 → exec (.sledSuspReadResume lane die) s = .next s)) ∧
  (∀ (lane port tag : Nat) (c : NmlCmd) (s : State), lane < s.fuse.variant.lanes → port ≤ 1 →
    (∃ s' r, exec (.sledGeometry lane port tag c) s = .next s' ∧ s'.sleds = s.sleds ∧ r.status = 0 ∧ r.tag = tag ∧
      s'.out = s.out ++ [.sled lane port (.rdata tag 0 true (s.sled lane).geo.bytes), .sled lane port (.rsp r)]) ∧
    (c.sub = 0 ∨ c.sub = 1 → (c.sub = 1 → c.die < (s.sled lane).geo.dies) → (s.sled lane).fenced port = false →
      ∃ s' r, ∃ l : List (Nat × List Byte), exec (.sledHealth lane port tag c) s = .next s' ∧ s'.sleds = s.sleds ∧ r.status = 0 ∧ r.tag = tag ∧
        (l.map (·.2)).flatten = (if c.sub = 0 then s.healthSum lane else (s.sled lane).euRecords c.die c.eu (16 * c.count)) ∧
        (∀ p ∈ l, p.2.length ≤ 16384) ∧
        s'.out = s.out ++ ((List.range l.length).zip l).map (fun p => .sled lane port (.rdata tag p.2.1 (decide (p.1 + 1 = l.length)) p.2.2)) ++
          [.sled lane port (.rsp r)]) ∧
    (∀ off data, ((s.sled lane).dies.findSome? (fun p => (p.2.wdata port tag off data).map (fun d => (p.1, d))) = none →
        ∃ s', exec (.sledWdataRx lane port tag off data) s = .next s' ∧ replies s s' lane port tag 5 ∧ s'.sleds = s.sleds) ∧
      (∀ k d o rest, (s.sled lane).dies = (k, d) :: rest → d.run = some o → o.port = port → o.tag = tag → o.cmd.opc = 2 →
        o.got.length < o.cmd.count → off = 16384 * o.got.length → data.length = 16384 →
        ∃ s', exec (.sledWdataRx lane port tag off data) s = .next s' ∧ ((s'.sled lane).die k).run = some { o with got := o.got ++ [data] })) ∧
    (let x := s.sled lane
     let h := c.half % 2
     let e := c.epoch % 2 ^ 16
     let own := x.owner h
     let later := laterThan 16 e (x.epoch h)
     (∃ s', exec (.sledLeaseStatus lane port tag c) s = .next s' ∧ replies s s' lane port tag 0 ∧ s'.sleds = s.sleds) ∧
     (x.fenced port = false →
       ((own = 3 ∧ laterThan 16 (x.epoch h) e = false) ∨ (own = port ∧ e = x.epoch h) → ∃ s', exec (.sledLeaseAcquire lane port tag c) s = .next s' ∧
         replies s s' lane port tag 0 ∧ s'.sled lane = x.setHalf h port e) ∧
       (¬((own = 3 ∧ laterThan 16 (x.epoch h) e = false) ∨ (own = port ∧ e = x.epoch h)) →
         ∃ s', exec (.sledLeaseAcquire lane port tag c) s = .next s' ∧ replies s s' lane port tag 7 ∧ s'.sleds = s.sleds) ∧
       (later = true → own ≠ 1 - port → ∃ s', exec (.sledLeaseTakeover lane port tag c) s = .next s' ∧ replies s s' lane port tag 0 ∧
         s'.sled lane = x.setHalf h port e) ∧
       (later = true → own = 1 - port → ∃ s', exec (.sledLeaseTakeover lane port tag c) s = .next s' ∧ (s'.sled lane).owner h = port ∧
         (s'.sled lane).epoch h = e ∧ (s'.sled lane).fenced (1 - port) = true ∧
         ∀ k, ∀ o ∈ ((s'.sled lane).die k).unstarted, o.port ≠ 1 - port) ∧
       (later = false → ∃ s', exec (.sledLeaseTakeover lane port tag c) s = .next s' ∧ replies s s' lane port tag 7 ∧ s'.sleds = s.sleds) ∧
       (own = port → later = true → ∃ s', exec (.sledLeaseGrant lane port tag c) s = .next s' ∧ replies s s' lane port tag 0 ∧
         (s'.sled lane).owner h = 1 - port ∧ (s'.sled lane).epoch h = e ∧ (s'.sled lane).fenced (1 - port) = false) ∧
       (own ≠ port → ∃ s', exec (.sledLeaseGrant lane port tag c) s = .next s' ∧ replies s s' lane port tag 4 ∧ s'.sleds = s.sleds) ∧
       (own = port → ∃ s', exec (.sledLeaseRelease lane port tag c) s = .next s' ∧ replies s s' lane port tag 0 ∧
         s'.sled lane = x.setHalf h 3 (x.epoch h)) ∧
       (own ≠ port → ∃ s', exec (.sledLeaseRelease lane port tag c) s = .next s' ∧ replies s s' lane port tag 4 ∧ s'.sleds = s.sleds)))) ∧
  (∀ (lane die failAt : Nat) (m : MediaBits) (o r : SledOp) (rest : List SledOp) (t : Nat) (s : State),
    ((s.sled lane).die die).run = some o → ((s.sled lane).die die).reads = r :: rest → o.susp = some (t, true) →
    ∃ s', exec (.sledOpComplete lane die failAt m) s = .next s' ∧
      if rest.any (fun q => decide (q.cmd.opc = 1) && q.cmd.susp) then
        ((s'.sled lane).die die).run = some o ∧ ((s'.sled lane).die die).reads = rest
      else ((s'.sled lane).die die).run = some { o with susp := none, suspNs := o.suspNs + (s.now - t) }) ∧
  (∀ (lane die failAt : Nat) (m : MediaBits) (o : SledOp) (s : State), ((s.sled lane).die die).run = some o → ((s.sled lane).die die).reads = [] →
    o.susp = none →
    let x := s.sled lane
    let c := o.cmd
    (o.cmd.opc = 6 → c.count = 1 → ∃ s' r, exec (.sledOpComplete lane die failAt m) s = .next s' ∧ r.status = 0 ∧ r.tag = o.tag ∧
      s'.out = s.out ++ [.sled lane o.port (.rdata o.tag 0 true (x.hdrRecord s.freeNat c 0 (m.bits.getD 0 0) (bitOf m.bad 0))),
        .sled lane o.port (.rsp r)]) ∧
    (o.cmd.opc = 2 → c.count ≤ o.got.length → c.page < (x.eu c.die c.eu).top →
      ∃ s', exec (.sledOpComplete lane die failAt m) s = .next s' ∧ replies s s' lane o.port o.tag 5 ∧ (s'.sled lane).pages = x.pages) ∧
    (o.cmd.opc = 1 → c.count = 1 → failAt = 1 → ∃ s' r, exec (.sledOpComplete lane die failAt m) s = .next s' ∧ r.status = 0 ∧ r.tag = o.tag ∧
      r.donepg = 1 ∧ ((s'.sled lane).die c.die).bits = max (x.die c.die).bits (min 65535 (m.bits.getD 0 0)) ∧ s'.out = s.out ++ [.sled lane o.port (.rdata o.tag 0 true (x.readPage s.freeNat c 0)), .sled lane o.port (.rsp r)]) ∧
    (o.cmd.opc = 2 → c.count = 1 → ∀ d, o.got = [d] → failAt = 1 → (x.eu c.die c.eu).top ≤ c.page → c.page < 2 ^ 16 →
      ∃ s', exec (.sledOpComplete lane die failAt m) s = .next s' ∧ replies s s' lane o.port o.tag 0 ∧
        (s'.sled lane).page c.die c.eu c.page = some d ∧ ((s'.sled lane).eu c.die c.eu).top = c.page + 1) ∧
    (o.cmd.opc = 2 → o.got.length < c.count → exec (.sledOpComplete lane die failAt m) s = .next s) ∧
    (o.cmd.opc = 3 → ∃ s', exec (.sledOpComplete lane die failAt m) s = .next s' ∧
      (failAt = 0 → (∃ r : SledRsp, .sled lane o.port (.rsp r) ∈ s'.out ∧ r.tag = o.tag ∧ r.status = 3) ∧
        ((s'.sled lane).eu c.die c.eu).bad = true ∧
        ((s'.sled lane).ro = true → x.ro = false → ∀ k, ∀ w ∈ ((s'.sled lane).die k).unstarted, w.writes = false)) ∧
      (failAt ≠ 0 → replies s s' lane o.port o.tag 0 ∧ (∀ p, p < 2 ^ 16 → (s'.sled lane).page c.die c.eu p = none) ∧ ((s'.sled lane).eu c.die c.eu).top = 0)))

/-- STATE writes move a queue pair along R335's order, else set QP_ERR_W; ERROR ends a job's messages MEDIA_TIMEOUT with
AUX 1. WRITE, WRITE_IMM and SEND on a queue pair in RTS put their message on it; absent, in ERROR or not connected they
end ABSENT, MEDIA_TIMEOUT AUX 1 or BAD_JOB. LATCH stores a chain and gives its id; expiry and cancel end an armed one.
An ACK completes the jobs it covers; the ACK timeout resends until RETRY, then fails the queue pair; RNR waits for its
timer and resends, RNR_RETRY times at most; a fatal NAK ends the job REFUSED; one with a bad ICRC is dropped. An
expected WRITE with a good rkey lands in its region and raises EPSN and MSN; a bad rkey moves the queue pair to ERROR; a
SEND lands in a fresh buffer; a packet ahead gets one sequence NAK; a duplicate WRITE changes no memory; an opcode not
supported moves the queue pair to ERROR. REGISTER and REVOKE make and end regions. The responder ACK, stall, link and
revoke timers act when due. PEER_QPS is taken only while every queue pair is RESET. Heartbeats go out only while
liveness lasts; a received one clears PARTNER_LATE and LOSS; 1 ms without one sets LATE and marks running promises, 2 ms
sets LOSS and takes HANDOVER to ACTIVE (counted from enabling at the earliest: assumption log 18). A band record is
written to its place. -/
def Obligations.TransomRuns : Prop :=
  (∀ (q : Nat) (s : State), q < s.fuse.variant.queuePairs →
    let x := s.qp q
    let st := s.qpState q
    let quad := s.rd F.TRN_QP_PATH q % 16
    let carried := q < s.peerQps ∧ bitOf (s.rd F.TRN_CTL_QUAD_EN) quad = true ∧ bitOf (s.rd F.TRN_STATUS_QUAD_UP) quad = true ∧ s.squelched = false
    let sends := fun (s' : State) (t : TrnTx) => .trn quad q (s.roceVia q) t ∈ s'.out
    let refused := fun (i : Instr) => ∃ s', exec i s = .next s' ∧ s'.flag F.TRN_STATUS_QP_ERR_W = true ∧ s'.qpState q = st ∧ s'.trn = s.trn
    (if st = 0 then ∃ s', exec (.trnQpInit q) s = .next s' ∧ s'.qpState q = 1 else refused (.trnQpInit q)) ∧
    (if st = 1 ∧ s.pathOk q = true ∧ s.dqpnOk q = true then ∃ s', exec (.trnQpRtr q) s = .next s' ∧ s'.qpState q = 2 ∧ s'.qp q = Qp.init
      else refused (.trnQpRtr q)) ∧
    (if st = 2 then ∃ s', exec (.trnQpRts q) s = .next s' ∧ s'.qpState q = 3 ∧ (s'.qp q).base = s.rd F.TRN_QP_SPSN q % 2 ^ 24
      else refused (.trnQpRts q)) ∧
    (if st = 4 then ∃ s', exec (.trnQpReset q) s = .next s' ∧ s'.qpState q = 0 ∧ s'.qp q = Qp.init ∧
      s'.rd F.TRN_QP_RQUEUE q = s.rd F.TRN_QP_RQUEUE q ∧ s'.rd F.TRN_QP_PATH q = s.rd F.TRN_QP_PATH q else refused (.trnQpReset q)) ∧
    (st ≠ 2 → st ≠ 3 → refused (.trnQpErrorWrite q)) ∧
    (s.isJrnQp q = false → s.trn.chains = [] →
      let failed := fun (s' : State) => s'.qpState q = 4 ∧ (s'.qp q).msgs = []
      let comp := fun (s' : State) (j : Job) (st aux : Nat) =>
        ({ gid := j.gid, status := st, unit := 0, ticket := j.ticket, aux := aux, result := 0 } : Comp) ∈ s'.comps
      (st = 2 ∨ st = 3 → ∃ s', exec (.trnQpErrorWrite q) s = .next s' ∧ failed s' ∧ ∀ m ∈ x.msgs, ∀ j, m.src = .job j → comp s' j 0x21 1) ∧
      (∀ p psn, st = 3 → x.posOf psn = some p →
        (∃ s', exec (.trnRxAck q psn { icrcOk := true, kind := .ack }) s = .next s' ∧ (s'.qp q).msgs = x.msgs.filter (fun m => decide (p + 1 < m.lo + m.n)) ∧
          ∀ m ∈ x.msgs, m.lo + m.n ≤ p + 1 → ∀ j, m.src = .job j → comp s' j 0 0) ∧
        (∀ k a m rest j, (k, a) ∈ [(AckKind.access, 1), (.invalid, 2), (.operational, 3)] → x.msgs = m :: rest → m.src = .job j →
          (∀ y ∈ x.msgs, p < y.lo + y.n) → ∃ s', exec (.trnRxAck q psn { icrcOk := true, kind := k }) s = .next s' ∧ failed s' ∧ comp s' j 0x32 a) ∧
        ((∀ y ∈ x.msgs, p < y.lo + y.n) → ∀ t,
          let tries := if x.una < p then 0 else x.rnrTries
          (s.rd F.TRN_QP_RNR_RETRY q = 7 ∨ tries < s.rd F.TRN_QP_RNR_RETRY q →
            ∃ s', exec (.trnRxAck q psn { icrcOk := true, kind := .rnr t }) s = .next s' ∧ (s'.qp q).rnr = some (p, s.now + rnrNs t) ∧
              (s'.qp q).rnrTries = tries + 1 ∧ (s'.qp q).msgs = x.msgs) ∧
          (∀ m rest j, s.rd F.TRN_QP_RNR_RETRY q ≠ 7 → s.rd F.TRN_QP_RNR_RETRY q ≤ tries → x.msgs = m :: rest → m.src = .job j →
            ∃ s', exec (.trnRxAck q psn { icrcOk := true, kind := .rnr t }) s = .next s' ∧ failed s' ∧ comp s' j 0x31 0)) ∧
        ((∀ y ∈ x.msgs, p < y.lo + y.n) → ∃ s', exec (.trnRxAck q psn { icrcOk := true, kind := .seqErr }) s = .next s' ∧
          (s'.qp q).msgs = x.msgs)) ∧
      (st ≠ 3 → ∀ psn k, exec (.trnRxAck q psn { icrcOk := true, kind := k }) s = .next s) ∧
      (∀ psn k, ∃ s', exec (.trnRxAck q psn { icrcOk := false, kind := k }) s = .next s' ∧ s'.trn = s.trn ∧ s'.comps = s.comps) ∧
      (∀ t, s.ackTimeout q = some t → st = 3 → x.una < x.nxt → x.rnr = none →
        (x.at_ + t ≤ s.now → x.retries < s.rd F.TRN_QP_RETRY q → ∃ s', exec (.trnAckTimeout q) s = .next s' ∧
          (s'.qp q).retries = x.retries + 1 ∧ (s'.qp q).msgs = x.msgs ∧
          ((s.arb (s.qpArb q).1 (s.qpArb q).2).holder.any (fun r => decide (r.num ≠ q)) = true → (s'.qp q).nxt = x.una) ∧
          (carried → (s.arb (s.qpArb q).1 (s.qpArb q).2).holder = none → (s.arb (s.qpArb q).1 (s.qpArb q).2).quiet = true →
            (s.arb (s.qpArb q).1 (s.qpArb q).2).parked.isSome = true → x.paceAt ≤ s.now → (∃ m ∈ x.msgs, x.una < m.lo + m.n) →
            ∃ p : RocePkt, sends s' (.pkt p) ∧ p.psn = x.psn x.una)) ∧
        (∀ m rest j, x.at_ + t ≤ s.now → s.rd F.TRN_QP_RETRY q ≤ x.retries → x.msgs = m :: rest → m.src = .job j →
          ∃ s', exec (.trnAckTimeout q) s = .next s' ∧ failed s' ∧ comp s' j 0x21 0) ∧
        (s.now < x.at_ + t → exec (.trnAckTimeout q) s = .next s))) ∧
    (x.rnr = none → exec (.trnRnrWaitExpiry q) s = .next s) ∧
    (∀ k t, x.rnr = some (k, t) → st = 3 → (t ≤ s.now → ∃ s', exec (.trnRnrWaitExpiry q) s = .next s' ∧ (s'.qp q).rnr = none ∧
      (s'.qp q).msgs = x.msgs) ∧ (s.now < t → exec (.trnRnrWaitExpiry q) s = .next s)) ∧
    (x.ackPend = 0 ∨ s.now < x.ackAt + 2000 → exec (.trnRespAckTimer q) s = .next s) ∧
    (0 < x.ackPend → x.ackAt + 2000 ≤ s.now → st = 2 ∨ st = 3 → ∃ s', exec (.trnRespAckTimer q) s = .next s' ∧
      (s'.qp q).ackPend = 0 ∧ (carried → sends s' (.ack ((s.epsn q + 2 ^ 24 - 1) % 2 ^ 24) (s.msn q)))) ∧
    (x.stall = none → exec (.trnStallRetry q) s = .next s) ∧
    (∀ p since, x.stall = some (p, since) → p.opc = 4 → 32 ≤ p.data.length → 32 ≤ lfld p.data 4 4 → lfld p.data 4 4 ≤ 2097151 → x.rx = none →
      s.poolFree = 0 →
      (s.now < since + 1000 * s.rd F.TRN_QP_STALL_US q → exec (.trnStallRetry q) s = .next s) ∧
      (since + 1000 * s.rd F.TRN_QP_STALL_US q ≤ s.now → ∃ s', exec (.trnStallRetry q) s = .next s' ∧ (s'.qp q).stall = none ∧
        (carried → sends s' (.nak (.rnr (s.rd F.TRN_QP_RNR_TIMER q)) (s.epsn q) (s.msn q))))) ∧
    (∀ p : RocePkt,
      (opcSend p.opc = true → exec (.trnRxWritePkt q p) s = .next s) ∧ (opcSend p.opc = false → exec (.trnRxSendPkt q p) s = .next s) ∧
      (p.icrcOk = true → s.flag F.TRN_CTL_EN = true → st = 2 ∨ st = 3 →
        let d := (p.psn % 2 ^ 24 + 2 ^ 24 - s.epsn q) % 2 ^ 24
        let i : Instr := if opcSend p.opc then .trnRxSendPkt q p else .trnRxWritePkt q p
        let onward := fun (s' : State) => s'.epsn q = (p.psn + 1) % 2 ^ 24 ∧ s'.msn q = (s.msn q + 1) % 2 ^ 24
        (opcOk p.opc = false → x.rx = none → s.isJrnQp q = false → s.trn.chains = [] →
          ∃ s', exec i s = .next s' ∧ s'.qpState q = 4 ∧ s'.mem = s.mem) ∧
        (opcOk p.opc = true → 0 < d → d < 2 ^ 23 → x.nakAt ≠ some (s.epsn q) → ∃ s', exec i s = .next s' ∧
          (carried → sends s' (.nak .seqErr (s.epsn q) (s.msn q))) ∧ (s'.qp q).nakAt = some (s.epsn q) ∧ s'.mem = s.mem) ∧
        (opcOk p.opc = true → 2 ^ 23 ≤ d → opcSend p.opc = false → ∃ s', exec i s = .next s' ∧ s'.mem = s.mem ∧ s'.epsn q = s.epsn q ∧ s'.msn q = s.msn q) ∧
        (d = 0 → x.rx = none → p.opc = 0x0A → s.isJrnQp q = false →
          (∀ e, s.mrOf p.rkey = some e → s.rd F.TRN_MR_SCOPE_QP e % 4096 = q → s.flag F.TRN_MR_ODP e = false →
            p.vaddr + p.dmaLen ≤ s.rd F.TRN_MR_LENGTH e → p.dmaLen = p.data.length → 0 < s.poolFree → s.rd F.TRN_MR_INFLIGHT e < 2 ^ 32 - 1 →
            s.badIn (s.rd F.TRN_MR_BASE e + p.vaddr + 0) p.data.length = false → ∃ s', exec i s = .next s' ∧ onward s' ∧
              s'.mem = memWrite s.mem (s.rd F.TRN_MR_BASE e + p.vaddr) p.data ∧ s'.rd F.TRN_MR_INFLIGHT e = s.rd F.TRN_MR_INFLIGHT e) ∧
          (s.mrOf p.rkey = none → s.trn.chains = [] → ∃ s', exec i s = .next s' ∧ s'.qpState q = 4 ∧ s'.mem = s.mem)) ∧
        (∀ h s₁, d = 0 → x.rx = none → p.opc = 4 → 32 ≤ p.data.length → lfld p.data 4 4 = p.data.length → p.data.length ≤ 2097151 →
          0 < s.poolFree → s.stgAlloc p.data.length = some (h, s₁) → s.badIn (hAddr h 0) p.data.length = false → s.trn.chains = [] →
          s.trn.verPeer = none → lfld p.data 0 1 ∉ [1, 2, 3] → ∃ s', exec i s = .next s' ∧ onward s' ∧
            s'.bytes (hAddr h 0) p.data.length = p.data ∧ s'.bufs = s₁.bufs)))) ∧
  (∀ (cl op : Nat) (i : Instr) (j : Job) (s : State), s.JobReady 0x0A 0 cl j → trnCheck j s = true → j.op = op →
    (op = 1 ∧ i = .trnWrite cl ∧ s.isJrnQp (j.fld 2 2) = false) ∨ (op = 2 ∧ i = .trnWriteImm cl ∧ s.isJrnQp (j.fld 2 2) = false) ∨
      (op = 3 ∧ i = .trnSend cl) →
    let q := j.fld 2 2
    let a := hAddr (j.fld 8 8) (j.fld 16 4)
    let n := j.fld 4 4
    (∀ st aux, s.qpGate q = some (st, aux) → ∃ s', exec i s = .next s' ∧ s.Finished s' 0x0A 0 cl j st aux 0 ∧ s'.mem = s.mem) ∧
    (s.qpGate q = none → op = 3 → n = 0 → ∃ s', exec i s = .next s' ∧ s.Finished s' 0x0A 0 cl j 0x3E 0 0 ∧ s'.mem = s.mem) ∧
    (s.qpGate q = none → s.badIn a n = false → s.fixIn a n = [] → op = 3 → n ≠ 0 → (s.bytes a n).head? ≠ some 0x01 →
      ∃ s' m, exec i s = .next s' ∧ s'.ring 0x0A 0 cl = (s.ring 0x0A 0 cl).tail ∧ s'.comps = s.comps ∧
        (s'.qp q).msgs = (s.qp q).msgs ++ [m] ∧ m.src = .job j ∧ m.op = 3 ∧ m.bg = j.bg ∧ m.data = s.bytes a n) ∧
    (s.qpGate q = none → s.badIn a n = false → s.fixIn a n = [] → op ≠ 3 →
      ∃ s' m, exec i s = .next s' ∧ s'.ring 0x0A 0 cl = (s.ring 0x0A 0 cl).tail ∧ s'.comps = s.comps ∧
        (s'.qp q).msgs = (s.qp q).msgs ++ [m] ∧ m.src = .job j ∧ m.op = op ∧ m.bg = j.bg ∧ m.raddr = j.fld 24 8 ∧ m.rkey = j.fld 32 4 ∧
        m.imm = (if op = 2 then j.fld 20 4 else 0) ∧ m.data = s.bytes a n)) ∧
  (∀ (cl : Nat) (j : Job) (s : State), s.JobReady 0x0A 0 cl j → trnCheck j s = true → j.op = 4 → s.qpGate (j.fld 2 2) = none →
    let a := hAddr (j.fld 8 8) (j.fld 16 4)
    s.badIn a (j.fld 4 4) = false → s.fixIn a (j.fld 4 4) = [] →
    (latchOk (s.bytes a (j.fld 4 4)) (j.fld 4 4) = false → ∃ s', exec (.trnLatch cl) s = .next s' ∧ s.Finished s' 0x0A 0 cl j 0x3E 0 0 ∧
      s'.trn.chains = s.trn.chains) ∧
    (latchOk (s.bytes a (j.fld 4 4)) (j.fld 4 4) = true → 1024 ≤ s.armed → ∃ s', exec (.trnLatch cl) s = .next s' ∧
      s.Finished s' 0x0A 0 cl j 0x31 0 0 ∧ s'.trn.chains = s.trn.chains) ∧
    (latchOk (s.bytes a (j.fld 4 4)) (j.fld 4 4) = true → s.armed < 1024 → ∃ s' id c, exec (.trnLatch cl) s = .next s' ∧ id < 65536 ∧
      s.Finished s' 0x0A 0 cl j 0 0 id ∧ SMap.find s'.trn.chains id = some c ∧ c.qp = j.fld 2 2 ∧ c.fired = false ∧
      c.wrs.length = lfld (s.bytes a (j.fld 4 4)) 0 1)) ∧
  (∀ (id : Nat) (s : State),
    (SMap.find s.trn.chains id = none → exec (.latchExpiry id) s = .next s ∧ (id < 65536 → exec (.trnLatchCancelWrite id) s = .next s)) ∧
    (∀ c, SMap.find s.trn.chains id = some c →
      (c.fired = true → exec (.latchExpiry id) s = .next s ∧ (id < 65536 → exec (.trnLatchCancelWrite id) s = .next s)) ∧
      (c.fired = false →
        (id < 65536 → ∃ s', exec (.trnLatchCancelWrite id) s = .next s' ∧ SMap.find s'.trn.chains id = none) ∧
        (∀ t, c.expire = some t → (t ≤ s.now → ∃ s', exec (.latchExpiry id) s = .next s' ∧ SMap.find s'.trn.chains id = none) ∧
          (s.now < t → exec (.latchExpiry id) s = .next s))))) ∧
  (∀ s : State,
    (s.mrPick = none ∨ (s.flag F.TRN_MR_ARG1_ODP = true ∧ 2 ^ 28 < s.rd F.TRN_MR_ARG1_LENGTH) → ∃ s', exec .trnMrRegister s = .next s' ∧
      s'.flag F.TRN_MR_CMD_ERR = true ∧ s'.rd F.TRN_MR_RESULT_RKEY = 0 ∧ s'.mem = s.mem) ∧
    (∀ e, s.mrPick = some e → s.flag F.TRN_MR_ARG1_ODP = false → ∃ s', exec .trnMrRegister s = .next s' ∧
      s'.mrOf (s'.rd F.TRN_MR_RESULT_RKEY) = some e ∧ s'.rd F.TRN_MR_BASE e = s.rd F.TRN_MR_ARG0_BASE ∧
      s'.rd F.TRN_MR_LENGTH e = s.rd F.TRN_MR_ARG1_LENGTH ∧ s'.rd F.TRN_MR_SCOPE_QP e = s.rd F.TRN_MR_ARG2_SCOPE_QP) ∧
    (s.mrOf (s.rd F.TRN_MR_ARG0_BASE % 2 ^ 32) = none → ∃ s', exec .trnMrRevoke s = .next s' ∧ s'.flag F.TRN_MR_CMD_ERR = true ∧ s'.mem = s.mem) ∧
    (∀ e, s.mrOf (s.rd F.TRN_MR_ARG0_BASE % 2 ^ 32) = some e → ∃ s', exec .trnMrRevoke s = .next s' ∧
      (s.rd F.TRN_MR_INFLIGHT e ≠ 0 → s'.rd F.TRN_MR_STATE e = 2) ∧
      (s.rd F.TRN_MR_INFLIGHT e = 0 → s.flag F.TRN_MR_ODP e = false → s'.rd F.TRN_MR_STATE e = 0) ∧
      (s.flag F.TRN_MR_ODP e = false → s'.mrOf (s.rd F.TRN_MR_ARG0_BASE % 2 ^ 32) = none)) ∧
    (∀ e, SMap.find s.trn.revoked e = none → exec (.trnRevokeTimeout e) s = .next s) ∧
    (∀ e t q x r, SMap.find s.trn.revoked e = some t → t + 1000000 * s.rd F.TRN_CFG_REVOKE_MS ≤ s.now → s.trn.qps = [(q, x)] → x.rx = some r →
      r.send = false → r.mark = false → r.mr = e → e < 4096 → q < s.fuse.variant.queuePairs → s.isJrnQp q = false → s.trn.chains = [] →
      s.qpState q = 2 ∨ s.qpState q = 3 → ∃ s', exec (.trnRevokeTimeout e) s = .next s' ∧ s'.qpState q = 4)) ∧
  (∀ (path : Nat) (s : State),
    let since := SMap.findD s.trn.down path 0
    (s.pathUp path = true ∨ s.now < since + 1000000 * s.rd F.TRN_CFG_LINK_MS → exec (.trnLinkDownTimeout path) s = .next s) ∧
    (s.pathUp path = false → since + 1000000 * s.rd F.TRN_CFG_LINK_MS ≤ s.now → ∃ s', exec (.trnLinkDownTimeout path) s = .next s' ∧
      ∀ q, q < s.fuse.variant.queuePairs → s'.qpState q = if s.qpState q = 3 ∧ s.rd F.TRN_QP_PATH q = path then 4 else s.qpState q)) ∧
  (∀ (quad : Nat) (up : Bool) (s : State), quad < s.fuse.variant.quads →
    (bitOf (s.rd F.TRN_STATUS_QUAD_UP) quad = up → exec (.trnQuadLinkChange quad up) s = .next s) ∧
    (bitOf (s.rd F.TRN_STATUS_QUAD_UP) quad ≠ up → up = false ∨ bitOf (s.rd F.TRN_CTL_QUAD_EN) quad = true →
      ∃ s', exec (.trnQuadLinkChange quad up) s = .next s' ∧ bitOf (s'.rd F.TRN_STATUS_QUAD_UP) quad = up ∧
        SMap.find s'.trn.down quad = if up then none else some s.now)) ∧
  (∀ (v : Nat) (s : State), ∃ s', exec (.trnCfgWrite v) s = .next s' ∧ s'.rd F.TRN_CFG_LINK_MS = bitsOf v 24 8 ∧
    s'.rd F.TRN_CFG_ACK_PKTS = bitsOf v 16 8 ∧ s'.rd F.TRN_CFG_QUAR_US = bitsOf v 32 16 ∧ s'.rd F.TRN_CFG_REVOKE_MS = bitsOf v 48 16 ∧
    s'.rd F.TRN_CFG_PEER_QPS = (if (∀ q, q < s.fuse.variant.queuePairs → s.qpState q = 0) ∧ s.fuse.variant.repl = true ∧ 64 ≤ bitsOf v 0 13 ∧
      bitsOf v 0 13 ≤ 4096 then bitsOf v 0 13 else s.rd F.TRN_CFG_PEER_QPS)) ∧
  (∀ s : State,
    (∃ s', exec .livenessKick s = .next s' ∧ s'.trn.liveUntil = some (s.now + 1000000) ∧ s'.mem = s.mem) ∧
    (∀ t, s.trn.liveUntil = some t → (s.now < t → exec .livenessExpiry s = .next s) ∧
      (t ≤ s.now → ∃ s', exec .livenessExpiry s = .next s' ∧ s'.trn.liveUntil = none)) ∧
    (s.trn.liveUntil = none ∨ s.flag F.TRN_HB_EN = false → exec .heartbeatSend s = .next s) ∧
    ((∃ t, s.trn.liveUntil = some t ∧ s.now ≤ t) → s.flag F.TRN_HB_EN = true → s.life = .standby ∨ s.life = .active ∨ s.life = .brace ∨ s.life = .handover →
      (∀ t, s.trn.hbAt = some t → t + 100000 ≤ s.now) → ∃ s', exec .heartbeatSend s = .next s' ∧ s'.trn.hbSeq = s.trn.hbSeq + 1 ∧
        s'.trn.hbAt = some s.now ∧
        (s.qpState (s.rd F.TRN_HB_QPA) = 3 → s.rd F.TRN_HB_QPB ≠ s.rd F.TRN_HB_QPA → ∃ m, m.src = .heartbeat ∧
          (s'.qp (s.rd F.TRN_HB_QPA)).msgs = (s.qp (s.rd F.TRN_HB_QPA)).msgs ++ [m])) ∧
    (∀ seq st, ∃ s', exec (.heartbeatRx seq st) s = .next s' ∧ s'.rd F.TRN_HB_SEQ_SEQ = seq % 2 ^ 64 ∧ s'.rd F.TRN_HB_RXTIME_TIME = s.now % 2 ^ 64 ∧
      s'.rd F.TRN_STATUS_PARTNER_STATE = st % 16 ∧ s'.flag F.TRN_STATUS_PARTNER_LATE = false ∧ s'.flag F.TRN_STATUS_PARTNER_LOSS = false) ∧
    (∀ n rec, s.badIn (s.bandAddr (n % 2 ^ 24)) (rec.take 128).length = false → ∃ s', exec (.bandRx n rec) s = .next s' ∧
      s'.mem = memWrite s.mem (s.bandAddr (n % 2 ^ 24)) (rec.take 128)) ∧
    (s.flag F.TRN_HB_EN = false ∨ s.now < max (s.rd F.TRN_HB_RXTIME_TIME) s.trn.hbWatch + 1000000 → exec .partnerLate s = .next s) ∧
    (s.flag F.TRN_HB_EN = true → s.flag F.TRN_STATUS_PARTNER_LATE = false → max (s.rd F.TRN_HB_RXTIME_TIME) s.trn.hbWatch + 1000000 ≤ s.now →
      ∃ s', exec .partnerLate s = .next s' ∧ s'.flag F.TRN_STATUS_PARTNER_LATE = true ∧ s'.tookOver = false ∧
        ∀ k p, s.prm k = some p → p.st = .live ∨ p.st = .paused → s'.prm k = some { p with partner := true }) ∧
    (s.flag F.TRN_HB_EN = false ∨ s.flag F.TRN_STATUS_PARTNER_LATE = false ∨ s.now < max (s.rd F.TRN_HB_RXTIME_TIME) s.trn.hbWatch + 2000000 → exec .partnerLoss s = .next s) ∧
    (s.flag F.TRN_HB_EN = true → s.flag F.TRN_STATUS_PARTNER_LATE = true → s.flag F.TRN_STATUS_PARTNER_LOSS = false →
      max (s.rd F.TRN_HB_RXTIME_TIME) s.trn.hbWatch + 2000000 ≤ s.now →
      ∃ s', exec .partnerLoss s = .next s' ∧ s'.flag F.TRN_STATUS_PARTNER_LOSS = true ∧ (s.life = .handover → s'.life = .active) ∧
        (s.life ≠ .handover → s'.life = s.life)))

/-- A decision on a free grant gives it to an eligible request, a forced one if any, among those the oldest stamp. A
foreground request that has waited WAIT_LIMIT behind a holder becomes forced; a back-off that has passed puts its
request back with a new stamp, one that has not changes nothing; a queue pair granted its quad sends its packet. A Vault
row does nothing unless its command waits on the port and it is that port's turn; on a port R391 does not allow it ends
DENIED. Otherwise, with good operands, each command holds for its end the RESULT and output the spec gives, and its
effect is there: keys loaded, cleared or wrapped, signatures checked or made, the challenge set or spent, debug opened
with every key cleared, OTP fields raised; a command that clears a media key waits while a started job uses it. The end
of a command clears BUSY and the input window, sets DONE, RESULT and the output; clearing DONE clears the output. A read
of VLT_RNG gives the next random word, 0 without RNG_OK. Hatch banks move OPEN, CLOSED, VERIFYING, VERIFIED or FAILED
and EMPTY as R403 says; BAR2 writes land only in an OPEN bank and clear their block's map bits; a verification that
fails zeroes the bank; one that passes during boot takes the head to LOAD; LOAD copies the image and starts the keepers.
-/
def Obligations.ArbitersVaultAndHatchRun : Prop :=
  (∀ (ac inst : Nat) (s : State), ac ≤ 8 →
    let a := s.arbNow ac inst
    (ac ≤ 6 → (ac = 6 → ∀ x ∈ a.waiting, x.num < 8) → (s.arb ac inst).holder = none → ∀ r ∈ a.waiting, r.until_ = none → (∀ x ∈ a.waiting, x.num < 64) →
      ∃ s' h w, exec (.arbDecision ac inst) s = .next s' ∧ (s'.arb ac inst).holder = some h ∧ w ∈ a.waiting ∧ w.until_ = none ∧
        h.num = w.num ∧ h.stamp = w.stamp ∧ (s'.arb ac inst).byForce = w.forced ∧
        (∀ x ∈ a.waiting, x.until_ = none → x.forced = true → w.forced = true) ∧
        (∀ x ∈ a.waiting, x.until_ = none → x.forced = w.forced → stampAge s.now x.stamp ≤ stampAge s.now w.stamp)) ∧
    ((s.arb ac inst).holder.isSome = true → ∀ r ∈ (s.arb ac inst).waiting, r.bg = false → s.arbLimit ac ≤ r.waited + (s.now - r.mark) →
      ∃ s', exec (.arbForce ac inst) s = .next s' ∧ ∃ r' ∈ (s'.arb ac inst).waiting, r'.num = r.num ∧ r'.stamp = r.stamp ∧ r'.forced = true) ∧
    (∀ r t, (s.arb ac inst).waiting = [r] → r.bg = true → r.until_ = some t →
      (s.now < t → exec (.arbBackoffExpiry ac inst r.num) s = .next s) ∧
      (t ≤ s.now → (s.arb ac inst).holder.isSome = true → ∃ s' r', exec (.arbBackoffExpiry ac inst r.num) s = .next s' ∧
        (s'.arb ac inst).waiting = [r'] ∧ r'.num = r.num ∧ r'.until_ = none ∧ r'.stamp = s.now % 2 ^ 32))) ∧
  (∀ (quad q : Nat) (r : ArbReq) (m : TxMsg) (s : State), (s.arb 7 quad).holder = none → (s.arb 7 quad).waiting = [r] → r.until_ = none →
    r.num = q → s.qpArb q = (7, quad) → s.qpNext q = some m → (∀ p ∈ s.trn.qps, p.2.paceAt = 0) → s.squelched = false →
    bitOf (s.rd F.TRN_CTL_QUAD_EN) quad = true → bitOf (s.rd F.TRN_STATUS_QUAD_UP) quad = true →
    ∃ s', exec (.arbDecision 7 quad) s = .next s' ∧ .trn quad q (s.roceVia q) (.pkt (s.txPkt q m)) ∈ s'.out) ∧
  (∀ (p : Nat) (f : Bool) (i : Instr) (op allowed : Nat) (s : State), p < 2 →
    (i, op, allowed) ∈ [(Instr.vltAesEnc p, 0x01, 3), (.vltAesDec p, 0x02, 3), (.vltKeyGen p, 0x03, 3), (.vltUnwrap p, 0x04, 3),
      (.vltWrap p, 0x05, 3), (.vltImport p, 0x06, 3), (.vltSeal p, 0x07, 2), (.vltUnseal p, 0x08, 2), (.vltXtsLoad p, 0x09, 2),
      (.vltXtsClear p, 0x0A, 3), (.vltKeyClear p, 0x0B, 3), (.vltVerifySig p, 0x0C, 3), (.vltAttest p, 0x0D, 3), (.vltGetCert p, 0x0E, 3),
      (.vltDebugChal p, 0x0F, 1), (.vltDebugOpen p, 0x10, 1), (.vltSvnCommit p f, 0x11, 2), (.vltMediaCommit p f, 0x12, 2),
      (.vltOtpProgram p f, 0x13, 1), (.vltZeroize p, 0x14, 3)] →
    (s.vltWaiting p = none ∨ s.vltTurn p = false → exec i s = .next s) ∧
    (∀ c, s.vltWaiting p = some c → s.vltTurn p = true →
      (c.op ≠ op → exec i s = .next s) ∧
      (c.op = op → bitOf allowed p = false → ∃ s', exec i s = .next s' ∧ (s'.port p).fin = some (6, []) ∧ s'.vlt.keys = s.vlt.keys ∧
        s'.xtsKeys = s.xtsKeys ∧ s'.vlt.otp = s.vlt.otp))) ∧
  (∀ (p : Nat) (c : VCmd) (s : State), p < 2 → s.vltWaiting p = some c → s.vltTurn p = true →
    let ends := fun (i : Instr) (code : Nat) (out : List Byte) (k : State → Prop) =>
      ∃ s', exec i s = .next s' ∧ (s'.port p).fin = some (code, out) ∧ k s'
    let loads := fun (s' : State) (slot : Nat) (key : List Byte) (attr : Nat) => SMap.find s'.vlt.keys slot = some { key := key, attr := attr }
    let n := c.data.length
    let ka := SMap.find s.vlt.keys c.a
    (c.op = 1 → c.a < 16 → n ≠ 0 → n % 16 = 0 →
      (ka = none → ends (.vltAesEnc p) 3 [] (fun s' => s'.vlt.keys = s.vlt.keys)) ∧
      (∀ k, ka = some k → bitOf k.attr 2 = false → ends (.vltAesEnc p) 4 [] (fun s' => s'.vlt.keys = s.vlt.keys)) ∧
      (∀ k, ka = some k → bitOf k.attr 2 = true → ends (.vltAesEnc p) 0
        (bytesOf (aesBlocks (aesEncBlock (natsOf k.key)) (n / 16) (natsOf c.data))) (fun s' => s'.vlt.keys = s.vlt.keys))) ∧
    (c.op = 2 → c.a < 16 → n ≠ 0 → n % 16 = 0 → ∀ k, ka = some k → bitOf k.attr 3 = true → ends (.vltAesDec p) 0
      (bytesOf (aesBlocks (aesDecBlock (natsOf k.key)) (n / 16) (natsOf c.data))) (fun s' => s'.vlt.keys = s.vlt.keys)) ∧
    (c.op = 3 → c.a < 16 → attrOk c.attr = true → c.data = [] → ends (.vltKeyGen p) 0 []
      (fun s' => loads s' c.a ((s.random 4).1.take (attrLen c.attr)) c.attr)) ∧
    (c.op = 4 → c.a < 16 → c.b < 16 → attrOk c.attr = true → n = attrLen c.attr + 8 → ∀ k, ka = some k → bitOf k.attr 4 = true →
      match kwUnwrap k.key c.data with
      | some key => ends (.vltUnwrap p) 0 [] (fun s' => loads s' c.b key c.attr)
      | none => ends (.vltUnwrap p) 1 [] (fun s' => SMap.find s'.vlt.keys c.b = none)) ∧
    (c.op = 5 → c.a < 16 → c.b < 16 → c.data = [] → ∀ k x, ka = some k → SMap.find s.vlt.keys c.b = some x → bitOf k.attr 4 = true →
      (bitOf x.attr 5 = true → ends (.vltWrap p) 0 (kwWrap k.key x.key) (fun s' => s'.vlt.keys = s.vlt.keys)) ∧
      (bitOf x.attr 5 = false → ends (.vltWrap p) 4 [] (fun s' => s'.vlt.keys = s.vlt.keys))) ∧
    (c.op = 6 → (s.debugLevel = 2 → ends (.vltImport p) 6 [] (fun s' => s'.vlt.keys = s.vlt.keys)) ∧
      (s.debugLevel ≠ 2 → c.b < 16 → attrOk c.attr = true → n = 173 → ∀ q, ecPoint (c.data.take 133) = some q →
        match kwUnwrap (s.importKek q) (c.data.drop 133) with
        | some key => ends (.vltImport p) 0 [] (fun s' => loads s' c.b (key.take (attrLen c.attr)) c.attr)
        | none => ends (.vltImport p) 1 [] (fun s' => SMap.find s'.vlt.keys c.b = none))) ∧
    (c.op = 7 → p = 1 → c.b < 16 → c.data = [] → ∀ k, SMap.find s.vlt.keys c.b = some k → bitOf k.attr 5 = true → ends (.vltSeal p) 0
      (kwWrap s.sealKey (k.key ++ List.replicate (32 - k.key.length) 0 ++ leBytes 8 k.attr)) (fun s' => s'.vlt.keys = s.vlt.keys)) ∧
    (c.op = 8 → p = 1 → (s.debugLevel = 2 → ends (.vltUnseal p) 6 [] (fun s' => s'.vlt.keys = s.vlt.keys)) ∧
      (s.debugLevel ≠ 2 → c.b < 16 → n = 48 →
        match kwUnwrap s.sealKey c.data with
        | some l => ends (.vltUnseal p) 0 []
            (fun s' => loads s' c.b (l.take (attrLen (leNat (l.drop 32) % 256))) (leNat (l.drop 32) % 256))
        | none => ends (.vltUnseal p) 1 [] (fun s' => SMap.find s'.vlt.keys c.b = none))) ∧
    (c.op = 9 → p = 1 → s.debugLevel ≠ 2 → c.a < 16 → c.b < 64 → n = 72 → ∀ k, ka = some k → bitOf k.attr 4 = true →
      (SMap.has s.xtsKeys c.b = true → ends (.vltXtsLoad p) 5 [] (fun s' => s'.xtsKeys = s.xtsKeys)) ∧
      (SMap.has s.xtsKeys c.b = false →
        match kwUnwrap k.key c.data with
        | some key => if key.take 32 = key.drop 32 then ends (.vltXtsLoad p) 8 [] (fun s' => s'.xtsKeys = s.xtsKeys)
            else ends (.vltXtsLoad p) 0 [] (fun s' => SMap.find s'.xtsKeys c.b = some key)
        | none => ends (.vltXtsLoad p) 1 [] (fun s' => s'.xtsKeys = s.xtsKeys))) ∧
    (c.op = 0x0A → c.b < 64 → c.data = [] → SMap.has s.xtsKeys c.b = true → s.keyBusy c.b = true → exec (.vltXtsClear p) s = .next s) ∧
    (c.op = 0x14 → c.data = [] → (∃ x ∈ s.xtsKeys, s.keyBusy x.1 = true) → exec (.vltZeroize p) s = .next s) ∧
    (c.op = 0x0A → c.b < 64 → c.data = [] → s.keyBusy c.b = false → ends (.vltXtsClear p) 0 [] (fun s' => SMap.find s'.xtsKeys c.b = none)) ∧
    (c.op = 0x0B → c.a < 16 → c.data = [] → ends (.vltKeyClear p) 0 [] (fun s' => SMap.find s'.vlt.keys c.a = none)) ∧
    (c.op = 0x0C → (n ≠ 329 → ends (.vltVerifySig p) 2 [] (fun s' => s'.vlt.keys = s.vlt.keys)) ∧
      (n = 329 → ends (.vltVerifySig p) (if ecdsaVerify (c.data.take 133) ((c.data.drop 133).take 64) (c.data.drop 197) then 0 else 1) []
        (fun s' => s'.vlt.keys = s.vlt.keys))) ∧
    (c.op = 0x0D → n = 64 → ends (.vltAttest p) 0
      (s.attReport c.data ++ ecdsaSign s.identity s.ecdsaK.1 (sha 3 (s.attReport c.data))) (fun s' => s'.vlt.keys = s.vlt.keys)) ∧
    (c.op = 0x0E → c.data = [] → ends (.vltGetCert p) 0 (s.serialBytes ++ s.identityPub ++ s.vlt.otp.cert) (fun s' => s'.vlt.keys = s.vlt.keys)) ∧
    (c.op = 0x0F → p = 0 → c.data = [] → ends (.vltDebugChal p) 0 ((s.random 4).1 ++ s.serialBytes)
      (fun s' => s'.vlt.chal = some ((s.random 4).1 ++ s.serialBytes))) ∧
    (c.op = 0x10 → p = 0 → n = 267 → ∀ level slot : Nat, (c.data.head?.getD 0).toNat = level → ((c.data.drop 1).head?.getD 0).toNat = slot →
      1 ≤ level → level ≤ 2 → slot ≤ 3 → s.debugLevel < level → bitOf (SMap.findD s.vlt.otp.attrs slot 0) 1 = true →
      s.vlt.otp.revoked slot = false →
      (s.vlt.chal = none → ends (.vltDebugOpen p) 1 [] (fun s' => s'.debugLevel = s.debugLevel)) ∧
      (∀ ch, s.vlt.chal = some ch → (∀ x ∈ s.xtsKeys, s.keyBusy x.1 = false) →
        if SMap.find s.vlt.otp.hash slot = some (sha 3 ((c.data.drop 2).take 133)) ∧
            ecdsaVerify ((c.data.drop 2).take 133) (sha 3 (ch ++ [BitVec.ofNat 8 level] ++ s.serialBytes)) (c.data.drop 135) = true then
          ends (.vltDebugOpen p) 0 [] (fun s' => s'.debugLevel = level ∧ s'.vlt.keys = [] ∧ s'.xtsKeys = [] ∧ s'.vlt.chal = none ∧
            s'.flag F.VLT_STATUS_ZEROIZED = true)
        else ends (.vltDebugOpen p) 1 [] (fun s' => s'.debugLevel = s.debugLevel ∧ s'.vlt.chal = none))) ∧
    (∀ f : Bool, c.op = 0x11 → p = 1 → n = 4 → ∀ r, s.vlt.run = some r →
      (min (leNat c.data) r.svn ≤ s.vlt.otp.svn → ends (.vltSvnCommit p f) 0 [] (fun s' => s'.vlt.otp = s.vlt.otp)) ∧
      (s.vlt.otp.svn < min (leNat c.data) r.svn → min (leNat c.data) r.svn ≤ 128 →
        ends (.vltSvnCommit p f) (if f then 0 else 7) [] (fun s' =>
          s'.vlt.otp.svn = if f then min (leNat c.data) r.svn else s.vlt.otp.svn))) ∧
    (∀ f : Bool, c.op = 0x12 → p = 1 → n = 1 → leNat c.data ≤ 31 → ∀ r, s.vlt.run = some r → bitOf r.mediaRead (leNat c.data) = true →
      s.vlt.otp.mediaGen < leNat c.data → ends (.vltMediaCommit p f) (if f then 0 else 7) [] (fun s' =>
        s'.vlt.otp.mediaGen = if f then leNat c.data else s.vlt.otp.mediaGen)) ∧
    (∀ f : Bool, c.op = 0x13 → p = 0 →
      (s.life ≠ .boot → ends (.vltOtpProgram p f) 6 [] (fun s' => s'.vlt.otp = s.vlt.otp)) ∧
      (s.life = .boot → c.data = [] → ends (.vltOtpProgram p f) 2 [] (fun s' => s'.vlt.otp = s.vlt.otp)) ∧
      (s.life = .boot → ∀ x, c.data = [x, 1] → ∃ s' code, exec (.vltOtpProgram p f) s = .next s' ∧ (s'.port p).fin = some (code, []) ∧
        (Config.otpField x.toNat = 9 → code = (if f then 0 else 7) ∧ s'.vlt.otp.ownerLock = (f || s.vlt.otp.ownerLock)))) ∧
    (c.op = 0x14 → c.data = [] → (∀ x ∈ s.xtsKeys, s.keyBusy x.1 = false) → ends (.vltZeroize p) 0 [] (fun s' => s'.vlt.keys = [] ∧ s'.xtsKeys = [] ∧
      s'.flag F.VLT_STATUS_ZEROIZED = true)) ∧
    (c.op = 0 ∨ 0x14 < c.op → ∃ s', exec (.vltCmdComplete p) s = .next s' ∧ (s'.port p).done = true ∧ (s'.port p).result = 2 ∧
      (s'.port p).cmd = none)) ∧
  (∀ (p : Nat) (s : State), p < 2 →
    (∀ code out, (s.port p).fin = some (code, out) → ∃ s', exec (.vltCmdComplete p) s = .next s' ∧ (s'.port p).done = true ∧
      (s'.port p).result = code ∧ (s'.port p).outw = out ∧ (s'.port p).cmd = none ∧ (s'.port p).inw = [] ∧ s'.vlt.last = p) ∧
    ((s.port p).fin = none → s.vltWaiting p = none → exec (.vltCmdComplete p) s = .next s) ∧
    ((s.port p).done = false → exec (.vltDoneClear p) s = .next s) ∧
    ((s.port p).done = true → ∃ s', exec (.vltDoneClear p) s = .next s' ∧ (s'.port p).done = false ∧ (s'.port p).outw = [])) ∧
  (∀ s : State, ∃ s', exec .vltRngRead s = .next s' ∧
    s'.out = s.out ++ [.readData (if s.flag F.VLT_STATUS_RNG_OK then Config.random s.freeCtr else 0)]) ∧
  (∀ (b : Nat) (s : State), b < 2 →
    let st := s.bankState b
    (s.isNext b = true → (∃ s', exec (.hchOpen b) s = .next s' ∧ s'.flag F.HCH_STATUS_CMD_ERR = true ∧ s'.bankState b = st ∧ s'.mem = s.mem) ∧
      (∃ s', exec (.hchDiscard b) s = .next s' ∧ s'.flag F.HCH_STATUS_CMD_ERR = true ∧ s'.bankState b = st ∧ s'.mem = s.mem)) ∧
    (s.isNext b = false → (st = 0 ∨ st = 4 ∨ st = 5 → ∃ s', exec (.hchOpen b) s = .next s' ∧ s'.bankState b = 1 ∧ s'.blockIn b 0 = false) ∧
      (∃ s', exec (.hchDiscard b) s = .next s' ∧ s'.bankState b = 0 ∧
        ∀ a, s.bankBase b ≤ a → a < s.bankBase b + 2 ^ 27 → memGet s'.mem a = 0)) ∧
    (st = 1 → ∃ s', exec (.hchClose b) s = .next s' ∧ s'.bankState b = 2 ∧ (s.life = .boot → s'.life = .verify ∧ s'.vlt.bootBank = some b)) ∧
    (st ≠ 1 → ∃ s', exec (.hchClose b) s = .next s' ∧ s'.flag F.HCH_STATUS_CMD_ERR = true ∧ s'.bankState b = st) ∧
    (st = 2 → s.bankState (1 - b) ≠ 3 → ∃ s', exec (.hchVerifyStart b) s = .next s' ∧ s'.bankState b = 3 ∧
      s'.flag F.VLT_STATUS_VERIFYING = true) ∧
    (st ≠ 2 ∨ s.bankState (1 - b) = 3 → exec (.hchVerifyStart b) s = .next s) ∧
    (st ≠ 3 → exec (.hchVerifyDone b) s = .next s) ∧
    (st = 3 → match s.imgCheck b with
      | (0, plain) => ∃ s', exec (.hchVerifyDone b) s = .next s' ∧ s'.bankState b = 4 ∧ s'.bytes (s.bankBase b + 4096) plain.length = plain ∧
          s'.flag F.VLT_STATUS_VERIFYING = false ∧
          (s.vlt.bootBank = some b → s.life = .verify → s'.life = .load ∧ s'.vlt.loadDue = true ∧ s'.isNext b = true)
      | (r, _) => ∃ s', exec (.hchVerifyDone b) s = .next s' ∧ s'.bankState b = 5 ∧ s'.rd F.HCH_BSTATE_REASON b = r ∧
          s'.flag F.VLT_STATUS_VERIFYING = false ∧ (∀ a, s.bankBase b ≤ a → a < s.bankBase b + 2 ^ 27 → memGet s'.mem a = 0) ∧
          (s.vlt.bootBank = some b → s.life = .verify → s'.life = .boot)) ∧
    (∀ v, v % 2 = b → (st = 4 → ∃ s', exec (.hchNextWrite v) s = .next s' ∧ s'.isNext b = true) ∧
      (st ≠ 4 → exec (.hchNextWrite v) s = .next s)) ∧
    (∀ off data, off / 2 ^ 27 = b → off % 2 ^ 27 + data.length ≤ 2 ^ 27 →
      (st ≠ 1 → ∃ s', exec (.bar2Write off data) s = .next s' ∧ s'.flag F.HCH_STATUS_WR_DROP = true ∧ s'.mem = s.mem) ∧
      (st = 1 → s.badIn (s.bankBase b + off % 2 ^ 27) data.length = false → ∃ s', exec (.bar2Write off data) s = .next s' ∧
        s'.mem = memWrite s.mem (s.bankBase b + off % 2 ^ 27) data ∧ (data ≠ [] → s'.blockIn b (off % 2 ^ 27 / 65536) = false)))) ∧
  (∀ s : State,
    (s.life ≠ .load ∨ s.vlt.loadDue = false → exec .loadStart s = .next s) ∧
    (∀ b, s.life = .load → s.vlt.loadDue = true → s.isNext b = true → b < 2 → s.bankState b = 4 →
      let m := s.bytes (s.bankBase b) 4096
      let base := manNat m 16 8
      let n := manNat m 12 4 - 4096
      s.badIn base n = false → ∃ s', exec .loadStart s = .next s' ∧ s'.vlt.loadDue = false ∧
        s'.mem = memWrite s.mem base (s.bytes (s.bankBase b + 4096) n) ∧
        (s'.vlt.run.map (fun r => (r.bank, r.svn))) = some (some b, manNat m 28 4) ∧
        ∀ cl, cl < 8 → bitOf (s'.rd F.MQ_RUN_CORE_EN cl) 0 = true ∧ (s'.thread (32 * cl)).pc.toNat = (base + manNat m 24 4) % 2 ^ 64))

/-- Release of head reset in COLD starts device time, samples HEAD_ID and counts LOG_BOOTS; with supplies good, ROOT
locked and no OTP error the head enters BOOT. A low supply-good input, loss of the reference, a rail below 92 %,
HEAD_RST_N, COLD with the key and 165 °C each leave the head in COLD with the cause, everything cleared but the sleds
and OTP; a PIN reset during a flush waits. Loss of VDD_AON loses the rest, its return is a POWER_ON. WARM is taken only
in STANDBY and DOWN, counted as refused elsewhere, stops every core, and ends in LOAD with a verified NEXT bank, else in
BOOT, with threads, promises and buffers cleared and queue bindings kept. A rail below 95 % sets its warning, the first
takes ACTIVE to BRACE, the end of the last returns it. PWR_AVS clamps the set point and VID moves by 5 mV a step.
Temperature sets and clears WARN and GUARD with their hysteresis and latches TRIP; a guard marks running promises. The
lifecycle commands make the moves of R23 and no other, TAKEOVER from STANDBY only with partner loss. MODE writes are
taken where R415 allows the state, OFF only when its condition holds, else REQ_ERR, with a front-end quad's jobs ended
BAD_JOB; idle domains enter DOZE and RETAIN when due, and a wake ends in RUN. -/
def Obligations.StartPowerThermalAndResetsRun : Prop :=
  let cold := fun (s s' : State) (cause : Nat) => s'.life = .cold ∧ s'.rd F.PWR_RST_CAUSE_CAUSE = cause ∧ s'.pwr.released = false ∧
    s'.threads = [] ∧ s'.prms = [] ∧ s'.mem = [] ∧ s'.sleds = s.sleds ∧ s'.vlt.otp = s.vlt.otp ∧ s'.vlt.keys = []
  (∀ s : State,
    (∀ id otpOk, (s.life ≠ .cold ∨ s.pwr.released = true → exec (.coldResetRelease id otpOk) s = .next s) ∧
      (s.life = .cold → s.pins.aon = true → s.pwr.released = false → s.pwr.thermHold = false →
        ∃ s', exec (.coldResetRelease id otpOk) s = .next s' ∧ s'.now = 0 ∧ s'.headId = id % 2 ∧ s'.pwr.released = true ∧
          s'.rd F.GLB_STATE_HEAD_ID = id % 2 ∧ s'.log.boots = min (2 ^ 32 - 1) (s.log.boots + 1) ∧ s'.life = .cold ∧
          (otpOk = false → s'.flag F.VLT_STATUS_OTP_ERR = true))) ∧
    (s.pwr.released = false → exec .rootPllLock s = .next s ∧ exec .refClockLoss s = .next s) ∧
    (s.pwr.released = true → (∃ s', exec .rootPllLock s = .next s' ∧ s'.flag F.CLK_STATUS_ROOT_LOCK = true ∧ s'.flag F.CLK_STATUS_REF_OK = true ∧
        s'.life = s.life) ∧
      (∃ s', exec .refClockLoss s = .next s' ∧ cold s s' 5)) ∧
    (s.life ≠ .cold ∨ s.flag F.VLT_STATUS_OTP_ERR = true → exec .bootEntry s = .next s) ∧
    (s.life = .cold → s.pwr.released = true → s.flag F.CLK_STATUS_ROOT_LOCK = true → s.rd F.PWR_VMON_PG = 31 →
      s.flag F.VLT_STATUS_OTP_ERR = false → ∃ s', exec .bootEntry s = .next s' ∧ s'.life = .boot ∧ s'.flag F.VLT_STATUS_READY = true) ∧
    (s.pins.aon = true → (∃ s', exec .supplyGoodHigh s = .next s' ∧ s'.rd F.PWR_VMON_PG = 31 ∧ s'.life = s.life) ∧
      (∀ k, k < 5 → (s.life = .cold → ∃ s', exec (.pgLow k) s = .next s' ∧ bitOf (s'.rd F.PWR_VMON_PG) k = false ∧ s'.life = .cold) ∧
        (s.life ≠ .cold → ∃ s', exec (.pgLow k) s = .next s' ∧ cold s s' 4)) ∧
      (∀ t, s.life = .vaulting → s.pwr.flush.isSome = true → s.pwr.pfailAt = some t → s.now < t + 35000000 →
        ∃ s', exec .headRstPin s = .next s' ∧ s'.pwr.pinWait = true ∧ s'.life = .vaulting ∧ s'.pins.headRstN = false) ∧
      (s.life ≠ .vaulting → ∃ s', exec .headRstPin s = .next s' ∧ cold s s' 1 ∧ s'.pins.headRstN = false) ∧
      (∀ vb, ∃ s', exec (.vddAonLoss vb) s = .next s' ∧ s'.pins.aon = false ∧ s'.pins.vbat = vb ∧ s'.life = .cold ∧ s'.mem = [] ∧
        s'.sleds = s.sleds ∧ (vb = false → s'.flag F.CLK_STATUS_RTC_OK = false ∧ s'.log.calValid = false)) ∧
      (∀ tj, 660 ≤ tj → ∃ s', exec (.thermShutdown tj) s = .next s' ∧ cold s s' 6 ∧ s'.pwr.thermHold = true)) ∧
    (s.pins.aon = false → exec .supplyGoodHigh s = .next s ∧ exec .headRstPin s = .next s ∧ ∀ vb, exec (.vddAonLoss vb) s = .next s) ∧
    (∀ tj, tj < 660 → exec (.thermShutdown tj) s = .next s) ∧
    (∀ vb, ∃ s', exec (.vddAonPowerOn vb) s = .next s' ∧ cold s s' 0 ∧ s'.pins.aon = true ∧ s'.pins.vbat = vb ∧ s'.log.recs = s.log.nv) ∧
    (∀ k, k % 256 ≠ 0xA5 → exec (.pwrRstCold k) s = .next s ∧ exec (.pwrRstWarm k) s = .next s) ∧
    (∀ k, k % 256 = 0xA5 → (∃ s', exec (.pwrRstCold k) s = .next s' ∧ cold s s' 2) ∧
      (s.pwr.warm.isSome = true → exec (.pwrRstWarm k) s = .next s) ∧
      (s.pwr.warm = none → s.life = .standby ∨ s.life = .down → ∃ s', exec (.pwrRstWarm k) s = .next s' ∧ s'.pwr.warm = some s.now ∧
        s'.fe.paused = true ∧ s'.life = s.life ∧ ∀ cl, cl < 8 → s'.rd F.MQ_RUN_CORE_EN cl = 0) ∧
      (s.pwr.warm = none → s.life ≠ .standby → s.life ≠ .down → ∃ s', exec (.pwrRstWarm k) s = .next s' ∧ s'.pwr.warm = none ∧
        s'.life = s.life ∧ s'.threads = s.threads)) ∧
    (s.pwr.warm = none → exec .warmResetComplete s = .next s) ∧
    (s.pwr.warm.isSome = true → ∃ s', exec .warmResetComplete s = .next s' ∧ s'.pwr.warm = none ∧ s'.threads = [] ∧ s'.prms = [] ∧
      s'.bufs = [] ∧ s'.flag F.PWR_RST_CAUSE_WARM_SINCE = true ∧ (∀ q, (s'.queue q).bind = (s.queue q).bind) ∧
      (s.isNext (s.rd F.HCH_NEXT_BANK) = true → s.bankState (s.rd F.HCH_NEXT_BANK) = 4 → s'.life = .load ∧ s'.vlt.loadDue = true) ∧
      (s.isNext (s.rd F.HCH_NEXT_BANK) = false → s'.life = .boot)) ∧
    (∀ ppm : Int, s.flag F.CLK_STATUS_RTC_OK = true → s.pwr.released = true → ∃ s', exec (.refPpmWindow ppm) s = .next s' ∧
      s'.rd F.CLK_REF_PPM_PPM = (BitVec.ofInt 16 ppm).toNat ∧ (5000 < ppm ∨ ppm < -5000 → s'.flag F.CLK_STATUS_REF_PPM_ERR = true)) ∧
    (∀ ppm : Int, s.flag F.CLK_STATUS_RTC_OK = false → exec (.refPpmWindow ppm) s = .next s)) ∧
  (∀ (sram : Bool) (mv low : Nat) (s : State),
    (95 * s.nominal sram ≤ 100 * mv → exec (.coreWarnAssert sram mv) s = .next s) ∧
    (s.pwr.released = true → 100 * mv < 95 * s.nominal sram → s.flag (warnFld sram) = false →
      ∃ s', exec (.coreWarnAssert sram mv) s = .next s' ∧ s'.flag (warnFld sram) = true ∧ s'.pwr.warnAt.isSome = true ∧
        (s.pwr.warnAt = none → s.life = .active → s'.life = .brace) ∧ (s.pwr.warnAt.isSome = true ∨ s.life ≠ .active → s'.life = s.life)) ∧
    (s.flag (warnFld sram) = false ∨ 100 * mv ≤ 96 * s.nominal sram → exec (.coreWarnRelease sram mv low) s = .next s) ∧
    (s.flag (warnFld sram) = true → s.flag (warnFld (!sram)) = false → 96 * s.nominal sram < 100 * mv →
      ∃ s', exec (.coreWarnRelease sram mv low) s = .next s' ∧ s'.flag (warnFld sram) = false ∧ s'.pwr.warnAt = none ∧
        (s.life = .brace → s'.life = .active) ∧ (s.life ≠ .brace → s'.life = s.life)) ∧
    (s.pwr.released = true → 100 * mv < 92 * s.nominal sram → ∃ s', exec (.coreResetLevel sram mv) s = .next s' ∧ cold s s' 3) ∧
    (92 * s.nominal sram ≤ 100 * mv → exec (.coreResetLevel sram mv) s = .next s)) ∧
  (∀ s : State, s.fuse.fuseMv ≤ 850 →
    let cur := s.rd F.PWR_AVS_CUR_MV
    (∀ v, ∃ s', exec (.pwrAvsWrite v) s = .next s' ∧ s'.rd F.PWR_AVS_SET_MV = max (max 650 s.fuse.fuseMv) (min 850 (bitsOf v 0 10 / 5 * 5)) ∧
      s'.rd F.PWR_AVS_CUR_MV = (if cur = s'.rd F.PWR_AVS_SET_MV then cur else if cur < s'.rd F.PWR_AVS_SET_MV then cur + 5 else cur - 5) ∧
      s'.pwr.thrMv = min (s.rd F.PWR_AVS_SET_MV) (s'.rd F.PWR_AVS_SET_MV)) ∧
    (s.pwr.avsBusy = false → exec .vidStep s = .next s) ∧
    (s.pwr.avsBusy = true → s.pwr.stepAt + 1000 * max 1 (s.rd F.PWR_AVS_STEP_US) ≤ s.now → cur < s.rd F.PWR_AVS_SET_MV →
      s.rd F.PWR_AVS_SET_MV ≤ 850 → ∃ s', exec .vidStep s = .next s' ∧ s'.rd F.PWR_AVS_CUR_MV = cur + 5 ∧
        (.pin .vid ((cur + 5 - 650) / 5)) ∈ s'.out) ∧
    (s.pwr.settling = false ∨ s.pwr.avsBusy = true → exec .avsSettle s = .next s) ∧
    (s.pwr.settling = true → s.pwr.avsBusy = false → s.pwr.stepAt + 1000 * s.rd F.PWR_AVS_SETTLE_US ≤ s.now →
      ∃ s', exec .avsSettle s = .next s' ∧ s'.pwr.settling = false ∧ s'.pwr.thrMv = s.rd F.PWR_AVS_SET_MV) ∧
    (∃ s', exec .pwrVminRearm s = .next s' ∧ s'.rd F.PWR_VMIN_MV = 1023)) ∧
  (∀ (tj : Int) (sensor : Nat) (s : State), (s.pins.aon = false → exec (.thermSample tj sensor) s = .next s) ∧
    (s.pins.aon = true → s.pwr.released = true →
      let t := max (-1024) (min 1023 tj)
      ∃ s', exec (.thermSample tj sensor) s = .next s' ∧ s'.rd F.PWR_THERM_TJ = (BitVec.ofInt 11 t).toNat ∧
        (s.warnQuarters ≤ t → s'.flag F.PWR_THERM_WARN = true) ∧ (t < s.warnQuarters - 8 → s'.flag F.PWR_THERM_WARN = false) ∧
        (608 ≤ t → s'.flag F.PWR_THERM_GUARD = true) ∧ (t < 600 → s'.flag F.PWR_THERM_GUARD = false) ∧
        (600 ≤ t → t < 608 → s'.flag F.PWR_THERM_GUARD = s.flag F.PWR_THERM_GUARD) ∧
        (s'.flag F.PWR_THERM_TRIP = (s.flag F.PWR_THERM_TRIP || decide (632 ≤ t))) ∧
        (608 ≤ t → t < 632 → s.flag F.PWR_THERM_GUARD = false → ∀ k p, s.prm k = some p → p.st = .live ∨ p.st = .paused →
          s'.prm k = some { p with therm := true }))) ∧
  (∀ (c : LifeCmd) (s : State),
    (∀ l, (c, s.life, l) ∈ [(LifeCmd.ready, Life.load, Life.standby), (.activate, .standby, .active), (.takeover, .standby, .active),
        (.handover, .active, .handover), (.allOut, .handover, .standby), (.allTaken, .handover, .active), (.abort, .handover, .active)] →
      s.pwr.warm = none → (s.life = .load → s.vlt.loadDue = false) → (c = .takeover → s.flag F.TRN_STATUS_PARTNER_LOSS = true) →
      ∃ s', exec (.lifecycleCommand c) s = .next s' ∧ s'.life = l) ∧
    (c = .takeover → s.flag F.TRN_STATUS_PARTNER_LOSS = false → ∃ s', exec (.lifecycleCommand c) s = .next s' ∧ s'.life = s.life) ∧
    (lifeNext c s.life = none → ∃ s', exec (.lifecycleCommand c) s = .next s' ∧ s'.life = s.life)) ∧
  (∀ (d : Nat) (s : State), d < 64 →
    (s.domPresent d = false → exec (.pwrModeRun d) s = .next s ∧ exec (.pwrModeOff d) s = .next s) ∧
    (s.domPresent d = true →
      (∀ i m, (i, m) ∈ [(Instr.pwrModeRun d, 0), (.pwrModeDoze d, 1), (.pwrModeRetain d, 2)] →
        (bitOf (s.domAllowed d) m = true → m = 0 ∨ d < 2 ∨ 9 < d → ∃ s', exec i s = .next s' ∧ s'.rd F.PWR_DOM_MODE d = m ∧
          (s.domState d = 3 → s'.domState d = 5)) ∧
        (bitOf (s.domAllowed d) m = false → ∃ s', exec i s = .next s' ∧ s'.flag F.PWR_DOM_REQ_ERR d = true ∧
          s'.rd F.PWR_DOM_MODE d = s.rd F.PWR_DOM_MODE d)) ∧
      (bitOf (s.domAllowed d) 3 = false ∨ (s.offOk d = false ∧ s.domState d ≠ 3) → ∃ s', exec (.pwrModeOff d) s = .next s' ∧
        s'.flag F.PWR_DOM_REQ_ERR d = true ∧ s'.domState d = s.domState d) ∧
      (bitOf (s.domAllowed d) 3 = true → s.offOk d = true → ∃ s', exec (.pwrModeOff d) s = .next s' ∧ s'.domState d = 3 ∧
        s'.rd F.PWR_DOM_MODE d = 3 ∧ (44 ≤ d → d ≤ 47 → ∀ cl, cl < 8 → s'.ring 0x01 (d - 44) cl = [] ∧ ∀ j ∈ s.ring 0x01 (d - 44) cl,
          { gid := j.gid, status := 0x3E, unit := d - 44, ticket := j.ticket, aux := 0, result := 0 } ∈ s'.comps))) ∧
    (s.domState d ≠ 0 → exec (.domainDozeIdle d) s = .next s) ∧
    (10 ≤ d → d ≤ 39 → s.domPresent d = true → s.domState d = 0 → s.rd F.PWR_DOM_MODE d = 1 ∨ s.rd F.PWR_DOM_MODE d = 2 →
      s.idleFor d (max 1 (s.rd F.PWR_IDLE_DOZE_NS)) = true → ∃ s', exec (.domainDozeIdle d) s = .next s' ∧ s'.domState d = 1) ∧
    (s.rd F.PWR_DOM_MODE d ≠ 2 → exec (.domainRetainIdle d) s = .next s) ∧
    (10 ≤ d → d ≤ 39 → s.domPresent d = true → s.domState d = 1 → s.rd F.PWR_DOM_MODE d = 2 →
      s.idleFor d (1000 * max 1 (s.rd F.PWR_IDLE_RETAIN_US)) = true → ∃ s', exec (.domainRetainIdle d) s = .next s' ∧ s'.domState d = 2) ∧
    (s.domState d ≠ 5 → exec (.domainWakeComplete d) s = .next s) ∧
    (s.domState d = 5 → (s.dom d).seq.getD 0 + wakeNs ((s.dom d).idleSince.getD 1) ≤ s.now →
      ∃ s', exec (.domainWakeComplete d) s = .next s' ∧ s'.domState d = 0 ∧ (s'.dom d).seq = none))

/-- A write of EVT_RAISE with a SOFT source counts one masked occurrence while the source is masked; otherwise it sets
the PEND bit and signals the vector at once where MSI_EN is set, COAL_CNT is at most 1 and the vector can be signalled,
and with Q_EN makes one work item where the pool and the queue take it; the source's record, if there is one and a
token, counts it. Any other source sets RAISE_ERR. A coalescing time that is over signals the vector or holds the
signal; a held item is enqueued when its queue takes it. A write of EVT_SRC that unmasks a source delivers what it
gathered. EVT_CTR_CLR moves a counter to EVT_CTR_OLD and clears it, or sets CLR_ERR. A low read of a counter latches its
high half, and wakes the domain of its unit. LOG_POST of a reserved code sets POST_ERR; a post updates its record by
R445, counts SUPPRESSED without a token, and creates the lowest free record. A dirty record is committed after 1 s; a
commit that reads back makes the non-volatile copy equal to what was taken, one that does not sets NVM_ERR. LOG_RATE is
written while unlocked and fills its bucket. A tick of the RTC takes a written calendar time or adds 512 to a valid one;
its stop makes calendar time invalid. -/
def Obligations.EventsCountersAndLogbookRun : Prop :=
  (∀ (v : Nat) (s : State),
    let src := bitsOf v 0 9
    let x := bitsOf v 32 32
    let pend := fun (u : State) => bitOf (u.regGet (0x400200 + 8 * (src / 64))).toNat (src % 64)
    (src < 0x1C0 → ∃ s', exec (.evtRaiseWrite v) s = .next s' ∧ s'.flag F.EVT_STATUS_RAISE_ERR = true ∧ s'.evt = s.evt ∧ s'.log = s.log) ∧
    (0x1C0 ≤ src → ∃ s', exec (.evtRaiseWrite v) s = .next s' ∧ s'.life = s.life ∧ s'.threads = s.threads ∧ s'.mem = s.mem ∧
      (s.srcMasked src = true → pend s' = pend s) ∧
      (s.srcMasked src = true → SMap.find s'.evt.masked src = some
        { value := x, count := (SMap.findD s.evt.masked src { value := 0, count := 0, first := s.now, last := s.now }).count + 1
          first := (SMap.findD s.evt.masked src { value := 0, count := 0, first := s.now, last := s.now }).first
          last := s.now }) ∧
      (s.srcMasked src = false → s.flag F.EVT_SRC_MSI_EN src = true → pend s' = true ∧
        (s.rd F.EVT_VEC_COAL_CNT (s.rd F.EVT_SRC_VECTOR src) ≤ 1 → s.msixReady (s.rd F.EVT_SRC_VECTOR src) = true →
          s.msixWrite (s.rd F.EVT_SRC_VECTOR src) ∈ s'.out)) ∧
      (s.srcMasked src = false → s.flag F.EVT_SRC_Q_EN src = true → SMap.find s.evt.items src = none → s.poolFree ≠ 0 →
        s.flag F.EVT_QUEUE_VALID (s.rd F.EVT_SRC_QSEL src) = true →
        (s.queue (s.rd F.EVT_QUEUE_QUEUE (s.rd F.EVT_SRC_QSEL src))).accepts = true →
        ∃ k, SMap.find s'.evt.items src = some { slot := some k, value := x, count := 1, first := s.now, last := s.now }) ∧
      (∀ r, s.flag F.EVT_SRC_LOG_NOTE src = true → (s.takeLogToken src).2 = true → SMap.find s.log.recs src = some r →
        ∃ r', SMap.find s'.log.recs src = some r' ∧ r'.count = satInc r.count ∧ r'.vlast = x))) ∧
  (∀ (vec : Nat) (s : State),
    let due := vec < 512 ∧ 0 < (s.vec vec).count ∧ (s.vec vec).held = false ∧ 1 < s.rd F.EVT_VEC_COAL_CNT vec ∧
      s.rd F.EVT_VEC_COAL_NS vec ≠ 0 ∧ (s.vec vec).since + s.rd F.EVT_VEC_COAL_NS vec ≤ s.now
    (¬ due → exec (.evtCoalesceTimeout vec) s = .next s) ∧
    (due → ∃ s', exec (.evtCoalesceTimeout vec) s = .next s' ∧ (s.msixReady vec = true → s.msixWrite vec ∈ s'.out) ∧
      (s.msixReady vec = false → (s'.vec vec).held = true ∧ s'.out = s.out))) ∧
  (∀ (src : Nat) (s : State),
    let q := s.rd F.EVT_QUEUE_QUEUE (s.rd F.EVT_SRC_QSEL src)
    let ok := s.flag F.EVT_QUEUE_VALID (s.rd F.EVT_SRC_QSEL src) && decide (s.poolFree ≠ 0) && (s.queue q).accepts
    (SMap.find s.evt.items src = none → exec (.eventItemRetry src) s = .next s) ∧
    (∀ e, SMap.find s.evt.items src = some e →
      (e.slot.isSome = true ∨ ok = false → exec (.eventItemRetry src) s = .next s) ∧
      (e.slot = none → ok = true → ∃ s' e', exec (.eventItemRetry src) s = .next s' ∧ SMap.find s'.evt.items src = some e' ∧
        e'.slot.isSome = true))) ∧
  (∀ (src v : Nat) (s : State), (512 ≤ src → exec (.evtSrcWrite src v) s = .next s) ∧
    (src < 512 → ∃ s', exec (.evtSrcWrite src v) s = .next s' ∧ s'.regGet (evtSrcOff src) = BitVec.ofNat 64 (bitsOf v 0 17) ∧
      (SMap.find s.evt.masked src = none → s'.evt = s.evt ∧ s'.out = s.out) ∧
      (∀ m, SMap.find s.evt.masked src = some m → bitOf v 15 = false → s.flag F.EVT_CTL_EN = true →
        SMap.find s'.evt.masked src = none ∧ (bitOf v 9 = true → bitOf (s'.regGet (0x400200 + 8 * (src / 64))).toNat (src % 64) = true)))) ∧
  (∀ (v : Nat) (s : State),
    let off := 8 * bitsOf v 3 23
    (isCtr off = true → ∃ s', exec (.evtCtrClrWrite v) s = .next s' ∧ s'.regGet F.EVT_CTR_OLD_COUNT.off = s.regGet off ∧ s'.regGet off = 0) ∧
    (isCtr off = false → ∃ s', exec (.evtCtrClrWrite v) s = .next s' ∧ s'.flag F.EVT_STATUS_CLR_ERR = true ∧
      ∀ o, o ≠ F.EVT_STATUS_CLR_ERR.off → s'.regGet o = s.regGet o)) ∧
  (∀ (req : Port) (off : Nat) (s : State), (isCtr off = false ∨ s.offAbsent off = true → exec (.counterLowRead req off) s = .next s) ∧
    (isCtr off = true → s.offAbsent off = false → ∃ s', exec (.counterLowRead req off) s = .next s' ∧ s'.regs = (s.regWake off).regs ∧
      SMap.find s'.latches (latchOf req) = some { off := off, high := (s.regGet off).toNat / 2 ^ 32 } ∧
      (req = .host → s'.out = s.out ++ [.readData (BitVec.ofNat 64 ((s.regGet off).toNat % 2 ^ 32))]))) ∧
  (∀ (v : Nat) (s : State),
    let code := bitsOf v 0 16
    let sev := bitsOf v 16 2
    let x := bitsOf v 32 32
    let token := sev = 3 ∨ (s.takeLogToken (512 + code / 0x1000)).2 = true
    (code < 0x1000 → ∃ s', exec (.logPostWrite v) s = .next s' ∧ s'.flag F.LOG_STATUS_POST_ERR = true ∧ s'.log = s.log) ∧
    (∀ i r, 0x1000 ≤ code → logFind s.log.recs code = some i → SMap.find s.log.recs i = some r →
      (token → ∃ s' r', exec (.logPostWrite v) s = .next s' ∧ SMap.find s'.log.recs i = some r' ∧ r'.count = satInc r.count ∧
        r'.vlast = x ∧ r'.sev = max r.sev sev ∧ r'.last = s.calNow ∧ r'.lastBoot = s.log.boots ∧ r'.first = r.first ∧
        (bitsOf r.count 0 48 ≠ 0 → r'.vmin = min r.vmin x ∧ r'.vmax = max r.vmax x) ∧ (bitsOf r.count 0 48 = 0 → r'.vmin = x ∧ r'.vmax = x) ∧
        (let b := if x >>> r.shift = 0 then 0 else min 15 (Nat.log2 (x >>> r.shift) + 1)
         SMap.findD r'.hist b 0 = satInc (SMap.findD r.hist b 0))) ∧
      (¬ token → ∃ s', exec (.logPostWrite v) s = .next s' ∧
        SMap.find s'.log.recs i = some { r with suppressed := satInc r.suppressed, upd := s.log.upd })) ∧
    (∀ i, 0x1000 ≤ code → logFind s.log.recs code = none → lowestFree s.log.recs (s.log.recs.length + 1) 512 = some i →
      ∃ s' r', exec (.logPostWrite v) s = .next s' ∧ SMap.find s'.log.recs i = some r' ∧ r'.code = code ∧ r'.first = s.calNow ∧
        r'.firstBoot = s.log.boots ∧ r'.shift = s.rd F.LOG_RATE_SHIFT (512 + code / 0x1000) ∧
        (token → r'.count = 1 ∧ r'.suppressed = 0) ∧ (¬ token → r'.count = 0 ∧ r'.suppressed = 1)) ∧
    (0x1000 ≤ code → s.logIndex code sev = none → ∃ s', exec (.logPostWrite v) s = .next s' ∧
      ∀ j, 512 ≤ j → SMap.find s'.log.recs j = SMap.find s.log.recs j)) ∧
  (∀ (i : Nat) (s : State),
    (s.log.dirty.contains i = false → exec (.logCommitTimer i) s = .next s) ∧
    (∀ t, SMap.find s.log.lastCommit i = some t → s.now < t + 1000000000 → exec (.logCommitTimer i) s = .next s) ∧
    (∀ t r, s.log.dirty.contains i = true → SMap.find s.log.lastCommit i = some t → t + 1000000000 ≤ s.now → s.log.commit = none →
      s.log.urgent = [] → SMap.find s.log.recs i = some r →
      ∃ s', exec (.logCommitTimer i) s = .next s' ∧ s'.log.commit = some (i, s.now, r) ∧ s'.log.recs = s.log.recs)) ∧
  (∀ (ok : Bool) (s : State), (s.log.commit = none → exec (.logCommitDone ok) s = .next s) ∧
    (∀ i t r, s.log.commit = some (i, t, r) → ∃ s', exec (.logCommitDone ok) s = .next s' ∧
      SMap.find s'.log.lastCommit i = some s.now ∧
      (ok = true → SMap.find s'.log.nv i = some r ∧ s'.log.recs = s.log.recs ∧
        (SMap.find s.log.recs i = some r → i ∉ s'.log.dirty)) ∧
      (ok = false → s'.flag F.LOG_STATUS_NVM_ERR = true ∧ s'.log.nv = s.log.nv))) ∧
  (∀ (v : Nat) (s : State), exec (.logCalSetWrite v) s = .next { s with log := { s.log with calSet := some (v % 2 ^ 64) } }) ∧
  (∀ (v : Nat) (s : State),
    exec (.logSelWrite .host v) s = .next { s with log := { s.log with selHost := some (bitsOf v 0 12, s.logBytes (bitsOf v 0 12)) } } ∧
    ∀ n, exec (.logSelWrite (.core n) v) s = .next { s with log := { s.log with selKpr := some (bitsOf v 0 12, s.logBytes (bitsOf v 0 12)) } }) ∧
  (∀ (e v : Nat) (s : State), (528 ≤ e ∨ s.flag F.LOG_RATE_LOCK_LOCK = true → exec (.logRateWrite e v) s = .next s) ∧
    (e < 528 → s.flag F.LOG_RATE_LOCK_LOCK = false → ∃ s', exec (.logRateWrite e v) s = .next s' ∧
      s'.regGet (0x501000 + 8 * e) = BitVec.ofNat 64 (bitsOf v 0 38) ∧ s'.log.recs = s.log.recs ∧
      (s'.logBucket e).tokens = ((max 1 (bitsOf v 16 16) * 1000000000 : Nat) : Int))) ∧
  (∀ s : State, (∃ s', exec .rtcTick s = .next s' ∧
      (∀ v, s.log.calSet = some v → s'.log.cal = v ∧ s'.log.calValid = true ∧ s'.log.calSet = none) ∧
      (s.log.calSet = none → s'.log.cal = (if s.log.calValid then (s.log.cal + 512) % 2 ^ 64 else s.log.cal) ∧ s'.log.calValid = s.log.calValid) ∧
      (s.flag F.CLK_STATUS_RTC_OK = true → s'.flag F.CLK_STATUS_RTC_OK = true) ∧
      (s.flag F.CLK_STATUS_RTC_OK = false → ∀ n, s.pwr.rtcSince = some n → 32 ≤ n → s'.flag F.CLK_STATUS_RTC_OK = true)) ∧
    (∃ s', exec .rtcStop s = .next s' ∧ s'.log.calValid = false ∧ s'.calNow = 0 ∧ s'.flag F.CLK_STATUS_RTC_OK = false ∧
      s'.rd F.CLK_REF_PPM_PPM = 0))

/-- A write of H2D_TAIL inside the ring stores the new bytes and makes the device read on; outside it sets LEN_ERR.
Reading on stops at a packet that passes, at WRAP, or at one the tail does not cover yet, and otherwise answers the
packet's rejection with its TAG, moves HEAD to TAIL or past the packet and sets HDR_ERR or LEN_ERR. WRAP moves HEAD to
0; after 1 ms an uncovered packet is answered LENGTH. PING, STATUS, DOWNLOAD, LOG_READ, ATTEST and CERT at HEAD are
answered as R457, R459 and R462 say, when the answer has room, and wait otherwise. A firmware command becomes an item of
SOURCE 3 with the header in its words and a handle to the payload, is held while pool, buffers or queue do not take it,
and is answered NO_FIRMWARE while MBX_FWQ is not VALID. D2H_HEAD moves up to the tail and no further. SEND writes its
packet, waits for room, or completes DROPPED while EN is 0. RESET and PCI Express resets clear the indices and EN; a PCI
Express reset also the MSI-X table and enables, and shows the link as it trained. Enabling or unmasking sends a held
signal. Errors are reported, a poisoned BAR2 write clears its block's map bit, an uncorrectable ring error in a header
rejects the packet with HEADER. The I2C pointer is set by a write and advances with each byte read, an SCL timeout
resets the target. -/
def Obligations.ServiceHostInterfaceRuns : Prop :=
  let room := fun (s : State) (n : Nat) =>
    (s.d2hTail + d2hBytes - s.d2hHead) % d2hBytes +
      (if s.d2hTail + extent n ≤ d2hBytes then extent n else d2hBytes - s.d2hTail + extent n) ≤ d2hBytes - 128
  let writes := fun (s t : State) (p : Pkt) (d : List Byte) =>
    let at_ := if s.d2hTail + extent d.length ≤ d2hBytes then s.d2hTail else 0
    t.d2hTail = (at_ + extent d.length) % d2hBytes ∧
      t.bar4 (h2dBytes + at_) (extent d.length) =
        ({ p with len := d.length } : Pkt).bytes ++ d ++ List.replicate (extent d.length - 64 - d.length) 0
  let answers := fun (s t : State) (head : Nat) (p : Pkt) (st : Nat) (args : List Nat) (d : List Byte) =>
    t.h2dHead = head ∧ writes s t { op := p.op, flags := 1, status := st, len := 0, tag := p.tag, args := args } d
  (∀ s : State,
    let p := s.pktAt
    let past := (s.h2dHead + extent p.len) % h2dBytes
    let payload := s.bar4 (s.h2dHead + 64) p.len
    let rest := fun (x : Option Nat) => ({ s with mbx := { s.mbx with since := x } } : State)
    (s.h2dLive = false → s.h2dRead = rest none) ∧
    (s.h2dLive = true → s.judge = .pass ∨ s.judge = .wrap → s.h2dRead = rest none) ∧
    (s.h2dLive = true → s.judge = .wait → s.h2dRead = rest (some (s.mbx.since.getD s.now))) ∧
    (∀ st all, s.h2dLive = true → s.judge = .reject st all → room s 0 → ∃ t : State, s.h2dRead = State.h2dScan (h2dBytes / 64) t ∧
      answers s t (if all then s.h2dTail % h2dBytes else past) p st [] [] ∧ (st = 2 → t.flag F.MBX_STATUS_HDR_ERR = true) ∧
      (st = 1 → t.flag F.MBX_STATUS_LEN_ERR = true) ∧ t.mem = s.mem) ∧
    (∀ v data, (h2dBytes ≤ 64 * bitsOf v 6 14 → ∃ s' : State, exec (.mbxH2dTailWrite v data) s = .next s' ∧ s'.flag F.MBX_STATUS_LEN_ERR = true ∧
        s'.h2dTail = s.h2dTail ∧ s'.h2dHead = s.h2dHead) ∧
      (64 * bitsOf v 6 14 < h2dBytes → ∃ t : State, exec (.mbxH2dTailWrite v data) s = .next t.h2dRead ∧ t.h2dTail = 64 * bitsOf v 6 14 ∧
        t.h2dHead = s.h2dHead ∧ ((data.length ≤ h2dBytes - s.h2dTail) → t.mbx.ring = memWrite s.mbx.ring s.h2dTail data))) ∧
    (s.h2dLive = false ∨ s.judge ≠ .wrap → exec .mbxWrap s = .next s) ∧
    (s.h2dLive = true → s.judge = .wrap → ∃ t : State, exec .mbxWrap s = .next t.h2dRead ∧ t.h2dHead = 0 ∧ t = { s with regs := t.regs }) ∧
    (s.mbx.since = none ∨ s.judge ≠ .wait → exec .mbxExtentTimeout s = .next s) ∧
    (∀ t0, s.mbx.since = some t0 → s.h2dLive = true → s.judge = .wait → (s.now < t0 + 1000000 → exec .mbxExtentTimeout s = .next s) ∧
      (t0 + 1000000 ≤ s.now → room s 0 → ∃ t : State, exec .mbxExtentTimeout s = .next t.h2dRead ∧
        answers s t (s.h2dTail % h2dBytes) p 1 [] [] ∧ t.flag F.MBX_STATUS_LEN_ERR = true)) ∧
    (∀ i op, (i, op) ∈ [(Instr.mbxPing, 0x01), (.mbxStatus, 0x02), (.mbxDownload, 0x03), (.mbxLogRead, 0x05), (.mbxAttest, 0x06), (.mbxCert, 0x07)] →
      (s.h2dLive = false ∨ s.judge ≠ .pass ∨ p.op ≠ op → exec i s = .next s)) ∧
    (s.h2dLive = true → s.judge = .pass →
      (p.op = 0x01 → (¬ room s 0 → exec .mbxPing s = .next s) ∧
        (room s 0 → ∃ t : State, exec .mbxPing s = .next t.h2dRead ∧ answers s t past p 0 p.args [] ∧ t.mem = s.mem)) ∧
      (p.op = 0x02 → room s 64 → ∃ t : State, exec .mbxStatus s = .next t.h2dRead ∧ answers s t past p 0 [] s.statusBytes ∧ t.mem = s.mem) ∧
      (p.op = 0x05 →
        let first := bitsOf (p.arg 0) 0 12
        let n := bitsOf (p.arg 1) 0 9
        let ok := decide (1 ≤ n ∧ n ≤ 256 ∧ first + n ≤ 4096)
        let d := if ok then (rangeFrom first n).flatMap s.logBytes else []
        room s d.length → ∃ t : State, exec .mbxLogRead s = .next t.h2dRead ∧ answers s t past p (if ok then 0 else 4) [] d ∧ t.mem = s.mem) ∧
      (p.op = 0x03 → room s 0 →
        let k := bitsOf (p.arg 0) 0 16
        let b := bitsOf (p.arg 0) 16 1
        let a := s.bankBase b + 65536 * k
        (2047 < k → ∃ t : State, exec .mbxDownload s = .next t.h2dRead ∧ answers s t past p 4 [] [] ∧ t.mem = s.mem) ∧
        (k ≤ 2047 → s.bankState b ≠ 1 → ∃ t : State, exec .mbxDownload s = .next t.h2dRead ∧ answers s t past p 5 [] [] ∧ t.mem = s.mem) ∧
        (k ≤ 2047 → s.bankState b = 1 → ∃ t : State, exec .mbxDownload s = .next t.h2dRead ∧
          t.mem = (if bitOf (p.arg 0) 24 then memWrite s.mem a payload else s.mem) ∧
          (let good := decide (crc64 (t.bytes a 65536) = p.arg 1 ∧ t.badIn a 65536 = false)
           answers s t past p (if good then 0 else 7) [] [] ∧ t.blockIn b k = good))) ∧
      (∀ i (f : VCmd → State → VRes) op vop d, (i, f, op, vop, d) ∈ ([(.mbxAttest, vAttest, 0x06, 0x0D, payload), (.mbxCert, vGetCert, 0x07, 0x0E, [])] :
          List (Instr × (VCmd → State → VRes) × Nat × Nat × List Byte)) → p.op = op →
        ((s.port 0).cmd.isSome = true ∨ (s.port 0).done = true → room s 0 → ∃ t : State, exec i s = .next t.h2dRead ∧ answers s t past p 9 [] [] ∧ t.mem = s.mem) ∧
        ((s.port 0).cmd = none → (s.port 0).done = false →
          let r := f { port := 0, op := vop, a := 0, b := 0, attr := 0, data := d } s
          room s r.2.2.length → ∃ t : State, exec i s = .next t.h2dRead ∧ answers s t past p 0 [] r.2.2))) ∧
    (∀ i lo hi, (i, lo, hi) ∈ [(Instr.mbxActivate, 0x10, 0x10), (.mbxRelease, 0x11, 0x11), (.mbxUpdate, 0x12, 0x12), (.mbxFw, 0x20, 0x3F)] ∨
        (s.flag F.MBX_STATUS_HELD = true ∧ (i, lo, hi) = (.mbxHoldRetry, 0x10, 0x3F)) →
      let q := s.rd F.MBX_FWQ_QUEUE
      let hdr := (List.range 8).map (fun k => BitVec.ofNat 64 (leNat ((s.bar4 s.h2dHead 64).drop (8 * k) |>.take 8)))
      (s.h2dLive = false ∨ s.judge ≠ .pass ∨ p.op < lo ∨ hi < p.op → exec i s = .next s) ∧
      (s.h2dLive = true → s.judge = .pass → lo ≤ p.op → p.op ≤ hi →
        (s.flag F.MBX_FWQ_VALID = false → room s 0 → ∃ t : State, exec i s = .next t.h2dRead ∧ answers s t past p 6 [] [] ∧
          t.flag F.MBX_STATUS_HELD = false) ∧
        (s.flag F.MBX_FWQ_VALID = true →
          (s.poolFree = 0 ∨ (s.queue q).accepts = false ∨ (0 < p.len ∧ s.stgAlloc p.len = none) →
            p.len = 0 ∨ s.stgAlloc p.len = none ∨ s.eccFix = [] → exec i s = .next (s.setFlag F.MBX_STATUS_HELD)) ∧
          (∀ h, (p.len = 0 ∧ h = 0) ∨ (0 < p.len ∧ (s.stgAlloc p.len).map Prod.fst = some h ∧ s.fixIn (hAddr h 0) p.len = []) →
            s.poolFree ≠ 0 → (s.queue q).accepts = true →
            ∃ (k : Nat) (x : State), exec i s = .next (State.h2dRead ((x.pktTake).clrFlag F.MBX_STATUS_HELD)) ∧ (x.queue q).items = (s.queue q).items ++ [k] ∧
              (∃ it : Item, SMap.find x.items k = some it ∧ it.hdr = hdr ∧ it.handle = BitVec.ofNat 64 h ∧ it.source = 3 ∧ it.hasDl = false) ∧
              (s.eccBad = [] → x.mem = memWrite s.mem (hAddr h 0) payload))))) ∧
    (s.flag F.MBX_STATUS_HELD = false → exec .mbxHoldRetry s = .next s) ∧
    (∃ s' : State, exec .mbxResetWrite s = .next s' ∧ s'.h2dHead = 0 ∧ s'.h2dTail = 0 ∧ s'.d2hHead = 0 ∧ s'.d2hTail = 0 ∧
      s'.flag F.MBX_CTL_EN = false ∧ s'.items = s.items ∧ s'.life = s.life) ∧
    (∀ v, let h := 64 * bitsOf v 6 14
      (d2hBytes ≤ h ∨ (s.d2hTail + d2hBytes - s.d2hHead) % d2hBytes < (h + d2hBytes - s.d2hHead) % d2hBytes →
        ∃ s' : State, exec (.mbxD2hHeadWrite v) s = .next s' ∧ s'.flag F.MBX_STATUS_LEN_ERR = true ∧ s'.d2hHead = s.d2hHead) ∧
      (h < d2hBytes → (h + d2hBytes - s.d2hHead) % d2hBytes ≤ (s.d2hTail + d2hBytes - s.d2hHead) % d2hBytes →
        ∃ t : State, exec (.mbxD2hHeadWrite v) s = .next t.h2dRead ∧ t.d2hHead = h ∧ t.d2hTail = s.d2hTail))) ∧
  (∀ (cl : Nat) (j : Job) (s : State), s.JobReady 0x0D 0 cl j → j.op = 1 → sendCheck j s = true →
    let n := j.fld 20 4
    let a := hAddr (j.fld 8 8) (j.fld 16 4)
    (s.flag F.MBX_CTL_EN = false → ∃ s' : State, exec (.mbxSend cl) s = .next s' ∧ s.Finished s' 0x0D 0 cl j 0 1 0) ∧
    (s.flag F.MBX_CTL_EN = true → s.badIn a n = false → s.fixIn a n = [] →
      (¬ room s n → exec (.mbxSend cl) s = .next (s.setFlag F.MBX_STATUS_D2H_FULL)) ∧
      (room s n → ∃ s' : State, exec (.mbxSend cl) s = .next s' ∧ s.Finished s' 0x0D 0 cl j 0 0 0 ∧ s'.flag F.MBX_STATUS_D2H_FULL = false ∧
        writes s s' { op := j.fld 2 1, flags := j.fld 3 1, status := j.fld 4 2, len := 0, tag := j.fld 24 8
                      args := (List.range 4).map (fun i => j.fld (32 + 8 * i) 8) } (s.bytes a n)))) ∧
  (∀ s : State,
    let down := fun (s' : State) => s'.pcie.msixEn = false ∧ s'.pcie.busMaster = false ∧ s'.pcie.vecOpen = [] ∧
      (∀ o, 0x800000 ≤ o → o < 0x802000 → SMap.find s'.regs o = none) ∧ s'.h2dHead = 0 ∧ s'.h2dTail = 0 ∧ s'.d2hHead = 0 ∧
      s'.d2hTail = 0 ∧ s'.flag F.MBX_CTL_EN = false ∧ s'.life = s.life ∧ s'.threads = s.threads ∧ s'.mem = s.mem
    (∃ s' : State, exec .pcieRefLoss s = .next s' ∧ down s' ∧ s'.flag F.CLK_STATUS_PCIE_REF_OK = false ∧ s'.flag F.GLB_PCIE_LINK_UP = false ∧
      s'.pcie.inReset = true) ∧
    (∃ s' : State, exec .pcieRefRestore s = .next s' ∧ s'.flag F.CLK_STATUS_PCIE_REF_OK = true ∧ s'.pcie = s.pcie) ∧
    (∀ speed width, let ok := s.flag F.CLK_STATUS_PCIE_REF_OK && decide (1 ≤ speed ∧ speed ≤ 5) && [1, 2, 4, 8, 16].contains width
      ∃ s' : State, exec (.pcieReset speed width) s = .next s' ∧ down s' ∧ s'.flag F.GLB_PCIE_LINK_UP = ok ∧
        s'.rd F.GLB_PCIE_SPEED = (if ok then speed else 0) ∧ s'.rd F.GLB_PCIE_WIDTH = (if ok then width else 0)) ∧
    (∀ on, (∃ s' : State, exec (.msixUnmask (.enable on)) s = .next s' ∧ s'.pcie = { s.pcie with msixEn := on }) ∧
      (∃ s' : State, exec (.msixUnmask (.busMaster on)) s = .next s' ∧ s'.pcie = { s.pcie with busMaster := on })) ∧
    (∀ v, 512 ≤ v → ∀ on, exec (.msixUnmask (.mask v on)) s = .next s) ∧
    (∀ v, v < 512 → (∃ s' : State, exec (.msixUnmask (.mask v true)) s = .next s' ∧ s'.pcie = { s.pcie with vecOpen := s.pcie.vecOpen.erase v }) ∧
      (∃ s' : State, exec (.msixUnmask (.mask v false)) s = .next s' ∧ v ∈ s'.pcie.vecOpen ∧
        ((s.vec v).held = true → s.pcie.msixEn = true → s.pcie.busMaster = true → s.pcie.inReset = false →
          s.flag F.GLB_PCIE_LINK_UP = true → s.msixWrite v ∈ s'.out))) ∧
    (∀ e bar off, (∃ s' : State, exec (.pcieTlpError e bar off) s = .next s' ∧ e ∈ s'.pcie.aer ∧ s'.life = s.life) ∧
      (e = .poisoned → bar = 2 → off < 2 * bankBytes → s.bankState (off / bankBytes) = 1 →
        ∃ s' : State, exec (.pcieTlpError e bar off) s = .next s' ∧ s'.blockIn (off / bankBytes) (off % bankBytes / 65536) = false) ∧
      (e = .internal → bar = 4 → s.h2dLive = true → s.h2dHead ≤ off → off < s.h2dHead + 64 → room s 0 →
        ∃ t : State, exec (.pcieTlpError e bar off) s = .next t.h2dRead ∧ answers s t (s.h2dTail % h2dBytes) s.pktAt 2 [] []))) ∧
  (∀ s : State, exec (.i2cWrite []) s = .next s ∧
    (∀ b rest, exec (.i2cWrite (b :: rest)) s = .next (if s.pins.aon then { s with i2c := { s.i2c with ptr := b.toNat } } else s)) ∧
    (s.pins.aon = false → exec .i2cReadByte s = .next s) ∧
    (s.pins.aon = true → ∃ s' : State, exec .i2cReadByte s = .next s' ∧ s'.i2c.ptr = (s.i2c.ptr + 1) % 256 ∧
      s'.out = s.out ++ [.i2c (s.i2cByte s.i2c.ptr).1] ∧ s'.regs = s.regs ∧
      (s.i2c.ptr = 0 → .i2c 0xD7 ∈ s'.out) ∧ (0x3F < s.i2c.ptr → .i2c 0 ∈ s'.out) ∧
      (s.i2c.ptr = 3 → .i2c (BitVec.ofNat 8 (s.life.code + 16 * s.headId)) ∈ s'.out)) ∧
    exec .i2cSclTimeout s = .next { s with i2c := { ptr := 0, snap := [] } })

/-- After reset the lifecycle state is COLD, no thread has state, every ring, queue, completion and promise table is
empty, no buffer is allocated, memory lists nothing and so has its canonical form, the staging buffers are in order, and
no command waits. The set point is 750 mV and VID shows it, DOM MODE of domain 0 is RUN, core enables and ADMIT_EN are
0, EVT_SRC of source 5 holds vector 5 with LOG_NOTE, LOG_RATE holds 1,000 for RATE and BURST, and a thread reads FREE
with TKT_NEXT 1. Which fuses and OTP contents the part has is the model's choice (assumption log 6), as is the value of
thread registers, for which the spec gives no reset value (log 5). -/
def Obligations.ResetState : Prop :=
  State.reset.life = .cold ∧ State.reset.now = 0 ∧ State.reset.threads = [] ∧ State.reset.items = [] ∧ State.reset.queues = [] ∧
  State.reset.rings = [] ∧ State.reset.comps = [] ∧ State.reset.prms = [] ∧ State.reset.bufs = [] ∧ State.reset.mem = [] ∧
  State.reset.MemoryCanonical ∧ State.reset.StagingOk ∧ State.reset.pending = [] ∧
  State.reset.rd F.PWR_AVS_SET_MV = 750 ∧ State.reset.rd F.PWR_AVS_CUR_MV = 750 ∧ State.reset.rd F.PWR_DOM_MODE = 0 ∧
  (∀ cl, State.reset.rd F.MQ_RUN_CORE_EN cl = 0) ∧ State.reset.flag F.WKT_CTL_ADMIT_EN = false ∧
  State.reset.rd F.EVT_SRC_VECTOR 5 = 5 ∧ State.reset.flag F.EVT_SRC_LOG_NOTE 5 = true ∧ State.reset.flag F.EVT_SRC_MSI_EN 5 = false ∧
  State.reset.rd F.LOG_RATE_RATE 5 = 1000 ∧ State.reset.rd F.LOG_RATE_BURST 527 = 1000 ∧
  (∀ t, (State.reset.thread t).st = .free ∧ (State.reset.thread t).tktNext = 1)

/-- From every state whose memory is listed in rising order with no zero byte listed and whose staging buffers lie in
order, inside the area and apart from one another, every step, whatever command stands at the front of the queue, leads
to a state of the same kind, and the variant and the other fused values are what they were. No run of the head can give
two handlers overlapping staging buffers, and equal memories are equal data. -/
def Obligations.EveryStepKeepsTheInvariants : Prop :=
  ∀ s s' : State, s.MemoryCanonical → s.StagingOk → step s = .next s' → s'.MemoryCanonical ∧ s'.StagingOk ∧ s'.fuse = s.fuse
end

