-- ==== Sys2Proof/Laws/Bits.lean ====
section
/-! SUPPORT. Bit fields of numbers: what a field reads after a field has been written. -/

namespace Sys2Proof.Machine

theorem setBitsOf_eq (v lo w x : Nat) :
    setBitsOf v lo w x = 2 ^ lo * (2 ^ w * (v >>> (lo + w)) + x % 2 ^ w) + v % 2 ^ lo := by
  unfold setBitsOf
  generalize v >>> (lo + w) = q
  have h : 2 ^ lo * (2 ^ w * q) = q * (2 ^ lo * 2 ^ w) := by rw [Nat.mul_comm q, Nat.mul_assoc]
  rw [Nat.pow_add, Nat.mul_add, Nat.mul_comm (2 ^ lo) (x % 2 ^ w), h]
  omega

theorem testBit_setBitsOf (v lo w x i : Nat) :
    (setBitsOf v lo w x).testBit i =
      if i < lo then v.testBit i else if i < lo + w then x.testBit (i - lo) else v.testBit i := by
  rw [setBitsOf_eq, Nat.testBit_two_pow_mul_add _ (Nat.mod_lt _ (Nat.two_pow_pos lo))]
  split
  · simp_all [Nat.testBit_mod_two_pow]
  · rw [Nat.testBit_two_pow_mul_add _ (Nat.mod_lt _ (Nat.two_pow_pos w))]
    by_cases h : i - lo < w
    · rw [if_pos h, if_pos (by omega)]
      simp [Nat.testBit_mod_two_pow, h]
    · rw [if_neg h, if_neg (by omega), Nat.testBit_shiftRight]
      congr 1
      omega

theorem testBit_bitsOf (v lo w i : Nat) : (bitsOf v lo w).testBit i = (decide (i < w) && v.testBit (lo + i)) := by
  simp [bitsOf, Nat.testBit_mod_two_pow, Nat.testBit_shiftRight]

/-- A field reads what was written to it. -/
@[simp] theorem bitsOf_setBitsOf_same (v lo w x : Nat) : bitsOf (setBitsOf v lo w x) lo w = x % 2 ^ w := by
  apply Nat.eq_of_testBit_eq
  intro i
  rw [testBit_bitsOf, testBit_setBitsOf, Nat.testBit_mod_two_pow]
  by_cases h : i < w
  · simp [h, show ¬ lo + i < lo by omega]
  · simp [h]

/-- A field apart from the one written reads as before. -/
theorem bitsOf_setBitsOf_other (v lo w x lo' w' : Nat) (h : lo' + w' ≤ lo ∨ lo + w ≤ lo') :
    bitsOf (setBitsOf v lo w x) lo' w' = bitsOf v lo' w' := by
  apply Nat.eq_of_testBit_eq
  intro i
  rw [testBit_bitsOf, testBit_bitsOf, testBit_setBitsOf]
  by_cases h' : i < w'
  · rcases h with h | h
    · simp [h', show lo' + i < lo by omega]
    · simp [h', show ¬ lo' + i < lo by omega, show ¬ lo' + i < lo + w by omega]
  · simp [h']

/-- A field written inside 64 bits leaves a number of 64 bits. -/
theorem setBitsOf_lt (v lo w x : Nat) (hv : v < 2 ^ 64) (h : lo + w ≤ 64) : setBitsOf v lo w x < 2 ^ 64 := by
  apply Nat.lt_pow_two_of_testBit
  intro i hi
  rw [testBit_setBitsOf, if_neg (by omega), if_neg (by omega)]
  exact Nat.testBit_lt_two_pow (Nat.lt_of_lt_of_le hv (Nat.pow_le_pow_right (by decide) hi))

theorem bitsOf_lt (v lo w : Nat) : bitsOf v lo w < 2 ^ w := Nat.mod_lt _ (Nat.two_pow_pos w)

@[simp] theorem bitsOf_zero_val (lo w : Nat) : bitsOf 0 lo w = 0 := by simp [bitsOf]

@[simp] theorem b2n_true : b2n true = 1 := rfl
@[simp] theorem b2n_false : b2n false = 0 := rfl

end Sys2Proof.Machine
end

