-- ==== Sys2Proof/Laws/Tables.lean ====
section
/-! SUPPORT. Sparse tables: what an entry reads after a change, and that every change keeps the rising order of the keys. -/

namespace Sys2Proof.Machine

variable {α : Type}

@[simp] theorem SMap.find_nil (k : Nat) : SMap.find ([] : SMap α) k = none := rfl

@[simp] theorem SMap.find_put_same (m : SMap α) (k : Nat) (v : α) : SMap.find (SMap.put m k v) k = some v := by
  induction m with
  | nil => simp [SMap.put, SMap.find]
  | cons p m ih => 
    simp only [SMap.put]
    split
    · simp_all [SMap.find]
    · split <;> simp_all [SMap.find]

theorem SMap.find_put_other (m : SMap α) {k j : Nat} (v : α) (h : j ≠ k) :
    SMap.find (SMap.put m k v) j = SMap.find m j := by
  have hk := Ne.symm h
  induction m with
  | nil => simp [SMap.put, SMap.find, hk]
  | cons p m ih => 
    simp only [SMap.put]
    split
    · simp_all [SMap.find]
    · split <;> simp_all [SMap.find]

@[simp] theorem SMap.find_del_same (m : SMap α) (k : Nat) : SMap.find (SMap.del m k) k = none := by
  induction m with
  | nil => rfl
  | cons p m ih => simp only [SMap.del]; split <;> simp_all [SMap.find]

theorem SMap.find_del_other (m : SMap α) {k j : Nat} (h : j ≠ k) : SMap.find (SMap.del m k) j = SMap.find m j := by
  have hk := Ne.symm h
  induction m with
  | nil => rfl
  | cons p m ih => simp only [SMap.del]; split <;> simp_all [SMap.find]

@[simp] theorem SMap.findD_putD_same [DecidableEq α] (m : SMap α) (k : Nat) (v d : α) :
    SMap.findD (SMap.putD m k v d) k d = v := by
  unfold SMap.putD SMap.findD
  split <;> simp_all

theorem SMap.findD_putD_other [DecidableEq α] (m : SMap α) {k j : Nat} (v d e : α) (h : j ≠ k) :
    SMap.findD (SMap.putD m k v d) j e = SMap.findD m j e := by
  unfold SMap.putD SMap.findD
  split
  · rw [SMap.find_del_other _ h]
  · rw [SMap.find_put_other _ _ h]

@[simp] theorem SMap.findD_upd_same [DecidableEq α] (m : SMap α) (k : Nat) (d : α) (f : α → α) :
    SMap.findD (SMap.upd m k d f) k d = f (SMap.findD m k d) := by
  simp [SMap.upd]

theorem SMap.findD_upd_other [DecidableEq α] (m : SMap α) {k j : Nat} (d : α) (f : α → α) (h : j ≠ k) :
    SMap.findD (SMap.upd m k d f) j d = SMap.findD m j d := by
  simp [SMap.upd, SMap.findD_putD_other _ _ _ _ h]

/-! The order of the keys. -/

/-- Every number listed in a table is greater than `k`. -/
def SMap.above (k : Nat) (m : SMap α) : Prop := ∀ p ∈ m, k < p.1

/-- The numbers of a table rise strictly. -/
def SMap.sorted : SMap α → Prop
  | [] => True
  | (k, _) :: m => SMap.above k m ∧ SMap.sorted m

theorem SMap.above_put {m : SMap α} {j k : Nat} {v : α} (h : SMap.above j m) (hk : j < k) :
    SMap.above j (SMap.put m k v) := by
  induction m with
  | nil => simp [SMap.put, SMap.above, hk]
  | cons q m ih =>
    have hq := h q (by simp)
    have hm : SMap.above j m := fun p hp => h p (by simp [hp])
    have hp := ih hm
    simp only [SMap.put]
    split
    · exact fun p h' => (List.mem_cons.mp h').elim (fun e => e ▸ hk) (hm p)
    · split
      · refine fun p h' => (List.mem_cons.mp h').elim (fun e => e ▸ hk) (fun h' => ?_)
        exact (List.mem_cons.mp h').elim (fun e => e ▸ hq) (hm p)
      · exact fun p h' => (List.mem_cons.mp h').elim (fun e => e ▸ hq) (hp p)

theorem SMap.above_del {m : SMap α} {j k : Nat} (h : SMap.above j m) : SMap.above j (SMap.del m k) := by
  induction m with
  | nil => exact h
  | cons q m ih =>
    have hq := h q (by simp)
    have hm : SMap.above j m := fun p hp => h p (by simp [hp])
    simp only [SMap.del]
    split
    · exact ih hm
    · exact fun p h' => (List.mem_cons.mp h').elim (fun e => e ▸ hq) (ih hm p)

theorem SMap.sorted_put {m : SMap α} {k : Nat} {v : α} (h : SMap.sorted m) : SMap.sorted (SMap.put m k v) := by
  induction m with
  | nil => simp [SMap.put, SMap.sorted, SMap.above]
  | cons q m ih =>
    obtain ⟨hq, hm⟩ := h
    simp only [SMap.put]
    split
    · rename_i h1
      exact ⟨h1 ▸ hq, hm⟩
    · split
      · rename_i h1 h2
        refine ⟨fun p hp => ?_, hq, hm⟩
        rcases List.mem_cons.mp hp with rfl | hp
        · exact h2
        · exact Nat.lt_trans h2 (hq p hp)
      · rename_i h1 h2
        exact ⟨SMap.above_put hq (by omega), ih hm⟩

theorem SMap.sorted_del {m : SMap α} {k : Nat} (h : SMap.sorted m) : SMap.sorted (SMap.del m k) := by
  induction m with
  | nil => exact h
  | cons q m ih =>
    obtain ⟨hq, hm⟩ := h
    simp only [SMap.del]
    split
    · exact ih hm
    · exact ⟨SMap.above_del hq, ih hm⟩

theorem SMap.sorted_putD [DecidableEq α] {m : SMap α} {k : Nat} {v d : α} (h : SMap.sorted m) :
    SMap.sorted (SMap.putD m k v d) := by
  unfold SMap.putD
  split
  · exact SMap.sorted_del h
  · exact SMap.sorted_put h

end Sys2Proof.Machine
end

