-- ==== Sys2Proof/Laws/Regs.lean ====
section
/-! SUPPORT. The stored registers: what a word or a field reads after a word or a field has been written. -/

namespace Sys2Proof.Machine

/-- The offset of element `i` of a field's register. -/
def Fld.at (f : Fld) (i : Nat) : Nat := f.off + i * f.stride

@[simp] theorem regGet_regSet_same (s : State) (off : Nat) (v : Word) : (s.regSet off v).regGet off = v :=
  SMap.findD_putD_same s.regs off v (regReset off)

theorem regGet_regSet_other (s : State) {off off' : Nat} (v : Word) (h : off' ≠ off) :
    (s.regSet off v).regGet off' = s.regGet off' :=
  SMap.findD_putD_other s.regs v (regReset off) (regReset off') h

/-- The word that a field write stores. -/
theorem regGet_wr_same (s : State) (f : Fld) (v i : Nat) :
    (s.wr f v i).regGet (f.at i) = BitVec.ofNat 64 (setBitsOf (s.regGet (f.at i)).toNat f.lo f.width v) :=
  regGet_regSet_same _ _ _

theorem regGet_wr_other (s : State) (f : Fld) (v i : Nat) {off : Nat} (h : off ≠ f.at i) :
    (s.wr f v i).regGet off = s.regGet off :=
  regGet_regSet_other _ _ h

/-- A field reads what was written to it. -/
theorem rd_wr_same (s : State) (f : Fld) (v i : Nat) (h : f.lo + f.width ≤ 64) :
    (s.wr f v i).rd f i = v % 2 ^ f.width := by
  show bitsOf ((s.wr f v i).regGet (f.at i)).toNat f.lo f.width = _
  rw [regGet_wr_same, BitVec.toNat_ofNat, Nat.mod_eq_of_lt (setBitsOf_lt _ _ _ _ (BitVec.isLt _) h)]
  exact bitsOf_setBitsOf_same _ _ _ _

/-- A field of another register reads as before. -/
theorem rd_wr_other (s : State) (f g : Fld) (v i j : Nat) (h : g.at j ≠ f.at i) :
    (s.wr f v i).rd g j = s.rd g j := by
  show bitsOf ((s.wr f v i).regGet (g.at j)).toNat g.lo g.width = _
  rw [regGet_wr_other _ _ _ _ h]
  rfl

/-- A field of the same register that shares no bit reads as before. -/
theorem rd_wr_apart (s : State) (f g : Fld) (v i j : Nat) (hf : f.lo + f.width ≤ 64)
    (ho : g.at j = f.at i) (h : g.lo + g.width ≤ f.lo ∨ f.lo + f.width ≤ g.lo) : (s.wr f v i).rd g j = s.rd g j := by
  show bitsOf ((s.wr f v i).regGet (g.at j)).toNat g.lo g.width = bitsOf (s.regGet (g.at j)).toNat g.lo g.width
  rw [ho, regGet_wr_same, BitVec.toNat_ofNat, Nat.mod_eq_of_lt (setBitsOf_lt _ _ _ _ (BitVec.isLt _) hf),
    bitsOf_setBitsOf_other _ _ _ _ _ _ h]

theorem rd_lt (s : State) (f : Fld) (i : Nat) : s.rd f i < 2 ^ f.width := bitsOf_lt _ _ _

end Sys2Proof.Machine
end

