-- ==== Sys2Proof/Laws/State.lean ====
section
/-! SUPPORT. What the plain updates of the state leave: one lemma for each field an update does not touch. -/

namespace Sys2Proof.Machine

/-! State.setArb -/

@[simp] theorem State.setArb_fuse (s : State) (ac inst : Nat) (a : Arb) : (s.setArb ac inst a).fuse = s.fuse := rfl
@[simp] theorem State.setArb_now (s : State) (ac inst : Nat) (a : Arb) : (s.setArb ac inst a).now = s.now := rfl
@[simp] theorem State.setArb_headId (s : State) (ac inst : Nat) (a : Arb) : (s.setArb ac inst a).headId = s.headId := rfl
@[simp] theorem State.setArb_life (s : State) (ac inst : Nat) (a : Arb) : (s.setArb ac inst a).life = s.life := rfl
@[simp] theorem State.setArb_regs (s : State) (ac inst : Nat) (a : Arb) : (s.setArb ac inst a).regs = s.regs := rfl
@[simp] theorem State.setArb_locked (s : State) (ac inst : Nat) (a : Arb) : (s.setArb ac inst a).locked = s.locked := rfl
@[simp] theorem State.setArb_latches (s : State) (ac inst : Nat) (a : Arb) : (s.setArb ac inst a).latches = s.latches := rfl
@[simp] theorem State.setArb_threads (s : State) (ac inst : Nat) (a : Arb) : (s.setArb ac inst a).threads = s.threads := rfl
@[simp] theorem State.setArb_items (s : State) (ac inst : Nat) (a : Arb) : (s.setArb ac inst a).items = s.items := rfl
@[simp] theorem State.setArb_queues (s : State) (ac inst : Nat) (a : Arb) : (s.setArb ac inst a).queues = s.queues := rfl
@[simp] theorem State.setArb_bufs (s : State) (ac inst : Nat) (a : Arb) : (s.setArb ac inst a).bufs = s.bufs := rfl
@[simp] theorem State.setArb_gens (s : State) (ac inst : Nat) (a : Arb) : (s.setArb ac inst a).gens = s.gens := rfl
@[simp] theorem State.setArb_mem (s : State) (ac inst : Nat) (a : Arb) : (s.setArb ac inst a).mem = s.mem := rfl
@[simp] theorem State.setArb_eccFix (s : State) (ac inst : Nat) (a : Arb) : (s.setArb ac inst a).eccFix = s.eccFix := rfl
@[simp] theorem State.setArb_eccBad (s : State) (ac inst : Nat) (a : Arb) : (s.setArb ac inst a).eccBad = s.eccBad := rfl
@[simp] theorem State.setArb_dcache (s : State) (ac inst : Nat) (a : Arb) : (s.setArb ac inst a).dcache = s.dcache := rfl
@[simp] theorem State.setArb_rings (s : State) (ac inst : Nat) (a : Arb) : (s.setArb ac inst a).rings = s.rings := rfl
@[simp] theorem State.setArb_comps (s : State) (ac inst : Nat) (a : Arb) : (s.setArb ac inst a).comps = s.comps := rfl
@[simp] theorem State.setArb_srch (s : State) (ac inst : Nat) (a : Arb) : (s.setArb ac inst a).srch = s.srch := rfl
@[simp] theorem State.setArb_srchBusy (s : State) (ac inst : Nat) (a : Arb) : (s.setArb ac inst a).srchBusy = s.srchBusy := rfl
@[simp] theorem State.setArb_prms (s : State) (ac inst : Nat) (a : Arb) : (s.setArb ac inst a).prms = s.prms := rfl
@[simp] theorem State.setArb_wktBuckets (s : State) (ac inst : Nat) (a : Arb) : (s.setArb ac inst a).wktBuckets = s.wktBuckets := rfl
@[simp] theorem State.setArb_braceAt (s : State) (ac inst : Nat) (a : Arb) : (s.setArb ac inst a).braceAt = s.braceAt := rfl
@[simp] theorem State.setArb_tookOver (s : State) (ac inst : Nat) (a : Arb) : (s.setArb ac inst a).tookOver = s.tookOver := rfl
@[simp] theorem State.setArb_rxRing (s : State) (ac inst : Nat) (a : Arb) : (s.setArb ac inst a).rxRing = s.rxRing := rfl
@[simp] theorem State.setArb_fe (s : State) (ac inst : Nat) (a : Arb) : (s.setArb ac inst a).fe = s.fe := rfl
@[simp] theorem State.setArb_trn (s : State) (ac inst : Nat) (a : Arb) : (s.setArb ac inst a).trn = s.trn := rfl
@[simp] theorem State.setArb_slotRsv (s : State) (ac inst : Nat) (a : Arb) : (s.setArb ac inst a).slotRsv = s.slotRsv := rfl
@[simp] theorem State.setArb_dg (s : State) (ac inst : Nat) (a : Arb) : (s.setArb ac inst a).dg = s.dg := rfl
@[simp] theorem State.setArb_ddx (s : State) (ac inst : Nat) (a : Arb) : (s.setArb ac inst a).ddx = s.ddx := rfl
@[simp] theorem State.setArb_xtsKeys (s : State) (ac inst : Nat) (a : Arb) : (s.setArb ac inst a).xtsKeys = s.xtsKeys := rfl
@[simp] theorem State.setArb_sleds (s : State) (ac inst : Nat) (a : Arb) : (s.setArb ac inst a).sleds = s.sleds := rfl
@[simp] theorem State.setArb_lanes (s : State) (ac inst : Nat) (a : Arb) : (s.setArb ac inst a).lanes = s.lanes := rfl
@[simp] theorem State.setArb_seg (s : State) (ac inst : Nat) (a : Arb) : (s.setArb ac inst a).seg = s.seg := rfl
@[simp] theorem State.setArb_map (s : State) (ac inst : Nat) (a : Arb) : (s.setArb ac inst a).map = s.map := rfl
@[simp] theorem State.setArb_vlt (s : State) (ac inst : Nat) (a : Arb) : (s.setArb ac inst a).vlt = s.vlt := rfl
@[simp] theorem State.setArb_evt (s : State) (ac inst : Nat) (a : Arb) : (s.setArb ac inst a).evt = s.evt := rfl
@[simp] theorem State.setArb_log (s : State) (ac inst : Nat) (a : Arb) : (s.setArb ac inst a).log = s.log := rfl
@[simp] theorem State.setArb_pins (s : State) (ac inst : Nat) (a : Arb) : (s.setArb ac inst a).pins = s.pins := rfl
@[simp] theorem State.setArb_pwr (s : State) (ac inst : Nat) (a : Arb) : (s.setArb ac inst a).pwr = s.pwr := rfl
@[simp] theorem State.setArb_pcie (s : State) (ac inst : Nat) (a : Arb) : (s.setArb ac inst a).pcie = s.pcie := rfl
@[simp] theorem State.setArb_mbx (s : State) (ac inst : Nat) (a : Arb) : (s.setArb ac inst a).mbx = s.mbx := rfl
@[simp] theorem State.setArb_doms (s : State) (ac inst : Nat) (a : Arb) : (s.setArb ac inst a).doms = s.doms := rfl
@[simp] theorem State.setArb_i2c (s : State) (ac inst : Nat) (a : Arb) : (s.setArb ac inst a).i2c = s.i2c := rfl
@[simp] theorem State.setArb_freeCtr (s : State) (ac inst : Nat) (a : Arb) : (s.setArb ac inst a).freeCtr = s.freeCtr := rfl
@[simp] theorem State.setArb_out (s : State) (ac inst : Nat) (a : Arb) : (s.setArb ac inst a).out = s.out := rfl
@[simp] theorem State.setArb_pending (s : State) (ac inst : Nat) (a : Arb) : (s.setArb ac inst a).pending = s.pending := rfl

/-! State.setRing -/

@[simp] theorem State.setRing_fuse (s : State) (cls inst cl : Nat) (l : List Job) : (s.setRing cls inst cl l).fuse = s.fuse := rfl
@[simp] theorem State.setRing_now (s : State) (cls inst cl : Nat) (l : List Job) : (s.setRing cls inst cl l).now = s.now := rfl
@[simp] theorem State.setRing_headId (s : State) (cls inst cl : Nat) (l : List Job) : (s.setRing cls inst cl l).headId = s.headId := rfl
@[simp] theorem State.setRing_life (s : State) (cls inst cl : Nat) (l : List Job) : (s.setRing cls inst cl l).life = s.life := rfl
@[simp] theorem State.setRing_regs (s : State) (cls inst cl : Nat) (l : List Job) : (s.setRing cls inst cl l).regs = s.regs := rfl
@[simp] theorem State.setRing_locked (s : State) (cls inst cl : Nat) (l : List Job) : (s.setRing cls inst cl l).locked = s.locked := rfl
@[simp] theorem State.setRing_latches (s : State) (cls inst cl : Nat) (l : List Job) : (s.setRing cls inst cl l).latches = s.latches := rfl
@[simp] theorem State.setRing_threads (s : State) (cls inst cl : Nat) (l : List Job) : (s.setRing cls inst cl l).threads = s.threads := rfl
@[simp] theorem State.setRing_items (s : State) (cls inst cl : Nat) (l : List Job) : (s.setRing cls inst cl l).items = s.items := rfl
@[simp] theorem State.setRing_queues (s : State) (cls inst cl : Nat) (l : List Job) : (s.setRing cls inst cl l).queues = s.queues := rfl
@[simp] theorem State.setRing_bufs (s : State) (cls inst cl : Nat) (l : List Job) : (s.setRing cls inst cl l).bufs = s.bufs := rfl
@[simp] theorem State.setRing_gens (s : State) (cls inst cl : Nat) (l : List Job) : (s.setRing cls inst cl l).gens = s.gens := rfl
@[simp] theorem State.setRing_mem (s : State) (cls inst cl : Nat) (l : List Job) : (s.setRing cls inst cl l).mem = s.mem := rfl
@[simp] theorem State.setRing_eccFix (s : State) (cls inst cl : Nat) (l : List Job) : (s.setRing cls inst cl l).eccFix = s.eccFix := rfl
@[simp] theorem State.setRing_eccBad (s : State) (cls inst cl : Nat) (l : List Job) : (s.setRing cls inst cl l).eccBad = s.eccBad := rfl
@[simp] theorem State.setRing_dcache (s : State) (cls inst cl : Nat) (l : List Job) : (s.setRing cls inst cl l).dcache = s.dcache := rfl
@[simp] theorem State.setRing_comps (s : State) (cls inst cl : Nat) (l : List Job) : (s.setRing cls inst cl l).comps = s.comps := rfl
@[simp] theorem State.setRing_arbs (s : State) (cls inst cl : Nat) (l : List Job) : (s.setRing cls inst cl l).arbs = s.arbs := rfl
@[simp] theorem State.setRing_srch (s : State) (cls inst cl : Nat) (l : List Job) : (s.setRing cls inst cl l).srch = s.srch := rfl
@[simp] theorem State.setRing_srchBusy (s : State) (cls inst cl : Nat) (l : List Job) : (s.setRing cls inst cl l).srchBusy = s.srchBusy := rfl
@[simp] theorem State.setRing_prms (s : State) (cls inst cl : Nat) (l : List Job) : (s.setRing cls inst cl l).prms = s.prms := rfl
@[simp] theorem State.setRing_wktBuckets (s : State) (cls inst cl : Nat) (l : List Job) : (s.setRing cls inst cl l).wktBuckets = s.wktBuckets := rfl
@[simp] theorem State.setRing_braceAt (s : State) (cls inst cl : Nat) (l : List Job) : (s.setRing cls inst cl l).braceAt = s.braceAt := rfl
@[simp] theorem State.setRing_tookOver (s : State) (cls inst cl : Nat) (l : List Job) : (s.setRing cls inst cl l).tookOver = s.tookOver := rfl
@[simp] theorem State.setRing_rxRing (s : State) (cls inst cl : Nat) (l : List Job) : (s.setRing cls inst cl l).rxRing = s.rxRing := rfl
@[simp] theorem State.setRing_fe (s : State) (cls inst cl : Nat) (l : List Job) : (s.setRing cls inst cl l).fe = s.fe := rfl
@[simp] theorem State.setRing_trn (s : State) (cls inst cl : Nat) (l : List Job) : (s.setRing cls inst cl l).trn = s.trn := rfl
@[simp] theorem State.setRing_slotRsv (s : State) (cls inst cl : Nat) (l : List Job) : (s.setRing cls inst cl l).slotRsv = s.slotRsv := rfl
@[simp] theorem State.setRing_dg (s : State) (cls inst cl : Nat) (l : List Job) : (s.setRing cls inst cl l).dg = s.dg := rfl
@[simp] theorem State.setRing_ddx (s : State) (cls inst cl : Nat) (l : List Job) : (s.setRing cls inst cl l).ddx = s.ddx := rfl
@[simp] theorem State.setRing_xtsKeys (s : State) (cls inst cl : Nat) (l : List Job) : (s.setRing cls inst cl l).xtsKeys = s.xtsKeys := rfl
@[simp] theorem State.setRing_sleds (s : State) (cls inst cl : Nat) (l : List Job) : (s.setRing cls inst cl l).sleds = s.sleds := rfl
@[simp] theorem State.setRing_lanes (s : State) (cls inst cl : Nat) (l : List Job) : (s.setRing cls inst cl l).lanes = s.lanes := rfl
@[simp] theorem State.setRing_seg (s : State) (cls inst cl : Nat) (l : List Job) : (s.setRing cls inst cl l).seg = s.seg := rfl
@[simp] theorem State.setRing_map (s : State) (cls inst cl : Nat) (l : List Job) : (s.setRing cls inst cl l).map = s.map := rfl
@[simp] theorem State.setRing_vlt (s : State) (cls inst cl : Nat) (l : List Job) : (s.setRing cls inst cl l).vlt = s.vlt := rfl
@[simp] theorem State.setRing_evt (s : State) (cls inst cl : Nat) (l : List Job) : (s.setRing cls inst cl l).evt = s.evt := rfl
@[simp] theorem State.setRing_log (s : State) (cls inst cl : Nat) (l : List Job) : (s.setRing cls inst cl l).log = s.log := rfl
@[simp] theorem State.setRing_pins (s : State) (cls inst cl : Nat) (l : List Job) : (s.setRing cls inst cl l).pins = s.pins := rfl
@[simp] theorem State.setRing_pwr (s : State) (cls inst cl : Nat) (l : List Job) : (s.setRing cls inst cl l).pwr = s.pwr := rfl
@[simp] theorem State.setRing_pcie (s : State) (cls inst cl : Nat) (l : List Job) : (s.setRing cls inst cl l).pcie = s.pcie := rfl
@[simp] theorem State.setRing_mbx (s : State) (cls inst cl : Nat) (l : List Job) : (s.setRing cls inst cl l).mbx = s.mbx := rfl
@[simp] theorem State.setRing_doms (s : State) (cls inst cl : Nat) (l : List Job) : (s.setRing cls inst cl l).doms = s.doms := rfl
@[simp] theorem State.setRing_i2c (s : State) (cls inst cl : Nat) (l : List Job) : (s.setRing cls inst cl l).i2c = s.i2c := rfl
@[simp] theorem State.setRing_freeCtr (s : State) (cls inst cl : Nat) (l : List Job) : (s.setRing cls inst cl l).freeCtr = s.freeCtr := rfl
@[simp] theorem State.setRing_out (s : State) (cls inst cl : Nat) (l : List Job) : (s.setRing cls inst cl l).out = s.out := rfl
@[simp] theorem State.setRing_pending (s : State) (cls inst cl : Nat) (l : List Job) : (s.setRing cls inst cl l).pending = s.pending := rfl

/-! State.setDgSlot -/

@[simp] theorem State.setDgSlot_fuse (s : State) (k : Nat) (x : DgSlot) : (s.setDgSlot k x).fuse = s.fuse := rfl
@[simp] theorem State.setDgSlot_now (s : State) (k : Nat) (x : DgSlot) : (s.setDgSlot k x).now = s.now := rfl
@[simp] theorem State.setDgSlot_headId (s : State) (k : Nat) (x : DgSlot) : (s.setDgSlot k x).headId = s.headId := rfl
@[simp] theorem State.setDgSlot_life (s : State) (k : Nat) (x : DgSlot) : (s.setDgSlot k x).life = s.life := rfl
@[simp] theorem State.setDgSlot_regs (s : State) (k : Nat) (x : DgSlot) : (s.setDgSlot k x).regs = s.regs := rfl
@[simp] theorem State.setDgSlot_locked (s : State) (k : Nat) (x : DgSlot) : (s.setDgSlot k x).locked = s.locked := rfl
@[simp] theorem State.setDgSlot_latches (s : State) (k : Nat) (x : DgSlot) : (s.setDgSlot k x).latches = s.latches := rfl
@[simp] theorem State.setDgSlot_threads (s : State) (k : Nat) (x : DgSlot) : (s.setDgSlot k x).threads = s.threads := rfl
@[simp] theorem State.setDgSlot_items (s : State) (k : Nat) (x : DgSlot) : (s.setDgSlot k x).items = s.items := rfl
@[simp] theorem State.setDgSlot_queues (s : State) (k : Nat) (x : DgSlot) : (s.setDgSlot k x).queues = s.queues := rfl
@[simp] theorem State.setDgSlot_bufs (s : State) (k : Nat) (x : DgSlot) : (s.setDgSlot k x).bufs = s.bufs := rfl
@[simp] theorem State.setDgSlot_gens (s : State) (k : Nat) (x : DgSlot) : (s.setDgSlot k x).gens = s.gens := rfl
@[simp] theorem State.setDgSlot_mem (s : State) (k : Nat) (x : DgSlot) : (s.setDgSlot k x).mem = s.mem := rfl
@[simp] theorem State.setDgSlot_eccFix (s : State) (k : Nat) (x : DgSlot) : (s.setDgSlot k x).eccFix = s.eccFix := rfl
@[simp] theorem State.setDgSlot_eccBad (s : State) (k : Nat) (x : DgSlot) : (s.setDgSlot k x).eccBad = s.eccBad := rfl
@[simp] theorem State.setDgSlot_dcache (s : State) (k : Nat) (x : DgSlot) : (s.setDgSlot k x).dcache = s.dcache := rfl
@[simp] theorem State.setDgSlot_rings (s : State) (k : Nat) (x : DgSlot) : (s.setDgSlot k x).rings = s.rings := rfl
@[simp] theorem State.setDgSlot_comps (s : State) (k : Nat) (x : DgSlot) : (s.setDgSlot k x).comps = s.comps := rfl
@[simp] theorem State.setDgSlot_arbs (s : State) (k : Nat) (x : DgSlot) : (s.setDgSlot k x).arbs = s.arbs := rfl
@[simp] theorem State.setDgSlot_srch (s : State) (k : Nat) (x : DgSlot) : (s.setDgSlot k x).srch = s.srch := rfl
@[simp] theorem State.setDgSlot_srchBusy (s : State) (k : Nat) (x : DgSlot) : (s.setDgSlot k x).srchBusy = s.srchBusy := rfl
@[simp] theorem State.setDgSlot_prms (s : State) (k : Nat) (x : DgSlot) : (s.setDgSlot k x).prms = s.prms := rfl
@[simp] theorem State.setDgSlot_wktBuckets (s : State) (k : Nat) (x : DgSlot) : (s.setDgSlot k x).wktBuckets = s.wktBuckets := rfl
@[simp] theorem State.setDgSlot_braceAt (s : State) (k : Nat) (x : DgSlot) : (s.setDgSlot k x).braceAt = s.braceAt := rfl
@[simp] theorem State.setDgSlot_tookOver (s : State) (k : Nat) (x : DgSlot) : (s.setDgSlot k x).tookOver = s.tookOver := rfl
@[simp] theorem State.setDgSlot_rxRing (s : State) (k : Nat) (x : DgSlot) : (s.setDgSlot k x).rxRing = s.rxRing := rfl
@[simp] theorem State.setDgSlot_fe (s : State) (k : Nat) (x : DgSlot) : (s.setDgSlot k x).fe = s.fe := rfl
@[simp] theorem State.setDgSlot_trn (s : State) (k : Nat) (x : DgSlot) : (s.setDgSlot k x).trn = s.trn := rfl
@[simp] theorem State.setDgSlot_slotRsv (s : State) (k : Nat) (x : DgSlot) : (s.setDgSlot k x).slotRsv = s.slotRsv := rfl
@[simp] theorem State.setDgSlot_ddx (s : State) (k : Nat) (x : DgSlot) : (s.setDgSlot k x).ddx = s.ddx := rfl
@[simp] theorem State.setDgSlot_xtsKeys (s : State) (k : Nat) (x : DgSlot) : (s.setDgSlot k x).xtsKeys = s.xtsKeys := rfl
@[simp] theorem State.setDgSlot_sleds (s : State) (k : Nat) (x : DgSlot) : (s.setDgSlot k x).sleds = s.sleds := rfl
@[simp] theorem State.setDgSlot_lanes (s : State) (k : Nat) (x : DgSlot) : (s.setDgSlot k x).lanes = s.lanes := rfl
@[simp] theorem State.setDgSlot_seg (s : State) (k : Nat) (x : DgSlot) : (s.setDgSlot k x).seg = s.seg := rfl
@[simp] theorem State.setDgSlot_map (s : State) (k : Nat) (x : DgSlot) : (s.setDgSlot k x).map = s.map := rfl
@[simp] theorem State.setDgSlot_vlt (s : State) (k : Nat) (x : DgSlot) : (s.setDgSlot k x).vlt = s.vlt := rfl
@[simp] theorem State.setDgSlot_evt (s : State) (k : Nat) (x : DgSlot) : (s.setDgSlot k x).evt = s.evt := rfl
@[simp] theorem State.setDgSlot_log (s : State) (k : Nat) (x : DgSlot) : (s.setDgSlot k x).log = s.log := rfl
@[simp] theorem State.setDgSlot_pins (s : State) (k : Nat) (x : DgSlot) : (s.setDgSlot k x).pins = s.pins := rfl
@[simp] theorem State.setDgSlot_pwr (s : State) (k : Nat) (x : DgSlot) : (s.setDgSlot k x).pwr = s.pwr := rfl
@[simp] theorem State.setDgSlot_pcie (s : State) (k : Nat) (x : DgSlot) : (s.setDgSlot k x).pcie = s.pcie := rfl
@[simp] theorem State.setDgSlot_mbx (s : State) (k : Nat) (x : DgSlot) : (s.setDgSlot k x).mbx = s.mbx := rfl
@[simp] theorem State.setDgSlot_doms (s : State) (k : Nat) (x : DgSlot) : (s.setDgSlot k x).doms = s.doms := rfl
@[simp] theorem State.setDgSlot_i2c (s : State) (k : Nat) (x : DgSlot) : (s.setDgSlot k x).i2c = s.i2c := rfl
@[simp] theorem State.setDgSlot_freeCtr (s : State) (k : Nat) (x : DgSlot) : (s.setDgSlot k x).freeCtr = s.freeCtr := rfl
@[simp] theorem State.setDgSlot_out (s : State) (k : Nat) (x : DgSlot) : (s.setDgSlot k x).out = s.out := rfl
@[simp] theorem State.setDgSlot_pending (s : State) (k : Nat) (x : DgSlot) : (s.setDgSlot k x).pending = s.pending := rfl

/-! State.dgLose -/

@[simp] theorem State.dgLose_fuse (s : State) (lane : Nat) : (s.dgLose lane).fuse = s.fuse := rfl
@[simp] theorem State.dgLose_now (s : State) (lane : Nat) : (s.dgLose lane).now = s.now := rfl
@[simp] theorem State.dgLose_headId (s : State) (lane : Nat) : (s.dgLose lane).headId = s.headId := rfl
@[simp] theorem State.dgLose_life (s : State) (lane : Nat) : (s.dgLose lane).life = s.life := rfl
@[simp] theorem State.dgLose_regs (s : State) (lane : Nat) : (s.dgLose lane).regs = s.regs := rfl
@[simp] theorem State.dgLose_locked (s : State) (lane : Nat) : (s.dgLose lane).locked = s.locked := rfl
@[simp] theorem State.dgLose_latches (s : State) (lane : Nat) : (s.dgLose lane).latches = s.latches := rfl
@[simp] theorem State.dgLose_threads (s : State) (lane : Nat) : (s.dgLose lane).threads = s.threads := rfl
@[simp] theorem State.dgLose_items (s : State) (lane : Nat) : (s.dgLose lane).items = s.items := rfl
@[simp] theorem State.dgLose_queues (s : State) (lane : Nat) : (s.dgLose lane).queues = s.queues := rfl
@[simp] theorem State.dgLose_bufs (s : State) (lane : Nat) : (s.dgLose lane).bufs = s.bufs := rfl
@[simp] theorem State.dgLose_gens (s : State) (lane : Nat) : (s.dgLose lane).gens = s.gens := rfl
@[simp] theorem State.dgLose_mem (s : State) (lane : Nat) : (s.dgLose lane).mem = s.mem := rfl
@[simp] theorem State.dgLose_eccFix (s : State) (lane : Nat) : (s.dgLose lane).eccFix = s.eccFix := rfl
@[simp] theorem State.dgLose_eccBad (s : State) (lane : Nat) : (s.dgLose lane).eccBad = s.eccBad := rfl
@[simp] theorem State.dgLose_dcache (s : State) (lane : Nat) : (s.dgLose lane).dcache = s.dcache := rfl
@[simp] theorem State.dgLose_rings (s : State) (lane : Nat) : (s.dgLose lane).rings = s.rings := rfl
@[simp] theorem State.dgLose_comps (s : State) (lane : Nat) : (s.dgLose lane).comps = s.comps := rfl
@[simp] theorem State.dgLose_arbs (s : State) (lane : Nat) : (s.dgLose lane).arbs = s.arbs := rfl
@[simp] theorem State.dgLose_srch (s : State) (lane : Nat) : (s.dgLose lane).srch = s.srch := rfl
@[simp] theorem State.dgLose_srchBusy (s : State) (lane : Nat) : (s.dgLose lane).srchBusy = s.srchBusy := rfl
@[simp] theorem State.dgLose_prms (s : State) (lane : Nat) : (s.dgLose lane).prms = s.prms := rfl
@[simp] theorem State.dgLose_wktBuckets (s : State) (lane : Nat) : (s.dgLose lane).wktBuckets = s.wktBuckets := rfl
@[simp] theorem State.dgLose_braceAt (s : State) (lane : Nat) : (s.dgLose lane).braceAt = s.braceAt := rfl
@[simp] theorem State.dgLose_tookOver (s : State) (lane : Nat) : (s.dgLose lane).tookOver = s.tookOver := rfl
@[simp] theorem State.dgLose_rxRing (s : State) (lane : Nat) : (s.dgLose lane).rxRing = s.rxRing := rfl
@[simp] theorem State.dgLose_fe (s : State) (lane : Nat) : (s.dgLose lane).fe = s.fe := rfl
@[simp] theorem State.dgLose_trn (s : State) (lane : Nat) : (s.dgLose lane).trn = s.trn := rfl
@[simp] theorem State.dgLose_slotRsv (s : State) (lane : Nat) : (s.dgLose lane).slotRsv = s.slotRsv := rfl
@[simp] theorem State.dgLose_ddx (s : State) (lane : Nat) : (s.dgLose lane).ddx = s.ddx := rfl
@[simp] theorem State.dgLose_xtsKeys (s : State) (lane : Nat) : (s.dgLose lane).xtsKeys = s.xtsKeys := rfl
@[simp] theorem State.dgLose_sleds (s : State) (lane : Nat) : (s.dgLose lane).sleds = s.sleds := rfl
@[simp] theorem State.dgLose_lanes (s : State) (lane : Nat) : (s.dgLose lane).lanes = s.lanes := rfl
@[simp] theorem State.dgLose_seg (s : State) (lane : Nat) : (s.dgLose lane).seg = s.seg := rfl
@[simp] theorem State.dgLose_map (s : State) (lane : Nat) : (s.dgLose lane).map = s.map := rfl
@[simp] theorem State.dgLose_vlt (s : State) (lane : Nat) : (s.dgLose lane).vlt = s.vlt := rfl
@[simp] theorem State.dgLose_evt (s : State) (lane : Nat) : (s.dgLose lane).evt = s.evt := rfl
@[simp] theorem State.dgLose_log (s : State) (lane : Nat) : (s.dgLose lane).log = s.log := rfl
@[simp] theorem State.dgLose_pins (s : State) (lane : Nat) : (s.dgLose lane).pins = s.pins := rfl
@[simp] theorem State.dgLose_pwr (s : State) (lane : Nat) : (s.dgLose lane).pwr = s.pwr := rfl
@[simp] theorem State.dgLose_pcie (s : State) (lane : Nat) : (s.dgLose lane).pcie = s.pcie := rfl
@[simp] theorem State.dgLose_mbx (s : State) (lane : Nat) : (s.dgLose lane).mbx = s.mbx := rfl
@[simp] theorem State.dgLose_doms (s : State) (lane : Nat) : (s.dgLose lane).doms = s.doms := rfl
@[simp] theorem State.dgLose_i2c (s : State) (lane : Nat) : (s.dgLose lane).i2c = s.i2c := rfl
@[simp] theorem State.dgLose_freeCtr (s : State) (lane : Nat) : (s.dgLose lane).freeCtr = s.freeCtr := rfl
@[simp] theorem State.dgLose_out (s : State) (lane : Nat) : (s.dgLose lane).out = s.out := rfl
@[simp] theorem State.dgLose_pending (s : State) (lane : Nat) : (s.dgLose lane).pending = s.pending := rfl

/-! State.logPut -/

@[simp] theorem State.logPut_fuse (s : State) (i : Nat) (r : LogRec) : (s.logPut i r).fuse = s.fuse := rfl
@[simp] theorem State.logPut_now (s : State) (i : Nat) (r : LogRec) : (s.logPut i r).now = s.now := rfl
@[simp] theorem State.logPut_headId (s : State) (i : Nat) (r : LogRec) : (s.logPut i r).headId = s.headId := rfl
@[simp] theorem State.logPut_life (s : State) (i : Nat) (r : LogRec) : (s.logPut i r).life = s.life := rfl
@[simp] theorem State.logPut_regs (s : State) (i : Nat) (r : LogRec) : (s.logPut i r).regs = s.regs := rfl
@[simp] theorem State.logPut_locked (s : State) (i : Nat) (r : LogRec) : (s.logPut i r).locked = s.locked := rfl
@[simp] theorem State.logPut_latches (s : State) (i : Nat) (r : LogRec) : (s.logPut i r).latches = s.latches := rfl
@[simp] theorem State.logPut_threads (s : State) (i : Nat) (r : LogRec) : (s.logPut i r).threads = s.threads := rfl
@[simp] theorem State.logPut_items (s : State) (i : Nat) (r : LogRec) : (s.logPut i r).items = s.items := rfl
@[simp] theorem State.logPut_queues (s : State) (i : Nat) (r : LogRec) : (s.logPut i r).queues = s.queues := rfl
@[simp] theorem State.logPut_bufs (s : State) (i : Nat) (r : LogRec) : (s.logPut i r).bufs = s.bufs := rfl
@[simp] theorem State.logPut_gens (s : State) (i : Nat) (r : LogRec) : (s.logPut i r).gens = s.gens := rfl
@[simp] theorem State.logPut_mem (s : State) (i : Nat) (r : LogRec) : (s.logPut i r).mem = s.mem := rfl
@[simp] theorem State.logPut_eccFix (s : State) (i : Nat) (r : LogRec) : (s.logPut i r).eccFix = s.eccFix := rfl
@[simp] theorem State.logPut_eccBad (s : State) (i : Nat) (r : LogRec) : (s.logPut i r).eccBad = s.eccBad := rfl
@[simp] theorem State.logPut_dcache (s : State) (i : Nat) (r : LogRec) : (s.logPut i r).dcache = s.dcache := rfl
@[simp] theorem State.logPut_rings (s : State) (i : Nat) (r : LogRec) : (s.logPut i r).rings = s.rings := rfl
@[simp] theorem State.logPut_comps (s : State) (i : Nat) (r : LogRec) : (s.logPut i r).comps = s.comps := rfl
@[simp] theorem State.logPut_arbs (s : State) (i : Nat) (r : LogRec) : (s.logPut i r).arbs = s.arbs := rfl
@[simp] theorem State.logPut_srch (s : State) (i : Nat) (r : LogRec) : (s.logPut i r).srch = s.srch := rfl
@[simp] theorem State.logPut_srchBusy (s : State) (i : Nat) (r : LogRec) : (s.logPut i r).srchBusy = s.srchBusy := rfl
@[simp] theorem State.logPut_prms (s : State) (i : Nat) (r : LogRec) : (s.logPut i r).prms = s.prms := rfl
@[simp] theorem State.logPut_wktBuckets (s : State) (i : Nat) (r : LogRec) : (s.logPut i r).wktBuckets = s.wktBuckets := rfl
@[simp] theorem State.logPut_braceAt (s : State) (i : Nat) (r : LogRec) : (s.logPut i r).braceAt = s.braceAt := rfl
@[simp] theorem State.logPut_tookOver (s : State) (i : Nat) (r : LogRec) : (s.logPut i r).tookOver = s.tookOver := rfl
@[simp] theorem State.logPut_rxRing (s : State) (i : Nat) (r : LogRec) : (s.logPut i r).rxRing = s.rxRing := rfl
@[simp] theorem State.logPut_fe (s : State) (i : Nat) (r : LogRec) : (s.logPut i r).fe = s.fe := rfl
@[simp] theorem State.logPut_trn (s : State) (i : Nat) (r : LogRec) : (s.logPut i r).trn = s.trn := rfl
@[simp] theorem State.logPut_slotRsv (s : State) (i : Nat) (r : LogRec) : (s.logPut i r).slotRsv = s.slotRsv := rfl
@[simp] theorem State.logPut_dg (s : State) (i : Nat) (r : LogRec) : (s.logPut i r).dg = s.dg := rfl
@[simp] theorem State.logPut_ddx (s : State) (i : Nat) (r : LogRec) : (s.logPut i r).ddx = s.ddx := rfl
@[simp] theorem State.logPut_xtsKeys (s : State) (i : Nat) (r : LogRec) : (s.logPut i r).xtsKeys = s.xtsKeys := rfl
@[simp] theorem State.logPut_sleds (s : State) (i : Nat) (r : LogRec) : (s.logPut i r).sleds = s.sleds := rfl
@[simp] theorem State.logPut_lanes (s : State) (i : Nat) (r : LogRec) : (s.logPut i r).lanes = s.lanes := rfl
@[simp] theorem State.logPut_seg (s : State) (i : Nat) (r : LogRec) : (s.logPut i r).seg = s.seg := rfl
@[simp] theorem State.logPut_map (s : State) (i : Nat) (r : LogRec) : (s.logPut i r).map = s.map := rfl
@[simp] theorem State.logPut_vlt (s : State) (i : Nat) (r : LogRec) : (s.logPut i r).vlt = s.vlt := rfl
@[simp] theorem State.logPut_evt (s : State) (i : Nat) (r : LogRec) : (s.logPut i r).evt = s.evt := rfl
@[simp] theorem State.logPut_pins (s : State) (i : Nat) (r : LogRec) : (s.logPut i r).pins = s.pins := rfl
@[simp] theorem State.logPut_pwr (s : State) (i : Nat) (r : LogRec) : (s.logPut i r).pwr = s.pwr := rfl
@[simp] theorem State.logPut_pcie (s : State) (i : Nat) (r : LogRec) : (s.logPut i r).pcie = s.pcie := rfl
@[simp] theorem State.logPut_mbx (s : State) (i : Nat) (r : LogRec) : (s.logPut i r).mbx = s.mbx := rfl
@[simp] theorem State.logPut_doms (s : State) (i : Nat) (r : LogRec) : (s.logPut i r).doms = s.doms := rfl
@[simp] theorem State.logPut_i2c (s : State) (i : Nat) (r : LogRec) : (s.logPut i r).i2c = s.i2c := rfl
@[simp] theorem State.logPut_freeCtr (s : State) (i : Nat) (r : LogRec) : (s.logPut i r).freeCtr = s.freeCtr := rfl
@[simp] theorem State.logPut_out (s : State) (i : Nat) (r : LogRec) : (s.logPut i r).out = s.out := rfl
@[simp] theorem State.logPut_pending (s : State) (i : Nat) (r : LogRec) : (s.logPut i r).pending = s.pending := rfl

/-! State.setVec -/

@[simp] theorem State.setVec_fuse (s : State) (v : Nat) (e : EvtVec) : (s.setVec v e).fuse = s.fuse := rfl
@[simp] theorem State.setVec_now (s : State) (v : Nat) (e : EvtVec) : (s.setVec v e).now = s.now := rfl
@[simp] theorem State.setVec_headId (s : State) (v : Nat) (e : EvtVec) : (s.setVec v e).headId = s.headId := rfl
@[simp] theorem State.setVec_life (s : State) (v : Nat) (e : EvtVec) : (s.setVec v e).life = s.life := rfl
@[simp] theorem State.setVec_regs (s : State) (v : Nat) (e : EvtVec) : (s.setVec v e).regs = s.regs := rfl
@[simp] theorem State.setVec_locked (s : State) (v : Nat) (e : EvtVec) : (s.setVec v e).locked = s.locked := rfl
@[simp] theorem State.setVec_latches (s : State) (v : Nat) (e : EvtVec) : (s.setVec v e).latches = s.latches := rfl
@[simp] theorem State.setVec_threads (s : State) (v : Nat) (e : EvtVec) : (s.setVec v e).threads = s.threads := rfl
@[simp] theorem State.setVec_items (s : State) (v : Nat) (e : EvtVec) : (s.setVec v e).items = s.items := rfl
@[simp] theorem State.setVec_queues (s : State) (v : Nat) (e : EvtVec) : (s.setVec v e).queues = s.queues := rfl
@[simp] theorem State.setVec_bufs (s : State) (v : Nat) (e : EvtVec) : (s.setVec v e).bufs = s.bufs := rfl
@[simp] theorem State.setVec_gens (s : State) (v : Nat) (e : EvtVec) : (s.setVec v e).gens = s.gens := rfl
@[simp] theorem State.setVec_mem (s : State) (v : Nat) (e : EvtVec) : (s.setVec v e).mem = s.mem := rfl
@[simp] theorem State.setVec_eccFix (s : State) (v : Nat) (e : EvtVec) : (s.setVec v e).eccFix = s.eccFix := rfl
@[simp] theorem State.setVec_eccBad (s : State) (v : Nat) (e : EvtVec) : (s.setVec v e).eccBad = s.eccBad := rfl
@[simp] theorem State.setVec_dcache (s : State) (v : Nat) (e : EvtVec) : (s.setVec v e).dcache = s.dcache := rfl
@[simp] theorem State.setVec_rings (s : State) (v : Nat) (e : EvtVec) : (s.setVec v e).rings = s.rings := rfl
@[simp] theorem State.setVec_comps (s : State) (v : Nat) (e : EvtVec) : (s.setVec v e).comps = s.comps := rfl
@[simp] theorem State.setVec_arbs (s : State) (v : Nat) (e : EvtVec) : (s.setVec v e).arbs = s.arbs := rfl
@[simp] theorem State.setVec_srch (s : State) (v : Nat) (e : EvtVec) : (s.setVec v e).srch = s.srch := rfl
@[simp] theorem State.setVec_srchBusy (s : State) (v : Nat) (e : EvtVec) : (s.setVec v e).srchBusy = s.srchBusy := rfl
@[simp] theorem State.setVec_prms (s : State) (v : Nat) (e : EvtVec) : (s.setVec v e).prms = s.prms := rfl
@[simp] theorem State.setVec_wktBuckets (s : State) (v : Nat) (e : EvtVec) : (s.setVec v e).wktBuckets = s.wktBuckets := rfl
@[simp] theorem State.setVec_braceAt (s : State) (v : Nat) (e : EvtVec) : (s.setVec v e).braceAt = s.braceAt := rfl
@[simp] theorem State.setVec_tookOver (s : State) (v : Nat) (e : EvtVec) : (s.setVec v e).tookOver = s.tookOver := rfl
@[simp] theorem State.setVec_rxRing (s : State) (v : Nat) (e : EvtVec) : (s.setVec v e).rxRing = s.rxRing := rfl
@[simp] theorem State.setVec_fe (s : State) (v : Nat) (e : EvtVec) : (s.setVec v e).fe = s.fe := rfl
@[simp] theorem State.setVec_trn (s : State) (v : Nat) (e : EvtVec) : (s.setVec v e).trn = s.trn := rfl
@[simp] theorem State.setVec_slotRsv (s : State) (v : Nat) (e : EvtVec) : (s.setVec v e).slotRsv = s.slotRsv := rfl
@[simp] theorem State.setVec_dg (s : State) (v : Nat) (e : EvtVec) : (s.setVec v e).dg = s.dg := rfl
@[simp] theorem State.setVec_ddx (s : State) (v : Nat) (e : EvtVec) : (s.setVec v e).ddx = s.ddx := rfl
@[simp] theorem State.setVec_xtsKeys (s : State) (v : Nat) (e : EvtVec) : (s.setVec v e).xtsKeys = s.xtsKeys := rfl
@[simp] theorem State.setVec_sleds (s : State) (v : Nat) (e : EvtVec) : (s.setVec v e).sleds = s.sleds := rfl
@[simp] theorem State.setVec_lanes (s : State) (v : Nat) (e : EvtVec) : (s.setVec v e).lanes = s.lanes := rfl
@[simp] theorem State.setVec_seg (s : State) (v : Nat) (e : EvtVec) : (s.setVec v e).seg = s.seg := rfl
@[simp] theorem State.setVec_map (s : State) (v : Nat) (e : EvtVec) : (s.setVec v e).map = s.map := rfl
@[simp] theorem State.setVec_vlt (s : State) (v : Nat) (e : EvtVec) : (s.setVec v e).vlt = s.vlt := rfl
@[simp] theorem State.setVec_log (s : State) (v : Nat) (e : EvtVec) : (s.setVec v e).log = s.log := rfl
@[simp] theorem State.setVec_pins (s : State) (v : Nat) (e : EvtVec) : (s.setVec v e).pins = s.pins := rfl
@[simp] theorem State.setVec_pwr (s : State) (v : Nat) (e : EvtVec) : (s.setVec v e).pwr = s.pwr := rfl
@[simp] theorem State.setVec_pcie (s : State) (v : Nat) (e : EvtVec) : (s.setVec v e).pcie = s.pcie := rfl
@[simp] theorem State.setVec_mbx (s : State) (v : Nat) (e : EvtVec) : (s.setVec v e).mbx = s.mbx := rfl
@[simp] theorem State.setVec_doms (s : State) (v : Nat) (e : EvtVec) : (s.setVec v e).doms = s.doms := rfl
@[simp] theorem State.setVec_i2c (s : State) (v : Nat) (e : EvtVec) : (s.setVec v e).i2c = s.i2c := rfl
@[simp] theorem State.setVec_freeCtr (s : State) (v : Nat) (e : EvtVec) : (s.setVec v e).freeCtr = s.freeCtr := rfl
@[simp] theorem State.setVec_out (s : State) (v : Nat) (e : EvtVec) : (s.setVec v e).out = s.out := rfl
@[simp] theorem State.setVec_pending (s : State) (v : Nat) (e : EvtVec) : (s.setVec v e).pending = s.pending := rfl

/-! State.calWrite -/

@[simp] theorem State.calWrite_fuse (s : State) (v : Nat) : (s.calWrite v).fuse = s.fuse := rfl
@[simp] theorem State.calWrite_now (s : State) (v : Nat) : (s.calWrite v).now = s.now := rfl
@[simp] theorem State.calWrite_headId (s : State) (v : Nat) : (s.calWrite v).headId = s.headId := rfl
@[simp] theorem State.calWrite_life (s : State) (v : Nat) : (s.calWrite v).life = s.life := rfl
@[simp] theorem State.calWrite_regs (s : State) (v : Nat) : (s.calWrite v).regs = s.regs := rfl
@[simp] theorem State.calWrite_locked (s : State) (v : Nat) : (s.calWrite v).locked = s.locked := rfl
@[simp] theorem State.calWrite_latches (s : State) (v : Nat) : (s.calWrite v).latches = s.latches := rfl
@[simp] theorem State.calWrite_threads (s : State) (v : Nat) : (s.calWrite v).threads = s.threads := rfl
@[simp] theorem State.calWrite_items (s : State) (v : Nat) : (s.calWrite v).items = s.items := rfl
@[simp] theorem State.calWrite_queues (s : State) (v : Nat) : (s.calWrite v).queues = s.queues := rfl
@[simp] theorem State.calWrite_bufs (s : State) (v : Nat) : (s.calWrite v).bufs = s.bufs := rfl
@[simp] theorem State.calWrite_gens (s : State) (v : Nat) : (s.calWrite v).gens = s.gens := rfl
@[simp] theorem State.calWrite_mem (s : State) (v : Nat) : (s.calWrite v).mem = s.mem := rfl
@[simp] theorem State.calWrite_eccFix (s : State) (v : Nat) : (s.calWrite v).eccFix = s.eccFix := rfl
@[simp] theorem State.calWrite_eccBad (s : State) (v : Nat) : (s.calWrite v).eccBad = s.eccBad := rfl
@[simp] theorem State.calWrite_dcache (s : State) (v : Nat) : (s.calWrite v).dcache = s.dcache := rfl
@[simp] theorem State.calWrite_rings (s : State) (v : Nat) : (s.calWrite v).rings = s.rings := rfl
@[simp] theorem State.calWrite_comps (s : State) (v : Nat) : (s.calWrite v).comps = s.comps := rfl
@[simp] theorem State.calWrite_arbs (s : State) (v : Nat) : (s.calWrite v).arbs = s.arbs := rfl
@[simp] theorem State.calWrite_srch (s : State) (v : Nat) : (s.calWrite v).srch = s.srch := rfl
@[simp] theorem State.calWrite_srchBusy (s : State) (v : Nat) : (s.calWrite v).srchBusy = s.srchBusy := rfl
@[simp] theorem State.calWrite_prms (s : State) (v : Nat) : (s.calWrite v).prms = s.prms := rfl
@[simp] theorem State.calWrite_wktBuckets (s : State) (v : Nat) : (s.calWrite v).wktBuckets = s.wktBuckets := rfl
@[simp] theorem State.calWrite_braceAt (s : State) (v : Nat) : (s.calWrite v).braceAt = s.braceAt := rfl
@[simp] theorem State.calWrite_tookOver (s : State) (v : Nat) : (s.calWrite v).tookOver = s.tookOver := rfl
@[simp] theorem State.calWrite_rxRing (s : State) (v : Nat) : (s.calWrite v).rxRing = s.rxRing := rfl
@[simp] theorem State.calWrite_fe (s : State) (v : Nat) : (s.calWrite v).fe = s.fe := rfl
@[simp] theorem State.calWrite_trn (s : State) (v : Nat) : (s.calWrite v).trn = s.trn := rfl
@[simp] theorem State.calWrite_slotRsv (s : State) (v : Nat) : (s.calWrite v).slotRsv = s.slotRsv := rfl
@[simp] theorem State.calWrite_dg (s : State) (v : Nat) : (s.calWrite v).dg = s.dg := rfl
@[simp] theorem State.calWrite_ddx (s : State) (v : Nat) : (s.calWrite v).ddx = s.ddx := rfl
@[simp] theorem State.calWrite_xtsKeys (s : State) (v : Nat) : (s.calWrite v).xtsKeys = s.xtsKeys := rfl
@[simp] theorem State.calWrite_sleds (s : State) (v : Nat) : (s.calWrite v).sleds = s.sleds := rfl
@[simp] theorem State.calWrite_lanes (s : State) (v : Nat) : (s.calWrite v).lanes = s.lanes := rfl
@[simp] theorem State.calWrite_seg (s : State) (v : Nat) : (s.calWrite v).seg = s.seg := rfl
@[simp] theorem State.calWrite_map (s : State) (v : Nat) : (s.calWrite v).map = s.map := rfl
@[simp] theorem State.calWrite_vlt (s : State) (v : Nat) : (s.calWrite v).vlt = s.vlt := rfl
@[simp] theorem State.calWrite_evt (s : State) (v : Nat) : (s.calWrite v).evt = s.evt := rfl
@[simp] theorem State.calWrite_pins (s : State) (v : Nat) : (s.calWrite v).pins = s.pins := rfl
@[simp] theorem State.calWrite_pwr (s : State) (v : Nat) : (s.calWrite v).pwr = s.pwr := rfl
@[simp] theorem State.calWrite_pcie (s : State) (v : Nat) : (s.calWrite v).pcie = s.pcie := rfl
@[simp] theorem State.calWrite_mbx (s : State) (v : Nat) : (s.calWrite v).mbx = s.mbx := rfl
@[simp] theorem State.calWrite_doms (s : State) (v : Nat) : (s.calWrite v).doms = s.doms := rfl
@[simp] theorem State.calWrite_i2c (s : State) (v : Nat) : (s.calWrite v).i2c = s.i2c := rfl
@[simp] theorem State.calWrite_freeCtr (s : State) (v : Nat) : (s.calWrite v).freeCtr = s.freeCtr := rfl
@[simp] theorem State.calWrite_out (s : State) (v : Nat) : (s.calWrite v).out = s.out := rfl
@[simp] theorem State.calWrite_pending (s : State) (v : Nat) : (s.calWrite v).pending = s.pending := rfl

/-! State.feRemove -/

@[simp] theorem State.feRemove_fuse (s : State) (c : Nat) : (s.feRemove c).fuse = s.fuse := rfl
@[simp] theorem State.feRemove_now (s : State) (c : Nat) : (s.feRemove c).now = s.now := rfl
@[simp] theorem State.feRemove_headId (s : State) (c : Nat) : (s.feRemove c).headId = s.headId := rfl
@[simp] theorem State.feRemove_life (s : State) (c : Nat) : (s.feRemove c).life = s.life := rfl
@[simp] theorem State.feRemove_regs (s : State) (c : Nat) : (s.feRemove c).regs = s.regs := rfl
@[simp] theorem State.feRemove_locked (s : State) (c : Nat) : (s.feRemove c).locked = s.locked := rfl
@[simp] theorem State.feRemove_latches (s : State) (c : Nat) : (s.feRemove c).latches = s.latches := rfl
@[simp] theorem State.feRemove_threads (s : State) (c : Nat) : (s.feRemove c).threads = s.threads := rfl
@[simp] theorem State.feRemove_items (s : State) (c : Nat) : (s.feRemove c).items = s.items := rfl
@[simp] theorem State.feRemove_queues (s : State) (c : Nat) : (s.feRemove c).queues = s.queues := rfl
@[simp] theorem State.feRemove_bufs (s : State) (c : Nat) : (s.feRemove c).bufs = s.bufs := rfl
@[simp] theorem State.feRemove_gens (s : State) (c : Nat) : (s.feRemove c).gens = s.gens := rfl
@[simp] theorem State.feRemove_mem (s : State) (c : Nat) : (s.feRemove c).mem = s.mem := rfl
@[simp] theorem State.feRemove_eccFix (s : State) (c : Nat) : (s.feRemove c).eccFix = s.eccFix := rfl
@[simp] theorem State.feRemove_eccBad (s : State) (c : Nat) : (s.feRemove c).eccBad = s.eccBad := rfl
@[simp] theorem State.feRemove_dcache (s : State) (c : Nat) : (s.feRemove c).dcache = s.dcache := rfl
@[simp] theorem State.feRemove_rings (s : State) (c : Nat) : (s.feRemove c).rings = s.rings := rfl
@[simp] theorem State.feRemove_comps (s : State) (c : Nat) : (s.feRemove c).comps = s.comps := rfl
@[simp] theorem State.feRemove_arbs (s : State) (c : Nat) : (s.feRemove c).arbs = s.arbs := rfl
@[simp] theorem State.feRemove_srch (s : State) (c : Nat) : (s.feRemove c).srch = s.srch := rfl
@[simp] theorem State.feRemove_srchBusy (s : State) (c : Nat) : (s.feRemove c).srchBusy = s.srchBusy := rfl
@[simp] theorem State.feRemove_prms (s : State) (c : Nat) : (s.feRemove c).prms = s.prms := rfl
@[simp] theorem State.feRemove_wktBuckets (s : State) (c : Nat) : (s.feRemove c).wktBuckets = s.wktBuckets := rfl
@[simp] theorem State.feRemove_braceAt (s : State) (c : Nat) : (s.feRemove c).braceAt = s.braceAt := rfl
@[simp] theorem State.feRemove_tookOver (s : State) (c : Nat) : (s.feRemove c).tookOver = s.tookOver := rfl
@[simp] theorem State.feRemove_rxRing (s : State) (c : Nat) : (s.feRemove c).rxRing = s.rxRing := rfl
@[simp] theorem State.feRemove_trn (s : State) (c : Nat) : (s.feRemove c).trn = s.trn := rfl
@[simp] theorem State.feRemove_slotRsv (s : State) (c : Nat) : (s.feRemove c).slotRsv = s.slotRsv := rfl
@[simp] theorem State.feRemove_dg (s : State) (c : Nat) : (s.feRemove c).dg = s.dg := rfl
@[simp] theorem State.feRemove_ddx (s : State) (c : Nat) : (s.feRemove c).ddx = s.ddx := rfl
@[simp] theorem State.feRemove_xtsKeys (s : State) (c : Nat) : (s.feRemove c).xtsKeys = s.xtsKeys := rfl
@[simp] theorem State.feRemove_sleds (s : State) (c : Nat) : (s.feRemove c).sleds = s.sleds := rfl
@[simp] theorem State.feRemove_lanes (s : State) (c : Nat) : (s.feRemove c).lanes = s.lanes := rfl
@[simp] theorem State.feRemove_seg (s : State) (c : Nat) : (s.feRemove c).seg = s.seg := rfl
@[simp] theorem State.feRemove_map (s : State) (c : Nat) : (s.feRemove c).map = s.map := rfl
@[simp] theorem State.feRemove_vlt (s : State) (c : Nat) : (s.feRemove c).vlt = s.vlt := rfl
@[simp] theorem State.feRemove_evt (s : State) (c : Nat) : (s.feRemove c).evt = s.evt := rfl
@[simp] theorem State.feRemove_log (s : State) (c : Nat) : (s.feRemove c).log = s.log := rfl
@[simp] theorem State.feRemove_pins (s : State) (c : Nat) : (s.feRemove c).pins = s.pins := rfl
@[simp] theorem State.feRemove_pwr (s : State) (c : Nat) : (s.feRemove c).pwr = s.pwr := rfl
@[simp] theorem State.feRemove_pcie (s : State) (c : Nat) : (s.feRemove c).pcie = s.pcie := rfl
@[simp] theorem State.feRemove_mbx (s : State) (c : Nat) : (s.feRemove c).mbx = s.mbx := rfl
@[simp] theorem State.feRemove_doms (s : State) (c : Nat) : (s.feRemove c).doms = s.doms := rfl
@[simp] theorem State.feRemove_i2c (s : State) (c : Nat) : (s.feRemove c).i2c = s.i2c := rfl
@[simp] theorem State.feRemove_freeCtr (s : State) (c : Nat) : (s.feRemove c).freeCtr = s.freeCtr := rfl
@[simp] theorem State.feRemove_out (s : State) (c : Nat) : (s.feRemove c).out = s.out := rfl
@[simp] theorem State.feRemove_pending (s : State) (c : Nat) : (s.feRemove c).pending = s.pending := rfl

/-! State.segWait -/

@[simp] theorem State.segWait_fuse (s : State) (c quad bytes : Nat) (g : Seg) : (s.segWait c quad bytes g).fuse = s.fuse := rfl
@[simp] theorem State.segWait_now (s : State) (c quad bytes : Nat) (g : Seg) : (s.segWait c quad bytes g).now = s.now := rfl
@[simp] theorem State.segWait_headId (s : State) (c quad bytes : Nat) (g : Seg) : (s.segWait c quad bytes g).headId = s.headId := rfl
@[simp] theorem State.segWait_life (s : State) (c quad bytes : Nat) (g : Seg) : (s.segWait c quad bytes g).life = s.life := rfl
@[simp] theorem State.segWait_regs (s : State) (c quad bytes : Nat) (g : Seg) : (s.segWait c quad bytes g).regs = s.regs := rfl
@[simp] theorem State.segWait_locked (s : State) (c quad bytes : Nat) (g : Seg) : (s.segWait c quad bytes g).locked = s.locked := rfl
@[simp] theorem State.segWait_latches (s : State) (c quad bytes : Nat) (g : Seg) : (s.segWait c quad bytes g).latches = s.latches := rfl
@[simp] theorem State.segWait_threads (s : State) (c quad bytes : Nat) (g : Seg) : (s.segWait c quad bytes g).threads = s.threads := rfl
@[simp] theorem State.segWait_items (s : State) (c quad bytes : Nat) (g : Seg) : (s.segWait c quad bytes g).items = s.items := rfl
@[simp] theorem State.segWait_queues (s : State) (c quad bytes : Nat) (g : Seg) : (s.segWait c quad bytes g).queues = s.queues := rfl
@[simp] theorem State.segWait_bufs (s : State) (c quad bytes : Nat) (g : Seg) : (s.segWait c quad bytes g).bufs = s.bufs := rfl
@[simp] theorem State.segWait_gens (s : State) (c quad bytes : Nat) (g : Seg) : (s.segWait c quad bytes g).gens = s.gens := rfl
@[simp] theorem State.segWait_mem (s : State) (c quad bytes : Nat) (g : Seg) : (s.segWait c quad bytes g).mem = s.mem := rfl
@[simp] theorem State.segWait_eccFix (s : State) (c quad bytes : Nat) (g : Seg) : (s.segWait c quad bytes g).eccFix = s.eccFix := rfl
@[simp] theorem State.segWait_eccBad (s : State) (c quad bytes : Nat) (g : Seg) : (s.segWait c quad bytes g).eccBad = s.eccBad := rfl
@[simp] theorem State.segWait_dcache (s : State) (c quad bytes : Nat) (g : Seg) : (s.segWait c quad bytes g).dcache = s.dcache := rfl
@[simp] theorem State.segWait_rings (s : State) (c quad bytes : Nat) (g : Seg) : (s.segWait c quad bytes g).rings = s.rings := rfl
@[simp] theorem State.segWait_comps (s : State) (c quad bytes : Nat) (g : Seg) : (s.segWait c quad bytes g).comps = s.comps := rfl
@[simp] theorem State.segWait_arbs (s : State) (c quad bytes : Nat) (g : Seg) : (s.segWait c quad bytes g).arbs = s.arbs := rfl
@[simp] theorem State.segWait_srch (s : State) (c quad bytes : Nat) (g : Seg) : (s.segWait c quad bytes g).srch = s.srch := rfl
@[simp] theorem State.segWait_srchBusy (s : State) (c quad bytes : Nat) (g : Seg) : (s.segWait c quad bytes g).srchBusy = s.srchBusy := rfl
@[simp] theorem State.segWait_prms (s : State) (c quad bytes : Nat) (g : Seg) : (s.segWait c quad bytes g).prms = s.prms := rfl
@[simp] theorem State.segWait_wktBuckets (s : State) (c quad bytes : Nat) (g : Seg) : (s.segWait c quad bytes g).wktBuckets = s.wktBuckets := rfl
@[simp] theorem State.segWait_braceAt (s : State) (c quad bytes : Nat) (g : Seg) : (s.segWait c quad bytes g).braceAt = s.braceAt := rfl
@[simp] theorem State.segWait_tookOver (s : State) (c quad bytes : Nat) (g : Seg) : (s.segWait c quad bytes g).tookOver = s.tookOver := rfl
@[simp] theorem State.segWait_rxRing (s : State) (c quad bytes : Nat) (g : Seg) : (s.segWait c quad bytes g).rxRing = s.rxRing := rfl
@[simp] theorem State.segWait_trn (s : State) (c quad bytes : Nat) (g : Seg) : (s.segWait c quad bytes g).trn = s.trn := rfl
@[simp] theorem State.segWait_slotRsv (s : State) (c quad bytes : Nat) (g : Seg) : (s.segWait c quad bytes g).slotRsv = s.slotRsv := rfl
@[simp] theorem State.segWait_dg (s : State) (c quad bytes : Nat) (g : Seg) : (s.segWait c quad bytes g).dg = s.dg := rfl
@[simp] theorem State.segWait_ddx (s : State) (c quad bytes : Nat) (g : Seg) : (s.segWait c quad bytes g).ddx = s.ddx := rfl
@[simp] theorem State.segWait_xtsKeys (s : State) (c quad bytes : Nat) (g : Seg) : (s.segWait c quad bytes g).xtsKeys = s.xtsKeys := rfl
@[simp] theorem State.segWait_sleds (s : State) (c quad bytes : Nat) (g : Seg) : (s.segWait c quad bytes g).sleds = s.sleds := rfl
@[simp] theorem State.segWait_lanes (s : State) (c quad bytes : Nat) (g : Seg) : (s.segWait c quad bytes g).lanes = s.lanes := rfl
@[simp] theorem State.segWait_seg (s : State) (c quad bytes : Nat) (g : Seg) : (s.segWait c quad bytes g).seg = s.seg := rfl
@[simp] theorem State.segWait_map (s : State) (c quad bytes : Nat) (g : Seg) : (s.segWait c quad bytes g).map = s.map := rfl
@[simp] theorem State.segWait_vlt (s : State) (c quad bytes : Nat) (g : Seg) : (s.segWait c quad bytes g).vlt = s.vlt := rfl
@[simp] theorem State.segWait_evt (s : State) (c quad bytes : Nat) (g : Seg) : (s.segWait c quad bytes g).evt = s.evt := rfl
@[simp] theorem State.segWait_log (s : State) (c quad bytes : Nat) (g : Seg) : (s.segWait c quad bytes g).log = s.log := rfl
@[simp] theorem State.segWait_pins (s : State) (c quad bytes : Nat) (g : Seg) : (s.segWait c quad bytes g).pins = s.pins := rfl
@[simp] theorem State.segWait_pwr (s : State) (c quad bytes : Nat) (g : Seg) : (s.segWait c quad bytes g).pwr = s.pwr := rfl
@[simp] theorem State.segWait_pcie (s : State) (c quad bytes : Nat) (g : Seg) : (s.segWait c quad bytes g).pcie = s.pcie := rfl
@[simp] theorem State.segWait_mbx (s : State) (c quad bytes : Nat) (g : Seg) : (s.segWait c quad bytes g).mbx = s.mbx := rfl
@[simp] theorem State.segWait_doms (s : State) (c quad bytes : Nat) (g : Seg) : (s.segWait c quad bytes g).doms = s.doms := rfl
@[simp] theorem State.segWait_i2c (s : State) (c quad bytes : Nat) (g : Seg) : (s.segWait c quad bytes g).i2c = s.i2c := rfl
@[simp] theorem State.segWait_freeCtr (s : State) (c quad bytes : Nat) (g : Seg) : (s.segWait c quad bytes g).freeCtr = s.freeCtr := rfl
@[simp] theorem State.segWait_out (s : State) (c quad bytes : Nat) (g : Seg) : (s.segWait c quad bytes g).out = s.out := rfl
@[simp] theorem State.segWait_pending (s : State) (c quad bytes : Nat) (g : Seg) : (s.segWait c quad bytes g).pending = s.pending := rfl

/-! State.pathLink -/

@[simp] theorem State.pathLink_fuse (s : State) (path : Nat) (up : Bool) : (s.pathLink path up).fuse = s.fuse := rfl
@[simp] theorem State.pathLink_now (s : State) (path : Nat) (up : Bool) : (s.pathLink path up).now = s.now := rfl
@[simp] theorem State.pathLink_headId (s : State) (path : Nat) (up : Bool) : (s.pathLink path up).headId = s.headId := rfl
@[simp] theorem State.pathLink_life (s : State) (path : Nat) (up : Bool) : (s.pathLink path up).life = s.life := rfl
@[simp] theorem State.pathLink_regs (s : State) (path : Nat) (up : Bool) : (s.pathLink path up).regs = s.regs := rfl
@[simp] theorem State.pathLink_locked (s : State) (path : Nat) (up : Bool) : (s.pathLink path up).locked = s.locked := rfl
@[simp] theorem State.pathLink_latches (s : State) (path : Nat) (up : Bool) : (s.pathLink path up).latches = s.latches := rfl
@[simp] theorem State.pathLink_threads (s : State) (path : Nat) (up : Bool) : (s.pathLink path up).threads = s.threads := rfl
@[simp] theorem State.pathLink_items (s : State) (path : Nat) (up : Bool) : (s.pathLink path up).items = s.items := rfl
@[simp] theorem State.pathLink_queues (s : State) (path : Nat) (up : Bool) : (s.pathLink path up).queues = s.queues := rfl
@[simp] theorem State.pathLink_bufs (s : State) (path : Nat) (up : Bool) : (s.pathLink path up).bufs = s.bufs := rfl
@[simp] theorem State.pathLink_gens (s : State) (path : Nat) (up : Bool) : (s.pathLink path up).gens = s.gens := rfl
@[simp] theorem State.pathLink_mem (s : State) (path : Nat) (up : Bool) : (s.pathLink path up).mem = s.mem := rfl
@[simp] theorem State.pathLink_eccFix (s : State) (path : Nat) (up : Bool) : (s.pathLink path up).eccFix = s.eccFix := rfl
@[simp] theorem State.pathLink_eccBad (s : State) (path : Nat) (up : Bool) : (s.pathLink path up).eccBad = s.eccBad := rfl
@[simp] theorem State.pathLink_dcache (s : State) (path : Nat) (up : Bool) : (s.pathLink path up).dcache = s.dcache := rfl
@[simp] theorem State.pathLink_rings (s : State) (path : Nat) (up : Bool) : (s.pathLink path up).rings = s.rings := rfl
@[simp] theorem State.pathLink_comps (s : State) (path : Nat) (up : Bool) : (s.pathLink path up).comps = s.comps := rfl
@[simp] theorem State.pathLink_arbs (s : State) (path : Nat) (up : Bool) : (s.pathLink path up).arbs = s.arbs := rfl
@[simp] theorem State.pathLink_srch (s : State) (path : Nat) (up : Bool) : (s.pathLink path up).srch = s.srch := rfl
@[simp] theorem State.pathLink_srchBusy (s : State) (path : Nat) (up : Bool) : (s.pathLink path up).srchBusy = s.srchBusy := rfl
@[simp] theorem State.pathLink_prms (s : State) (path : Nat) (up : Bool) : (s.pathLink path up).prms = s.prms := rfl
@[simp] theorem State.pathLink_wktBuckets (s : State) (path : Nat) (up : Bool) : (s.pathLink path up).wktBuckets = s.wktBuckets := rfl
@[simp] theorem State.pathLink_braceAt (s : State) (path : Nat) (up : Bool) : (s.pathLink path up).braceAt = s.braceAt := rfl
@[simp] theorem State.pathLink_tookOver (s : State) (path : Nat) (up : Bool) : (s.pathLink path up).tookOver = s.tookOver := rfl
@[simp] theorem State.pathLink_rxRing (s : State) (path : Nat) (up : Bool) : (s.pathLink path up).rxRing = s.rxRing := rfl
@[simp] theorem State.pathLink_fe (s : State) (path : Nat) (up : Bool) : (s.pathLink path up).fe = s.fe := rfl
@[simp] theorem State.pathLink_slotRsv (s : State) (path : Nat) (up : Bool) : (s.pathLink path up).slotRsv = s.slotRsv := rfl
@[simp] theorem State.pathLink_dg (s : State) (path : Nat) (up : Bool) : (s.pathLink path up).dg = s.dg := rfl
@[simp] theorem State.pathLink_ddx (s : State) (path : Nat) (up : Bool) : (s.pathLink path up).ddx = s.ddx := rfl
@[simp] theorem State.pathLink_xtsKeys (s : State) (path : Nat) (up : Bool) : (s.pathLink path up).xtsKeys = s.xtsKeys := rfl
@[simp] theorem State.pathLink_sleds (s : State) (path : Nat) (up : Bool) : (s.pathLink path up).sleds = s.sleds := rfl
@[simp] theorem State.pathLink_lanes (s : State) (path : Nat) (up : Bool) : (s.pathLink path up).lanes = s.lanes := rfl
@[simp] theorem State.pathLink_seg (s : State) (path : Nat) (up : Bool) : (s.pathLink path up).seg = s.seg := rfl
@[simp] theorem State.pathLink_map (s : State) (path : Nat) (up : Bool) : (s.pathLink path up).map = s.map := rfl
@[simp] theorem State.pathLink_vlt (s : State) (path : Nat) (up : Bool) : (s.pathLink path up).vlt = s.vlt := rfl
@[simp] theorem State.pathLink_evt (s : State) (path : Nat) (up : Bool) : (s.pathLink path up).evt = s.evt := rfl
@[simp] theorem State.pathLink_log (s : State) (path : Nat) (up : Bool) : (s.pathLink path up).log = s.log := rfl
@[simp] theorem State.pathLink_pins (s : State) (path : Nat) (up : Bool) : (s.pathLink path up).pins = s.pins := rfl
@[simp] theorem State.pathLink_pwr (s : State) (path : Nat) (up : Bool) : (s.pathLink path up).pwr = s.pwr := rfl
@[simp] theorem State.pathLink_pcie (s : State) (path : Nat) (up : Bool) : (s.pathLink path up).pcie = s.pcie := rfl
@[simp] theorem State.pathLink_mbx (s : State) (path : Nat) (up : Bool) : (s.pathLink path up).mbx = s.mbx := rfl
@[simp] theorem State.pathLink_doms (s : State) (path : Nat) (up : Bool) : (s.pathLink path up).doms = s.doms := rfl
@[simp] theorem State.pathLink_i2c (s : State) (path : Nat) (up : Bool) : (s.pathLink path up).i2c = s.i2c := rfl
@[simp] theorem State.pathLink_freeCtr (s : State) (path : Nat) (up : Bool) : (s.pathLink path up).freeCtr = s.freeCtr := rfl
@[simp] theorem State.pathLink_out (s : State) (path : Nat) (up : Bool) : (s.pathLink path up).out = s.out := rfl
@[simp] theorem State.pathLink_pending (s : State) (path : Nat) (up : Bool) : (s.pathLink path up).pending = s.pending := rfl

/-! State.setCheck -/

@[simp] theorem State.setCheck_fuse (s : State) (j : Job) (c : Option CheckSt) : (s.setCheck j c).fuse = s.fuse := rfl
@[simp] theorem State.setCheck_now (s : State) (j : Job) (c : Option CheckSt) : (s.setCheck j c).now = s.now := rfl
@[simp] theorem State.setCheck_headId (s : State) (j : Job) (c : Option CheckSt) : (s.setCheck j c).headId = s.headId := rfl
@[simp] theorem State.setCheck_life (s : State) (j : Job) (c : Option CheckSt) : (s.setCheck j c).life = s.life := rfl
@[simp] theorem State.setCheck_regs (s : State) (j : Job) (c : Option CheckSt) : (s.setCheck j c).regs = s.regs := rfl
@[simp] theorem State.setCheck_locked (s : State) (j : Job) (c : Option CheckSt) : (s.setCheck j c).locked = s.locked := rfl
@[simp] theorem State.setCheck_latches (s : State) (j : Job) (c : Option CheckSt) : (s.setCheck j c).latches = s.latches := rfl
@[simp] theorem State.setCheck_threads (s : State) (j : Job) (c : Option CheckSt) : (s.setCheck j c).threads = s.threads := rfl
@[simp] theorem State.setCheck_items (s : State) (j : Job) (c : Option CheckSt) : (s.setCheck j c).items = s.items := rfl
@[simp] theorem State.setCheck_queues (s : State) (j : Job) (c : Option CheckSt) : (s.setCheck j c).queues = s.queues := rfl
@[simp] theorem State.setCheck_bufs (s : State) (j : Job) (c : Option CheckSt) : (s.setCheck j c).bufs = s.bufs := rfl
@[simp] theorem State.setCheck_gens (s : State) (j : Job) (c : Option CheckSt) : (s.setCheck j c).gens = s.gens := rfl
@[simp] theorem State.setCheck_mem (s : State) (j : Job) (c : Option CheckSt) : (s.setCheck j c).mem = s.mem := rfl
@[simp] theorem State.setCheck_eccFix (s : State) (j : Job) (c : Option CheckSt) : (s.setCheck j c).eccFix = s.eccFix := rfl
@[simp] theorem State.setCheck_eccBad (s : State) (j : Job) (c : Option CheckSt) : (s.setCheck j c).eccBad = s.eccBad := rfl
@[simp] theorem State.setCheck_dcache (s : State) (j : Job) (c : Option CheckSt) : (s.setCheck j c).dcache = s.dcache := rfl
@[simp] theorem State.setCheck_rings (s : State) (j : Job) (c : Option CheckSt) : (s.setCheck j c).rings = s.rings := rfl
@[simp] theorem State.setCheck_comps (s : State) (j : Job) (c : Option CheckSt) : (s.setCheck j c).comps = s.comps := rfl
@[simp] theorem State.setCheck_arbs (s : State) (j : Job) (c : Option CheckSt) : (s.setCheck j c).arbs = s.arbs := rfl
@[simp] theorem State.setCheck_srch (s : State) (j : Job) (c : Option CheckSt) : (s.setCheck j c).srch = s.srch := rfl
@[simp] theorem State.setCheck_srchBusy (s : State) (j : Job) (c : Option CheckSt) : (s.setCheck j c).srchBusy = s.srchBusy := rfl
@[simp] theorem State.setCheck_prms (s : State) (j : Job) (c : Option CheckSt) : (s.setCheck j c).prms = s.prms := rfl
@[simp] theorem State.setCheck_wktBuckets (s : State) (j : Job) (c : Option CheckSt) : (s.setCheck j c).wktBuckets = s.wktBuckets := rfl
@[simp] theorem State.setCheck_braceAt (s : State) (j : Job) (c : Option CheckSt) : (s.setCheck j c).braceAt = s.braceAt := rfl
@[simp] theorem State.setCheck_tookOver (s : State) (j : Job) (c : Option CheckSt) : (s.setCheck j c).tookOver = s.tookOver := rfl
@[simp] theorem State.setCheck_rxRing (s : State) (j : Job) (c : Option CheckSt) : (s.setCheck j c).rxRing = s.rxRing := rfl
@[simp] theorem State.setCheck_fe (s : State) (j : Job) (c : Option CheckSt) : (s.setCheck j c).fe = s.fe := rfl
@[simp] theorem State.setCheck_trn (s : State) (j : Job) (c : Option CheckSt) : (s.setCheck j c).trn = s.trn := rfl
@[simp] theorem State.setCheck_slotRsv (s : State) (j : Job) (c : Option CheckSt) : (s.setCheck j c).slotRsv = s.slotRsv := rfl
@[simp] theorem State.setCheck_dg (s : State) (j : Job) (c : Option CheckSt) : (s.setCheck j c).dg = s.dg := rfl
@[simp] theorem State.setCheck_ddx (s : State) (j : Job) (c : Option CheckSt) : (s.setCheck j c).ddx = s.ddx := rfl
@[simp] theorem State.setCheck_xtsKeys (s : State) (j : Job) (c : Option CheckSt) : (s.setCheck j c).xtsKeys = s.xtsKeys := rfl
@[simp] theorem State.setCheck_sleds (s : State) (j : Job) (c : Option CheckSt) : (s.setCheck j c).sleds = s.sleds := rfl
@[simp] theorem State.setCheck_lanes (s : State) (j : Job) (c : Option CheckSt) : (s.setCheck j c).lanes = s.lanes := rfl
@[simp] theorem State.setCheck_map (s : State) (j : Job) (c : Option CheckSt) : (s.setCheck j c).map = s.map := rfl
@[simp] theorem State.setCheck_vlt (s : State) (j : Job) (c : Option CheckSt) : (s.setCheck j c).vlt = s.vlt := rfl
@[simp] theorem State.setCheck_evt (s : State) (j : Job) (c : Option CheckSt) : (s.setCheck j c).evt = s.evt := rfl
@[simp] theorem State.setCheck_log (s : State) (j : Job) (c : Option CheckSt) : (s.setCheck j c).log = s.log := rfl
@[simp] theorem State.setCheck_pins (s : State) (j : Job) (c : Option CheckSt) : (s.setCheck j c).pins = s.pins := rfl
@[simp] theorem State.setCheck_pwr (s : State) (j : Job) (c : Option CheckSt) : (s.setCheck j c).pwr = s.pwr := rfl
@[simp] theorem State.setCheck_pcie (s : State) (j : Job) (c : Option CheckSt) : (s.setCheck j c).pcie = s.pcie := rfl
@[simp] theorem State.setCheck_mbx (s : State) (j : Job) (c : Option CheckSt) : (s.setCheck j c).mbx = s.mbx := rfl
@[simp] theorem State.setCheck_doms (s : State) (j : Job) (c : Option CheckSt) : (s.setCheck j c).doms = s.doms := rfl
@[simp] theorem State.setCheck_i2c (s : State) (j : Job) (c : Option CheckSt) : (s.setCheck j c).i2c = s.i2c := rfl
@[simp] theorem State.setCheck_freeCtr (s : State) (j : Job) (c : Option CheckSt) : (s.setCheck j c).freeCtr = s.freeCtr := rfl
@[simp] theorem State.setCheck_out (s : State) (j : Job) (c : Option CheckSt) : (s.setCheck j c).out = s.out := rfl
@[simp] theorem State.setCheck_pending (s : State) (j : Job) (c : Option CheckSt) : (s.setCheck j c).pending = s.pending := rfl

/-! State.zeroMem -/

@[simp] theorem State.zeroMem_fuse (s : State) (a n : Nat) : (s.zeroMem a n).fuse = s.fuse := rfl
@[simp] theorem State.zeroMem_now (s : State) (a n : Nat) : (s.zeroMem a n).now = s.now := rfl
@[simp] theorem State.zeroMem_headId (s : State) (a n : Nat) : (s.zeroMem a n).headId = s.headId := rfl
@[simp] theorem State.zeroMem_life (s : State) (a n : Nat) : (s.zeroMem a n).life = s.life := rfl
@[simp] theorem State.zeroMem_regs (s : State) (a n : Nat) : (s.zeroMem a n).regs = s.regs := rfl
@[simp] theorem State.zeroMem_locked (s : State) (a n : Nat) : (s.zeroMem a n).locked = s.locked := rfl
@[simp] theorem State.zeroMem_latches (s : State) (a n : Nat) : (s.zeroMem a n).latches = s.latches := rfl
@[simp] theorem State.zeroMem_threads (s : State) (a n : Nat) : (s.zeroMem a n).threads = s.threads := rfl
@[simp] theorem State.zeroMem_items (s : State) (a n : Nat) : (s.zeroMem a n).items = s.items := rfl
@[simp] theorem State.zeroMem_queues (s : State) (a n : Nat) : (s.zeroMem a n).queues = s.queues := rfl
@[simp] theorem State.zeroMem_bufs (s : State) (a n : Nat) : (s.zeroMem a n).bufs = s.bufs := rfl
@[simp] theorem State.zeroMem_gens (s : State) (a n : Nat) : (s.zeroMem a n).gens = s.gens := rfl
@[simp] theorem State.zeroMem_dcache (s : State) (a n : Nat) : (s.zeroMem a n).dcache = s.dcache := rfl
@[simp] theorem State.zeroMem_rings (s : State) (a n : Nat) : (s.zeroMem a n).rings = s.rings := rfl
@[simp] theorem State.zeroMem_comps (s : State) (a n : Nat) : (s.zeroMem a n).comps = s.comps := rfl
@[simp] theorem State.zeroMem_arbs (s : State) (a n : Nat) : (s.zeroMem a n).arbs = s.arbs := rfl
@[simp] theorem State.zeroMem_srch (s : State) (a n : Nat) : (s.zeroMem a n).srch = s.srch := rfl
@[simp] theorem State.zeroMem_srchBusy (s : State) (a n : Nat) : (s.zeroMem a n).srchBusy = s.srchBusy := rfl
@[simp] theorem State.zeroMem_prms (s : State) (a n : Nat) : (s.zeroMem a n).prms = s.prms := rfl
@[simp] theorem State.zeroMem_wktBuckets (s : State) (a n : Nat) : (s.zeroMem a n).wktBuckets = s.wktBuckets := rfl
@[simp] theorem State.zeroMem_braceAt (s : State) (a n : Nat) : (s.zeroMem a n).braceAt = s.braceAt := rfl
@[simp] theorem State.zeroMem_tookOver (s : State) (a n : Nat) : (s.zeroMem a n).tookOver = s.tookOver := rfl
@[simp] theorem State.zeroMem_rxRing (s : State) (a n : Nat) : (s.zeroMem a n).rxRing = s.rxRing := rfl
@[simp] theorem State.zeroMem_fe (s : State) (a n : Nat) : (s.zeroMem a n).fe = s.fe := rfl
@[simp] theorem State.zeroMem_trn (s : State) (a n : Nat) : (s.zeroMem a n).trn = s.trn := rfl
@[simp] theorem State.zeroMem_slotRsv (s : State) (a n : Nat) : (s.zeroMem a n).slotRsv = s.slotRsv := rfl
@[simp] theorem State.zeroMem_dg (s : State) (a n : Nat) : (s.zeroMem a n).dg = s.dg := rfl
@[simp] theorem State.zeroMem_ddx (s : State) (a n : Nat) : (s.zeroMem a n).ddx = s.ddx := rfl
@[simp] theorem State.zeroMem_xtsKeys (s : State) (a n : Nat) : (s.zeroMem a n).xtsKeys = s.xtsKeys := rfl
@[simp] theorem State.zeroMem_sleds (s : State) (a n : Nat) : (s.zeroMem a n).sleds = s.sleds := rfl
@[simp] theorem State.zeroMem_lanes (s : State) (a n : Nat) : (s.zeroMem a n).lanes = s.lanes := rfl
@[simp] theorem State.zeroMem_seg (s : State) (a n : Nat) : (s.zeroMem a n).seg = s.seg := rfl
@[simp] theorem State.zeroMem_map (s : State) (a n : Nat) : (s.zeroMem a n).map = s.map := rfl
@[simp] theorem State.zeroMem_vlt (s : State) (a n : Nat) : (s.zeroMem a n).vlt = s.vlt := rfl
@[simp] theorem State.zeroMem_evt (s : State) (a n : Nat) : (s.zeroMem a n).evt = s.evt := rfl
@[simp] theorem State.zeroMem_log (s : State) (a n : Nat) : (s.zeroMem a n).log = s.log := rfl
@[simp] theorem State.zeroMem_pins (s : State) (a n : Nat) : (s.zeroMem a n).pins = s.pins := rfl
@[simp] theorem State.zeroMem_pwr (s : State) (a n : Nat) : (s.zeroMem a n).pwr = s.pwr := rfl
@[simp] theorem State.zeroMem_pcie (s : State) (a n : Nat) : (s.zeroMem a n).pcie = s.pcie := rfl
@[simp] theorem State.zeroMem_mbx (s : State) (a n : Nat) : (s.zeroMem a n).mbx = s.mbx := rfl
@[simp] theorem State.zeroMem_doms (s : State) (a n : Nat) : (s.zeroMem a n).doms = s.doms := rfl
@[simp] theorem State.zeroMem_i2c (s : State) (a n : Nat) : (s.zeroMem a n).i2c = s.i2c := rfl
@[simp] theorem State.zeroMem_freeCtr (s : State) (a n : Nat) : (s.zeroMem a n).freeCtr = s.freeCtr := rfl
@[simp] theorem State.zeroMem_out (s : State) (a n : Nat) : (s.zeroMem a n).out = s.out := rfl
@[simp] theorem State.zeroMem_pending (s : State) (a n : Nat) : (s.zeroMem a n).pending = s.pending := rfl

/-! State.updPort -/

@[simp] theorem State.updPort_fuse (s : State) (p : Nat) (f : VltPort → VltPort) : (s.updPort p f).fuse = s.fuse := rfl
@[simp] theorem State.updPort_now (s : State) (p : Nat) (f : VltPort → VltPort) : (s.updPort p f).now = s.now := rfl
@[simp] theorem State.updPort_headId (s : State) (p : Nat) (f : VltPort → VltPort) : (s.updPort p f).headId = s.headId := rfl
@[simp] theorem State.updPort_life (s : State) (p : Nat) (f : VltPort → VltPort) : (s.updPort p f).life = s.life := rfl
@[simp] theorem State.updPort_regs (s : State) (p : Nat) (f : VltPort → VltPort) : (s.updPort p f).regs = s.regs := rfl
@[simp] theorem State.updPort_locked (s : State) (p : Nat) (f : VltPort → VltPort) : (s.updPort p f).locked = s.locked := rfl
@[simp] theorem State.updPort_latches (s : State) (p : Nat) (f : VltPort → VltPort) : (s.updPort p f).latches = s.latches := rfl
@[simp] theorem State.updPort_threads (s : State) (p : Nat) (f : VltPort → VltPort) : (s.updPort p f).threads = s.threads := rfl
@[simp] theorem State.updPort_items (s : State) (p : Nat) (f : VltPort → VltPort) : (s.updPort p f).items = s.items := rfl
@[simp] theorem State.updPort_queues (s : State) (p : Nat) (f : VltPort → VltPort) : (s.updPort p f).queues = s.queues := rfl
@[simp] theorem State.updPort_bufs (s : State) (p : Nat) (f : VltPort → VltPort) : (s.updPort p f).bufs = s.bufs := rfl
@[simp] theorem State.updPort_gens (s : State) (p : Nat) (f : VltPort → VltPort) : (s.updPort p f).gens = s.gens := rfl
@[simp] theorem State.updPort_mem (s : State) (p : Nat) (f : VltPort → VltPort) : (s.updPort p f).mem = s.mem := rfl
@[simp] theorem State.updPort_eccFix (s : State) (p : Nat) (f : VltPort → VltPort) : (s.updPort p f).eccFix = s.eccFix := rfl
@[simp] theorem State.updPort_eccBad (s : State) (p : Nat) (f : VltPort → VltPort) : (s.updPort p f).eccBad = s.eccBad := rfl
@[simp] theorem State.updPort_dcache (s : State) (p : Nat) (f : VltPort → VltPort) : (s.updPort p f).dcache = s.dcache := rfl
@[simp] theorem State.updPort_rings (s : State) (p : Nat) (f : VltPort → VltPort) : (s.updPort p f).rings = s.rings := rfl
@[simp] theorem State.updPort_comps (s : State) (p : Nat) (f : VltPort → VltPort) : (s.updPort p f).comps = s.comps := rfl
@[simp] theorem State.updPort_arbs (s : State) (p : Nat) (f : VltPort → VltPort) : (s.updPort p f).arbs = s.arbs := rfl
@[simp] theorem State.updPort_srch (s : State) (p : Nat) (f : VltPort → VltPort) : (s.updPort p f).srch = s.srch := rfl
@[simp] theorem State.updPort_srchBusy (s : State) (p : Nat) (f : VltPort → VltPort) : (s.updPort p f).srchBusy = s.srchBusy := rfl
@[simp] theorem State.updPort_prms (s : State) (p : Nat) (f : VltPort → VltPort) : (s.updPort p f).prms = s.prms := rfl
@[simp] theorem State.updPort_wktBuckets (s : State) (p : Nat) (f : VltPort → VltPort) : (s.updPort p f).wktBuckets = s.wktBuckets := rfl
@[simp] theorem State.updPort_braceAt (s : State) (p : Nat) (f : VltPort → VltPort) : (s.updPort p f).braceAt = s.braceAt := rfl
@[simp] theorem State.updPort_tookOver (s : State) (p : Nat) (f : VltPort → VltPort) : (s.updPort p f).tookOver = s.tookOver := rfl
@[simp] theorem State.updPort_rxRing (s : State) (p : Nat) (f : VltPort → VltPort) : (s.updPort p f).rxRing = s.rxRing := rfl
@[simp] theorem State.updPort_fe (s : State) (p : Nat) (f : VltPort → VltPort) : (s.updPort p f).fe = s.fe := rfl
@[simp] theorem State.updPort_trn (s : State) (p : Nat) (f : VltPort → VltPort) : (s.updPort p f).trn = s.trn := rfl
@[simp] theorem State.updPort_slotRsv (s : State) (p : Nat) (f : VltPort → VltPort) : (s.updPort p f).slotRsv = s.slotRsv := rfl
@[simp] theorem State.updPort_dg (s : State) (p : Nat) (f : VltPort → VltPort) : (s.updPort p f).dg = s.dg := rfl
@[simp] theorem State.updPort_ddx (s : State) (p : Nat) (f : VltPort → VltPort) : (s.updPort p f).ddx = s.ddx := rfl
@[simp] theorem State.updPort_xtsKeys (s : State) (p : Nat) (f : VltPort → VltPort) : (s.updPort p f).xtsKeys = s.xtsKeys := rfl
@[simp] theorem State.updPort_sleds (s : State) (p : Nat) (f : VltPort → VltPort) : (s.updPort p f).sleds = s.sleds := rfl
@[simp] theorem State.updPort_lanes (s : State) (p : Nat) (f : VltPort → VltPort) : (s.updPort p f).lanes = s.lanes := rfl
@[simp] theorem State.updPort_seg (s : State) (p : Nat) (f : VltPort → VltPort) : (s.updPort p f).seg = s.seg := rfl
@[simp] theorem State.updPort_map (s : State) (p : Nat) (f : VltPort → VltPort) : (s.updPort p f).map = s.map := rfl
@[simp] theorem State.updPort_evt (s : State) (p : Nat) (f : VltPort → VltPort) : (s.updPort p f).evt = s.evt := rfl
@[simp] theorem State.updPort_log (s : State) (p : Nat) (f : VltPort → VltPort) : (s.updPort p f).log = s.log := rfl
@[simp] theorem State.updPort_pins (s : State) (p : Nat) (f : VltPort → VltPort) : (s.updPort p f).pins = s.pins := rfl
@[simp] theorem State.updPort_pwr (s : State) (p : Nat) (f : VltPort → VltPort) : (s.updPort p f).pwr = s.pwr := rfl
@[simp] theorem State.updPort_pcie (s : State) (p : Nat) (f : VltPort → VltPort) : (s.updPort p f).pcie = s.pcie := rfl
@[simp] theorem State.updPort_mbx (s : State) (p : Nat) (f : VltPort → VltPort) : (s.updPort p f).mbx = s.mbx := rfl
@[simp] theorem State.updPort_doms (s : State) (p : Nat) (f : VltPort → VltPort) : (s.updPort p f).doms = s.doms := rfl
@[simp] theorem State.updPort_i2c (s : State) (p : Nat) (f : VltPort → VltPort) : (s.updPort p f).i2c = s.i2c := rfl
@[simp] theorem State.updPort_freeCtr (s : State) (p : Nat) (f : VltPort → VltPort) : (s.updPort p f).freeCtr = s.freeCtr := rfl
@[simp] theorem State.updPort_out (s : State) (p : Nat) (f : VltPort → VltPort) : (s.updPort p f).out = s.out := rfl
@[simp] theorem State.updPort_pending (s : State) (p : Nat) (f : VltPort → VltPort) : (s.updPort p f).pending = s.pending := rfl

/-! State.clearKeys -/

@[simp] theorem State.clearKeys_fuse (s : State) : (s.clearKeys).fuse = s.fuse := rfl
@[simp] theorem State.clearKeys_now (s : State) : (s.clearKeys).now = s.now := rfl
@[simp] theorem State.clearKeys_headId (s : State) : (s.clearKeys).headId = s.headId := rfl
@[simp] theorem State.clearKeys_life (s : State) : (s.clearKeys).life = s.life := rfl
@[simp] theorem State.clearKeys_regs (s : State) : (s.clearKeys).regs = s.regs := rfl
@[simp] theorem State.clearKeys_locked (s : State) : (s.clearKeys).locked = s.locked := rfl
@[simp] theorem State.clearKeys_latches (s : State) : (s.clearKeys).latches = s.latches := rfl
@[simp] theorem State.clearKeys_threads (s : State) : (s.clearKeys).threads = s.threads := rfl
@[simp] theorem State.clearKeys_items (s : State) : (s.clearKeys).items = s.items := rfl
@[simp] theorem State.clearKeys_queues (s : State) : (s.clearKeys).queues = s.queues := rfl
@[simp] theorem State.clearKeys_bufs (s : State) : (s.clearKeys).bufs = s.bufs := rfl
@[simp] theorem State.clearKeys_gens (s : State) : (s.clearKeys).gens = s.gens := rfl
@[simp] theorem State.clearKeys_mem (s : State) : (s.clearKeys).mem = s.mem := rfl
@[simp] theorem State.clearKeys_eccFix (s : State) : (s.clearKeys).eccFix = s.eccFix := rfl
@[simp] theorem State.clearKeys_eccBad (s : State) : (s.clearKeys).eccBad = s.eccBad := rfl
@[simp] theorem State.clearKeys_dcache (s : State) : (s.clearKeys).dcache = s.dcache := rfl
@[simp] theorem State.clearKeys_rings (s : State) : (s.clearKeys).rings = s.rings := rfl
@[simp] theorem State.clearKeys_comps (s : State) : (s.clearKeys).comps = s.comps := rfl
@[simp] theorem State.clearKeys_arbs (s : State) : (s.clearKeys).arbs = s.arbs := rfl
@[simp] theorem State.clearKeys_srch (s : State) : (s.clearKeys).srch = s.srch := rfl
@[simp] theorem State.clearKeys_srchBusy (s : State) : (s.clearKeys).srchBusy = s.srchBusy := rfl
@[simp] theorem State.clearKeys_prms (s : State) : (s.clearKeys).prms = s.prms := rfl
@[simp] theorem State.clearKeys_wktBuckets (s : State) : (s.clearKeys).wktBuckets = s.wktBuckets := rfl
@[simp] theorem State.clearKeys_braceAt (s : State) : (s.clearKeys).braceAt = s.braceAt := rfl
@[simp] theorem State.clearKeys_tookOver (s : State) : (s.clearKeys).tookOver = s.tookOver := rfl
@[simp] theorem State.clearKeys_rxRing (s : State) : (s.clearKeys).rxRing = s.rxRing := rfl
@[simp] theorem State.clearKeys_fe (s : State) : (s.clearKeys).fe = s.fe := rfl
@[simp] theorem State.clearKeys_trn (s : State) : (s.clearKeys).trn = s.trn := rfl
@[simp] theorem State.clearKeys_slotRsv (s : State) : (s.clearKeys).slotRsv = s.slotRsv := rfl
@[simp] theorem State.clearKeys_dg (s : State) : (s.clearKeys).dg = s.dg := rfl
@[simp] theorem State.clearKeys_ddx (s : State) : (s.clearKeys).ddx = s.ddx := rfl
@[simp] theorem State.clearKeys_sleds (s : State) : (s.clearKeys).sleds = s.sleds := rfl
@[simp] theorem State.clearKeys_lanes (s : State) : (s.clearKeys).lanes = s.lanes := rfl
@[simp] theorem State.clearKeys_seg (s : State) : (s.clearKeys).seg = s.seg := rfl
@[simp] theorem State.clearKeys_map (s : State) : (s.clearKeys).map = s.map := rfl
@[simp] theorem State.clearKeys_evt (s : State) : (s.clearKeys).evt = s.evt := rfl
@[simp] theorem State.clearKeys_log (s : State) : (s.clearKeys).log = s.log := rfl
@[simp] theorem State.clearKeys_pins (s : State) : (s.clearKeys).pins = s.pins := rfl
@[simp] theorem State.clearKeys_pwr (s : State) : (s.clearKeys).pwr = s.pwr := rfl
@[simp] theorem State.clearKeys_pcie (s : State) : (s.clearKeys).pcie = s.pcie := rfl
@[simp] theorem State.clearKeys_mbx (s : State) : (s.clearKeys).mbx = s.mbx := rfl
@[simp] theorem State.clearKeys_doms (s : State) : (s.clearKeys).doms = s.doms := rfl
@[simp] theorem State.clearKeys_i2c (s : State) : (s.clearKeys).i2c = s.i2c := rfl
@[simp] theorem State.clearKeys_freeCtr (s : State) : (s.clearKeys).freeCtr = s.freeCtr := rfl
@[simp] theorem State.clearKeys_out (s : State) : (s.clearKeys).out = s.out := rfl
@[simp] theorem State.clearKeys_pending (s : State) : (s.clearKeys).pending = s.pending := rfl

/-! State.setPrm -/

@[simp] theorem State.setPrm_fuse (s : State) (k : Nat) (p : Promise) : (s.setPrm k p).fuse = s.fuse := rfl
@[simp] theorem State.setPrm_now (s : State) (k : Nat) (p : Promise) : (s.setPrm k p).now = s.now := rfl
@[simp] theorem State.setPrm_headId (s : State) (k : Nat) (p : Promise) : (s.setPrm k p).headId = s.headId := rfl
@[simp] theorem State.setPrm_life (s : State) (k : Nat) (p : Promise) : (s.setPrm k p).life = s.life := rfl
@[simp] theorem State.setPrm_regs (s : State) (k : Nat) (p : Promise) : (s.setPrm k p).regs = s.regs := rfl
@[simp] theorem State.setPrm_locked (s : State) (k : Nat) (p : Promise) : (s.setPrm k p).locked = s.locked := rfl
@[simp] theorem State.setPrm_latches (s : State) (k : Nat) (p : Promise) : (s.setPrm k p).latches = s.latches := rfl
@[simp] theorem State.setPrm_threads (s : State) (k : Nat) (p : Promise) : (s.setPrm k p).threads = s.threads := rfl
@[simp] theorem State.setPrm_items (s : State) (k : Nat) (p : Promise) : (s.setPrm k p).items = s.items := rfl
@[simp] theorem State.setPrm_queues (s : State) (k : Nat) (p : Promise) : (s.setPrm k p).queues = s.queues := rfl
@[simp] theorem State.setPrm_bufs (s : State) (k : Nat) (p : Promise) : (s.setPrm k p).bufs = s.bufs := rfl
@[simp] theorem State.setPrm_gens (s : State) (k : Nat) (p : Promise) : (s.setPrm k p).gens = s.gens := rfl
@[simp] theorem State.setPrm_mem (s : State) (k : Nat) (p : Promise) : (s.setPrm k p).mem = s.mem := rfl
@[simp] theorem State.setPrm_eccFix (s : State) (k : Nat) (p : Promise) : (s.setPrm k p).eccFix = s.eccFix := rfl
@[simp] theorem State.setPrm_eccBad (s : State) (k : Nat) (p : Promise) : (s.setPrm k p).eccBad = s.eccBad := rfl
@[simp] theorem State.setPrm_dcache (s : State) (k : Nat) (p : Promise) : (s.setPrm k p).dcache = s.dcache := rfl
@[simp] theorem State.setPrm_rings (s : State) (k : Nat) (p : Promise) : (s.setPrm k p).rings = s.rings := rfl
@[simp] theorem State.setPrm_comps (s : State) (k : Nat) (p : Promise) : (s.setPrm k p).comps = s.comps := rfl
@[simp] theorem State.setPrm_arbs (s : State) (k : Nat) (p : Promise) : (s.setPrm k p).arbs = s.arbs := rfl
@[simp] theorem State.setPrm_srch (s : State) (k : Nat) (p : Promise) : (s.setPrm k p).srch = s.srch := rfl
@[simp] theorem State.setPrm_srchBusy (s : State) (k : Nat) (p : Promise) : (s.setPrm k p).srchBusy = s.srchBusy := rfl
@[simp] theorem State.setPrm_wktBuckets (s : State) (k : Nat) (p : Promise) : (s.setPrm k p).wktBuckets = s.wktBuckets := rfl
@[simp] theorem State.setPrm_braceAt (s : State) (k : Nat) (p : Promise) : (s.setPrm k p).braceAt = s.braceAt := rfl
@[simp] theorem State.setPrm_tookOver (s : State) (k : Nat) (p : Promise) : (s.setPrm k p).tookOver = s.tookOver := rfl
@[simp] theorem State.setPrm_rxRing (s : State) (k : Nat) (p : Promise) : (s.setPrm k p).rxRing = s.rxRing := rfl
@[simp] theorem State.setPrm_fe (s : State) (k : Nat) (p : Promise) : (s.setPrm k p).fe = s.fe := rfl
@[simp] theorem State.setPrm_trn (s : State) (k : Nat) (p : Promise) : (s.setPrm k p).trn = s.trn := rfl
@[simp] theorem State.setPrm_slotRsv (s : State) (k : Nat) (p : Promise) : (s.setPrm k p).slotRsv = s.slotRsv := rfl
@[simp] theorem State.setPrm_dg (s : State) (k : Nat) (p : Promise) : (s.setPrm k p).dg = s.dg := rfl
@[simp] theorem State.setPrm_ddx (s : State) (k : Nat) (p : Promise) : (s.setPrm k p).ddx = s.ddx := rfl
@[simp] theorem State.setPrm_xtsKeys (s : State) (k : Nat) (p : Promise) : (s.setPrm k p).xtsKeys = s.xtsKeys := rfl
@[simp] theorem State.setPrm_sleds (s : State) (k : Nat) (p : Promise) : (s.setPrm k p).sleds = s.sleds := rfl
@[simp] theorem State.setPrm_lanes (s : State) (k : Nat) (p : Promise) : (s.setPrm k p).lanes = s.lanes := rfl
@[simp] theorem State.setPrm_seg (s : State) (k : Nat) (p : Promise) : (s.setPrm k p).seg = s.seg := rfl
@[simp] theorem State.setPrm_map (s : State) (k : Nat) (p : Promise) : (s.setPrm k p).map = s.map := rfl
@[simp] theorem State.setPrm_vlt (s : State) (k : Nat) (p : Promise) : (s.setPrm k p).vlt = s.vlt := rfl
@[simp] theorem State.setPrm_evt (s : State) (k : Nat) (p : Promise) : (s.setPrm k p).evt = s.evt := rfl
@[simp] theorem State.setPrm_log (s : State) (k : Nat) (p : Promise) : (s.setPrm k p).log = s.log := rfl
@[simp] theorem State.setPrm_pins (s : State) (k : Nat) (p : Promise) : (s.setPrm k p).pins = s.pins := rfl
@[simp] theorem State.setPrm_pwr (s : State) (k : Nat) (p : Promise) : (s.setPrm k p).pwr = s.pwr := rfl
@[simp] theorem State.setPrm_pcie (s : State) (k : Nat) (p : Promise) : (s.setPrm k p).pcie = s.pcie := rfl
@[simp] theorem State.setPrm_mbx (s : State) (k : Nat) (p : Promise) : (s.setPrm k p).mbx = s.mbx := rfl
@[simp] theorem State.setPrm_doms (s : State) (k : Nat) (p : Promise) : (s.setPrm k p).doms = s.doms := rfl
@[simp] theorem State.setPrm_i2c (s : State) (k : Nat) (p : Promise) : (s.setPrm k p).i2c = s.i2c := rfl
@[simp] theorem State.setPrm_freeCtr (s : State) (k : Nat) (p : Promise) : (s.setPrm k p).freeCtr = s.freeCtr := rfl
@[simp] theorem State.setPrm_out (s : State) (k : Nat) (p : Promise) : (s.setPrm k p).out = s.out := rfl
@[simp] theorem State.setPrm_pending (s : State) (k : Nat) (p : Promise) : (s.setPrm k p).pending = s.pending := rfl

/-! State.evtStarted -/

@[simp] theorem State.evtStarted_fuse (s : State) (slot : Nat) : (s.evtStarted slot).fuse = s.fuse := rfl
@[simp] theorem State.evtStarted_now (s : State) (slot : Nat) : (s.evtStarted slot).now = s.now := rfl
@[simp] theorem State.evtStarted_headId (s : State) (slot : Nat) : (s.evtStarted slot).headId = s.headId := rfl
@[simp] theorem State.evtStarted_life (s : State) (slot : Nat) : (s.evtStarted slot).life = s.life := rfl
@[simp] theorem State.evtStarted_regs (s : State) (slot : Nat) : (s.evtStarted slot).regs = s.regs := rfl
@[simp] theorem State.evtStarted_locked (s : State) (slot : Nat) : (s.evtStarted slot).locked = s.locked := rfl
@[simp] theorem State.evtStarted_latches (s : State) (slot : Nat) : (s.evtStarted slot).latches = s.latches := rfl
@[simp] theorem State.evtStarted_threads (s : State) (slot : Nat) : (s.evtStarted slot).threads = s.threads := rfl
@[simp] theorem State.evtStarted_items (s : State) (slot : Nat) : (s.evtStarted slot).items = s.items := rfl
@[simp] theorem State.evtStarted_queues (s : State) (slot : Nat) : (s.evtStarted slot).queues = s.queues := rfl
@[simp] theorem State.evtStarted_bufs (s : State) (slot : Nat) : (s.evtStarted slot).bufs = s.bufs := rfl
@[simp] theorem State.evtStarted_gens (s : State) (slot : Nat) : (s.evtStarted slot).gens = s.gens := rfl
@[simp] theorem State.evtStarted_mem (s : State) (slot : Nat) : (s.evtStarted slot).mem = s.mem := rfl
@[simp] theorem State.evtStarted_eccFix (s : State) (slot : Nat) : (s.evtStarted slot).eccFix = s.eccFix := rfl
@[simp] theorem State.evtStarted_eccBad (s : State) (slot : Nat) : (s.evtStarted slot).eccBad = s.eccBad := rfl
@[simp] theorem State.evtStarted_dcache (s : State) (slot : Nat) : (s.evtStarted slot).dcache = s.dcache := rfl
@[simp] theorem State.evtStarted_rings (s : State) (slot : Nat) : (s.evtStarted slot).rings = s.rings := rfl
@[simp] theorem State.evtStarted_comps (s : State) (slot : Nat) : (s.evtStarted slot).comps = s.comps := rfl
@[simp] theorem State.evtStarted_arbs (s : State) (slot : Nat) : (s.evtStarted slot).arbs = s.arbs := rfl
@[simp] theorem State.evtStarted_srch (s : State) (slot : Nat) : (s.evtStarted slot).srch = s.srch := rfl
@[simp] theorem State.evtStarted_srchBusy (s : State) (slot : Nat) : (s.evtStarted slot).srchBusy = s.srchBusy := rfl
@[simp] theorem State.evtStarted_prms (s : State) (slot : Nat) : (s.evtStarted slot).prms = s.prms := rfl
@[simp] theorem State.evtStarted_wktBuckets (s : State) (slot : Nat) : (s.evtStarted slot).wktBuckets = s.wktBuckets := rfl
@[simp] theorem State.evtStarted_braceAt (s : State) (slot : Nat) : (s.evtStarted slot).braceAt = s.braceAt := rfl
@[simp] theorem State.evtStarted_tookOver (s : State) (slot : Nat) : (s.evtStarted slot).tookOver = s.tookOver := rfl
@[simp] theorem State.evtStarted_rxRing (s : State) (slot : Nat) : (s.evtStarted slot).rxRing = s.rxRing := rfl
@[simp] theorem State.evtStarted_fe (s : State) (slot : Nat) : (s.evtStarted slot).fe = s.fe := rfl
@[simp] theorem State.evtStarted_trn (s : State) (slot : Nat) : (s.evtStarted slot).trn = s.trn := rfl
@[simp] theorem State.evtStarted_slotRsv (s : State) (slot : Nat) : (s.evtStarted slot).slotRsv = s.slotRsv := rfl
@[simp] theorem State.evtStarted_dg (s : State) (slot : Nat) : (s.evtStarted slot).dg = s.dg := rfl
@[simp] theorem State.evtStarted_ddx (s : State) (slot : Nat) : (s.evtStarted slot).ddx = s.ddx := rfl
@[simp] theorem State.evtStarted_xtsKeys (s : State) (slot : Nat) : (s.evtStarted slot).xtsKeys = s.xtsKeys := rfl
@[simp] theorem State.evtStarted_sleds (s : State) (slot : Nat) : (s.evtStarted slot).sleds = s.sleds := rfl
@[simp] theorem State.evtStarted_lanes (s : State) (slot : Nat) : (s.evtStarted slot).lanes = s.lanes := rfl
@[simp] theorem State.evtStarted_seg (s : State) (slot : Nat) : (s.evtStarted slot).seg = s.seg := rfl
@[simp] theorem State.evtStarted_map (s : State) (slot : Nat) : (s.evtStarted slot).map = s.map := rfl
@[simp] theorem State.evtStarted_vlt (s : State) (slot : Nat) : (s.evtStarted slot).vlt = s.vlt := rfl
@[simp] theorem State.evtStarted_log (s : State) (slot : Nat) : (s.evtStarted slot).log = s.log := rfl
@[simp] theorem State.evtStarted_pins (s : State) (slot : Nat) : (s.evtStarted slot).pins = s.pins := rfl
@[simp] theorem State.evtStarted_pwr (s : State) (slot : Nat) : (s.evtStarted slot).pwr = s.pwr := rfl
@[simp] theorem State.evtStarted_pcie (s : State) (slot : Nat) : (s.evtStarted slot).pcie = s.pcie := rfl
@[simp] theorem State.evtStarted_mbx (s : State) (slot : Nat) : (s.evtStarted slot).mbx = s.mbx := rfl
@[simp] theorem State.evtStarted_doms (s : State) (slot : Nat) : (s.evtStarted slot).doms = s.doms := rfl
@[simp] theorem State.evtStarted_i2c (s : State) (slot : Nat) : (s.evtStarted slot).i2c = s.i2c := rfl
@[simp] theorem State.evtStarted_freeCtr (s : State) (slot : Nat) : (s.evtStarted slot).freeCtr = s.freeCtr := rfl
@[simp] theorem State.evtStarted_out (s : State) (slot : Nat) : (s.evtStarted slot).out = s.out := rfl
@[simp] theorem State.evtStarted_pending (s : State) (slot : Nat) : (s.evtStarted slot).pending = s.pending := rfl

/-! State.setDlines -/

@[simp] theorem State.setDlines_fuse (s : State) (core : Nat) (l : List DLine) : (s.setDlines core l).fuse = s.fuse := rfl
@[simp] theorem State.setDlines_now (s : State) (core : Nat) (l : List DLine) : (s.setDlines core l).now = s.now := rfl
@[simp] theorem State.setDlines_headId (s : State) (core : Nat) (l : List DLine) : (s.setDlines core l).headId = s.headId := rfl
@[simp] theorem State.setDlines_life (s : State) (core : Nat) (l : List DLine) : (s.setDlines core l).life = s.life := rfl
@[simp] theorem State.setDlines_regs (s : State) (core : Nat) (l : List DLine) : (s.setDlines core l).regs = s.regs := rfl
@[simp] theorem State.setDlines_locked (s : State) (core : Nat) (l : List DLine) : (s.setDlines core l).locked = s.locked := rfl
@[simp] theorem State.setDlines_latches (s : State) (core : Nat) (l : List DLine) : (s.setDlines core l).latches = s.latches := rfl
@[simp] theorem State.setDlines_threads (s : State) (core : Nat) (l : List DLine) : (s.setDlines core l).threads = s.threads := rfl
@[simp] theorem State.setDlines_items (s : State) (core : Nat) (l : List DLine) : (s.setDlines core l).items = s.items := rfl
@[simp] theorem State.setDlines_queues (s : State) (core : Nat) (l : List DLine) : (s.setDlines core l).queues = s.queues := rfl
@[simp] theorem State.setDlines_bufs (s : State) (core : Nat) (l : List DLine) : (s.setDlines core l).bufs = s.bufs := rfl
@[simp] theorem State.setDlines_gens (s : State) (core : Nat) (l : List DLine) : (s.setDlines core l).gens = s.gens := rfl
@[simp] theorem State.setDlines_mem (s : State) (core : Nat) (l : List DLine) : (s.setDlines core l).mem = s.mem := rfl
@[simp] theorem State.setDlines_eccFix (s : State) (core : Nat) (l : List DLine) : (s.setDlines core l).eccFix = s.eccFix := rfl
@[simp] theorem State.setDlines_eccBad (s : State) (core : Nat) (l : List DLine) : (s.setDlines core l).eccBad = s.eccBad := rfl
@[simp] theorem State.setDlines_rings (s : State) (core : Nat) (l : List DLine) : (s.setDlines core l).rings = s.rings := rfl
@[simp] theorem State.setDlines_comps (s : State) (core : Nat) (l : List DLine) : (s.setDlines core l).comps = s.comps := rfl
@[simp] theorem State.setDlines_arbs (s : State) (core : Nat) (l : List DLine) : (s.setDlines core l).arbs = s.arbs := rfl
@[simp] theorem State.setDlines_srch (s : State) (core : Nat) (l : List DLine) : (s.setDlines core l).srch = s.srch := rfl
@[simp] theorem State.setDlines_srchBusy (s : State) (core : Nat) (l : List DLine) : (s.setDlines core l).srchBusy = s.srchBusy := rfl
@[simp] theorem State.setDlines_prms (s : State) (core : Nat) (l : List DLine) : (s.setDlines core l).prms = s.prms := rfl
@[simp] theorem State.setDlines_wktBuckets (s : State) (core : Nat) (l : List DLine) : (s.setDlines core l).wktBuckets = s.wktBuckets := rfl
@[simp] theorem State.setDlines_braceAt (s : State) (core : Nat) (l : List DLine) : (s.setDlines core l).braceAt = s.braceAt := rfl
@[simp] theorem State.setDlines_tookOver (s : State) (core : Nat) (l : List DLine) : (s.setDlines core l).tookOver = s.tookOver := rfl
@[simp] theorem State.setDlines_rxRing (s : State) (core : Nat) (l : List DLine) : (s.setDlines core l).rxRing = s.rxRing := rfl
@[simp] theorem State.setDlines_fe (s : State) (core : Nat) (l : List DLine) : (s.setDlines core l).fe = s.fe := rfl
@[simp] theorem State.setDlines_trn (s : State) (core : Nat) (l : List DLine) : (s.setDlines core l).trn = s.trn := rfl
@[simp] theorem State.setDlines_slotRsv (s : State) (core : Nat) (l : List DLine) : (s.setDlines core l).slotRsv = s.slotRsv := rfl
@[simp] theorem State.setDlines_dg (s : State) (core : Nat) (l : List DLine) : (s.setDlines core l).dg = s.dg := rfl
@[simp] theorem State.setDlines_ddx (s : State) (core : Nat) (l : List DLine) : (s.setDlines core l).ddx = s.ddx := rfl
@[simp] theorem State.setDlines_xtsKeys (s : State) (core : Nat) (l : List DLine) : (s.setDlines core l).xtsKeys = s.xtsKeys := rfl
@[simp] theorem State.setDlines_sleds (s : State) (core : Nat) (l : List DLine) : (s.setDlines core l).sleds = s.sleds := rfl
@[simp] theorem State.setDlines_lanes (s : State) (core : Nat) (l : List DLine) : (s.setDlines core l).lanes = s.lanes := rfl
@[simp] theorem State.setDlines_seg (s : State) (core : Nat) (l : List DLine) : (s.setDlines core l).seg = s.seg := rfl
@[simp] theorem State.setDlines_map (s : State) (core : Nat) (l : List DLine) : (s.setDlines core l).map = s.map := rfl
@[simp] theorem State.setDlines_vlt (s : State) (core : Nat) (l : List DLine) : (s.setDlines core l).vlt = s.vlt := rfl
@[simp] theorem State.setDlines_evt (s : State) (core : Nat) (l : List DLine) : (s.setDlines core l).evt = s.evt := rfl
@[simp] theorem State.setDlines_log (s : State) (core : Nat) (l : List DLine) : (s.setDlines core l).log = s.log := rfl
@[simp] theorem State.setDlines_pins (s : State) (core : Nat) (l : List DLine) : (s.setDlines core l).pins = s.pins := rfl
@[simp] theorem State.setDlines_pwr (s : State) (core : Nat) (l : List DLine) : (s.setDlines core l).pwr = s.pwr := rfl
@[simp] theorem State.setDlines_pcie (s : State) (core : Nat) (l : List DLine) : (s.setDlines core l).pcie = s.pcie := rfl
@[simp] theorem State.setDlines_mbx (s : State) (core : Nat) (l : List DLine) : (s.setDlines core l).mbx = s.mbx := rfl
@[simp] theorem State.setDlines_doms (s : State) (core : Nat) (l : List DLine) : (s.setDlines core l).doms = s.doms := rfl
@[simp] theorem State.setDlines_i2c (s : State) (core : Nat) (l : List DLine) : (s.setDlines core l).i2c = s.i2c := rfl
@[simp] theorem State.setDlines_freeCtr (s : State) (core : Nat) (l : List DLine) : (s.setDlines core l).freeCtr = s.freeCtr := rfl
@[simp] theorem State.setDlines_out (s : State) (core : Nat) (l : List DLine) : (s.setDlines core l).out = s.out := rfl
@[simp] theorem State.setDlines_pending (s : State) (core : Nat) (l : List DLine) : (s.setDlines core l).pending = s.pending := rfl

/-! State.updCommit -/

@[simp] theorem State.updCommit_fuse (s : State) (f : MCommit → MCommit) : (s.updCommit f).fuse = s.fuse := rfl
@[simp] theorem State.updCommit_now (s : State) (f : MCommit → MCommit) : (s.updCommit f).now = s.now := rfl
@[simp] theorem State.updCommit_headId (s : State) (f : MCommit → MCommit) : (s.updCommit f).headId = s.headId := rfl
@[simp] theorem State.updCommit_life (s : State) (f : MCommit → MCommit) : (s.updCommit f).life = s.life := rfl
@[simp] theorem State.updCommit_regs (s : State) (f : MCommit → MCommit) : (s.updCommit f).regs = s.regs := rfl
@[simp] theorem State.updCommit_locked (s : State) (f : MCommit → MCommit) : (s.updCommit f).locked = s.locked := rfl
@[simp] theorem State.updCommit_latches (s : State) (f : MCommit → MCommit) : (s.updCommit f).latches = s.latches := rfl
@[simp] theorem State.updCommit_threads (s : State) (f : MCommit → MCommit) : (s.updCommit f).threads = s.threads := rfl
@[simp] theorem State.updCommit_items (s : State) (f : MCommit → MCommit) : (s.updCommit f).items = s.items := rfl
@[simp] theorem State.updCommit_queues (s : State) (f : MCommit → MCommit) : (s.updCommit f).queues = s.queues := rfl
@[simp] theorem State.updCommit_bufs (s : State) (f : MCommit → MCommit) : (s.updCommit f).bufs = s.bufs := rfl
@[simp] theorem State.updCommit_gens (s : State) (f : MCommit → MCommit) : (s.updCommit f).gens = s.gens := rfl
@[simp] theorem State.updCommit_mem (s : State) (f : MCommit → MCommit) : (s.updCommit f).mem = s.mem := rfl
@[simp] theorem State.updCommit_eccFix (s : State) (f : MCommit → MCommit) : (s.updCommit f).eccFix = s.eccFix := rfl
@[simp] theorem State.updCommit_eccBad (s : State) (f : MCommit → MCommit) : (s.updCommit f).eccBad = s.eccBad := rfl
@[simp] theorem State.updCommit_dcache (s : State) (f : MCommit → MCommit) : (s.updCommit f).dcache = s.dcache := rfl
@[simp] theorem State.updCommit_rings (s : State) (f : MCommit → MCommit) : (s.updCommit f).rings = s.rings := rfl
@[simp] theorem State.updCommit_comps (s : State) (f : MCommit → MCommit) : (s.updCommit f).comps = s.comps := rfl
@[simp] theorem State.updCommit_arbs (s : State) (f : MCommit → MCommit) : (s.updCommit f).arbs = s.arbs := rfl
@[simp] theorem State.updCommit_srch (s : State) (f : MCommit → MCommit) : (s.updCommit f).srch = s.srch := rfl
@[simp] theorem State.updCommit_srchBusy (s : State) (f : MCommit → MCommit) : (s.updCommit f).srchBusy = s.srchBusy := rfl
@[simp] theorem State.updCommit_prms (s : State) (f : MCommit → MCommit) : (s.updCommit f).prms = s.prms := rfl
@[simp] theorem State.updCommit_wktBuckets (s : State) (f : MCommit → MCommit) : (s.updCommit f).wktBuckets = s.wktBuckets := rfl
@[simp] theorem State.updCommit_braceAt (s : State) (f : MCommit → MCommit) : (s.updCommit f).braceAt = s.braceAt := rfl
@[simp] theorem State.updCommit_tookOver (s : State) (f : MCommit → MCommit) : (s.updCommit f).tookOver = s.tookOver := rfl
@[simp] theorem State.updCommit_rxRing (s : State) (f : MCommit → MCommit) : (s.updCommit f).rxRing = s.rxRing := rfl
@[simp] theorem State.updCommit_fe (s : State) (f : MCommit → MCommit) : (s.updCommit f).fe = s.fe := rfl
@[simp] theorem State.updCommit_trn (s : State) (f : MCommit → MCommit) : (s.updCommit f).trn = s.trn := rfl
@[simp] theorem State.updCommit_slotRsv (s : State) (f : MCommit → MCommit) : (s.updCommit f).slotRsv = s.slotRsv := rfl
@[simp] theorem State.updCommit_dg (s : State) (f : MCommit → MCommit) : (s.updCommit f).dg = s.dg := rfl
@[simp] theorem State.updCommit_ddx (s : State) (f : MCommit → MCommit) : (s.updCommit f).ddx = s.ddx := rfl
@[simp] theorem State.updCommit_xtsKeys (s : State) (f : MCommit → MCommit) : (s.updCommit f).xtsKeys = s.xtsKeys := rfl
@[simp] theorem State.updCommit_sleds (s : State) (f : MCommit → MCommit) : (s.updCommit f).sleds = s.sleds := rfl
@[simp] theorem State.updCommit_lanes (s : State) (f : MCommit → MCommit) : (s.updCommit f).lanes = s.lanes := rfl
@[simp] theorem State.updCommit_seg (s : State) (f : MCommit → MCommit) : (s.updCommit f).seg = s.seg := rfl
@[simp] theorem State.updCommit_vlt (s : State) (f : MCommit → MCommit) : (s.updCommit f).vlt = s.vlt := rfl
@[simp] theorem State.updCommit_evt (s : State) (f : MCommit → MCommit) : (s.updCommit f).evt = s.evt := rfl
@[simp] theorem State.updCommit_log (s : State) (f : MCommit → MCommit) : (s.updCommit f).log = s.log := rfl
@[simp] theorem State.updCommit_pins (s : State) (f : MCommit → MCommit) : (s.updCommit f).pins = s.pins := rfl
@[simp] theorem State.updCommit_pwr (s : State) (f : MCommit → MCommit) : (s.updCommit f).pwr = s.pwr := rfl
@[simp] theorem State.updCommit_pcie (s : State) (f : MCommit → MCommit) : (s.updCommit f).pcie = s.pcie := rfl
@[simp] theorem State.updCommit_mbx (s : State) (f : MCommit → MCommit) : (s.updCommit f).mbx = s.mbx := rfl
@[simp] theorem State.updCommit_doms (s : State) (f : MCommit → MCommit) : (s.updCommit f).doms = s.doms := rfl
@[simp] theorem State.updCommit_i2c (s : State) (f : MCommit → MCommit) : (s.updCommit f).i2c = s.i2c := rfl
@[simp] theorem State.updCommit_freeCtr (s : State) (f : MCommit → MCommit) : (s.updCommit f).freeCtr = s.freeCtr := rfl
@[simp] theorem State.updCommit_out (s : State) (f : MCommit → MCommit) : (s.updCommit f).out = s.out := rfl
@[simp] theorem State.updCommit_pending (s : State) (f : MCommit → MCommit) : (s.updCommit f).pending = s.pending := rfl

/-! State.vbFilled -/

@[simp] theorem State.vbFilled_fuse (s : State) (n : Nat) : (s.vbFilled n).fuse = s.fuse := rfl
@[simp] theorem State.vbFilled_now (s : State) (n : Nat) : (s.vbFilled n).now = s.now := rfl
@[simp] theorem State.vbFilled_headId (s : State) (n : Nat) : (s.vbFilled n).headId = s.headId := rfl
@[simp] theorem State.vbFilled_life (s : State) (n : Nat) : (s.vbFilled n).life = s.life := rfl
@[simp] theorem State.vbFilled_regs (s : State) (n : Nat) : (s.vbFilled n).regs = s.regs := rfl
@[simp] theorem State.vbFilled_locked (s : State) (n : Nat) : (s.vbFilled n).locked = s.locked := rfl
@[simp] theorem State.vbFilled_latches (s : State) (n : Nat) : (s.vbFilled n).latches = s.latches := rfl
@[simp] theorem State.vbFilled_threads (s : State) (n : Nat) : (s.vbFilled n).threads = s.threads := rfl
@[simp] theorem State.vbFilled_items (s : State) (n : Nat) : (s.vbFilled n).items = s.items := rfl
@[simp] theorem State.vbFilled_queues (s : State) (n : Nat) : (s.vbFilled n).queues = s.queues := rfl
@[simp] theorem State.vbFilled_bufs (s : State) (n : Nat) : (s.vbFilled n).bufs = s.bufs := rfl
@[simp] theorem State.vbFilled_gens (s : State) (n : Nat) : (s.vbFilled n).gens = s.gens := rfl
@[simp] theorem State.vbFilled_mem (s : State) (n : Nat) : (s.vbFilled n).mem = s.mem := rfl
@[simp] theorem State.vbFilled_eccFix (s : State) (n : Nat) : (s.vbFilled n).eccFix = s.eccFix := rfl
@[simp] theorem State.vbFilled_eccBad (s : State) (n : Nat) : (s.vbFilled n).eccBad = s.eccBad := rfl
@[simp] theorem State.vbFilled_dcache (s : State) (n : Nat) : (s.vbFilled n).dcache = s.dcache := rfl
@[simp] theorem State.vbFilled_rings (s : State) (n : Nat) : (s.vbFilled n).rings = s.rings := rfl
@[simp] theorem State.vbFilled_comps (s : State) (n : Nat) : (s.vbFilled n).comps = s.comps := rfl
@[simp] theorem State.vbFilled_arbs (s : State) (n : Nat) : (s.vbFilled n).arbs = s.arbs := rfl
@[simp] theorem State.vbFilled_srch (s : State) (n : Nat) : (s.vbFilled n).srch = s.srch := rfl
@[simp] theorem State.vbFilled_srchBusy (s : State) (n : Nat) : (s.vbFilled n).srchBusy = s.srchBusy := rfl
@[simp] theorem State.vbFilled_prms (s : State) (n : Nat) : (s.vbFilled n).prms = s.prms := rfl
@[simp] theorem State.vbFilled_wktBuckets (s : State) (n : Nat) : (s.vbFilled n).wktBuckets = s.wktBuckets := rfl
@[simp] theorem State.vbFilled_braceAt (s : State) (n : Nat) : (s.vbFilled n).braceAt = s.braceAt := rfl
@[simp] theorem State.vbFilled_tookOver (s : State) (n : Nat) : (s.vbFilled n).tookOver = s.tookOver := rfl
@[simp] theorem State.vbFilled_rxRing (s : State) (n : Nat) : (s.vbFilled n).rxRing = s.rxRing := rfl
@[simp] theorem State.vbFilled_fe (s : State) (n : Nat) : (s.vbFilled n).fe = s.fe := rfl
@[simp] theorem State.vbFilled_trn (s : State) (n : Nat) : (s.vbFilled n).trn = s.trn := rfl
@[simp] theorem State.vbFilled_slotRsv (s : State) (n : Nat) : (s.vbFilled n).slotRsv = s.slotRsv := rfl
@[simp] theorem State.vbFilled_dg (s : State) (n : Nat) : (s.vbFilled n).dg = s.dg := rfl
@[simp] theorem State.vbFilled_ddx (s : State) (n : Nat) : (s.vbFilled n).ddx = s.ddx := rfl
@[simp] theorem State.vbFilled_xtsKeys (s : State) (n : Nat) : (s.vbFilled n).xtsKeys = s.xtsKeys := rfl
@[simp] theorem State.vbFilled_sleds (s : State) (n : Nat) : (s.vbFilled n).sleds = s.sleds := rfl
@[simp] theorem State.vbFilled_lanes (s : State) (n : Nat) : (s.vbFilled n).lanes = s.lanes := rfl
@[simp] theorem State.vbFilled_seg (s : State) (n : Nat) : (s.vbFilled n).seg = s.seg := rfl
@[simp] theorem State.vbFilled_vlt (s : State) (n : Nat) : (s.vbFilled n).vlt = s.vlt := rfl
@[simp] theorem State.vbFilled_evt (s : State) (n : Nat) : (s.vbFilled n).evt = s.evt := rfl
@[simp] theorem State.vbFilled_log (s : State) (n : Nat) : (s.vbFilled n).log = s.log := rfl
@[simp] theorem State.vbFilled_pins (s : State) (n : Nat) : (s.vbFilled n).pins = s.pins := rfl
@[simp] theorem State.vbFilled_pwr (s : State) (n : Nat) : (s.vbFilled n).pwr = s.pwr := rfl
@[simp] theorem State.vbFilled_pcie (s : State) (n : Nat) : (s.vbFilled n).pcie = s.pcie := rfl
@[simp] theorem State.vbFilled_mbx (s : State) (n : Nat) : (s.vbFilled n).mbx = s.mbx := rfl
@[simp] theorem State.vbFilled_doms (s : State) (n : Nat) : (s.vbFilled n).doms = s.doms := rfl
@[simp] theorem State.vbFilled_i2c (s : State) (n : Nat) : (s.vbFilled n).i2c = s.i2c := rfl
@[simp] theorem State.vbFilled_freeCtr (s : State) (n : Nat) : (s.vbFilled n).freeCtr = s.freeCtr := rfl
@[simp] theorem State.vbFilled_out (s : State) (n : Nat) : (s.vbFilled n).out = s.out := rfl
@[simp] theorem State.vbFilled_pending (s : State) (n : Nat) : (s.vbFilled n).pending = s.pending := rfl

/-! State.bar4Put -/

@[simp] theorem State.bar4Put_fuse (s : State) (a : Nat) (d : List Byte) : (s.bar4Put a d).fuse = s.fuse := rfl
@[simp] theorem State.bar4Put_now (s : State) (a : Nat) (d : List Byte) : (s.bar4Put a d).now = s.now := rfl
@[simp] theorem State.bar4Put_headId (s : State) (a : Nat) (d : List Byte) : (s.bar4Put a d).headId = s.headId := rfl
@[simp] theorem State.bar4Put_life (s : State) (a : Nat) (d : List Byte) : (s.bar4Put a d).life = s.life := rfl
@[simp] theorem State.bar4Put_regs (s : State) (a : Nat) (d : List Byte) : (s.bar4Put a d).regs = s.regs := rfl
@[simp] theorem State.bar4Put_locked (s : State) (a : Nat) (d : List Byte) : (s.bar4Put a d).locked = s.locked := rfl
@[simp] theorem State.bar4Put_latches (s : State) (a : Nat) (d : List Byte) : (s.bar4Put a d).latches = s.latches := rfl
@[simp] theorem State.bar4Put_threads (s : State) (a : Nat) (d : List Byte) : (s.bar4Put a d).threads = s.threads := rfl
@[simp] theorem State.bar4Put_items (s : State) (a : Nat) (d : List Byte) : (s.bar4Put a d).items = s.items := rfl
@[simp] theorem State.bar4Put_queues (s : State) (a : Nat) (d : List Byte) : (s.bar4Put a d).queues = s.queues := rfl
@[simp] theorem State.bar4Put_bufs (s : State) (a : Nat) (d : List Byte) : (s.bar4Put a d).bufs = s.bufs := rfl
@[simp] theorem State.bar4Put_gens (s : State) (a : Nat) (d : List Byte) : (s.bar4Put a d).gens = s.gens := rfl
@[simp] theorem State.bar4Put_mem (s : State) (a : Nat) (d : List Byte) : (s.bar4Put a d).mem = s.mem := rfl
@[simp] theorem State.bar4Put_eccFix (s : State) (a : Nat) (d : List Byte) : (s.bar4Put a d).eccFix = s.eccFix := rfl
@[simp] theorem State.bar4Put_eccBad (s : State) (a : Nat) (d : List Byte) : (s.bar4Put a d).eccBad = s.eccBad := rfl
@[simp] theorem State.bar4Put_dcache (s : State) (a : Nat) (d : List Byte) : (s.bar4Put a d).dcache = s.dcache := rfl
@[simp] theorem State.bar4Put_rings (s : State) (a : Nat) (d : List Byte) : (s.bar4Put a d).rings = s.rings := rfl
@[simp] theorem State.bar4Put_comps (s : State) (a : Nat) (d : List Byte) : (s.bar4Put a d).comps = s.comps := rfl
@[simp] theorem State.bar4Put_arbs (s : State) (a : Nat) (d : List Byte) : (s.bar4Put a d).arbs = s.arbs := rfl
@[simp] theorem State.bar4Put_srch (s : State) (a : Nat) (d : List Byte) : (s.bar4Put a d).srch = s.srch := rfl
@[simp] theorem State.bar4Put_srchBusy (s : State) (a : Nat) (d : List Byte) : (s.bar4Put a d).srchBusy = s.srchBusy := rfl
@[simp] theorem State.bar4Put_prms (s : State) (a : Nat) (d : List Byte) : (s.bar4Put a d).prms = s.prms := rfl
@[simp] theorem State.bar4Put_wktBuckets (s : State) (a : Nat) (d : List Byte) : (s.bar4Put a d).wktBuckets = s.wktBuckets := rfl
@[simp] theorem State.bar4Put_braceAt (s : State) (a : Nat) (d : List Byte) : (s.bar4Put a d).braceAt = s.braceAt := rfl
@[simp] theorem State.bar4Put_tookOver (s : State) (a : Nat) (d : List Byte) : (s.bar4Put a d).tookOver = s.tookOver := rfl
@[simp] theorem State.bar4Put_rxRing (s : State) (a : Nat) (d : List Byte) : (s.bar4Put a d).rxRing = s.rxRing := rfl
@[simp] theorem State.bar4Put_fe (s : State) (a : Nat) (d : List Byte) : (s.bar4Put a d).fe = s.fe := rfl
@[simp] theorem State.bar4Put_trn (s : State) (a : Nat) (d : List Byte) : (s.bar4Put a d).trn = s.trn := rfl
@[simp] theorem State.bar4Put_slotRsv (s : State) (a : Nat) (d : List Byte) : (s.bar4Put a d).slotRsv = s.slotRsv := rfl
@[simp] theorem State.bar4Put_dg (s : State) (a : Nat) (d : List Byte) : (s.bar4Put a d).dg = s.dg := rfl
@[simp] theorem State.bar4Put_ddx (s : State) (a : Nat) (d : List Byte) : (s.bar4Put a d).ddx = s.ddx := rfl
@[simp] theorem State.bar4Put_xtsKeys (s : State) (a : Nat) (d : List Byte) : (s.bar4Put a d).xtsKeys = s.xtsKeys := rfl
@[simp] theorem State.bar4Put_sleds (s : State) (a : Nat) (d : List Byte) : (s.bar4Put a d).sleds = s.sleds := rfl
@[simp] theorem State.bar4Put_lanes (s : State) (a : Nat) (d : List Byte) : (s.bar4Put a d).lanes = s.lanes := rfl
@[simp] theorem State.bar4Put_seg (s : State) (a : Nat) (d : List Byte) : (s.bar4Put a d).seg = s.seg := rfl
@[simp] theorem State.bar4Put_map (s : State) (a : Nat) (d : List Byte) : (s.bar4Put a d).map = s.map := rfl
@[simp] theorem State.bar4Put_vlt (s : State) (a : Nat) (d : List Byte) : (s.bar4Put a d).vlt = s.vlt := rfl
@[simp] theorem State.bar4Put_evt (s : State) (a : Nat) (d : List Byte) : (s.bar4Put a d).evt = s.evt := rfl
@[simp] theorem State.bar4Put_log (s : State) (a : Nat) (d : List Byte) : (s.bar4Put a d).log = s.log := rfl
@[simp] theorem State.bar4Put_pins (s : State) (a : Nat) (d : List Byte) : (s.bar4Put a d).pins = s.pins := rfl
@[simp] theorem State.bar4Put_pwr (s : State) (a : Nat) (d : List Byte) : (s.bar4Put a d).pwr = s.pwr := rfl
@[simp] theorem State.bar4Put_pcie (s : State) (a : Nat) (d : List Byte) : (s.bar4Put a d).pcie = s.pcie := rfl
@[simp] theorem State.bar4Put_doms (s : State) (a : Nat) (d : List Byte) : (s.bar4Put a d).doms = s.doms := rfl
@[simp] theorem State.bar4Put_i2c (s : State) (a : Nat) (d : List Byte) : (s.bar4Put a d).i2c = s.i2c := rfl
@[simp] theorem State.bar4Put_freeCtr (s : State) (a : Nat) (d : List Byte) : (s.bar4Put a d).freeCtr = s.freeCtr := rfl
@[simp] theorem State.bar4Put_out (s : State) (a : Nat) (d : List Byte) : (s.bar4Put a d).out = s.out := rfl
@[simp] theorem State.bar4Put_pending (s : State) (a : Nat) (d : List Byte) : (s.bar4Put a d).pending = s.pending := rfl

/-! State.memDrop -/

@[simp] theorem State.memDrop_fuse (s : State) (lo hi : Nat) : (s.memDrop lo hi).fuse = s.fuse := rfl
@[simp] theorem State.memDrop_now (s : State) (lo hi : Nat) : (s.memDrop lo hi).now = s.now := rfl
@[simp] theorem State.memDrop_headId (s : State) (lo hi : Nat) : (s.memDrop lo hi).headId = s.headId := rfl
@[simp] theorem State.memDrop_life (s : State) (lo hi : Nat) : (s.memDrop lo hi).life = s.life := rfl
@[simp] theorem State.memDrop_regs (s : State) (lo hi : Nat) : (s.memDrop lo hi).regs = s.regs := rfl
@[simp] theorem State.memDrop_locked (s : State) (lo hi : Nat) : (s.memDrop lo hi).locked = s.locked := rfl
@[simp] theorem State.memDrop_latches (s : State) (lo hi : Nat) : (s.memDrop lo hi).latches = s.latches := rfl
@[simp] theorem State.memDrop_threads (s : State) (lo hi : Nat) : (s.memDrop lo hi).threads = s.threads := rfl
@[simp] theorem State.memDrop_items (s : State) (lo hi : Nat) : (s.memDrop lo hi).items = s.items := rfl
@[simp] theorem State.memDrop_queues (s : State) (lo hi : Nat) : (s.memDrop lo hi).queues = s.queues := rfl
@[simp] theorem State.memDrop_bufs (s : State) (lo hi : Nat) : (s.memDrop lo hi).bufs = s.bufs := rfl
@[simp] theorem State.memDrop_gens (s : State) (lo hi : Nat) : (s.memDrop lo hi).gens = s.gens := rfl
@[simp] theorem State.memDrop_dcache (s : State) (lo hi : Nat) : (s.memDrop lo hi).dcache = s.dcache := rfl
@[simp] theorem State.memDrop_rings (s : State) (lo hi : Nat) : (s.memDrop lo hi).rings = s.rings := rfl
@[simp] theorem State.memDrop_comps (s : State) (lo hi : Nat) : (s.memDrop lo hi).comps = s.comps := rfl
@[simp] theorem State.memDrop_arbs (s : State) (lo hi : Nat) : (s.memDrop lo hi).arbs = s.arbs := rfl
@[simp] theorem State.memDrop_srch (s : State) (lo hi : Nat) : (s.memDrop lo hi).srch = s.srch := rfl
@[simp] theorem State.memDrop_srchBusy (s : State) (lo hi : Nat) : (s.memDrop lo hi).srchBusy = s.srchBusy := rfl
@[simp] theorem State.memDrop_prms (s : State) (lo hi : Nat) : (s.memDrop lo hi).prms = s.prms := rfl
@[simp] theorem State.memDrop_wktBuckets (s : State) (lo hi : Nat) : (s.memDrop lo hi).wktBuckets = s.wktBuckets := rfl
@[simp] theorem State.memDrop_braceAt (s : State) (lo hi : Nat) : (s.memDrop lo hi).braceAt = s.braceAt := rfl
@[simp] theorem State.memDrop_tookOver (s : State) (lo hi : Nat) : (s.memDrop lo hi).tookOver = s.tookOver := rfl
@[simp] theorem State.memDrop_rxRing (s : State) (lo hi : Nat) : (s.memDrop lo hi).rxRing = s.rxRing := rfl
@[simp] theorem State.memDrop_fe (s : State) (lo hi : Nat) : (s.memDrop lo hi).fe = s.fe := rfl
@[simp] theorem State.memDrop_trn (s : State) (lo hi : Nat) : (s.memDrop lo hi).trn = s.trn := rfl
@[simp] theorem State.memDrop_slotRsv (s : State) (lo hi : Nat) : (s.memDrop lo hi).slotRsv = s.slotRsv := rfl
@[simp] theorem State.memDrop_dg (s : State) (lo hi : Nat) : (s.memDrop lo hi).dg = s.dg := rfl
@[simp] theorem State.memDrop_ddx (s : State) (lo hi : Nat) : (s.memDrop lo hi).ddx = s.ddx := rfl
@[simp] theorem State.memDrop_xtsKeys (s : State) (lo hi : Nat) : (s.memDrop lo hi).xtsKeys = s.xtsKeys := rfl
@[simp] theorem State.memDrop_sleds (s : State) (lo hi : Nat) : (s.memDrop lo hi).sleds = s.sleds := rfl
@[simp] theorem State.memDrop_lanes (s : State) (lo hi : Nat) : (s.memDrop lo hi).lanes = s.lanes := rfl
@[simp] theorem State.memDrop_seg (s : State) (lo hi : Nat) : (s.memDrop lo hi).seg = s.seg := rfl
@[simp] theorem State.memDrop_map (s : State) (lo hi : Nat) : (s.memDrop lo hi).map = s.map := rfl
@[simp] theorem State.memDrop_vlt (s : State) (lo hi : Nat) : (s.memDrop lo hi).vlt = s.vlt := rfl
@[simp] theorem State.memDrop_evt (s : State) (lo hi : Nat) : (s.memDrop lo hi).evt = s.evt := rfl
@[simp] theorem State.memDrop_log (s : State) (lo hi : Nat) : (s.memDrop lo hi).log = s.log := rfl
@[simp] theorem State.memDrop_pins (s : State) (lo hi : Nat) : (s.memDrop lo hi).pins = s.pins := rfl
@[simp] theorem State.memDrop_pwr (s : State) (lo hi : Nat) : (s.memDrop lo hi).pwr = s.pwr := rfl
@[simp] theorem State.memDrop_pcie (s : State) (lo hi : Nat) : (s.memDrop lo hi).pcie = s.pcie := rfl
@[simp] theorem State.memDrop_mbx (s : State) (lo hi : Nat) : (s.memDrop lo hi).mbx = s.mbx := rfl
@[simp] theorem State.memDrop_doms (s : State) (lo hi : Nat) : (s.memDrop lo hi).doms = s.doms := rfl
@[simp] theorem State.memDrop_i2c (s : State) (lo hi : Nat) : (s.memDrop lo hi).i2c = s.i2c := rfl
@[simp] theorem State.memDrop_freeCtr (s : State) (lo hi : Nat) : (s.memDrop lo hi).freeCtr = s.freeCtr := rfl
@[simp] theorem State.memDrop_out (s : State) (lo hi : Nat) : (s.memDrop lo hi).out = s.out := rfl
@[simp] theorem State.memDrop_pending (s : State) (lo hi : Nat) : (s.memDrop lo hi).pending = s.pending := rfl

/-! State.setLane -/

@[simp] theorem State.setLane_fuse (s : State) (n : Nat) (x : Lane) : (s.setLane n x).fuse = s.fuse := rfl
@[simp] theorem State.setLane_now (s : State) (n : Nat) (x : Lane) : (s.setLane n x).now = s.now := rfl
@[simp] theorem State.setLane_headId (s : State) (n : Nat) (x : Lane) : (s.setLane n x).headId = s.headId := rfl
@[simp] theorem State.setLane_life (s : State) (n : Nat) (x : Lane) : (s.setLane n x).life = s.life := rfl
@[simp] theorem State.setLane_regs (s : State) (n : Nat) (x : Lane) : (s.setLane n x).regs = s.regs := rfl
@[simp] theorem State.setLane_locked (s : State) (n : Nat) (x : Lane) : (s.setLane n x).locked = s.locked := rfl
@[simp] theorem State.setLane_latches (s : State) (n : Nat) (x : Lane) : (s.setLane n x).latches = s.latches := rfl
@[simp] theorem State.setLane_threads (s : State) (n : Nat) (x : Lane) : (s.setLane n x).threads = s.threads := rfl
@[simp] theorem State.setLane_items (s : State) (n : Nat) (x : Lane) : (s.setLane n x).items = s.items := rfl
@[simp] theorem State.setLane_queues (s : State) (n : Nat) (x : Lane) : (s.setLane n x).queues = s.queues := rfl
@[simp] theorem State.setLane_bufs (s : State) (n : Nat) (x : Lane) : (s.setLane n x).bufs = s.bufs := rfl
@[simp] theorem State.setLane_gens (s : State) (n : Nat) (x : Lane) : (s.setLane n x).gens = s.gens := rfl
@[simp] theorem State.setLane_mem (s : State) (n : Nat) (x : Lane) : (s.setLane n x).mem = s.mem := rfl
@[simp] theorem State.setLane_eccFix (s : State) (n : Nat) (x : Lane) : (s.setLane n x).eccFix = s.eccFix := rfl
@[simp] theorem State.setLane_eccBad (s : State) (n : Nat) (x : Lane) : (s.setLane n x).eccBad = s.eccBad := rfl
@[simp] theorem State.setLane_dcache (s : State) (n : Nat) (x : Lane) : (s.setLane n x).dcache = s.dcache := rfl
@[simp] theorem State.setLane_rings (s : State) (n : Nat) (x : Lane) : (s.setLane n x).rings = s.rings := rfl
@[simp] theorem State.setLane_comps (s : State) (n : Nat) (x : Lane) : (s.setLane n x).comps = s.comps := rfl
@[simp] theorem State.setLane_arbs (s : State) (n : Nat) (x : Lane) : (s.setLane n x).arbs = s.arbs := rfl
@[simp] theorem State.setLane_srch (s : State) (n : Nat) (x : Lane) : (s.setLane n x).srch = s.srch := rfl
@[simp] theorem State.setLane_srchBusy (s : State) (n : Nat) (x : Lane) : (s.setLane n x).srchBusy = s.srchBusy := rfl
@[simp] theorem State.setLane_prms (s : State) (n : Nat) (x : Lane) : (s.setLane n x).prms = s.prms := rfl
@[simp] theorem State.setLane_wktBuckets (s : State) (n : Nat) (x : Lane) : (s.setLane n x).wktBuckets = s.wktBuckets := rfl
@[simp] theorem State.setLane_braceAt (s : State) (n : Nat) (x : Lane) : (s.setLane n x).braceAt = s.braceAt := rfl
@[simp] theorem State.setLane_tookOver (s : State) (n : Nat) (x : Lane) : (s.setLane n x).tookOver = s.tookOver := rfl
@[simp] theorem State.setLane_rxRing (s : State) (n : Nat) (x : Lane) : (s.setLane n x).rxRing = s.rxRing := rfl
@[simp] theorem State.setLane_fe (s : State) (n : Nat) (x : Lane) : (s.setLane n x).fe = s.fe := rfl
@[simp] theorem State.setLane_trn (s : State) (n : Nat) (x : Lane) : (s.setLane n x).trn = s.trn := rfl
@[simp] theorem State.setLane_slotRsv (s : State) (n : Nat) (x : Lane) : (s.setLane n x).slotRsv = s.slotRsv := rfl
@[simp] theorem State.setLane_dg (s : State) (n : Nat) (x : Lane) : (s.setLane n x).dg = s.dg := rfl
@[simp] theorem State.setLane_ddx (s : State) (n : Nat) (x : Lane) : (s.setLane n x).ddx = s.ddx := rfl
@[simp] theorem State.setLane_xtsKeys (s : State) (n : Nat) (x : Lane) : (s.setLane n x).xtsKeys = s.xtsKeys := rfl
@[simp] theorem State.setLane_sleds (s : State) (n : Nat) (x : Lane) : (s.setLane n x).sleds = s.sleds := rfl
@[simp] theorem State.setLane_seg (s : State) (n : Nat) (x : Lane) : (s.setLane n x).seg = s.seg := rfl
@[simp] theorem State.setLane_map (s : State) (n : Nat) (x : Lane) : (s.setLane n x).map = s.map := rfl
@[simp] theorem State.setLane_vlt (s : State) (n : Nat) (x : Lane) : (s.setLane n x).vlt = s.vlt := rfl
@[simp] theorem State.setLane_evt (s : State) (n : Nat) (x : Lane) : (s.setLane n x).evt = s.evt := rfl
@[simp] theorem State.setLane_log (s : State) (n : Nat) (x : Lane) : (s.setLane n x).log = s.log := rfl
@[simp] theorem State.setLane_pins (s : State) (n : Nat) (x : Lane) : (s.setLane n x).pins = s.pins := rfl
@[simp] theorem State.setLane_pwr (s : State) (n : Nat) (x : Lane) : (s.setLane n x).pwr = s.pwr := rfl
@[simp] theorem State.setLane_pcie (s : State) (n : Nat) (x : Lane) : (s.setLane n x).pcie = s.pcie := rfl
@[simp] theorem State.setLane_mbx (s : State) (n : Nat) (x : Lane) : (s.setLane n x).mbx = s.mbx := rfl
@[simp] theorem State.setLane_doms (s : State) (n : Nat) (x : Lane) : (s.setLane n x).doms = s.doms := rfl
@[simp] theorem State.setLane_i2c (s : State) (n : Nat) (x : Lane) : (s.setLane n x).i2c = s.i2c := rfl
@[simp] theorem State.setLane_freeCtr (s : State) (n : Nat) (x : Lane) : (s.setLane n x).freeCtr = s.freeCtr := rfl
@[simp] theorem State.setLane_out (s : State) (n : Nat) (x : Lane) : (s.setLane n x).out = s.out := rfl
@[simp] theorem State.setLane_pending (s : State) (n : Nat) (x : Lane) : (s.setLane n x).pending = s.pending := rfl

/-! State.nextFree -/

@[simp] theorem State.nextFree_fuse (s : State) : (s.nextFree).fuse = s.fuse := rfl
@[simp] theorem State.nextFree_now (s : State) : (s.nextFree).now = s.now := rfl
@[simp] theorem State.nextFree_headId (s : State) : (s.nextFree).headId = s.headId := rfl
@[simp] theorem State.nextFree_life (s : State) : (s.nextFree).life = s.life := rfl
@[simp] theorem State.nextFree_regs (s : State) : (s.nextFree).regs = s.regs := rfl
@[simp] theorem State.nextFree_locked (s : State) : (s.nextFree).locked = s.locked := rfl
@[simp] theorem State.nextFree_latches (s : State) : (s.nextFree).latches = s.latches := rfl
@[simp] theorem State.nextFree_threads (s : State) : (s.nextFree).threads = s.threads := rfl
@[simp] theorem State.nextFree_items (s : State) : (s.nextFree).items = s.items := rfl
@[simp] theorem State.nextFree_queues (s : State) : (s.nextFree).queues = s.queues := rfl
@[simp] theorem State.nextFree_bufs (s : State) : (s.nextFree).bufs = s.bufs := rfl
@[simp] theorem State.nextFree_gens (s : State) : (s.nextFree).gens = s.gens := rfl
@[simp] theorem State.nextFree_mem (s : State) : (s.nextFree).mem = s.mem := rfl
@[simp] theorem State.nextFree_eccFix (s : State) : (s.nextFree).eccFix = s.eccFix := rfl
@[simp] theorem State.nextFree_eccBad (s : State) : (s.nextFree).eccBad = s.eccBad := rfl
@[simp] theorem State.nextFree_dcache (s : State) : (s.nextFree).dcache = s.dcache := rfl
@[simp] theorem State.nextFree_rings (s : State) : (s.nextFree).rings = s.rings := rfl
@[simp] theorem State.nextFree_comps (s : State) : (s.nextFree).comps = s.comps := rfl
@[simp] theorem State.nextFree_arbs (s : State) : (s.nextFree).arbs = s.arbs := rfl
@[simp] theorem State.nextFree_srch (s : State) : (s.nextFree).srch = s.srch := rfl
@[simp] theorem State.nextFree_srchBusy (s : State) : (s.nextFree).srchBusy = s.srchBusy := rfl
@[simp] theorem State.nextFree_prms (s : State) : (s.nextFree).prms = s.prms := rfl
@[simp] theorem State.nextFree_wktBuckets (s : State) : (s.nextFree).wktBuckets = s.wktBuckets := rfl
@[simp] theorem State.nextFree_braceAt (s : State) : (s.nextFree).braceAt = s.braceAt := rfl
@[simp] theorem State.nextFree_tookOver (s : State) : (s.nextFree).tookOver = s.tookOver := rfl
@[simp] theorem State.nextFree_rxRing (s : State) : (s.nextFree).rxRing = s.rxRing := rfl
@[simp] theorem State.nextFree_fe (s : State) : (s.nextFree).fe = s.fe := rfl
@[simp] theorem State.nextFree_trn (s : State) : (s.nextFree).trn = s.trn := rfl
@[simp] theorem State.nextFree_slotRsv (s : State) : (s.nextFree).slotRsv = s.slotRsv := rfl
@[simp] theorem State.nextFree_dg (s : State) : (s.nextFree).dg = s.dg := rfl
@[simp] theorem State.nextFree_ddx (s : State) : (s.nextFree).ddx = s.ddx := rfl
@[simp] theorem State.nextFree_xtsKeys (s : State) : (s.nextFree).xtsKeys = s.xtsKeys := rfl
@[simp] theorem State.nextFree_sleds (s : State) : (s.nextFree).sleds = s.sleds := rfl
@[simp] theorem State.nextFree_lanes (s : State) : (s.nextFree).lanes = s.lanes := rfl
@[simp] theorem State.nextFree_seg (s : State) : (s.nextFree).seg = s.seg := rfl
@[simp] theorem State.nextFree_map (s : State) : (s.nextFree).map = s.map := rfl
@[simp] theorem State.nextFree_vlt (s : State) : (s.nextFree).vlt = s.vlt := rfl
@[simp] theorem State.nextFree_evt (s : State) : (s.nextFree).evt = s.evt := rfl
@[simp] theorem State.nextFree_log (s : State) : (s.nextFree).log = s.log := rfl
@[simp] theorem State.nextFree_pins (s : State) : (s.nextFree).pins = s.pins := rfl
@[simp] theorem State.nextFree_pwr (s : State) : (s.nextFree).pwr = s.pwr := rfl
@[simp] theorem State.nextFree_pcie (s : State) : (s.nextFree).pcie = s.pcie := rfl
@[simp] theorem State.nextFree_mbx (s : State) : (s.nextFree).mbx = s.mbx := rfl
@[simp] theorem State.nextFree_doms (s : State) : (s.nextFree).doms = s.doms := rfl
@[simp] theorem State.nextFree_i2c (s : State) : (s.nextFree).i2c = s.i2c := rfl
@[simp] theorem State.nextFree_out (s : State) : (s.nextFree).out = s.out := rfl
@[simp] theorem State.nextFree_pending (s : State) : (s.nextFree).pending = s.pending := rfl

/-! State.regSet -/

@[simp] theorem State.regSet_fuse (s : State) (off : Nat) (v : Word) : (s.regSet off v).fuse = s.fuse := rfl
@[simp] theorem State.regSet_now (s : State) (off : Nat) (v : Word) : (s.regSet off v).now = s.now := rfl
@[simp] theorem State.regSet_headId (s : State) (off : Nat) (v : Word) : (s.regSet off v).headId = s.headId := rfl
@[simp] theorem State.regSet_life (s : State) (off : Nat) (v : Word) : (s.regSet off v).life = s.life := rfl
@[simp] theorem State.regSet_locked (s : State) (off : Nat) (v : Word) : (s.regSet off v).locked = s.locked := rfl
@[simp] theorem State.regSet_latches (s : State) (off : Nat) (v : Word) : (s.regSet off v).latches = s.latches := rfl
@[simp] theorem State.regSet_threads (s : State) (off : Nat) (v : Word) : (s.regSet off v).threads = s.threads := rfl
@[simp] theorem State.regSet_items (s : State) (off : Nat) (v : Word) : (s.regSet off v).items = s.items := rfl
@[simp] theorem State.regSet_queues (s : State) (off : Nat) (v : Word) : (s.regSet off v).queues = s.queues := rfl
@[simp] theorem State.regSet_bufs (s : State) (off : Nat) (v : Word) : (s.regSet off v).bufs = s.bufs := rfl
@[simp] theorem State.regSet_gens (s : State) (off : Nat) (v : Word) : (s.regSet off v).gens = s.gens := rfl
@[simp] theorem State.regSet_mem (s : State) (off : Nat) (v : Word) : (s.regSet off v).mem = s.mem := rfl
@[simp] theorem State.regSet_eccFix (s : State) (off : Nat) (v : Word) : (s.regSet off v).eccFix = s.eccFix := rfl
@[simp] theorem State.regSet_eccBad (s : State) (off : Nat) (v : Word) : (s.regSet off v).eccBad = s.eccBad := rfl
@[simp] theorem State.regSet_dcache (s : State) (off : Nat) (v : Word) : (s.regSet off v).dcache = s.dcache := rfl
@[simp] theorem State.regSet_rings (s : State) (off : Nat) (v : Word) : (s.regSet off v).rings = s.rings := rfl
@[simp] theorem State.regSet_comps (s : State) (off : Nat) (v : Word) : (s.regSet off v).comps = s.comps := rfl
@[simp] theorem State.regSet_arbs (s : State) (off : Nat) (v : Word) : (s.regSet off v).arbs = s.arbs := rfl
@[simp] theorem State.regSet_srch (s : State) (off : Nat) (v : Word) : (s.regSet off v).srch = s.srch := rfl
@[simp] theorem State.regSet_srchBusy (s : State) (off : Nat) (v : Word) : (s.regSet off v).srchBusy = s.srchBusy := rfl
@[simp] theorem State.regSet_prms (s : State) (off : Nat) (v : Word) : (s.regSet off v).prms = s.prms := rfl
@[simp] theorem State.regSet_wktBuckets (s : State) (off : Nat) (v : Word) : (s.regSet off v).wktBuckets = s.wktBuckets := rfl
@[simp] theorem State.regSet_braceAt (s : State) (off : Nat) (v : Word) : (s.regSet off v).braceAt = s.braceAt := rfl
@[simp] theorem State.regSet_tookOver (s : State) (off : Nat) (v : Word) : (s.regSet off v).tookOver = s.tookOver := rfl
@[simp] theorem State.regSet_rxRing (s : State) (off : Nat) (v : Word) : (s.regSet off v).rxRing = s.rxRing := rfl
@[simp] theorem State.regSet_fe (s : State) (off : Nat) (v : Word) : (s.regSet off v).fe = s.fe := rfl
@[simp] theorem State.regSet_trn (s : State) (off : Nat) (v : Word) : (s.regSet off v).trn = s.trn := rfl
@[simp] theorem State.regSet_slotRsv (s : State) (off : Nat) (v : Word) : (s.regSet off v).slotRsv = s.slotRsv := rfl
@[simp] theorem State.regSet_dg (s : State) (off : Nat) (v : Word) : (s.regSet off v).dg = s.dg := rfl
@[simp] theorem State.regSet_ddx (s : State) (off : Nat) (v : Word) : (s.regSet off v).ddx = s.ddx := rfl
@[simp] theorem State.regSet_xtsKeys (s : State) (off : Nat) (v : Word) : (s.regSet off v).xtsKeys = s.xtsKeys := rfl
@[simp] theorem State.regSet_sleds (s : State) (off : Nat) (v : Word) : (s.regSet off v).sleds = s.sleds := rfl
@[simp] theorem State.regSet_lanes (s : State) (off : Nat) (v : Word) : (s.regSet off v).lanes = s.lanes := rfl
@[simp] theorem State.regSet_seg (s : State) (off : Nat) (v : Word) : (s.regSet off v).seg = s.seg := rfl
@[simp] theorem State.regSet_map (s : State) (off : Nat) (v : Word) : (s.regSet off v).map = s.map := rfl
@[simp] theorem State.regSet_vlt (s : State) (off : Nat) (v : Word) : (s.regSet off v).vlt = s.vlt := rfl
@[simp] theorem State.regSet_evt (s : State) (off : Nat) (v : Word) : (s.regSet off v).evt = s.evt := rfl
@[simp] theorem State.regSet_log (s : State) (off : Nat) (v : Word) : (s.regSet off v).log = s.log := rfl
@[simp] theorem State.regSet_pins (s : State) (off : Nat) (v : Word) : (s.regSet off v).pins = s.pins := rfl
@[simp] theorem State.regSet_pwr (s : State) (off : Nat) (v : Word) : (s.regSet off v).pwr = s.pwr := rfl
@[simp] theorem State.regSet_pcie (s : State) (off : Nat) (v : Word) : (s.regSet off v).pcie = s.pcie := rfl
@[simp] theorem State.regSet_mbx (s : State) (off : Nat) (v : Word) : (s.regSet off v).mbx = s.mbx := rfl
@[simp] theorem State.regSet_doms (s : State) (off : Nat) (v : Word) : (s.regSet off v).doms = s.doms := rfl
@[simp] theorem State.regSet_i2c (s : State) (off : Nat) (v : Word) : (s.regSet off v).i2c = s.i2c := rfl
@[simp] theorem State.regSet_freeCtr (s : State) (off : Nat) (v : Word) : (s.regSet off v).freeCtr = s.freeCtr := rfl
@[simp] theorem State.regSet_out (s : State) (off : Nat) (v : Word) : (s.regSet off v).out = s.out := rfl
@[simp] theorem State.regSet_pending (s : State) (off : Nat) (v : Word) : (s.regSet off v).pending = s.pending := rfl

/-! State.stMem -/

@[simp] theorem State.stMem_fuse (s : State) (a n v : Nat) : (s.stMem a n v).fuse = s.fuse := rfl
@[simp] theorem State.stMem_now (s : State) (a n v : Nat) : (s.stMem a n v).now = s.now := rfl
@[simp] theorem State.stMem_headId (s : State) (a n v : Nat) : (s.stMem a n v).headId = s.headId := rfl
@[simp] theorem State.stMem_life (s : State) (a n v : Nat) : (s.stMem a n v).life = s.life := rfl
@[simp] theorem State.stMem_regs (s : State) (a n v : Nat) : (s.stMem a n v).regs = s.regs := rfl
@[simp] theorem State.stMem_locked (s : State) (a n v : Nat) : (s.stMem a n v).locked = s.locked := rfl
@[simp] theorem State.stMem_latches (s : State) (a n v : Nat) : (s.stMem a n v).latches = s.latches := rfl
@[simp] theorem State.stMem_threads (s : State) (a n v : Nat) : (s.stMem a n v).threads = s.threads := rfl
@[simp] theorem State.stMem_items (s : State) (a n v : Nat) : (s.stMem a n v).items = s.items := rfl
@[simp] theorem State.stMem_queues (s : State) (a n v : Nat) : (s.stMem a n v).queues = s.queues := rfl
@[simp] theorem State.stMem_bufs (s : State) (a n v : Nat) : (s.stMem a n v).bufs = s.bufs := rfl
@[simp] theorem State.stMem_gens (s : State) (a n v : Nat) : (s.stMem a n v).gens = s.gens := rfl
@[simp] theorem State.stMem_eccFix (s : State) (a n v : Nat) : (s.stMem a n v).eccFix = s.eccFix := rfl
@[simp] theorem State.stMem_eccBad (s : State) (a n v : Nat) : (s.stMem a n v).eccBad = s.eccBad := rfl
@[simp] theorem State.stMem_dcache (s : State) (a n v : Nat) : (s.stMem a n v).dcache = s.dcache := rfl
@[simp] theorem State.stMem_rings (s : State) (a n v : Nat) : (s.stMem a n v).rings = s.rings := rfl
@[simp] theorem State.stMem_comps (s : State) (a n v : Nat) : (s.stMem a n v).comps = s.comps := rfl
@[simp] theorem State.stMem_arbs (s : State) (a n v : Nat) : (s.stMem a n v).arbs = s.arbs := rfl
@[simp] theorem State.stMem_srch (s : State) (a n v : Nat) : (s.stMem a n v).srch = s.srch := rfl
@[simp] theorem State.stMem_srchBusy (s : State) (a n v : Nat) : (s.stMem a n v).srchBusy = s.srchBusy := rfl
@[simp] theorem State.stMem_prms (s : State) (a n v : Nat) : (s.stMem a n v).prms = s.prms := rfl
@[simp] theorem State.stMem_wktBuckets (s : State) (a n v : Nat) : (s.stMem a n v).wktBuckets = s.wktBuckets := rfl
@[simp] theorem State.stMem_braceAt (s : State) (a n v : Nat) : (s.stMem a n v).braceAt = s.braceAt := rfl
@[simp] theorem State.stMem_tookOver (s : State) (a n v : Nat) : (s.stMem a n v).tookOver = s.tookOver := rfl
@[simp] theorem State.stMem_rxRing (s : State) (a n v : Nat) : (s.stMem a n v).rxRing = s.rxRing := rfl
@[simp] theorem State.stMem_fe (s : State) (a n v : Nat) : (s.stMem a n v).fe = s.fe := rfl
@[simp] theorem State.stMem_trn (s : State) (a n v : Nat) : (s.stMem a n v).trn = s.trn := rfl
@[simp] theorem State.stMem_slotRsv (s : State) (a n v : Nat) : (s.stMem a n v).slotRsv = s.slotRsv := rfl
@[simp] theorem State.stMem_dg (s : State) (a n v : Nat) : (s.stMem a n v).dg = s.dg := rfl
@[simp] theorem State.stMem_ddx (s : State) (a n v : Nat) : (s.stMem a n v).ddx = s.ddx := rfl
@[simp] theorem State.stMem_xtsKeys (s : State) (a n v : Nat) : (s.stMem a n v).xtsKeys = s.xtsKeys := rfl
@[simp] theorem State.stMem_sleds (s : State) (a n v : Nat) : (s.stMem a n v).sleds = s.sleds := rfl
@[simp] theorem State.stMem_lanes (s : State) (a n v : Nat) : (s.stMem a n v).lanes = s.lanes := rfl
@[simp] theorem State.stMem_seg (s : State) (a n v : Nat) : (s.stMem a n v).seg = s.seg := rfl
@[simp] theorem State.stMem_map (s : State) (a n v : Nat) : (s.stMem a n v).map = s.map := rfl
@[simp] theorem State.stMem_vlt (s : State) (a n v : Nat) : (s.stMem a n v).vlt = s.vlt := rfl
@[simp] theorem State.stMem_evt (s : State) (a n v : Nat) : (s.stMem a n v).evt = s.evt := rfl
@[simp] theorem State.stMem_log (s : State) (a n v : Nat) : (s.stMem a n v).log = s.log := rfl
@[simp] theorem State.stMem_pins (s : State) (a n v : Nat) : (s.stMem a n v).pins = s.pins := rfl
@[simp] theorem State.stMem_pwr (s : State) (a n v : Nat) : (s.stMem a n v).pwr = s.pwr := rfl
@[simp] theorem State.stMem_pcie (s : State) (a n v : Nat) : (s.stMem a n v).pcie = s.pcie := rfl
@[simp] theorem State.stMem_mbx (s : State) (a n v : Nat) : (s.stMem a n v).mbx = s.mbx := rfl
@[simp] theorem State.stMem_doms (s : State) (a n v : Nat) : (s.stMem a n v).doms = s.doms := rfl
@[simp] theorem State.stMem_i2c (s : State) (a n v : Nat) : (s.stMem a n v).i2c = s.i2c := rfl
@[simp] theorem State.stMem_freeCtr (s : State) (a n v : Nat) : (s.stMem a n v).freeCtr = s.freeCtr := rfl
@[simp] theorem State.stMem_out (s : State) (a n v : Nat) : (s.stMem a n v).out = s.out := rfl
@[simp] theorem State.stMem_pending (s : State) (a n v : Nat) : (s.stMem a n v).pending = s.pending := rfl

/-! State.setBytes -/

@[simp] theorem State.setBytes_fuse (s : State) (a : Nat) (bs : List Byte) : (s.setBytes a bs).fuse = s.fuse := rfl
@[simp] theorem State.setBytes_now (s : State) (a : Nat) (bs : List Byte) : (s.setBytes a bs).now = s.now := rfl
@[simp] theorem State.setBytes_headId (s : State) (a : Nat) (bs : List Byte) : (s.setBytes a bs).headId = s.headId := rfl
@[simp] theorem State.setBytes_life (s : State) (a : Nat) (bs : List Byte) : (s.setBytes a bs).life = s.life := rfl
@[simp] theorem State.setBytes_regs (s : State) (a : Nat) (bs : List Byte) : (s.setBytes a bs).regs = s.regs := rfl
@[simp] theorem State.setBytes_locked (s : State) (a : Nat) (bs : List Byte) : (s.setBytes a bs).locked = s.locked := rfl
@[simp] theorem State.setBytes_latches (s : State) (a : Nat) (bs : List Byte) : (s.setBytes a bs).latches = s.latches := rfl
@[simp] theorem State.setBytes_threads (s : State) (a : Nat) (bs : List Byte) : (s.setBytes a bs).threads = s.threads := rfl
@[simp] theorem State.setBytes_items (s : State) (a : Nat) (bs : List Byte) : (s.setBytes a bs).items = s.items := rfl
@[simp] theorem State.setBytes_queues (s : State) (a : Nat) (bs : List Byte) : (s.setBytes a bs).queues = s.queues := rfl
@[simp] theorem State.setBytes_bufs (s : State) (a : Nat) (bs : List Byte) : (s.setBytes a bs).bufs = s.bufs := rfl
@[simp] theorem State.setBytes_gens (s : State) (a : Nat) (bs : List Byte) : (s.setBytes a bs).gens = s.gens := rfl
@[simp] theorem State.setBytes_eccFix (s : State) (a : Nat) (bs : List Byte) : (s.setBytes a bs).eccFix = s.eccFix := rfl
@[simp] theorem State.setBytes_eccBad (s : State) (a : Nat) (bs : List Byte) : (s.setBytes a bs).eccBad = s.eccBad := rfl
@[simp] theorem State.setBytes_dcache (s : State) (a : Nat) (bs : List Byte) : (s.setBytes a bs).dcache = s.dcache := rfl
@[simp] theorem State.setBytes_rings (s : State) (a : Nat) (bs : List Byte) : (s.setBytes a bs).rings = s.rings := rfl
@[simp] theorem State.setBytes_comps (s : State) (a : Nat) (bs : List Byte) : (s.setBytes a bs).comps = s.comps := rfl
@[simp] theorem State.setBytes_arbs (s : State) (a : Nat) (bs : List Byte) : (s.setBytes a bs).arbs = s.arbs := rfl
@[simp] theorem State.setBytes_srch (s : State) (a : Nat) (bs : List Byte) : (s.setBytes a bs).srch = s.srch := rfl
@[simp] theorem State.setBytes_srchBusy (s : State) (a : Nat) (bs : List Byte) : (s.setBytes a bs).srchBusy = s.srchBusy := rfl
@[simp] theorem State.setBytes_prms (s : State) (a : Nat) (bs : List Byte) : (s.setBytes a bs).prms = s.prms := rfl
@[simp] theorem State.setBytes_wktBuckets (s : State) (a : Nat) (bs : List Byte) : (s.setBytes a bs).wktBuckets = s.wktBuckets := rfl
@[simp] theorem State.setBytes_braceAt (s : State) (a : Nat) (bs : List Byte) : (s.setBytes a bs).braceAt = s.braceAt := rfl
@[simp] theorem State.setBytes_tookOver (s : State) (a : Nat) (bs : List Byte) : (s.setBytes a bs).tookOver = s.tookOver := rfl
@[simp] theorem State.setBytes_rxRing (s : State) (a : Nat) (bs : List Byte) : (s.setBytes a bs).rxRing = s.rxRing := rfl
@[simp] theorem State.setBytes_fe (s : State) (a : Nat) (bs : List Byte) : (s.setBytes a bs).fe = s.fe := rfl
@[simp] theorem State.setBytes_trn (s : State) (a : Nat) (bs : List Byte) : (s.setBytes a bs).trn = s.trn := rfl
@[simp] theorem State.setBytes_slotRsv (s : State) (a : Nat) (bs : List Byte) : (s.setBytes a bs).slotRsv = s.slotRsv := rfl
@[simp] theorem State.setBytes_dg (s : State) (a : Nat) (bs : List Byte) : (s.setBytes a bs).dg = s.dg := rfl
@[simp] theorem State.setBytes_ddx (s : State) (a : Nat) (bs : List Byte) : (s.setBytes a bs).ddx = s.ddx := rfl
@[simp] theorem State.setBytes_xtsKeys (s : State) (a : Nat) (bs : List Byte) : (s.setBytes a bs).xtsKeys = s.xtsKeys := rfl
@[simp] theorem State.setBytes_sleds (s : State) (a : Nat) (bs : List Byte) : (s.setBytes a bs).sleds = s.sleds := rfl
@[simp] theorem State.setBytes_lanes (s : State) (a : Nat) (bs : List Byte) : (s.setBytes a bs).lanes = s.lanes := rfl
@[simp] theorem State.setBytes_seg (s : State) (a : Nat) (bs : List Byte) : (s.setBytes a bs).seg = s.seg := rfl
@[simp] theorem State.setBytes_map (s : State) (a : Nat) (bs : List Byte) : (s.setBytes a bs).map = s.map := rfl
@[simp] theorem State.setBytes_vlt (s : State) (a : Nat) (bs : List Byte) : (s.setBytes a bs).vlt = s.vlt := rfl
@[simp] theorem State.setBytes_evt (s : State) (a : Nat) (bs : List Byte) : (s.setBytes a bs).evt = s.evt := rfl
@[simp] theorem State.setBytes_log (s : State) (a : Nat) (bs : List Byte) : (s.setBytes a bs).log = s.log := rfl
@[simp] theorem State.setBytes_pins (s : State) (a : Nat) (bs : List Byte) : (s.setBytes a bs).pins = s.pins := rfl
@[simp] theorem State.setBytes_pwr (s : State) (a : Nat) (bs : List Byte) : (s.setBytes a bs).pwr = s.pwr := rfl
@[simp] theorem State.setBytes_pcie (s : State) (a : Nat) (bs : List Byte) : (s.setBytes a bs).pcie = s.pcie := rfl
@[simp] theorem State.setBytes_mbx (s : State) (a : Nat) (bs : List Byte) : (s.setBytes a bs).mbx = s.mbx := rfl
@[simp] theorem State.setBytes_doms (s : State) (a : Nat) (bs : List Byte) : (s.setBytes a bs).doms = s.doms := rfl
@[simp] theorem State.setBytes_i2c (s : State) (a : Nat) (bs : List Byte) : (s.setBytes a bs).i2c = s.i2c := rfl
@[simp] theorem State.setBytes_freeCtr (s : State) (a : Nat) (bs : List Byte) : (s.setBytes a bs).freeCtr = s.freeCtr := rfl
@[simp] theorem State.setBytes_out (s : State) (a : Nat) (bs : List Byte) : (s.setBytes a bs).out = s.out := rfl
@[simp] theorem State.setBytes_pending (s : State) (a : Nat) (bs : List Byte) : (s.setBytes a bs).pending = s.pending := rfl

/-! State.updQueue -/

@[simp] theorem State.updQueue_fuse (s : State) (q : Nat) (f : HwQueue → HwQueue) : (s.updQueue q f).fuse = s.fuse := rfl
@[simp] theorem State.updQueue_now (s : State) (q : Nat) (f : HwQueue → HwQueue) : (s.updQueue q f).now = s.now := rfl
@[simp] theorem State.updQueue_headId (s : State) (q : Nat) (f : HwQueue → HwQueue) : (s.updQueue q f).headId = s.headId := rfl
@[simp] theorem State.updQueue_life (s : State) (q : Nat) (f : HwQueue → HwQueue) : (s.updQueue q f).life = s.life := rfl
@[simp] theorem State.updQueue_regs (s : State) (q : Nat) (f : HwQueue → HwQueue) : (s.updQueue q f).regs = s.regs := rfl
@[simp] theorem State.updQueue_locked (s : State) (q : Nat) (f : HwQueue → HwQueue) : (s.updQueue q f).locked = s.locked := rfl
@[simp] theorem State.updQueue_latches (s : State) (q : Nat) (f : HwQueue → HwQueue) : (s.updQueue q f).latches = s.latches := rfl
@[simp] theorem State.updQueue_threads (s : State) (q : Nat) (f : HwQueue → HwQueue) : (s.updQueue q f).threads = s.threads := rfl
@[simp] theorem State.updQueue_items (s : State) (q : Nat) (f : HwQueue → HwQueue) : (s.updQueue q f).items = s.items := rfl
@[simp] theorem State.updQueue_bufs (s : State) (q : Nat) (f : HwQueue → HwQueue) : (s.updQueue q f).bufs = s.bufs := rfl
@[simp] theorem State.updQueue_gens (s : State) (q : Nat) (f : HwQueue → HwQueue) : (s.updQueue q f).gens = s.gens := rfl
@[simp] theorem State.updQueue_mem (s : State) (q : Nat) (f : HwQueue → HwQueue) : (s.updQueue q f).mem = s.mem := rfl
@[simp] theorem State.updQueue_eccFix (s : State) (q : Nat) (f : HwQueue → HwQueue) : (s.updQueue q f).eccFix = s.eccFix := rfl
@[simp] theorem State.updQueue_eccBad (s : State) (q : Nat) (f : HwQueue → HwQueue) : (s.updQueue q f).eccBad = s.eccBad := rfl
@[simp] theorem State.updQueue_dcache (s : State) (q : Nat) (f : HwQueue → HwQueue) : (s.updQueue q f).dcache = s.dcache := rfl
@[simp] theorem State.updQueue_rings (s : State) (q : Nat) (f : HwQueue → HwQueue) : (s.updQueue q f).rings = s.rings := rfl
@[simp] theorem State.updQueue_comps (s : State) (q : Nat) (f : HwQueue → HwQueue) : (s.updQueue q f).comps = s.comps := rfl
@[simp] theorem State.updQueue_arbs (s : State) (q : Nat) (f : HwQueue → HwQueue) : (s.updQueue q f).arbs = s.arbs := rfl
@[simp] theorem State.updQueue_srch (s : State) (q : Nat) (f : HwQueue → HwQueue) : (s.updQueue q f).srch = s.srch := rfl
@[simp] theorem State.updQueue_srchBusy (s : State) (q : Nat) (f : HwQueue → HwQueue) : (s.updQueue q f).srchBusy = s.srchBusy := rfl
@[simp] theorem State.updQueue_prms (s : State) (q : Nat) (f : HwQueue → HwQueue) : (s.updQueue q f).prms = s.prms := rfl
@[simp] theorem State.updQueue_wktBuckets (s : State) (q : Nat) (f : HwQueue → HwQueue) : (s.updQueue q f).wktBuckets = s.wktBuckets := rfl
@[simp] theorem State.updQueue_braceAt (s : State) (q : Nat) (f : HwQueue → HwQueue) : (s.updQueue q f).braceAt = s.braceAt := rfl
@[simp] theorem State.updQueue_tookOver (s : State) (q : Nat) (f : HwQueue → HwQueue) : (s.updQueue q f).tookOver = s.tookOver := rfl
@[simp] theorem State.updQueue_rxRing (s : State) (q : Nat) (f : HwQueue → HwQueue) : (s.updQueue q f).rxRing = s.rxRing := rfl
@[simp] theorem State.updQueue_fe (s : State) (q : Nat) (f : HwQueue → HwQueue) : (s.updQueue q f).fe = s.fe := rfl
@[simp] theorem State.updQueue_trn (s : State) (q : Nat) (f : HwQueue → HwQueue) : (s.updQueue q f).trn = s.trn := rfl
@[simp] theorem State.updQueue_slotRsv (s : State) (q : Nat) (f : HwQueue → HwQueue) : (s.updQueue q f).slotRsv = s.slotRsv := rfl
@[simp] theorem State.updQueue_dg (s : State) (q : Nat) (f : HwQueue → HwQueue) : (s.updQueue q f).dg = s.dg := rfl
@[simp] theorem State.updQueue_ddx (s : State) (q : Nat) (f : HwQueue → HwQueue) : (s.updQueue q f).ddx = s.ddx := rfl
@[simp] theorem State.updQueue_xtsKeys (s : State) (q : Nat) (f : HwQueue → HwQueue) : (s.updQueue q f).xtsKeys = s.xtsKeys := rfl
@[simp] theorem State.updQueue_sleds (s : State) (q : Nat) (f : HwQueue → HwQueue) : (s.updQueue q f).sleds = s.sleds := rfl
@[simp] theorem State.updQueue_lanes (s : State) (q : Nat) (f : HwQueue → HwQueue) : (s.updQueue q f).lanes = s.lanes := rfl
@[simp] theorem State.updQueue_seg (s : State) (q : Nat) (f : HwQueue → HwQueue) : (s.updQueue q f).seg = s.seg := rfl
@[simp] theorem State.updQueue_map (s : State) (q : Nat) (f : HwQueue → HwQueue) : (s.updQueue q f).map = s.map := rfl
@[simp] theorem State.updQueue_vlt (s : State) (q : Nat) (f : HwQueue → HwQueue) : (s.updQueue q f).vlt = s.vlt := rfl
@[simp] theorem State.updQueue_evt (s : State) (q : Nat) (f : HwQueue → HwQueue) : (s.updQueue q f).evt = s.evt := rfl
@[simp] theorem State.updQueue_log (s : State) (q : Nat) (f : HwQueue → HwQueue) : (s.updQueue q f).log = s.log := rfl
@[simp] theorem State.updQueue_pins (s : State) (q : Nat) (f : HwQueue → HwQueue) : (s.updQueue q f).pins = s.pins := rfl
@[simp] theorem State.updQueue_pwr (s : State) (q : Nat) (f : HwQueue → HwQueue) : (s.updQueue q f).pwr = s.pwr := rfl
@[simp] theorem State.updQueue_pcie (s : State) (q : Nat) (f : HwQueue → HwQueue) : (s.updQueue q f).pcie = s.pcie := rfl
@[simp] theorem State.updQueue_mbx (s : State) (q : Nat) (f : HwQueue → HwQueue) : (s.updQueue q f).mbx = s.mbx := rfl
@[simp] theorem State.updQueue_doms (s : State) (q : Nat) (f : HwQueue → HwQueue) : (s.updQueue q f).doms = s.doms := rfl
@[simp] theorem State.updQueue_i2c (s : State) (q : Nat) (f : HwQueue → HwQueue) : (s.updQueue q f).i2c = s.i2c := rfl
@[simp] theorem State.updQueue_freeCtr (s : State) (q : Nat) (f : HwQueue → HwQueue) : (s.updQueue q f).freeCtr = s.freeCtr := rfl
@[simp] theorem State.updQueue_out (s : State) (q : Nat) (f : HwQueue → HwQueue) : (s.updQueue q f).out = s.out := rfl
@[simp] theorem State.updQueue_pending (s : State) (q : Nat) (f : HwQueue → HwQueue) : (s.updQueue q f).pending = s.pending := rfl

/-! State.setDom -/

@[simp] theorem State.setDom_fuse (s : State) (d : Nat) (x : Dom) : (s.setDom d x).fuse = s.fuse := rfl
@[simp] theorem State.setDom_now (s : State) (d : Nat) (x : Dom) : (s.setDom d x).now = s.now := rfl
@[simp] theorem State.setDom_headId (s : State) (d : Nat) (x : Dom) : (s.setDom d x).headId = s.headId := rfl
@[simp] theorem State.setDom_life (s : State) (d : Nat) (x : Dom) : (s.setDom d x).life = s.life := rfl
@[simp] theorem State.setDom_regs (s : State) (d : Nat) (x : Dom) : (s.setDom d x).regs = s.regs := rfl
@[simp] theorem State.setDom_locked (s : State) (d : Nat) (x : Dom) : (s.setDom d x).locked = s.locked := rfl
@[simp] theorem State.setDom_latches (s : State) (d : Nat) (x : Dom) : (s.setDom d x).latches = s.latches := rfl
@[simp] theorem State.setDom_threads (s : State) (d : Nat) (x : Dom) : (s.setDom d x).threads = s.threads := rfl
@[simp] theorem State.setDom_items (s : State) (d : Nat) (x : Dom) : (s.setDom d x).items = s.items := rfl
@[simp] theorem State.setDom_queues (s : State) (d : Nat) (x : Dom) : (s.setDom d x).queues = s.queues := rfl
@[simp] theorem State.setDom_bufs (s : State) (d : Nat) (x : Dom) : (s.setDom d x).bufs = s.bufs := rfl
@[simp] theorem State.setDom_gens (s : State) (d : Nat) (x : Dom) : (s.setDom d x).gens = s.gens := rfl
@[simp] theorem State.setDom_mem (s : State) (d : Nat) (x : Dom) : (s.setDom d x).mem = s.mem := rfl
@[simp] theorem State.setDom_eccFix (s : State) (d : Nat) (x : Dom) : (s.setDom d x).eccFix = s.eccFix := rfl
@[simp] theorem State.setDom_eccBad (s : State) (d : Nat) (x : Dom) : (s.setDom d x).eccBad = s.eccBad := rfl
@[simp] theorem State.setDom_dcache (s : State) (d : Nat) (x : Dom) : (s.setDom d x).dcache = s.dcache := rfl
@[simp] theorem State.setDom_rings (s : State) (d : Nat) (x : Dom) : (s.setDom d x).rings = s.rings := rfl
@[simp] theorem State.setDom_comps (s : State) (d : Nat) (x : Dom) : (s.setDom d x).comps = s.comps := rfl
@[simp] theorem State.setDom_arbs (s : State) (d : Nat) (x : Dom) : (s.setDom d x).arbs = s.arbs := rfl
@[simp] theorem State.setDom_srch (s : State) (d : Nat) (x : Dom) : (s.setDom d x).srch = s.srch := rfl
@[simp] theorem State.setDom_srchBusy (s : State) (d : Nat) (x : Dom) : (s.setDom d x).srchBusy = s.srchBusy := rfl
@[simp] theorem State.setDom_prms (s : State) (d : Nat) (x : Dom) : (s.setDom d x).prms = s.prms := rfl
@[simp] theorem State.setDom_wktBuckets (s : State) (d : Nat) (x : Dom) : (s.setDom d x).wktBuckets = s.wktBuckets := rfl
@[simp] theorem State.setDom_braceAt (s : State) (d : Nat) (x : Dom) : (s.setDom d x).braceAt = s.braceAt := rfl
@[simp] theorem State.setDom_tookOver (s : State) (d : Nat) (x : Dom) : (s.setDom d x).tookOver = s.tookOver := rfl
@[simp] theorem State.setDom_rxRing (s : State) (d : Nat) (x : Dom) : (s.setDom d x).rxRing = s.rxRing := rfl
@[simp] theorem State.setDom_fe (s : State) (d : Nat) (x : Dom) : (s.setDom d x).fe = s.fe := rfl
@[simp] theorem State.setDom_trn (s : State) (d : Nat) (x : Dom) : (s.setDom d x).trn = s.trn := rfl
@[simp] theorem State.setDom_slotRsv (s : State) (d : Nat) (x : Dom) : (s.setDom d x).slotRsv = s.slotRsv := rfl
@[simp] theorem State.setDom_dg (s : State) (d : Nat) (x : Dom) : (s.setDom d x).dg = s.dg := rfl
@[simp] theorem State.setDom_ddx (s : State) (d : Nat) (x : Dom) : (s.setDom d x).ddx = s.ddx := rfl
@[simp] theorem State.setDom_xtsKeys (s : State) (d : Nat) (x : Dom) : (s.setDom d x).xtsKeys = s.xtsKeys := rfl
@[simp] theorem State.setDom_sleds (s : State) (d : Nat) (x : Dom) : (s.setDom d x).sleds = s.sleds := rfl
@[simp] theorem State.setDom_lanes (s : State) (d : Nat) (x : Dom) : (s.setDom d x).lanes = s.lanes := rfl
@[simp] theorem State.setDom_seg (s : State) (d : Nat) (x : Dom) : (s.setDom d x).seg = s.seg := rfl
@[simp] theorem State.setDom_map (s : State) (d : Nat) (x : Dom) : (s.setDom d x).map = s.map := rfl
@[simp] theorem State.setDom_vlt (s : State) (d : Nat) (x : Dom) : (s.setDom d x).vlt = s.vlt := rfl
@[simp] theorem State.setDom_evt (s : State) (d : Nat) (x : Dom) : (s.setDom d x).evt = s.evt := rfl
@[simp] theorem State.setDom_log (s : State) (d : Nat) (x : Dom) : (s.setDom d x).log = s.log := rfl
@[simp] theorem State.setDom_pins (s : State) (d : Nat) (x : Dom) : (s.setDom d x).pins = s.pins := rfl
@[simp] theorem State.setDom_pwr (s : State) (d : Nat) (x : Dom) : (s.setDom d x).pwr = s.pwr := rfl
@[simp] theorem State.setDom_pcie (s : State) (d : Nat) (x : Dom) : (s.setDom d x).pcie = s.pcie := rfl
@[simp] theorem State.setDom_mbx (s : State) (d : Nat) (x : Dom) : (s.setDom d x).mbx = s.mbx := rfl
@[simp] theorem State.setDom_i2c (s : State) (d : Nat) (x : Dom) : (s.setDom d x).i2c = s.i2c := rfl
@[simp] theorem State.setDom_freeCtr (s : State) (d : Nat) (x : Dom) : (s.setDom d x).freeCtr = s.freeCtr := rfl
@[simp] theorem State.setDom_out (s : State) (d : Nat) (x : Dom) : (s.setDom d x).out = s.out := rfl
@[simp] theorem State.setDom_pending (s : State) (d : Nat) (x : Dom) : (s.setDom d x).pending = s.pending := rfl

/-! State.freeItem -/

@[simp] theorem State.freeItem_fuse (s : State) (k : Nat) : (s.freeItem k).fuse = s.fuse := rfl
@[simp] theorem State.freeItem_now (s : State) (k : Nat) : (s.freeItem k).now = s.now := rfl
@[simp] theorem State.freeItem_headId (s : State) (k : Nat) : (s.freeItem k).headId = s.headId := rfl
@[simp] theorem State.freeItem_life (s : State) (k : Nat) : (s.freeItem k).life = s.life := rfl
@[simp] theorem State.freeItem_regs (s : State) (k : Nat) : (s.freeItem k).regs = s.regs := rfl
@[simp] theorem State.freeItem_locked (s : State) (k : Nat) : (s.freeItem k).locked = s.locked := rfl
@[simp] theorem State.freeItem_latches (s : State) (k : Nat) : (s.freeItem k).latches = s.latches := rfl
@[simp] theorem State.freeItem_threads (s : State) (k : Nat) : (s.freeItem k).threads = s.threads := rfl
@[simp] theorem State.freeItem_queues (s : State) (k : Nat) : (s.freeItem k).queues = s.queues := rfl
@[simp] theorem State.freeItem_bufs (s : State) (k : Nat) : (s.freeItem k).bufs = s.bufs := rfl
@[simp] theorem State.freeItem_gens (s : State) (k : Nat) : (s.freeItem k).gens = s.gens := rfl
@[simp] theorem State.freeItem_mem (s : State) (k : Nat) : (s.freeItem k).mem = s.mem := rfl
@[simp] theorem State.freeItem_eccFix (s : State) (k : Nat) : (s.freeItem k).eccFix = s.eccFix := rfl
@[simp] theorem State.freeItem_eccBad (s : State) (k : Nat) : (s.freeItem k).eccBad = s.eccBad := rfl
@[simp] theorem State.freeItem_dcache (s : State) (k : Nat) : (s.freeItem k).dcache = s.dcache := rfl
@[simp] theorem State.freeItem_rings (s : State) (k : Nat) : (s.freeItem k).rings = s.rings := rfl
@[simp] theorem State.freeItem_comps (s : State) (k : Nat) : (s.freeItem k).comps = s.comps := rfl
@[simp] theorem State.freeItem_arbs (s : State) (k : Nat) : (s.freeItem k).arbs = s.arbs := rfl
@[simp] theorem State.freeItem_srch (s : State) (k : Nat) : (s.freeItem k).srch = s.srch := rfl
@[simp] theorem State.freeItem_srchBusy (s : State) (k : Nat) : (s.freeItem k).srchBusy = s.srchBusy := rfl
@[simp] theorem State.freeItem_prms (s : State) (k : Nat) : (s.freeItem k).prms = s.prms := rfl
@[simp] theorem State.freeItem_wktBuckets (s : State) (k : Nat) : (s.freeItem k).wktBuckets = s.wktBuckets := rfl
@[simp] theorem State.freeItem_braceAt (s : State) (k : Nat) : (s.freeItem k).braceAt = s.braceAt := rfl
@[simp] theorem State.freeItem_tookOver (s : State) (k : Nat) : (s.freeItem k).tookOver = s.tookOver := rfl
@[simp] theorem State.freeItem_rxRing (s : State) (k : Nat) : (s.freeItem k).rxRing = s.rxRing := rfl
@[simp] theorem State.freeItem_fe (s : State) (k : Nat) : (s.freeItem k).fe = s.fe := rfl
@[simp] theorem State.freeItem_trn (s : State) (k : Nat) : (s.freeItem k).trn = s.trn := rfl
@[simp] theorem State.freeItem_slotRsv (s : State) (k : Nat) : (s.freeItem k).slotRsv = s.slotRsv := rfl
@[simp] theorem State.freeItem_dg (s : State) (k : Nat) : (s.freeItem k).dg = s.dg := rfl
@[simp] theorem State.freeItem_ddx (s : State) (k : Nat) : (s.freeItem k).ddx = s.ddx := rfl
@[simp] theorem State.freeItem_xtsKeys (s : State) (k : Nat) : (s.freeItem k).xtsKeys = s.xtsKeys := rfl
@[simp] theorem State.freeItem_sleds (s : State) (k : Nat) : (s.freeItem k).sleds = s.sleds := rfl
@[simp] theorem State.freeItem_lanes (s : State) (k : Nat) : (s.freeItem k).lanes = s.lanes := rfl
@[simp] theorem State.freeItem_seg (s : State) (k : Nat) : (s.freeItem k).seg = s.seg := rfl
@[simp] theorem State.freeItem_map (s : State) (k : Nat) : (s.freeItem k).map = s.map := rfl
@[simp] theorem State.freeItem_vlt (s : State) (k : Nat) : (s.freeItem k).vlt = s.vlt := rfl
@[simp] theorem State.freeItem_evt (s : State) (k : Nat) : (s.freeItem k).evt = s.evt := rfl
@[simp] theorem State.freeItem_log (s : State) (k : Nat) : (s.freeItem k).log = s.log := rfl
@[simp] theorem State.freeItem_pins (s : State) (k : Nat) : (s.freeItem k).pins = s.pins := rfl
@[simp] theorem State.freeItem_pwr (s : State) (k : Nat) : (s.freeItem k).pwr = s.pwr := rfl
@[simp] theorem State.freeItem_pcie (s : State) (k : Nat) : (s.freeItem k).pcie = s.pcie := rfl
@[simp] theorem State.freeItem_mbx (s : State) (k : Nat) : (s.freeItem k).mbx = s.mbx := rfl
@[simp] theorem State.freeItem_doms (s : State) (k : Nat) : (s.freeItem k).doms = s.doms := rfl
@[simp] theorem State.freeItem_i2c (s : State) (k : Nat) : (s.freeItem k).i2c = s.i2c := rfl
@[simp] theorem State.freeItem_freeCtr (s : State) (k : Nat) : (s.freeItem k).freeCtr = s.freeCtr := rfl
@[simp] theorem State.freeItem_out (s : State) (k : Nat) : (s.freeItem k).out = s.out := rfl
@[simp] theorem State.freeItem_pending (s : State) (k : Nat) : (s.freeItem k).pending = s.pending := rfl

/-! State.updItem -/

@[simp] theorem State.updItem_fuse (s : State) (k : Nat) (f : Item → Item) : (s.updItem k f).fuse = s.fuse := rfl
@[simp] theorem State.updItem_now (s : State) (k : Nat) (f : Item → Item) : (s.updItem k f).now = s.now := rfl
@[simp] theorem State.updItem_headId (s : State) (k : Nat) (f : Item → Item) : (s.updItem k f).headId = s.headId := rfl
@[simp] theorem State.updItem_life (s : State) (k : Nat) (f : Item → Item) : (s.updItem k f).life = s.life := rfl
@[simp] theorem State.updItem_regs (s : State) (k : Nat) (f : Item → Item) : (s.updItem k f).regs = s.regs := rfl
@[simp] theorem State.updItem_locked (s : State) (k : Nat) (f : Item → Item) : (s.updItem k f).locked = s.locked := rfl
@[simp] theorem State.updItem_latches (s : State) (k : Nat) (f : Item → Item) : (s.updItem k f).latches = s.latches := rfl
@[simp] theorem State.updItem_threads (s : State) (k : Nat) (f : Item → Item) : (s.updItem k f).threads = s.threads := rfl
@[simp] theorem State.updItem_queues (s : State) (k : Nat) (f : Item → Item) : (s.updItem k f).queues = s.queues := rfl
@[simp] theorem State.updItem_bufs (s : State) (k : Nat) (f : Item → Item) : (s.updItem k f).bufs = s.bufs := rfl
@[simp] theorem State.updItem_gens (s : State) (k : Nat) (f : Item → Item) : (s.updItem k f).gens = s.gens := rfl
@[simp] theorem State.updItem_mem (s : State) (k : Nat) (f : Item → Item) : (s.updItem k f).mem = s.mem := rfl
@[simp] theorem State.updItem_eccFix (s : State) (k : Nat) (f : Item → Item) : (s.updItem k f).eccFix = s.eccFix := rfl
@[simp] theorem State.updItem_eccBad (s : State) (k : Nat) (f : Item → Item) : (s.updItem k f).eccBad = s.eccBad := rfl
@[simp] theorem State.updItem_dcache (s : State) (k : Nat) (f : Item → Item) : (s.updItem k f).dcache = s.dcache := rfl
@[simp] theorem State.updItem_rings (s : State) (k : Nat) (f : Item → Item) : (s.updItem k f).rings = s.rings := rfl
@[simp] theorem State.updItem_comps (s : State) (k : Nat) (f : Item → Item) : (s.updItem k f).comps = s.comps := rfl
@[simp] theorem State.updItem_arbs (s : State) (k : Nat) (f : Item → Item) : (s.updItem k f).arbs = s.arbs := rfl
@[simp] theorem State.updItem_srch (s : State) (k : Nat) (f : Item → Item) : (s.updItem k f).srch = s.srch := rfl
@[simp] theorem State.updItem_srchBusy (s : State) (k : Nat) (f : Item → Item) : (s.updItem k f).srchBusy = s.srchBusy := rfl
@[simp] theorem State.updItem_prms (s : State) (k : Nat) (f : Item → Item) : (s.updItem k f).prms = s.prms := rfl
@[simp] theorem State.updItem_wktBuckets (s : State) (k : Nat) (f : Item → Item) : (s.updItem k f).wktBuckets = s.wktBuckets := rfl
@[simp] theorem State.updItem_braceAt (s : State) (k : Nat) (f : Item → Item) : (s.updItem k f).braceAt = s.braceAt := rfl
@[simp] theorem State.updItem_tookOver (s : State) (k : Nat) (f : Item → Item) : (s.updItem k f).tookOver = s.tookOver := rfl
@[simp] theorem State.updItem_rxRing (s : State) (k : Nat) (f : Item → Item) : (s.updItem k f).rxRing = s.rxRing := rfl
@[simp] theorem State.updItem_fe (s : State) (k : Nat) (f : Item → Item) : (s.updItem k f).fe = s.fe := rfl
@[simp] theorem State.updItem_trn (s : State) (k : Nat) (f : Item → Item) : (s.updItem k f).trn = s.trn := rfl
@[simp] theorem State.updItem_slotRsv (s : State) (k : Nat) (f : Item → Item) : (s.updItem k f).slotRsv = s.slotRsv := rfl
@[simp] theorem State.updItem_dg (s : State) (k : Nat) (f : Item → Item) : (s.updItem k f).dg = s.dg := rfl
@[simp] theorem State.updItem_ddx (s : State) (k : Nat) (f : Item → Item) : (s.updItem k f).ddx = s.ddx := rfl
@[simp] theorem State.updItem_xtsKeys (s : State) (k : Nat) (f : Item → Item) : (s.updItem k f).xtsKeys = s.xtsKeys := rfl
@[simp] theorem State.updItem_sleds (s : State) (k : Nat) (f : Item → Item) : (s.updItem k f).sleds = s.sleds := rfl
@[simp] theorem State.updItem_lanes (s : State) (k : Nat) (f : Item → Item) : (s.updItem k f).lanes = s.lanes := rfl
@[simp] theorem State.updItem_seg (s : State) (k : Nat) (f : Item → Item) : (s.updItem k f).seg = s.seg := rfl
@[simp] theorem State.updItem_map (s : State) (k : Nat) (f : Item → Item) : (s.updItem k f).map = s.map := rfl
@[simp] theorem State.updItem_vlt (s : State) (k : Nat) (f : Item → Item) : (s.updItem k f).vlt = s.vlt := rfl
@[simp] theorem State.updItem_evt (s : State) (k : Nat) (f : Item → Item) : (s.updItem k f).evt = s.evt := rfl
@[simp] theorem State.updItem_log (s : State) (k : Nat) (f : Item → Item) : (s.updItem k f).log = s.log := rfl
@[simp] theorem State.updItem_pins (s : State) (k : Nat) (f : Item → Item) : (s.updItem k f).pins = s.pins := rfl
@[simp] theorem State.updItem_pwr (s : State) (k : Nat) (f : Item → Item) : (s.updItem k f).pwr = s.pwr := rfl
@[simp] theorem State.updItem_pcie (s : State) (k : Nat) (f : Item → Item) : (s.updItem k f).pcie = s.pcie := rfl
@[simp] theorem State.updItem_mbx (s : State) (k : Nat) (f : Item → Item) : (s.updItem k f).mbx = s.mbx := rfl
@[simp] theorem State.updItem_doms (s : State) (k : Nat) (f : Item → Item) : (s.updItem k f).doms = s.doms := rfl
@[simp] theorem State.updItem_i2c (s : State) (k : Nat) (f : Item → Item) : (s.updItem k f).i2c = s.i2c := rfl
@[simp] theorem State.updItem_freeCtr (s : State) (k : Nat) (f : Item → Item) : (s.updItem k f).freeCtr = s.freeCtr := rfl
@[simp] theorem State.updItem_out (s : State) (k : Nat) (f : Item → Item) : (s.updItem k f).out = s.out := rfl
@[simp] theorem State.updItem_pending (s : State) (k : Nat) (f : Item → Item) : (s.updItem k f).pending = s.pending := rfl

/-! State.updThread -/

@[simp] theorem State.updThread_fuse (s : State) (t : Nat) (f : Thread → Thread) : (s.updThread t f).fuse = s.fuse := rfl
@[simp] theorem State.updThread_now (s : State) (t : Nat) (f : Thread → Thread) : (s.updThread t f).now = s.now := rfl
@[simp] theorem State.updThread_headId (s : State) (t : Nat) (f : Thread → Thread) : (s.updThread t f).headId = s.headId := rfl
@[simp] theorem State.updThread_life (s : State) (t : Nat) (f : Thread → Thread) : (s.updThread t f).life = s.life := rfl
@[simp] theorem State.updThread_regs (s : State) (t : Nat) (f : Thread → Thread) : (s.updThread t f).regs = s.regs := rfl
@[simp] theorem State.updThread_locked (s : State) (t : Nat) (f : Thread → Thread) : (s.updThread t f).locked = s.locked := rfl
@[simp] theorem State.updThread_latches (s : State) (t : Nat) (f : Thread → Thread) : (s.updThread t f).latches = s.latches := rfl
@[simp] theorem State.updThread_items (s : State) (t : Nat) (f : Thread → Thread) : (s.updThread t f).items = s.items := rfl
@[simp] theorem State.updThread_queues (s : State) (t : Nat) (f : Thread → Thread) : (s.updThread t f).queues = s.queues := rfl
@[simp] theorem State.updThread_bufs (s : State) (t : Nat) (f : Thread → Thread) : (s.updThread t f).bufs = s.bufs := rfl
@[simp] theorem State.updThread_gens (s : State) (t : Nat) (f : Thread → Thread) : (s.updThread t f).gens = s.gens := rfl
@[simp] theorem State.updThread_mem (s : State) (t : Nat) (f : Thread → Thread) : (s.updThread t f).mem = s.mem := rfl
@[simp] theorem State.updThread_eccFix (s : State) (t : Nat) (f : Thread → Thread) : (s.updThread t f).eccFix = s.eccFix := rfl
@[simp] theorem State.updThread_eccBad (s : State) (t : Nat) (f : Thread → Thread) : (s.updThread t f).eccBad = s.eccBad := rfl
@[simp] theorem State.updThread_dcache (s : State) (t : Nat) (f : Thread → Thread) : (s.updThread t f).dcache = s.dcache := rfl
@[simp] theorem State.updThread_rings (s : State) (t : Nat) (f : Thread → Thread) : (s.updThread t f).rings = s.rings := rfl
@[simp] theorem State.updThread_comps (s : State) (t : Nat) (f : Thread → Thread) : (s.updThread t f).comps = s.comps := rfl
@[simp] theorem State.updThread_arbs (s : State) (t : Nat) (f : Thread → Thread) : (s.updThread t f).arbs = s.arbs := rfl
@[simp] theorem State.updThread_srch (s : State) (t : Nat) (f : Thread → Thread) : (s.updThread t f).srch = s.srch := rfl
@[simp] theorem State.updThread_srchBusy (s : State) (t : Nat) (f : Thread → Thread) : (s.updThread t f).srchBusy = s.srchBusy := rfl
@[simp] theorem State.updThread_prms (s : State) (t : Nat) (f : Thread → Thread) : (s.updThread t f).prms = s.prms := rfl
@[simp] theorem State.updThread_wktBuckets (s : State) (t : Nat) (f : Thread → Thread) : (s.updThread t f).wktBuckets = s.wktBuckets := rfl
@[simp] theorem State.updThread_braceAt (s : State) (t : Nat) (f : Thread → Thread) : (s.updThread t f).braceAt = s.braceAt := rfl
@[simp] theorem State.updThread_tookOver (s : State) (t : Nat) (f : Thread → Thread) : (s.updThread t f).tookOver = s.tookOver := rfl
@[simp] theorem State.updThread_rxRing (s : State) (t : Nat) (f : Thread → Thread) : (s.updThread t f).rxRing = s.rxRing := rfl
@[simp] theorem State.updThread_fe (s : State) (t : Nat) (f : Thread → Thread) : (s.updThread t f).fe = s.fe := rfl
@[simp] theorem State.updThread_trn (s : State) (t : Nat) (f : Thread → Thread) : (s.updThread t f).trn = s.trn := rfl
@[simp] theorem State.updThread_slotRsv (s : State) (t : Nat) (f : Thread → Thread) : (s.updThread t f).slotRsv = s.slotRsv := rfl
@[simp] theorem State.updThread_dg (s : State) (t : Nat) (f : Thread → Thread) : (s.updThread t f).dg = s.dg := rfl
@[simp] theorem State.updThread_ddx (s : State) (t : Nat) (f : Thread → Thread) : (s.updThread t f).ddx = s.ddx := rfl
@[simp] theorem State.updThread_xtsKeys (s : State) (t : Nat) (f : Thread → Thread) : (s.updThread t f).xtsKeys = s.xtsKeys := rfl
@[simp] theorem State.updThread_sleds (s : State) (t : Nat) (f : Thread → Thread) : (s.updThread t f).sleds = s.sleds := rfl
@[simp] theorem State.updThread_lanes (s : State) (t : Nat) (f : Thread → Thread) : (s.updThread t f).lanes = s.lanes := rfl
@[simp] theorem State.updThread_seg (s : State) (t : Nat) (f : Thread → Thread) : (s.updThread t f).seg = s.seg := rfl
@[simp] theorem State.updThread_map (s : State) (t : Nat) (f : Thread → Thread) : (s.updThread t f).map = s.map := rfl
@[simp] theorem State.updThread_vlt (s : State) (t : Nat) (f : Thread → Thread) : (s.updThread t f).vlt = s.vlt := rfl
@[simp] theorem State.updThread_evt (s : State) (t : Nat) (f : Thread → Thread) : (s.updThread t f).evt = s.evt := rfl
@[simp] theorem State.updThread_log (s : State) (t : Nat) (f : Thread → Thread) : (s.updThread t f).log = s.log := rfl
@[simp] theorem State.updThread_pins (s : State) (t : Nat) (f : Thread → Thread) : (s.updThread t f).pins = s.pins := rfl
@[simp] theorem State.updThread_pwr (s : State) (t : Nat) (f : Thread → Thread) : (s.updThread t f).pwr = s.pwr := rfl
@[simp] theorem State.updThread_pcie (s : State) (t : Nat) (f : Thread → Thread) : (s.updThread t f).pcie = s.pcie := rfl
@[simp] theorem State.updThread_mbx (s : State) (t : Nat) (f : Thread → Thread) : (s.updThread t f).mbx = s.mbx := rfl
@[simp] theorem State.updThread_doms (s : State) (t : Nat) (f : Thread → Thread) : (s.updThread t f).doms = s.doms := rfl
@[simp] theorem State.updThread_i2c (s : State) (t : Nat) (f : Thread → Thread) : (s.updThread t f).i2c = s.i2c := rfl
@[simp] theorem State.updThread_freeCtr (s : State) (t : Nat) (f : Thread → Thread) : (s.updThread t f).freeCtr = s.freeCtr := rfl
@[simp] theorem State.updThread_out (s : State) (t : Nat) (f : Thread → Thread) : (s.updThread t f).out = s.out := rfl
@[simp] theorem State.updThread_pending (s : State) (t : Nat) (f : Thread → Thread) : (s.updThread t f).pending = s.pending := rfl

/-! State.aerReport -/

@[simp] theorem State.aerReport_fuse (s : State) (e : TlpErr) : (s.aerReport e).fuse = s.fuse := rfl
@[simp] theorem State.aerReport_now (s : State) (e : TlpErr) : (s.aerReport e).now = s.now := rfl
@[simp] theorem State.aerReport_headId (s : State) (e : TlpErr) : (s.aerReport e).headId = s.headId := rfl
@[simp] theorem State.aerReport_life (s : State) (e : TlpErr) : (s.aerReport e).life = s.life := rfl
@[simp] theorem State.aerReport_regs (s : State) (e : TlpErr) : (s.aerReport e).regs = s.regs := rfl
@[simp] theorem State.aerReport_locked (s : State) (e : TlpErr) : (s.aerReport e).locked = s.locked := rfl
@[simp] theorem State.aerReport_latches (s : State) (e : TlpErr) : (s.aerReport e).latches = s.latches := rfl
@[simp] theorem State.aerReport_threads (s : State) (e : TlpErr) : (s.aerReport e).threads = s.threads := rfl
@[simp] theorem State.aerReport_items (s : State) (e : TlpErr) : (s.aerReport e).items = s.items := rfl
@[simp] theorem State.aerReport_queues (s : State) (e : TlpErr) : (s.aerReport e).queues = s.queues := rfl
@[simp] theorem State.aerReport_bufs (s : State) (e : TlpErr) : (s.aerReport e).bufs = s.bufs := rfl
@[simp] theorem State.aerReport_gens (s : State) (e : TlpErr) : (s.aerReport e).gens = s.gens := rfl
@[simp] theorem State.aerReport_mem (s : State) (e : TlpErr) : (s.aerReport e).mem = s.mem := rfl
@[simp] theorem State.aerReport_eccFix (s : State) (e : TlpErr) : (s.aerReport e).eccFix = s.eccFix := rfl
@[simp] theorem State.aerReport_eccBad (s : State) (e : TlpErr) : (s.aerReport e).eccBad = s.eccBad := rfl
@[simp] theorem State.aerReport_dcache (s : State) (e : TlpErr) : (s.aerReport e).dcache = s.dcache := rfl
@[simp] theorem State.aerReport_rings (s : State) (e : TlpErr) : (s.aerReport e).rings = s.rings := rfl
@[simp] theorem State.aerReport_comps (s : State) (e : TlpErr) : (s.aerReport e).comps = s.comps := rfl
@[simp] theorem State.aerReport_arbs (s : State) (e : TlpErr) : (s.aerReport e).arbs = s.arbs := rfl
@[simp] theorem State.aerReport_srch (s : State) (e : TlpErr) : (s.aerReport e).srch = s.srch := rfl
@[simp] theorem State.aerReport_srchBusy (s : State) (e : TlpErr) : (s.aerReport e).srchBusy = s.srchBusy := rfl
@[simp] theorem State.aerReport_prms (s : State) (e : TlpErr) : (s.aerReport e).prms = s.prms := rfl
@[simp] theorem State.aerReport_wktBuckets (s : State) (e : TlpErr) : (s.aerReport e).wktBuckets = s.wktBuckets := rfl
@[simp] theorem State.aerReport_braceAt (s : State) (e : TlpErr) : (s.aerReport e).braceAt = s.braceAt := rfl
@[simp] theorem State.aerReport_tookOver (s : State) (e : TlpErr) : (s.aerReport e).tookOver = s.tookOver := rfl
@[simp] theorem State.aerReport_rxRing (s : State) (e : TlpErr) : (s.aerReport e).rxRing = s.rxRing := rfl
@[simp] theorem State.aerReport_fe (s : State) (e : TlpErr) : (s.aerReport e).fe = s.fe := rfl
@[simp] theorem State.aerReport_trn (s : State) (e : TlpErr) : (s.aerReport e).trn = s.trn := rfl
@[simp] theorem State.aerReport_slotRsv (s : State) (e : TlpErr) : (s.aerReport e).slotRsv = s.slotRsv := rfl
@[simp] theorem State.aerReport_dg (s : State) (e : TlpErr) : (s.aerReport e).dg = s.dg := rfl
@[simp] theorem State.aerReport_ddx (s : State) (e : TlpErr) : (s.aerReport e).ddx = s.ddx := rfl
@[simp] theorem State.aerReport_xtsKeys (s : State) (e : TlpErr) : (s.aerReport e).xtsKeys = s.xtsKeys := rfl
@[simp] theorem State.aerReport_sleds (s : State) (e : TlpErr) : (s.aerReport e).sleds = s.sleds := rfl
@[simp] theorem State.aerReport_lanes (s : State) (e : TlpErr) : (s.aerReport e).lanes = s.lanes := rfl
@[simp] theorem State.aerReport_seg (s : State) (e : TlpErr) : (s.aerReport e).seg = s.seg := rfl
@[simp] theorem State.aerReport_map (s : State) (e : TlpErr) : (s.aerReport e).map = s.map := rfl
@[simp] theorem State.aerReport_vlt (s : State) (e : TlpErr) : (s.aerReport e).vlt = s.vlt := rfl
@[simp] theorem State.aerReport_evt (s : State) (e : TlpErr) : (s.aerReport e).evt = s.evt := rfl
@[simp] theorem State.aerReport_log (s : State) (e : TlpErr) : (s.aerReport e).log = s.log := rfl
@[simp] theorem State.aerReport_pins (s : State) (e : TlpErr) : (s.aerReport e).pins = s.pins := rfl
@[simp] theorem State.aerReport_pwr (s : State) (e : TlpErr) : (s.aerReport e).pwr = s.pwr := rfl
@[simp] theorem State.aerReport_mbx (s : State) (e : TlpErr) : (s.aerReport e).mbx = s.mbx := rfl
@[simp] theorem State.aerReport_doms (s : State) (e : TlpErr) : (s.aerReport e).doms = s.doms := rfl
@[simp] theorem State.aerReport_i2c (s : State) (e : TlpErr) : (s.aerReport e).i2c = s.i2c := rfl
@[simp] theorem State.aerReport_freeCtr (s : State) (e : TlpErr) : (s.aerReport e).freeCtr = s.freeCtr := rfl
@[simp] theorem State.aerReport_out (s : State) (e : TlpErr) : (s.aerReport e).out = s.out := rfl
@[simp] theorem State.aerReport_pending (s : State) (e : TlpErr) : (s.aerReport e).pending = s.pending := rfl

/-! State.flightsSent -/

@[simp] theorem State.flightsSent_fuse (s : State) : (s.flightsSent).fuse = s.fuse := rfl
@[simp] theorem State.flightsSent_now (s : State) : (s.flightsSent).now = s.now := rfl
@[simp] theorem State.flightsSent_headId (s : State) : (s.flightsSent).headId = s.headId := rfl
@[simp] theorem State.flightsSent_life (s : State) : (s.flightsSent).life = s.life := rfl
@[simp] theorem State.flightsSent_regs (s : State) : (s.flightsSent).regs = s.regs := rfl
@[simp] theorem State.flightsSent_locked (s : State) : (s.flightsSent).locked = s.locked := rfl
@[simp] theorem State.flightsSent_latches (s : State) : (s.flightsSent).latches = s.latches := rfl
@[simp] theorem State.flightsSent_threads (s : State) : (s.flightsSent).threads = s.threads := rfl
@[simp] theorem State.flightsSent_items (s : State) : (s.flightsSent).items = s.items := rfl
@[simp] theorem State.flightsSent_queues (s : State) : (s.flightsSent).queues = s.queues := rfl
@[simp] theorem State.flightsSent_bufs (s : State) : (s.flightsSent).bufs = s.bufs := rfl
@[simp] theorem State.flightsSent_gens (s : State) : (s.flightsSent).gens = s.gens := rfl
@[simp] theorem State.flightsSent_mem (s : State) : (s.flightsSent).mem = s.mem := rfl
@[simp] theorem State.flightsSent_eccFix (s : State) : (s.flightsSent).eccFix = s.eccFix := rfl
@[simp] theorem State.flightsSent_eccBad (s : State) : (s.flightsSent).eccBad = s.eccBad := rfl
@[simp] theorem State.flightsSent_dcache (s : State) : (s.flightsSent).dcache = s.dcache := rfl
@[simp] theorem State.flightsSent_rings (s : State) : (s.flightsSent).rings = s.rings := rfl
@[simp] theorem State.flightsSent_comps (s : State) : (s.flightsSent).comps = s.comps := rfl
@[simp] theorem State.flightsSent_arbs (s : State) : (s.flightsSent).arbs = s.arbs := rfl
@[simp] theorem State.flightsSent_srch (s : State) : (s.flightsSent).srch = s.srch := rfl
@[simp] theorem State.flightsSent_srchBusy (s : State) : (s.flightsSent).srchBusy = s.srchBusy := rfl
@[simp] theorem State.flightsSent_prms (s : State) : (s.flightsSent).prms = s.prms := rfl
@[simp] theorem State.flightsSent_wktBuckets (s : State) : (s.flightsSent).wktBuckets = s.wktBuckets := rfl
@[simp] theorem State.flightsSent_braceAt (s : State) : (s.flightsSent).braceAt = s.braceAt := rfl
@[simp] theorem State.flightsSent_tookOver (s : State) : (s.flightsSent).tookOver = s.tookOver := rfl
@[simp] theorem State.flightsSent_rxRing (s : State) : (s.flightsSent).rxRing = s.rxRing := rfl
@[simp] theorem State.flightsSent_fe (s : State) : (s.flightsSent).fe = s.fe := rfl
@[simp] theorem State.flightsSent_trn (s : State) : (s.flightsSent).trn = s.trn := rfl
@[simp] theorem State.flightsSent_slotRsv (s : State) : (s.flightsSent).slotRsv = s.slotRsv := rfl
@[simp] theorem State.flightsSent_dg (s : State) : (s.flightsSent).dg = s.dg := rfl
@[simp] theorem State.flightsSent_ddx (s : State) : (s.flightsSent).ddx = s.ddx := rfl
@[simp] theorem State.flightsSent_xtsKeys (s : State) : (s.flightsSent).xtsKeys = s.xtsKeys := rfl
@[simp] theorem State.flightsSent_sleds (s : State) : (s.flightsSent).sleds = s.sleds := rfl
@[simp] theorem State.flightsSent_lanes (s : State) : (s.flightsSent).lanes = s.lanes := rfl
@[simp] theorem State.flightsSent_map (s : State) : (s.flightsSent).map = s.map := rfl
@[simp] theorem State.flightsSent_vlt (s : State) : (s.flightsSent).vlt = s.vlt := rfl
@[simp] theorem State.flightsSent_evt (s : State) : (s.flightsSent).evt = s.evt := rfl
@[simp] theorem State.flightsSent_log (s : State) : (s.flightsSent).log = s.log := rfl
@[simp] theorem State.flightsSent_pins (s : State) : (s.flightsSent).pins = s.pins := rfl
@[simp] theorem State.flightsSent_pwr (s : State) : (s.flightsSent).pwr = s.pwr := rfl
@[simp] theorem State.flightsSent_pcie (s : State) : (s.flightsSent).pcie = s.pcie := rfl
@[simp] theorem State.flightsSent_mbx (s : State) : (s.flightsSent).mbx = s.mbx := rfl
@[simp] theorem State.flightsSent_doms (s : State) : (s.flightsSent).doms = s.doms := rfl
@[simp] theorem State.flightsSent_i2c (s : State) : (s.flightsSent).i2c = s.i2c := rfl
@[simp] theorem State.flightsSent_freeCtr (s : State) : (s.flightsSent).freeCtr = s.freeCtr := rfl
@[simp] theorem State.flightsSent_out (s : State) : (s.flightsSent).out = s.out := rfl
@[simp] theorem State.flightsSent_pending (s : State) : (s.flightsSent).pending = s.pending := rfl

/-! State.updRebuild -/

@[simp] theorem State.updRebuild_fuse (s : State) (m m' : PosMove) : (s.updRebuild m m').fuse = s.fuse := rfl
@[simp] theorem State.updRebuild_now (s : State) (m m' : PosMove) : (s.updRebuild m m').now = s.now := rfl
@[simp] theorem State.updRebuild_headId (s : State) (m m' : PosMove) : (s.updRebuild m m').headId = s.headId := rfl
@[simp] theorem State.updRebuild_life (s : State) (m m' : PosMove) : (s.updRebuild m m').life = s.life := rfl
@[simp] theorem State.updRebuild_regs (s : State) (m m' : PosMove) : (s.updRebuild m m').regs = s.regs := rfl
@[simp] theorem State.updRebuild_locked (s : State) (m m' : PosMove) : (s.updRebuild m m').locked = s.locked := rfl
@[simp] theorem State.updRebuild_latches (s : State) (m m' : PosMove) : (s.updRebuild m m').latches = s.latches := rfl
@[simp] theorem State.updRebuild_threads (s : State) (m m' : PosMove) : (s.updRebuild m m').threads = s.threads := rfl
@[simp] theorem State.updRebuild_items (s : State) (m m' : PosMove) : (s.updRebuild m m').items = s.items := rfl
@[simp] theorem State.updRebuild_queues (s : State) (m m' : PosMove) : (s.updRebuild m m').queues = s.queues := rfl
@[simp] theorem State.updRebuild_bufs (s : State) (m m' : PosMove) : (s.updRebuild m m').bufs = s.bufs := rfl
@[simp] theorem State.updRebuild_gens (s : State) (m m' : PosMove) : (s.updRebuild m m').gens = s.gens := rfl
@[simp] theorem State.updRebuild_mem (s : State) (m m' : PosMove) : (s.updRebuild m m').mem = s.mem := rfl
@[simp] theorem State.updRebuild_eccFix (s : State) (m m' : PosMove) : (s.updRebuild m m').eccFix = s.eccFix := rfl
@[simp] theorem State.updRebuild_eccBad (s : State) (m m' : PosMove) : (s.updRebuild m m').eccBad = s.eccBad := rfl
@[simp] theorem State.updRebuild_dcache (s : State) (m m' : PosMove) : (s.updRebuild m m').dcache = s.dcache := rfl
@[simp] theorem State.updRebuild_rings (s : State) (m m' : PosMove) : (s.updRebuild m m').rings = s.rings := rfl
@[simp] theorem State.updRebuild_comps (s : State) (m m' : PosMove) : (s.updRebuild m m').comps = s.comps := rfl
@[simp] theorem State.updRebuild_arbs (s : State) (m m' : PosMove) : (s.updRebuild m m').arbs = s.arbs := rfl
@[simp] theorem State.updRebuild_srch (s : State) (m m' : PosMove) : (s.updRebuild m m').srch = s.srch := rfl
@[simp] theorem State.updRebuild_srchBusy (s : State) (m m' : PosMove) : (s.updRebuild m m').srchBusy = s.srchBusy := rfl
@[simp] theorem State.updRebuild_prms (s : State) (m m' : PosMove) : (s.updRebuild m m').prms = s.prms := rfl
@[simp] theorem State.updRebuild_wktBuckets (s : State) (m m' : PosMove) : (s.updRebuild m m').wktBuckets = s.wktBuckets := rfl
@[simp] theorem State.updRebuild_braceAt (s : State) (m m' : PosMove) : (s.updRebuild m m').braceAt = s.braceAt := rfl
@[simp] theorem State.updRebuild_tookOver (s : State) (m m' : PosMove) : (s.updRebuild m m').tookOver = s.tookOver := rfl
@[simp] theorem State.updRebuild_rxRing (s : State) (m m' : PosMove) : (s.updRebuild m m').rxRing = s.rxRing := rfl
@[simp] theorem State.updRebuild_fe (s : State) (m m' : PosMove) : (s.updRebuild m m').fe = s.fe := rfl
@[simp] theorem State.updRebuild_trn (s : State) (m m' : PosMove) : (s.updRebuild m m').trn = s.trn := rfl
@[simp] theorem State.updRebuild_slotRsv (s : State) (m m' : PosMove) : (s.updRebuild m m').slotRsv = s.slotRsv := rfl
@[simp] theorem State.updRebuild_dg (s : State) (m m' : PosMove) : (s.updRebuild m m').dg = s.dg := rfl
@[simp] theorem State.updRebuild_ddx (s : State) (m m' : PosMove) : (s.updRebuild m m').ddx = s.ddx := rfl
@[simp] theorem State.updRebuild_xtsKeys (s : State) (m m' : PosMove) : (s.updRebuild m m').xtsKeys = s.xtsKeys := rfl
@[simp] theorem State.updRebuild_sleds (s : State) (m m' : PosMove) : (s.updRebuild m m').sleds = s.sleds := rfl
@[simp] theorem State.updRebuild_lanes (s : State) (m m' : PosMove) : (s.updRebuild m m').lanes = s.lanes := rfl
@[simp] theorem State.updRebuild_map (s : State) (m m' : PosMove) : (s.updRebuild m m').map = s.map := rfl
@[simp] theorem State.updRebuild_vlt (s : State) (m m' : PosMove) : (s.updRebuild m m').vlt = s.vlt := rfl
@[simp] theorem State.updRebuild_evt (s : State) (m m' : PosMove) : (s.updRebuild m m').evt = s.evt := rfl
@[simp] theorem State.updRebuild_log (s : State) (m m' : PosMove) : (s.updRebuild m m').log = s.log := rfl
@[simp] theorem State.updRebuild_pins (s : State) (m m' : PosMove) : (s.updRebuild m m').pins = s.pins := rfl
@[simp] theorem State.updRebuild_pwr (s : State) (m m' : PosMove) : (s.updRebuild m m').pwr = s.pwr := rfl
@[simp] theorem State.updRebuild_pcie (s : State) (m m' : PosMove) : (s.updRebuild m m').pcie = s.pcie := rfl
@[simp] theorem State.updRebuild_mbx (s : State) (m m' : PosMove) : (s.updRebuild m m').mbx = s.mbx := rfl
@[simp] theorem State.updRebuild_doms (s : State) (m m' : PosMove) : (s.updRebuild m m').doms = s.doms := rfl
@[simp] theorem State.updRebuild_i2c (s : State) (m m' : PosMove) : (s.updRebuild m m').i2c = s.i2c := rfl
@[simp] theorem State.updRebuild_freeCtr (s : State) (m m' : PosMove) : (s.updRebuild m m').freeCtr = s.freeCtr := rfl
@[simp] theorem State.updRebuild_out (s : State) (m m' : PosMove) : (s.updRebuild m m').out = s.out := rfl
@[simp] theorem State.updRebuild_pending (s : State) (m m' : PosMove) : (s.updRebuild m m').pending = s.pending := rfl

/-! State.updMove -/

@[simp] theorem State.updMove_fuse (s : State) (m : PosMove) : (s.updMove m).fuse = s.fuse := rfl
@[simp] theorem State.updMove_now (s : State) (m : PosMove) : (s.updMove m).now = s.now := rfl
@[simp] theorem State.updMove_headId (s : State) (m : PosMove) : (s.updMove m).headId = s.headId := rfl
@[simp] theorem State.updMove_life (s : State) (m : PosMove) : (s.updMove m).life = s.life := rfl
@[simp] theorem State.updMove_regs (s : State) (m : PosMove) : (s.updMove m).regs = s.regs := rfl
@[simp] theorem State.updMove_locked (s : State) (m : PosMove) : (s.updMove m).locked = s.locked := rfl
@[simp] theorem State.updMove_latches (s : State) (m : PosMove) : (s.updMove m).latches = s.latches := rfl
@[simp] theorem State.updMove_threads (s : State) (m : PosMove) : (s.updMove m).threads = s.threads := rfl
@[simp] theorem State.updMove_items (s : State) (m : PosMove) : (s.updMove m).items = s.items := rfl
@[simp] theorem State.updMove_queues (s : State) (m : PosMove) : (s.updMove m).queues = s.queues := rfl
@[simp] theorem State.updMove_bufs (s : State) (m : PosMove) : (s.updMove m).bufs = s.bufs := rfl
@[simp] theorem State.updMove_gens (s : State) (m : PosMove) : (s.updMove m).gens = s.gens := rfl
@[simp] theorem State.updMove_mem (s : State) (m : PosMove) : (s.updMove m).mem = s.mem := rfl
@[simp] theorem State.updMove_eccFix (s : State) (m : PosMove) : (s.updMove m).eccFix = s.eccFix := rfl
@[simp] theorem State.updMove_eccBad (s : State) (m : PosMove) : (s.updMove m).eccBad = s.eccBad := rfl
@[simp] theorem State.updMove_dcache (s : State) (m : PosMove) : (s.updMove m).dcache = s.dcache := rfl
@[simp] theorem State.updMove_rings (s : State) (m : PosMove) : (s.updMove m).rings = s.rings := rfl
@[simp] theorem State.updMove_comps (s : State) (m : PosMove) : (s.updMove m).comps = s.comps := rfl
@[simp] theorem State.updMove_arbs (s : State) (m : PosMove) : (s.updMove m).arbs = s.arbs := rfl
@[simp] theorem State.updMove_srch (s : State) (m : PosMove) : (s.updMove m).srch = s.srch := rfl
@[simp] theorem State.updMove_srchBusy (s : State) (m : PosMove) : (s.updMove m).srchBusy = s.srchBusy := rfl
@[simp] theorem State.updMove_prms (s : State) (m : PosMove) : (s.updMove m).prms = s.prms := rfl
@[simp] theorem State.updMove_wktBuckets (s : State) (m : PosMove) : (s.updMove m).wktBuckets = s.wktBuckets := rfl
@[simp] theorem State.updMove_braceAt (s : State) (m : PosMove) : (s.updMove m).braceAt = s.braceAt := rfl
@[simp] theorem State.updMove_tookOver (s : State) (m : PosMove) : (s.updMove m).tookOver = s.tookOver := rfl
@[simp] theorem State.updMove_rxRing (s : State) (m : PosMove) : (s.updMove m).rxRing = s.rxRing := rfl
@[simp] theorem State.updMove_fe (s : State) (m : PosMove) : (s.updMove m).fe = s.fe := rfl
@[simp] theorem State.updMove_trn (s : State) (m : PosMove) : (s.updMove m).trn = s.trn := rfl
@[simp] theorem State.updMove_slotRsv (s : State) (m : PosMove) : (s.updMove m).slotRsv = s.slotRsv := rfl
@[simp] theorem State.updMove_dg (s : State) (m : PosMove) : (s.updMove m).dg = s.dg := rfl
@[simp] theorem State.updMove_ddx (s : State) (m : PosMove) : (s.updMove m).ddx = s.ddx := rfl
@[simp] theorem State.updMove_xtsKeys (s : State) (m : PosMove) : (s.updMove m).xtsKeys = s.xtsKeys := rfl
@[simp] theorem State.updMove_sleds (s : State) (m : PosMove) : (s.updMove m).sleds = s.sleds := rfl
@[simp] theorem State.updMove_lanes (s : State) (m : PosMove) : (s.updMove m).lanes = s.lanes := rfl
@[simp] theorem State.updMove_map (s : State) (m : PosMove) : (s.updMove m).map = s.map := rfl
@[simp] theorem State.updMove_vlt (s : State) (m : PosMove) : (s.updMove m).vlt = s.vlt := rfl
@[simp] theorem State.updMove_evt (s : State) (m : PosMove) : (s.updMove m).evt = s.evt := rfl
@[simp] theorem State.updMove_log (s : State) (m : PosMove) : (s.updMove m).log = s.log := rfl
@[simp] theorem State.updMove_pins (s : State) (m : PosMove) : (s.updMove m).pins = s.pins := rfl
@[simp] theorem State.updMove_pwr (s : State) (m : PosMove) : (s.updMove m).pwr = s.pwr := rfl
@[simp] theorem State.updMove_pcie (s : State) (m : PosMove) : (s.updMove m).pcie = s.pcie := rfl
@[simp] theorem State.updMove_mbx (s : State) (m : PosMove) : (s.updMove m).mbx = s.mbx := rfl
@[simp] theorem State.updMove_doms (s : State) (m : PosMove) : (s.updMove m).doms = s.doms := rfl
@[simp] theorem State.updMove_i2c (s : State) (m : PosMove) : (s.updMove m).i2c = s.i2c := rfl
@[simp] theorem State.updMove_freeCtr (s : State) (m : PosMove) : (s.updMove m).freeCtr = s.freeCtr := rfl
@[simp] theorem State.updMove_out (s : State) (m : PosMove) : (s.updMove m).out = s.out := rfl
@[simp] theorem State.updMove_pending (s : State) (m : PosMove) : (s.updMove m).pending = s.pending := rfl

/-! State.logSettle -/

@[simp] theorem State.logSettle_fuse (s : State) : (s.logSettle).fuse = s.fuse := rfl
@[simp] theorem State.logSettle_now (s : State) : (s.logSettle).now = s.now := rfl
@[simp] theorem State.logSettle_headId (s : State) : (s.logSettle).headId = s.headId := rfl
@[simp] theorem State.logSettle_life (s : State) : (s.logSettle).life = s.life := rfl
@[simp] theorem State.logSettle_regs (s : State) : (s.logSettle).regs = s.regs := rfl
@[simp] theorem State.logSettle_locked (s : State) : (s.logSettle).locked = s.locked := rfl
@[simp] theorem State.logSettle_latches (s : State) : (s.logSettle).latches = s.latches := rfl
@[simp] theorem State.logSettle_threads (s : State) : (s.logSettle).threads = s.threads := rfl
@[simp] theorem State.logSettle_items (s : State) : (s.logSettle).items = s.items := rfl
@[simp] theorem State.logSettle_queues (s : State) : (s.logSettle).queues = s.queues := rfl
@[simp] theorem State.logSettle_bufs (s : State) : (s.logSettle).bufs = s.bufs := rfl
@[simp] theorem State.logSettle_gens (s : State) : (s.logSettle).gens = s.gens := rfl
@[simp] theorem State.logSettle_mem (s : State) : (s.logSettle).mem = s.mem := rfl
@[simp] theorem State.logSettle_eccFix (s : State) : (s.logSettle).eccFix = s.eccFix := rfl
@[simp] theorem State.logSettle_eccBad (s : State) : (s.logSettle).eccBad = s.eccBad := rfl
@[simp] theorem State.logSettle_dcache (s : State) : (s.logSettle).dcache = s.dcache := rfl
@[simp] theorem State.logSettle_rings (s : State) : (s.logSettle).rings = s.rings := rfl
@[simp] theorem State.logSettle_comps (s : State) : (s.logSettle).comps = s.comps := rfl
@[simp] theorem State.logSettle_arbs (s : State) : (s.logSettle).arbs = s.arbs := rfl
@[simp] theorem State.logSettle_srch (s : State) : (s.logSettle).srch = s.srch := rfl
@[simp] theorem State.logSettle_srchBusy (s : State) : (s.logSettle).srchBusy = s.srchBusy := rfl
@[simp] theorem State.logSettle_prms (s : State) : (s.logSettle).prms = s.prms := rfl
@[simp] theorem State.logSettle_wktBuckets (s : State) : (s.logSettle).wktBuckets = s.wktBuckets := rfl
@[simp] theorem State.logSettle_braceAt (s : State) : (s.logSettle).braceAt = s.braceAt := rfl
@[simp] theorem State.logSettle_tookOver (s : State) : (s.logSettle).tookOver = s.tookOver := rfl
@[simp] theorem State.logSettle_rxRing (s : State) : (s.logSettle).rxRing = s.rxRing := rfl
@[simp] theorem State.logSettle_fe (s : State) : (s.logSettle).fe = s.fe := rfl
@[simp] theorem State.logSettle_trn (s : State) : (s.logSettle).trn = s.trn := rfl
@[simp] theorem State.logSettle_slotRsv (s : State) : (s.logSettle).slotRsv = s.slotRsv := rfl
@[simp] theorem State.logSettle_dg (s : State) : (s.logSettle).dg = s.dg := rfl
@[simp] theorem State.logSettle_ddx (s : State) : (s.logSettle).ddx = s.ddx := rfl
@[simp] theorem State.logSettle_xtsKeys (s : State) : (s.logSettle).xtsKeys = s.xtsKeys := rfl
@[simp] theorem State.logSettle_sleds (s : State) : (s.logSettle).sleds = s.sleds := rfl
@[simp] theorem State.logSettle_lanes (s : State) : (s.logSettle).lanes = s.lanes := rfl
@[simp] theorem State.logSettle_seg (s : State) : (s.logSettle).seg = s.seg := rfl
@[simp] theorem State.logSettle_map (s : State) : (s.logSettle).map = s.map := rfl
@[simp] theorem State.logSettle_vlt (s : State) : (s.logSettle).vlt = s.vlt := rfl
@[simp] theorem State.logSettle_evt (s : State) : (s.logSettle).evt = s.evt := rfl
@[simp] theorem State.logSettle_pins (s : State) : (s.logSettle).pins = s.pins := rfl
@[simp] theorem State.logSettle_pwr (s : State) : (s.logSettle).pwr = s.pwr := rfl
@[simp] theorem State.logSettle_pcie (s : State) : (s.logSettle).pcie = s.pcie := rfl
@[simp] theorem State.logSettle_mbx (s : State) : (s.logSettle).mbx = s.mbx := rfl
@[simp] theorem State.logSettle_doms (s : State) : (s.logSettle).doms = s.doms := rfl
@[simp] theorem State.logSettle_i2c (s : State) : (s.logSettle).i2c = s.i2c := rfl
@[simp] theorem State.logSettle_freeCtr (s : State) : (s.logSettle).freeCtr = s.freeCtr := rfl
@[simp] theorem State.logSettle_out (s : State) : (s.logSettle).out = s.out := rfl
@[simp] theorem State.logSettle_pending (s : State) : (s.logSettle).pending = s.pending := rfl

/-! State.warmMachine -/

@[simp] theorem State.warmMachine_fuse (s : State) : (s.warmMachine).fuse = s.fuse := rfl
@[simp] theorem State.warmMachine_now (s : State) : (s.warmMachine).now = s.now := rfl
@[simp] theorem State.warmMachine_headId (s : State) : (s.warmMachine).headId = s.headId := rfl
@[simp] theorem State.warmMachine_life (s : State) : (s.warmMachine).life = s.life := rfl
@[simp] theorem State.warmMachine_regs (s : State) : (s.warmMachine).regs = s.regs := rfl
@[simp] theorem State.warmMachine_locked (s : State) : (s.warmMachine).locked = s.locked := rfl
@[simp] theorem State.warmMachine_gens (s : State) : (s.warmMachine).gens = s.gens := rfl
@[simp] theorem State.warmMachine_mem (s : State) : (s.warmMachine).mem = s.mem := rfl
@[simp] theorem State.warmMachine_eccFix (s : State) : (s.warmMachine).eccFix = s.eccFix := rfl
@[simp] theorem State.warmMachine_eccBad (s : State) : (s.warmMachine).eccBad = s.eccBad := rfl
@[simp] theorem State.warmMachine_dcache (s : State) : (s.warmMachine).dcache = s.dcache := rfl
@[simp] theorem State.warmMachine_srch (s : State) : (s.warmMachine).srch = s.srch := rfl
@[simp] theorem State.warmMachine_srchBusy (s : State) : (s.warmMachine).srchBusy = s.srchBusy := rfl
@[simp] theorem State.warmMachine_fe (s : State) : (s.warmMachine).fe = s.fe := rfl
@[simp] theorem State.warmMachine_trn (s : State) : (s.warmMachine).trn = s.trn := rfl
@[simp] theorem State.warmMachine_dg (s : State) : (s.warmMachine).dg = s.dg := rfl
@[simp] theorem State.warmMachine_ddx (s : State) : (s.warmMachine).ddx = s.ddx := rfl
@[simp] theorem State.warmMachine_xtsKeys (s : State) : (s.warmMachine).xtsKeys = s.xtsKeys := rfl
@[simp] theorem State.warmMachine_sleds (s : State) : (s.warmMachine).sleds = s.sleds := rfl
@[simp] theorem State.warmMachine_lanes (s : State) : (s.warmMachine).lanes = s.lanes := rfl
@[simp] theorem State.warmMachine_seg (s : State) : (s.warmMachine).seg = s.seg := rfl
@[simp] theorem State.warmMachine_map (s : State) : (s.warmMachine).map = s.map := rfl
@[simp] theorem State.warmMachine_vlt (s : State) : (s.warmMachine).vlt = s.vlt := rfl
@[simp] theorem State.warmMachine_evt (s : State) : (s.warmMachine).evt = s.evt := rfl
@[simp] theorem State.warmMachine_log (s : State) : (s.warmMachine).log = s.log := rfl
@[simp] theorem State.warmMachine_pins (s : State) : (s.warmMachine).pins = s.pins := rfl
@[simp] theorem State.warmMachine_pwr (s : State) : (s.warmMachine).pwr = s.pwr := rfl
@[simp] theorem State.warmMachine_pcie (s : State) : (s.warmMachine).pcie = s.pcie := rfl
@[simp] theorem State.warmMachine_mbx (s : State) : (s.warmMachine).mbx = s.mbx := rfl
@[simp] theorem State.warmMachine_doms (s : State) : (s.warmMachine).doms = s.doms := rfl
@[simp] theorem State.warmMachine_i2c (s : State) : (s.warmMachine).i2c = s.i2c := rfl
@[simp] theorem State.warmMachine_freeCtr (s : State) : (s.warmMachine).freeCtr = s.freeCtr := rfl
@[simp] theorem State.warmMachine_out (s : State) : (s.warmMachine).out = s.out := rfl
@[simp] theorem State.warmMachine_pending (s : State) : (s.warmMachine).pending = s.pending := rfl

/-! State.msixReset -/

@[simp] theorem State.msixReset_fuse (s : State) : (s.msixReset).fuse = s.fuse := rfl
@[simp] theorem State.msixReset_now (s : State) : (s.msixReset).now = s.now := rfl
@[simp] theorem State.msixReset_headId (s : State) : (s.msixReset).headId = s.headId := rfl
@[simp] theorem State.msixReset_life (s : State) : (s.msixReset).life = s.life := rfl
@[simp] theorem State.msixReset_locked (s : State) : (s.msixReset).locked = s.locked := rfl
@[simp] theorem State.msixReset_latches (s : State) : (s.msixReset).latches = s.latches := rfl
@[simp] theorem State.msixReset_threads (s : State) : (s.msixReset).threads = s.threads := rfl
@[simp] theorem State.msixReset_items (s : State) : (s.msixReset).items = s.items := rfl
@[simp] theorem State.msixReset_queues (s : State) : (s.msixReset).queues = s.queues := rfl
@[simp] theorem State.msixReset_bufs (s : State) : (s.msixReset).bufs = s.bufs := rfl
@[simp] theorem State.msixReset_gens (s : State) : (s.msixReset).gens = s.gens := rfl
@[simp] theorem State.msixReset_mem (s : State) : (s.msixReset).mem = s.mem := rfl
@[simp] theorem State.msixReset_eccFix (s : State) : (s.msixReset).eccFix = s.eccFix := rfl
@[simp] theorem State.msixReset_eccBad (s : State) : (s.msixReset).eccBad = s.eccBad := rfl
@[simp] theorem State.msixReset_dcache (s : State) : (s.msixReset).dcache = s.dcache := rfl
@[simp] theorem State.msixReset_rings (s : State) : (s.msixReset).rings = s.rings := rfl
@[simp] theorem State.msixReset_comps (s : State) : (s.msixReset).comps = s.comps := rfl
@[simp] theorem State.msixReset_arbs (s : State) : (s.msixReset).arbs = s.arbs := rfl
@[simp] theorem State.msixReset_srch (s : State) : (s.msixReset).srch = s.srch := rfl
@[simp] theorem State.msixReset_srchBusy (s : State) : (s.msixReset).srchBusy = s.srchBusy := rfl
@[simp] theorem State.msixReset_prms (s : State) : (s.msixReset).prms = s.prms := rfl
@[simp] theorem State.msixReset_wktBuckets (s : State) : (s.msixReset).wktBuckets = s.wktBuckets := rfl
@[simp] theorem State.msixReset_braceAt (s : State) : (s.msixReset).braceAt = s.braceAt := rfl
@[simp] theorem State.msixReset_tookOver (s : State) : (s.msixReset).tookOver = s.tookOver := rfl
@[simp] theorem State.msixReset_rxRing (s : State) : (s.msixReset).rxRing = s.rxRing := rfl
@[simp] theorem State.msixReset_fe (s : State) : (s.msixReset).fe = s.fe := rfl
@[simp] theorem State.msixReset_trn (s : State) : (s.msixReset).trn = s.trn := rfl
@[simp] theorem State.msixReset_slotRsv (s : State) : (s.msixReset).slotRsv = s.slotRsv := rfl
@[simp] theorem State.msixReset_dg (s : State) : (s.msixReset).dg = s.dg := rfl
@[simp] theorem State.msixReset_ddx (s : State) : (s.msixReset).ddx = s.ddx := rfl
@[simp] theorem State.msixReset_xtsKeys (s : State) : (s.msixReset).xtsKeys = s.xtsKeys := rfl
@[simp] theorem State.msixReset_sleds (s : State) : (s.msixReset).sleds = s.sleds := rfl
@[simp] theorem State.msixReset_lanes (s : State) : (s.msixReset).lanes = s.lanes := rfl
@[simp] theorem State.msixReset_seg (s : State) : (s.msixReset).seg = s.seg := rfl
@[simp] theorem State.msixReset_map (s : State) : (s.msixReset).map = s.map := rfl
@[simp] theorem State.msixReset_vlt (s : State) : (s.msixReset).vlt = s.vlt := rfl
@[simp] theorem State.msixReset_evt (s : State) : (s.msixReset).evt = s.evt := rfl
@[simp] theorem State.msixReset_log (s : State) : (s.msixReset).log = s.log := rfl
@[simp] theorem State.msixReset_pins (s : State) : (s.msixReset).pins = s.pins := rfl
@[simp] theorem State.msixReset_pwr (s : State) : (s.msixReset).pwr = s.pwr := rfl
@[simp] theorem State.msixReset_mbx (s : State) : (s.msixReset).mbx = s.mbx := rfl
@[simp] theorem State.msixReset_doms (s : State) : (s.msixReset).doms = s.doms := rfl
@[simp] theorem State.msixReset_i2c (s : State) : (s.msixReset).i2c = s.i2c := rfl
@[simp] theorem State.msixReset_freeCtr (s : State) : (s.msixReset).freeCtr = s.freeCtr := rfl
@[simp] theorem State.msixReset_out (s : State) : (s.msixReset).out = s.out := rfl
@[simp] theorem State.msixReset_pending (s : State) : (s.msixReset).pending = s.pending := rfl

/-! State.setMove -/

@[simp] theorem State.setMove_fuse (s : State) (n q v : Nat) : (s.setMove n q v).fuse = s.fuse := rfl
@[simp] theorem State.setMove_now (s : State) (n q v : Nat) : (s.setMove n q v).now = s.now := rfl
@[simp] theorem State.setMove_headId (s : State) (n q v : Nat) : (s.setMove n q v).headId = s.headId := rfl
@[simp] theorem State.setMove_life (s : State) (n q v : Nat) : (s.setMove n q v).life = s.life := rfl
@[simp] theorem State.setMove_regs (s : State) (n q v : Nat) : (s.setMove n q v).regs = s.regs := rfl
@[simp] theorem State.setMove_locked (s : State) (n q v : Nat) : (s.setMove n q v).locked = s.locked := rfl
@[simp] theorem State.setMove_latches (s : State) (n q v : Nat) : (s.setMove n q v).latches = s.latches := rfl
@[simp] theorem State.setMove_threads (s : State) (n q v : Nat) : (s.setMove n q v).threads = s.threads := rfl
@[simp] theorem State.setMove_items (s : State) (n q v : Nat) : (s.setMove n q v).items = s.items := rfl
@[simp] theorem State.setMove_queues (s : State) (n q v : Nat) : (s.setMove n q v).queues = s.queues := rfl
@[simp] theorem State.setMove_bufs (s : State) (n q v : Nat) : (s.setMove n q v).bufs = s.bufs := rfl
@[simp] theorem State.setMove_gens (s : State) (n q v : Nat) : (s.setMove n q v).gens = s.gens := rfl
@[simp] theorem State.setMove_mem (s : State) (n q v : Nat) : (s.setMove n q v).mem = s.mem := rfl
@[simp] theorem State.setMove_eccFix (s : State) (n q v : Nat) : (s.setMove n q v).eccFix = s.eccFix := rfl
@[simp] theorem State.setMove_eccBad (s : State) (n q v : Nat) : (s.setMove n q v).eccBad = s.eccBad := rfl
@[simp] theorem State.setMove_dcache (s : State) (n q v : Nat) : (s.setMove n q v).dcache = s.dcache := rfl
@[simp] theorem State.setMove_rings (s : State) (n q v : Nat) : (s.setMove n q v).rings = s.rings := rfl
@[simp] theorem State.setMove_comps (s : State) (n q v : Nat) : (s.setMove n q v).comps = s.comps := rfl
@[simp] theorem State.setMove_arbs (s : State) (n q v : Nat) : (s.setMove n q v).arbs = s.arbs := rfl
@[simp] theorem State.setMove_srch (s : State) (n q v : Nat) : (s.setMove n q v).srch = s.srch := rfl
@[simp] theorem State.setMove_srchBusy (s : State) (n q v : Nat) : (s.setMove n q v).srchBusy = s.srchBusy := rfl
@[simp] theorem State.setMove_prms (s : State) (n q v : Nat) : (s.setMove n q v).prms = s.prms := rfl
@[simp] theorem State.setMove_wktBuckets (s : State) (n q v : Nat) : (s.setMove n q v).wktBuckets = s.wktBuckets := rfl
@[simp] theorem State.setMove_braceAt (s : State) (n q v : Nat) : (s.setMove n q v).braceAt = s.braceAt := rfl
@[simp] theorem State.setMove_tookOver (s : State) (n q v : Nat) : (s.setMove n q v).tookOver = s.tookOver := rfl
@[simp] theorem State.setMove_rxRing (s : State) (n q v : Nat) : (s.setMove n q v).rxRing = s.rxRing := rfl
@[simp] theorem State.setMove_fe (s : State) (n q v : Nat) : (s.setMove n q v).fe = s.fe := rfl
@[simp] theorem State.setMove_trn (s : State) (n q v : Nat) : (s.setMove n q v).trn = s.trn := rfl
@[simp] theorem State.setMove_slotRsv (s : State) (n q v : Nat) : (s.setMove n q v).slotRsv = s.slotRsv := rfl
@[simp] theorem State.setMove_dg (s : State) (n q v : Nat) : (s.setMove n q v).dg = s.dg := rfl
@[simp] theorem State.setMove_ddx (s : State) (n q v : Nat) : (s.setMove n q v).ddx = s.ddx := rfl
@[simp] theorem State.setMove_xtsKeys (s : State) (n q v : Nat) : (s.setMove n q v).xtsKeys = s.xtsKeys := rfl
@[simp] theorem State.setMove_sleds (s : State) (n q v : Nat) : (s.setMove n q v).sleds = s.sleds := rfl
@[simp] theorem State.setMove_lanes (s : State) (n q v : Nat) : (s.setMove n q v).lanes = s.lanes := rfl
@[simp] theorem State.setMove_map (s : State) (n q v : Nat) : (s.setMove n q v).map = s.map := rfl
@[simp] theorem State.setMove_vlt (s : State) (n q v : Nat) : (s.setMove n q v).vlt = s.vlt := rfl
@[simp] theorem State.setMove_evt (s : State) (n q v : Nat) : (s.setMove n q v).evt = s.evt := rfl
@[simp] theorem State.setMove_log (s : State) (n q v : Nat) : (s.setMove n q v).log = s.log := rfl
@[simp] theorem State.setMove_pins (s : State) (n q v : Nat) : (s.setMove n q v).pins = s.pins := rfl
@[simp] theorem State.setMove_pwr (s : State) (n q v : Nat) : (s.setMove n q v).pwr = s.pwr := rfl
@[simp] theorem State.setMove_pcie (s : State) (n q v : Nat) : (s.setMove n q v).pcie = s.pcie := rfl
@[simp] theorem State.setMove_mbx (s : State) (n q v : Nat) : (s.setMove n q v).mbx = s.mbx := rfl
@[simp] theorem State.setMove_doms (s : State) (n q v : Nat) : (s.setMove n q v).doms = s.doms := rfl
@[simp] theorem State.setMove_i2c (s : State) (n q v : Nat) : (s.setMove n q v).i2c = s.i2c := rfl
@[simp] theorem State.setMove_freeCtr (s : State) (n q v : Nat) : (s.setMove n q v).freeCtr = s.freeCtr := rfl
@[simp] theorem State.setMove_out (s : State) (n q v : Nat) : (s.setMove n q v).out = s.out := rfl
@[simp] theorem State.setMove_pending (s : State) (n q v : Nat) : (s.setMove n q v).pending = s.pending := rfl

/-! State.setStream -/

@[simp] theorem State.setStream_fuse (s : State) (x : Nat) (y : SegStream) : (s.setStream x y).fuse = s.fuse := rfl
@[simp] theorem State.setStream_now (s : State) (x : Nat) (y : SegStream) : (s.setStream x y).now = s.now := rfl
@[simp] theorem State.setStream_headId (s : State) (x : Nat) (y : SegStream) : (s.setStream x y).headId = s.headId := rfl
@[simp] theorem State.setStream_life (s : State) (x : Nat) (y : SegStream) : (s.setStream x y).life = s.life := rfl
@[simp] theorem State.setStream_regs (s : State) (x : Nat) (y : SegStream) : (s.setStream x y).regs = s.regs := rfl
@[simp] theorem State.setStream_locked (s : State) (x : Nat) (y : SegStream) : (s.setStream x y).locked = s.locked := rfl
@[simp] theorem State.setStream_latches (s : State) (x : Nat) (y : SegStream) : (s.setStream x y).latches = s.latches := rfl
@[simp] theorem State.setStream_threads (s : State) (x : Nat) (y : SegStream) : (s.setStream x y).threads = s.threads := rfl
@[simp] theorem State.setStream_items (s : State) (x : Nat) (y : SegStream) : (s.setStream x y).items = s.items := rfl
@[simp] theorem State.setStream_queues (s : State) (x : Nat) (y : SegStream) : (s.setStream x y).queues = s.queues := rfl
@[simp] theorem State.setStream_bufs (s : State) (x : Nat) (y : SegStream) : (s.setStream x y).bufs = s.bufs := rfl
@[simp] theorem State.setStream_gens (s : State) (x : Nat) (y : SegStream) : (s.setStream x y).gens = s.gens := rfl
@[simp] theorem State.setStream_mem (s : State) (x : Nat) (y : SegStream) : (s.setStream x y).mem = s.mem := rfl
@[simp] theorem State.setStream_eccFix (s : State) (x : Nat) (y : SegStream) : (s.setStream x y).eccFix = s.eccFix := rfl
@[simp] theorem State.setStream_eccBad (s : State) (x : Nat) (y : SegStream) : (s.setStream x y).eccBad = s.eccBad := rfl
@[simp] theorem State.setStream_dcache (s : State) (x : Nat) (y : SegStream) : (s.setStream x y).dcache = s.dcache := rfl
@[simp] theorem State.setStream_rings (s : State) (x : Nat) (y : SegStream) : (s.setStream x y).rings = s.rings := rfl
@[simp] theorem State.setStream_comps (s : State) (x : Nat) (y : SegStream) : (s.setStream x y).comps = s.comps := rfl
@[simp] theorem State.setStream_arbs (s : State) (x : Nat) (y : SegStream) : (s.setStream x y).arbs = s.arbs := rfl
@[simp] theorem State.setStream_srch (s : State) (x : Nat) (y : SegStream) : (s.setStream x y).srch = s.srch := rfl
@[simp] theorem State.setStream_srchBusy (s : State) (x : Nat) (y : SegStream) : (s.setStream x y).srchBusy = s.srchBusy := rfl
@[simp] theorem State.setStream_prms (s : State) (x : Nat) (y : SegStream) : (s.setStream x y).prms = s.prms := rfl
@[simp] theorem State.setStream_wktBuckets (s : State) (x : Nat) (y : SegStream) : (s.setStream x y).wktBuckets = s.wktBuckets := rfl
@[simp] theorem State.setStream_braceAt (s : State) (x : Nat) (y : SegStream) : (s.setStream x y).braceAt = s.braceAt := rfl
@[simp] theorem State.setStream_tookOver (s : State) (x : Nat) (y : SegStream) : (s.setStream x y).tookOver = s.tookOver := rfl
@[simp] theorem State.setStream_rxRing (s : State) (x : Nat) (y : SegStream) : (s.setStream x y).rxRing = s.rxRing := rfl
@[simp] theorem State.setStream_fe (s : State) (x : Nat) (y : SegStream) : (s.setStream x y).fe = s.fe := rfl
@[simp] theorem State.setStream_trn (s : State) (x : Nat) (y : SegStream) : (s.setStream x y).trn = s.trn := rfl
@[simp] theorem State.setStream_slotRsv (s : State) (x : Nat) (y : SegStream) : (s.setStream x y).slotRsv = s.slotRsv := rfl
@[simp] theorem State.setStream_dg (s : State) (x : Nat) (y : SegStream) : (s.setStream x y).dg = s.dg := rfl
@[simp] theorem State.setStream_ddx (s : State) (x : Nat) (y : SegStream) : (s.setStream x y).ddx = s.ddx := rfl
@[simp] theorem State.setStream_xtsKeys (s : State) (x : Nat) (y : SegStream) : (s.setStream x y).xtsKeys = s.xtsKeys := rfl
@[simp] theorem State.setStream_sleds (s : State) (x : Nat) (y : SegStream) : (s.setStream x y).sleds = s.sleds := rfl
@[simp] theorem State.setStream_lanes (s : State) (x : Nat) (y : SegStream) : (s.setStream x y).lanes = s.lanes := rfl
@[simp] theorem State.setStream_map (s : State) (x : Nat) (y : SegStream) : (s.setStream x y).map = s.map := rfl
@[simp] theorem State.setStream_vlt (s : State) (x : Nat) (y : SegStream) : (s.setStream x y).vlt = s.vlt := rfl
@[simp] theorem State.setStream_evt (s : State) (x : Nat) (y : SegStream) : (s.setStream x y).evt = s.evt := rfl
@[simp] theorem State.setStream_log (s : State) (x : Nat) (y : SegStream) : (s.setStream x y).log = s.log := rfl
@[simp] theorem State.setStream_pins (s : State) (x : Nat) (y : SegStream) : (s.setStream x y).pins = s.pins := rfl
@[simp] theorem State.setStream_pwr (s : State) (x : Nat) (y : SegStream) : (s.setStream x y).pwr = s.pwr := rfl
@[simp] theorem State.setStream_pcie (s : State) (x : Nat) (y : SegStream) : (s.setStream x y).pcie = s.pcie := rfl
@[simp] theorem State.setStream_mbx (s : State) (x : Nat) (y : SegStream) : (s.setStream x y).mbx = s.mbx := rfl
@[simp] theorem State.setStream_doms (s : State) (x : Nat) (y : SegStream) : (s.setStream x y).doms = s.doms := rfl
@[simp] theorem State.setStream_i2c (s : State) (x : Nat) (y : SegStream) : (s.setStream x y).i2c = s.i2c := rfl
@[simp] theorem State.setStream_freeCtr (s : State) (x : Nat) (y : SegStream) : (s.setStream x y).freeCtr = s.freeCtr := rfl
@[simp] theorem State.setStream_out (s : State) (x : Nat) (y : SegStream) : (s.setStream x y).out = s.out := rfl
@[simp] theorem State.setStream_pending (s : State) (x : Nat) (y : SegStream) : (s.setStream x y).pending = s.pending := rfl

/-! State.setSled -/

@[simp] theorem State.setSled_fuse (s : State) (lane : Nat) (x : Sled) : (s.setSled lane x).fuse = s.fuse := rfl
@[simp] theorem State.setSled_now (s : State) (lane : Nat) (x : Sled) : (s.setSled lane x).now = s.now := rfl
@[simp] theorem State.setSled_headId (s : State) (lane : Nat) (x : Sled) : (s.setSled lane x).headId = s.headId := rfl
@[simp] theorem State.setSled_life (s : State) (lane : Nat) (x : Sled) : (s.setSled lane x).life = s.life := rfl
@[simp] theorem State.setSled_regs (s : State) (lane : Nat) (x : Sled) : (s.setSled lane x).regs = s.regs := rfl
@[simp] theorem State.setSled_locked (s : State) (lane : Nat) (x : Sled) : (s.setSled lane x).locked = s.locked := rfl
@[simp] theorem State.setSled_latches (s : State) (lane : Nat) (x : Sled) : (s.setSled lane x).latches = s.latches := rfl
@[simp] theorem State.setSled_threads (s : State) (lane : Nat) (x : Sled) : (s.setSled lane x).threads = s.threads := rfl
@[simp] theorem State.setSled_items (s : State) (lane : Nat) (x : Sled) : (s.setSled lane x).items = s.items := rfl
@[simp] theorem State.setSled_queues (s : State) (lane : Nat) (x : Sled) : (s.setSled lane x).queues = s.queues := rfl
@[simp] theorem State.setSled_bufs (s : State) (lane : Nat) (x : Sled) : (s.setSled lane x).bufs = s.bufs := rfl
@[simp] theorem State.setSled_gens (s : State) (lane : Nat) (x : Sled) : (s.setSled lane x).gens = s.gens := rfl
@[simp] theorem State.setSled_mem (s : State) (lane : Nat) (x : Sled) : (s.setSled lane x).mem = s.mem := rfl
@[simp] theorem State.setSled_eccFix (s : State) (lane : Nat) (x : Sled) : (s.setSled lane x).eccFix = s.eccFix := rfl
@[simp] theorem State.setSled_eccBad (s : State) (lane : Nat) (x : Sled) : (s.setSled lane x).eccBad = s.eccBad := rfl
@[simp] theorem State.setSled_dcache (s : State) (lane : Nat) (x : Sled) : (s.setSled lane x).dcache = s.dcache := rfl
@[simp] theorem State.setSled_rings (s : State) (lane : Nat) (x : Sled) : (s.setSled lane x).rings = s.rings := rfl
@[simp] theorem State.setSled_comps (s : State) (lane : Nat) (x : Sled) : (s.setSled lane x).comps = s.comps := rfl
@[simp] theorem State.setSled_arbs (s : State) (lane : Nat) (x : Sled) : (s.setSled lane x).arbs = s.arbs := rfl
@[simp] theorem State.setSled_srch (s : State) (lane : Nat) (x : Sled) : (s.setSled lane x).srch = s.srch := rfl
@[simp] theorem State.setSled_srchBusy (s : State) (lane : Nat) (x : Sled) : (s.setSled lane x).srchBusy = s.srchBusy := rfl
@[simp] theorem State.setSled_prms (s : State) (lane : Nat) (x : Sled) : (s.setSled lane x).prms = s.prms := rfl
@[simp] theorem State.setSled_wktBuckets (s : State) (lane : Nat) (x : Sled) : (s.setSled lane x).wktBuckets = s.wktBuckets := rfl
@[simp] theorem State.setSled_braceAt (s : State) (lane : Nat) (x : Sled) : (s.setSled lane x).braceAt = s.braceAt := rfl
@[simp] theorem State.setSled_tookOver (s : State) (lane : Nat) (x : Sled) : (s.setSled lane x).tookOver = s.tookOver := rfl
@[simp] theorem State.setSled_rxRing (s : State) (lane : Nat) (x : Sled) : (s.setSled lane x).rxRing = s.rxRing := rfl
@[simp] theorem State.setSled_fe (s : State) (lane : Nat) (x : Sled) : (s.setSled lane x).fe = s.fe := rfl
@[simp] theorem State.setSled_trn (s : State) (lane : Nat) (x : Sled) : (s.setSled lane x).trn = s.trn := rfl
@[simp] theorem State.setSled_slotRsv (s : State) (lane : Nat) (x : Sled) : (s.setSled lane x).slotRsv = s.slotRsv := rfl
@[simp] theorem State.setSled_dg (s : State) (lane : Nat) (x : Sled) : (s.setSled lane x).dg = s.dg := rfl
@[simp] theorem State.setSled_ddx (s : State) (lane : Nat) (x : Sled) : (s.setSled lane x).ddx = s.ddx := rfl
@[simp] theorem State.setSled_xtsKeys (s : State) (lane : Nat) (x : Sled) : (s.setSled lane x).xtsKeys = s.xtsKeys := rfl
@[simp] theorem State.setSled_lanes (s : State) (lane : Nat) (x : Sled) : (s.setSled lane x).lanes = s.lanes := rfl
@[simp] theorem State.setSled_seg (s : State) (lane : Nat) (x : Sled) : (s.setSled lane x).seg = s.seg := rfl
@[simp] theorem State.setSled_map (s : State) (lane : Nat) (x : Sled) : (s.setSled lane x).map = s.map := rfl
@[simp] theorem State.setSled_vlt (s : State) (lane : Nat) (x : Sled) : (s.setSled lane x).vlt = s.vlt := rfl
@[simp] theorem State.setSled_evt (s : State) (lane : Nat) (x : Sled) : (s.setSled lane x).evt = s.evt := rfl
@[simp] theorem State.setSled_log (s : State) (lane : Nat) (x : Sled) : (s.setSled lane x).log = s.log := rfl
@[simp] theorem State.setSled_pins (s : State) (lane : Nat) (x : Sled) : (s.setSled lane x).pins = s.pins := rfl
@[simp] theorem State.setSled_pwr (s : State) (lane : Nat) (x : Sled) : (s.setSled lane x).pwr = s.pwr := rfl
@[simp] theorem State.setSled_pcie (s : State) (lane : Nat) (x : Sled) : (s.setSled lane x).pcie = s.pcie := rfl
@[simp] theorem State.setSled_mbx (s : State) (lane : Nat) (x : Sled) : (s.setSled lane x).mbx = s.mbx := rfl
@[simp] theorem State.setSled_doms (s : State) (lane : Nat) (x : Sled) : (s.setSled lane x).doms = s.doms := rfl
@[simp] theorem State.setSled_i2c (s : State) (lane : Nat) (x : Sled) : (s.setSled lane x).i2c = s.i2c := rfl
@[simp] theorem State.setSled_freeCtr (s : State) (lane : Nat) (x : Sled) : (s.setSled lane x).freeCtr = s.freeCtr := rfl
@[simp] theorem State.setSled_out (s : State) (lane : Nat) (x : Sled) : (s.setSled lane x).out = s.out := rfl
@[simp] theorem State.setSled_pending (s : State) (lane : Nat) (x : Sled) : (s.setSled lane x).pending = s.pending := rfl

/-! State.setSent -/

@[simp] theorem State.setSent_fuse (s : State) (bank i : Nat) (e : SEntry) : (s.setSent bank i e).fuse = s.fuse := rfl
@[simp] theorem State.setSent_now (s : State) (bank i : Nat) (e : SEntry) : (s.setSent bank i e).now = s.now := rfl
@[simp] theorem State.setSent_headId (s : State) (bank i : Nat) (e : SEntry) : (s.setSent bank i e).headId = s.headId := rfl
@[simp] theorem State.setSent_life (s : State) (bank i : Nat) (e : SEntry) : (s.setSent bank i e).life = s.life := rfl
@[simp] theorem State.setSent_regs (s : State) (bank i : Nat) (e : SEntry) : (s.setSent bank i e).regs = s.regs := rfl
@[simp] theorem State.setSent_locked (s : State) (bank i : Nat) (e : SEntry) : (s.setSent bank i e).locked = s.locked := rfl
@[simp] theorem State.setSent_latches (s : State) (bank i : Nat) (e : SEntry) : (s.setSent bank i e).latches = s.latches := rfl
@[simp] theorem State.setSent_threads (s : State) (bank i : Nat) (e : SEntry) : (s.setSent bank i e).threads = s.threads := rfl
@[simp] theorem State.setSent_items (s : State) (bank i : Nat) (e : SEntry) : (s.setSent bank i e).items = s.items := rfl
@[simp] theorem State.setSent_queues (s : State) (bank i : Nat) (e : SEntry) : (s.setSent bank i e).queues = s.queues := rfl
@[simp] theorem State.setSent_bufs (s : State) (bank i : Nat) (e : SEntry) : (s.setSent bank i e).bufs = s.bufs := rfl
@[simp] theorem State.setSent_gens (s : State) (bank i : Nat) (e : SEntry) : (s.setSent bank i e).gens = s.gens := rfl
@[simp] theorem State.setSent_mem (s : State) (bank i : Nat) (e : SEntry) : (s.setSent bank i e).mem = s.mem := rfl
@[simp] theorem State.setSent_eccFix (s : State) (bank i : Nat) (e : SEntry) : (s.setSent bank i e).eccFix = s.eccFix := rfl
@[simp] theorem State.setSent_eccBad (s : State) (bank i : Nat) (e : SEntry) : (s.setSent bank i e).eccBad = s.eccBad := rfl
@[simp] theorem State.setSent_dcache (s : State) (bank i : Nat) (e : SEntry) : (s.setSent bank i e).dcache = s.dcache := rfl
@[simp] theorem State.setSent_rings (s : State) (bank i : Nat) (e : SEntry) : (s.setSent bank i e).rings = s.rings := rfl
@[simp] theorem State.setSent_comps (s : State) (bank i : Nat) (e : SEntry) : (s.setSent bank i e).comps = s.comps := rfl
@[simp] theorem State.setSent_arbs (s : State) (bank i : Nat) (e : SEntry) : (s.setSent bank i e).arbs = s.arbs := rfl
@[simp] theorem State.setSent_srchBusy (s : State) (bank i : Nat) (e : SEntry) : (s.setSent bank i e).srchBusy = s.srchBusy := rfl
@[simp] theorem State.setSent_prms (s : State) (bank i : Nat) (e : SEntry) : (s.setSent bank i e).prms = s.prms := rfl
@[simp] theorem State.setSent_wktBuckets (s : State) (bank i : Nat) (e : SEntry) : (s.setSent bank i e).wktBuckets = s.wktBuckets := rfl
@[simp] theorem State.setSent_braceAt (s : State) (bank i : Nat) (e : SEntry) : (s.setSent bank i e).braceAt = s.braceAt := rfl
@[simp] theorem State.setSent_tookOver (s : State) (bank i : Nat) (e : SEntry) : (s.setSent bank i e).tookOver = s.tookOver := rfl
@[simp] theorem State.setSent_rxRing (s : State) (bank i : Nat) (e : SEntry) : (s.setSent bank i e).rxRing = s.rxRing := rfl
@[simp] theorem State.setSent_fe (s : State) (bank i : Nat) (e : SEntry) : (s.setSent bank i e).fe = s.fe := rfl
@[simp] theorem State.setSent_trn (s : State) (bank i : Nat) (e : SEntry) : (s.setSent bank i e).trn = s.trn := rfl
@[simp] theorem State.setSent_slotRsv (s : State) (bank i : Nat) (e : SEntry) : (s.setSent bank i e).slotRsv = s.slotRsv := rfl
@[simp] theorem State.setSent_dg (s : State) (bank i : Nat) (e : SEntry) : (s.setSent bank i e).dg = s.dg := rfl
@[simp] theorem State.setSent_ddx (s : State) (bank i : Nat) (e : SEntry) : (s.setSent bank i e).ddx = s.ddx := rfl
@[simp] theorem State.setSent_xtsKeys (s : State) (bank i : Nat) (e : SEntry) : (s.setSent bank i e).xtsKeys = s.xtsKeys := rfl
@[simp] theorem State.setSent_sleds (s : State) (bank i : Nat) (e : SEntry) : (s.setSent bank i e).sleds = s.sleds := rfl
@[simp] theorem State.setSent_lanes (s : State) (bank i : Nat) (e : SEntry) : (s.setSent bank i e).lanes = s.lanes := rfl
@[simp] theorem State.setSent_seg (s : State) (bank i : Nat) (e : SEntry) : (s.setSent bank i e).seg = s.seg := rfl
@[simp] theorem State.setSent_map (s : State) (bank i : Nat) (e : SEntry) : (s.setSent bank i e).map = s.map := rfl
@[simp] theorem State.setSent_vlt (s : State) (bank i : Nat) (e : SEntry) : (s.setSent bank i e).vlt = s.vlt := rfl
@[simp] theorem State.setSent_evt (s : State) (bank i : Nat) (e : SEntry) : (s.setSent bank i e).evt = s.evt := rfl
@[simp] theorem State.setSent_log (s : State) (bank i : Nat) (e : SEntry) : (s.setSent bank i e).log = s.log := rfl
@[simp] theorem State.setSent_pins (s : State) (bank i : Nat) (e : SEntry) : (s.setSent bank i e).pins = s.pins := rfl
@[simp] theorem State.setSent_pwr (s : State) (bank i : Nat) (e : SEntry) : (s.setSent bank i e).pwr = s.pwr := rfl
@[simp] theorem State.setSent_pcie (s : State) (bank i : Nat) (e : SEntry) : (s.setSent bank i e).pcie = s.pcie := rfl
@[simp] theorem State.setSent_mbx (s : State) (bank i : Nat) (e : SEntry) : (s.setSent bank i e).mbx = s.mbx := rfl
@[simp] theorem State.setSent_doms (s : State) (bank i : Nat) (e : SEntry) : (s.setSent bank i e).doms = s.doms := rfl
@[simp] theorem State.setSent_i2c (s : State) (bank i : Nat) (e : SEntry) : (s.setSent bank i e).i2c = s.i2c := rfl
@[simp] theorem State.setSent_freeCtr (s : State) (bank i : Nat) (e : SEntry) : (s.setSent bank i e).freeCtr = s.freeCtr := rfl
@[simp] theorem State.setSent_out (s : State) (bank i : Nat) (e : SEntry) : (s.setSent bank i e).out = s.out := rfl
@[simp] theorem State.setSent_pending (s : State) (bank i : Nat) (e : SEntry) : (s.setSent bank i e).pending = s.pending := rfl

/-! State.setConn -/

@[simp] theorem State.setConn_fuse (s : State) (c : Nat) (x : Conn) : (s.setConn c x).fuse = s.fuse := rfl
@[simp] theorem State.setConn_now (s : State) (c : Nat) (x : Conn) : (s.setConn c x).now = s.now := rfl
@[simp] theorem State.setConn_headId (s : State) (c : Nat) (x : Conn) : (s.setConn c x).headId = s.headId := rfl
@[simp] theorem State.setConn_life (s : State) (c : Nat) (x : Conn) : (s.setConn c x).life = s.life := rfl
@[simp] theorem State.setConn_regs (s : State) (c : Nat) (x : Conn) : (s.setConn c x).regs = s.regs := rfl
@[simp] theorem State.setConn_locked (s : State) (c : Nat) (x : Conn) : (s.setConn c x).locked = s.locked := rfl
@[simp] theorem State.setConn_latches (s : State) (c : Nat) (x : Conn) : (s.setConn c x).latches = s.latches := rfl
@[simp] theorem State.setConn_threads (s : State) (c : Nat) (x : Conn) : (s.setConn c x).threads = s.threads := rfl
@[simp] theorem State.setConn_items (s : State) (c : Nat) (x : Conn) : (s.setConn c x).items = s.items := rfl
@[simp] theorem State.setConn_queues (s : State) (c : Nat) (x : Conn) : (s.setConn c x).queues = s.queues := rfl
@[simp] theorem State.setConn_bufs (s : State) (c : Nat) (x : Conn) : (s.setConn c x).bufs = s.bufs := rfl
@[simp] theorem State.setConn_gens (s : State) (c : Nat) (x : Conn) : (s.setConn c x).gens = s.gens := rfl
@[simp] theorem State.setConn_mem (s : State) (c : Nat) (x : Conn) : (s.setConn c x).mem = s.mem := rfl
@[simp] theorem State.setConn_eccFix (s : State) (c : Nat) (x : Conn) : (s.setConn c x).eccFix = s.eccFix := rfl
@[simp] theorem State.setConn_eccBad (s : State) (c : Nat) (x : Conn) : (s.setConn c x).eccBad = s.eccBad := rfl
@[simp] theorem State.setConn_dcache (s : State) (c : Nat) (x : Conn) : (s.setConn c x).dcache = s.dcache := rfl
@[simp] theorem State.setConn_rings (s : State) (c : Nat) (x : Conn) : (s.setConn c x).rings = s.rings := rfl
@[simp] theorem State.setConn_comps (s : State) (c : Nat) (x : Conn) : (s.setConn c x).comps = s.comps := rfl
@[simp] theorem State.setConn_arbs (s : State) (c : Nat) (x : Conn) : (s.setConn c x).arbs = s.arbs := rfl
@[simp] theorem State.setConn_srch (s : State) (c : Nat) (x : Conn) : (s.setConn c x).srch = s.srch := rfl
@[simp] theorem State.setConn_srchBusy (s : State) (c : Nat) (x : Conn) : (s.setConn c x).srchBusy = s.srchBusy := rfl
@[simp] theorem State.setConn_prms (s : State) (c : Nat) (x : Conn) : (s.setConn c x).prms = s.prms := rfl
@[simp] theorem State.setConn_wktBuckets (s : State) (c : Nat) (x : Conn) : (s.setConn c x).wktBuckets = s.wktBuckets := rfl
@[simp] theorem State.setConn_braceAt (s : State) (c : Nat) (x : Conn) : (s.setConn c x).braceAt = s.braceAt := rfl
@[simp] theorem State.setConn_tookOver (s : State) (c : Nat) (x : Conn) : (s.setConn c x).tookOver = s.tookOver := rfl
@[simp] theorem State.setConn_rxRing (s : State) (c : Nat) (x : Conn) : (s.setConn c x).rxRing = s.rxRing := rfl
@[simp] theorem State.setConn_trn (s : State) (c : Nat) (x : Conn) : (s.setConn c x).trn = s.trn := rfl
@[simp] theorem State.setConn_slotRsv (s : State) (c : Nat) (x : Conn) : (s.setConn c x).slotRsv = s.slotRsv := rfl
@[simp] theorem State.setConn_dg (s : State) (c : Nat) (x : Conn) : (s.setConn c x).dg = s.dg := rfl
@[simp] theorem State.setConn_ddx (s : State) (c : Nat) (x : Conn) : (s.setConn c x).ddx = s.ddx := rfl
@[simp] theorem State.setConn_xtsKeys (s : State) (c : Nat) (x : Conn) : (s.setConn c x).xtsKeys = s.xtsKeys := rfl
@[simp] theorem State.setConn_sleds (s : State) (c : Nat) (x : Conn) : (s.setConn c x).sleds = s.sleds := rfl
@[simp] theorem State.setConn_lanes (s : State) (c : Nat) (x : Conn) : (s.setConn c x).lanes = s.lanes := rfl
@[simp] theorem State.setConn_seg (s : State) (c : Nat) (x : Conn) : (s.setConn c x).seg = s.seg := rfl
@[simp] theorem State.setConn_map (s : State) (c : Nat) (x : Conn) : (s.setConn c x).map = s.map := rfl
@[simp] theorem State.setConn_vlt (s : State) (c : Nat) (x : Conn) : (s.setConn c x).vlt = s.vlt := rfl
@[simp] theorem State.setConn_evt (s : State) (c : Nat) (x : Conn) : (s.setConn c x).evt = s.evt := rfl
@[simp] theorem State.setConn_log (s : State) (c : Nat) (x : Conn) : (s.setConn c x).log = s.log := rfl
@[simp] theorem State.setConn_pins (s : State) (c : Nat) (x : Conn) : (s.setConn c x).pins = s.pins := rfl
@[simp] theorem State.setConn_pwr (s : State) (c : Nat) (x : Conn) : (s.setConn c x).pwr = s.pwr := rfl
@[simp] theorem State.setConn_pcie (s : State) (c : Nat) (x : Conn) : (s.setConn c x).pcie = s.pcie := rfl
@[simp] theorem State.setConn_mbx (s : State) (c : Nat) (x : Conn) : (s.setConn c x).mbx = s.mbx := rfl
@[simp] theorem State.setConn_doms (s : State) (c : Nat) (x : Conn) : (s.setConn c x).doms = s.doms := rfl
@[simp] theorem State.setConn_i2c (s : State) (c : Nat) (x : Conn) : (s.setConn c x).i2c = s.i2c := rfl
@[simp] theorem State.setConn_freeCtr (s : State) (c : Nat) (x : Conn) : (s.setConn c x).freeCtr = s.freeCtr := rfl
@[simp] theorem State.setConn_out (s : State) (c : Nat) (x : Conn) : (s.setConn c x).out = s.out := rfl
@[simp] theorem State.setConn_pending (s : State) (c : Nat) (x : Conn) : (s.setConn c x).pending = s.pending := rfl

/-! State.updConn -/

@[simp] theorem State.updConn_fuse (s : State) (c : Nat) (f : Conn → Conn) : (s.updConn c f).fuse = s.fuse := rfl
@[simp] theorem State.updConn_now (s : State) (c : Nat) (f : Conn → Conn) : (s.updConn c f).now = s.now := rfl
@[simp] theorem State.updConn_headId (s : State) (c : Nat) (f : Conn → Conn) : (s.updConn c f).headId = s.headId := rfl
@[simp] theorem State.updConn_life (s : State) (c : Nat) (f : Conn → Conn) : (s.updConn c f).life = s.life := rfl
@[simp] theorem State.updConn_regs (s : State) (c : Nat) (f : Conn → Conn) : (s.updConn c f).regs = s.regs := rfl
@[simp] theorem State.updConn_locked (s : State) (c : Nat) (f : Conn → Conn) : (s.updConn c f).locked = s.locked := rfl
@[simp] theorem State.updConn_latches (s : State) (c : Nat) (f : Conn → Conn) : (s.updConn c f).latches = s.latches := rfl
@[simp] theorem State.updConn_threads (s : State) (c : Nat) (f : Conn → Conn) : (s.updConn c f).threads = s.threads := rfl
@[simp] theorem State.updConn_items (s : State) (c : Nat) (f : Conn → Conn) : (s.updConn c f).items = s.items := rfl
@[simp] theorem State.updConn_queues (s : State) (c : Nat) (f : Conn → Conn) : (s.updConn c f).queues = s.queues := rfl
@[simp] theorem State.updConn_bufs (s : State) (c : Nat) (f : Conn → Conn) : (s.updConn c f).bufs = s.bufs := rfl
@[simp] theorem State.updConn_gens (s : State) (c : Nat) (f : Conn → Conn) : (s.updConn c f).gens = s.gens := rfl
@[simp] theorem State.updConn_mem (s : State) (c : Nat) (f : Conn → Conn) : (s.updConn c f).mem = s.mem := rfl
@[simp] theorem State.updConn_eccFix (s : State) (c : Nat) (f : Conn → Conn) : (s.updConn c f).eccFix = s.eccFix := rfl
@[simp] theorem State.updConn_eccBad (s : State) (c : Nat) (f : Conn → Conn) : (s.updConn c f).eccBad = s.eccBad := rfl
@[simp] theorem State.updConn_dcache (s : State) (c : Nat) (f : Conn → Conn) : (s.updConn c f).dcache = s.dcache := rfl
@[simp] theorem State.updConn_rings (s : State) (c : Nat) (f : Conn → Conn) : (s.updConn c f).rings = s.rings := rfl
@[simp] theorem State.updConn_comps (s : State) (c : Nat) (f : Conn → Conn) : (s.updConn c f).comps = s.comps := rfl
@[simp] theorem State.updConn_arbs (s : State) (c : Nat) (f : Conn → Conn) : (s.updConn c f).arbs = s.arbs := rfl
@[simp] theorem State.updConn_srch (s : State) (c : Nat) (f : Conn → Conn) : (s.updConn c f).srch = s.srch := rfl
@[simp] theorem State.updConn_srchBusy (s : State) (c : Nat) (f : Conn → Conn) : (s.updConn c f).srchBusy = s.srchBusy := rfl
@[simp] theorem State.updConn_prms (s : State) (c : Nat) (f : Conn → Conn) : (s.updConn c f).prms = s.prms := rfl
@[simp] theorem State.updConn_wktBuckets (s : State) (c : Nat) (f : Conn → Conn) : (s.updConn c f).wktBuckets = s.wktBuckets := rfl
@[simp] theorem State.updConn_braceAt (s : State) (c : Nat) (f : Conn → Conn) : (s.updConn c f).braceAt = s.braceAt := rfl
@[simp] theorem State.updConn_tookOver (s : State) (c : Nat) (f : Conn → Conn) : (s.updConn c f).tookOver = s.tookOver := rfl
@[simp] theorem State.updConn_rxRing (s : State) (c : Nat) (f : Conn → Conn) : (s.updConn c f).rxRing = s.rxRing := rfl
@[simp] theorem State.updConn_trn (s : State) (c : Nat) (f : Conn → Conn) : (s.updConn c f).trn = s.trn := rfl
@[simp] theorem State.updConn_slotRsv (s : State) (c : Nat) (f : Conn → Conn) : (s.updConn c f).slotRsv = s.slotRsv := rfl
@[simp] theorem State.updConn_dg (s : State) (c : Nat) (f : Conn → Conn) : (s.updConn c f).dg = s.dg := rfl
@[simp] theorem State.updConn_ddx (s : State) (c : Nat) (f : Conn → Conn) : (s.updConn c f).ddx = s.ddx := rfl
@[simp] theorem State.updConn_xtsKeys (s : State) (c : Nat) (f : Conn → Conn) : (s.updConn c f).xtsKeys = s.xtsKeys := rfl
@[simp] theorem State.updConn_sleds (s : State) (c : Nat) (f : Conn → Conn) : (s.updConn c f).sleds = s.sleds := rfl
@[simp] theorem State.updConn_lanes (s : State) (c : Nat) (f : Conn → Conn) : (s.updConn c f).lanes = s.lanes := rfl
@[simp] theorem State.updConn_seg (s : State) (c : Nat) (f : Conn → Conn) : (s.updConn c f).seg = s.seg := rfl
@[simp] theorem State.updConn_map (s : State) (c : Nat) (f : Conn → Conn) : (s.updConn c f).map = s.map := rfl
@[simp] theorem State.updConn_vlt (s : State) (c : Nat) (f : Conn → Conn) : (s.updConn c f).vlt = s.vlt := rfl
@[simp] theorem State.updConn_evt (s : State) (c : Nat) (f : Conn → Conn) : (s.updConn c f).evt = s.evt := rfl
@[simp] theorem State.updConn_log (s : State) (c : Nat) (f : Conn → Conn) : (s.updConn c f).log = s.log := rfl
@[simp] theorem State.updConn_pins (s : State) (c : Nat) (f : Conn → Conn) : (s.updConn c f).pins = s.pins := rfl
@[simp] theorem State.updConn_pwr (s : State) (c : Nat) (f : Conn → Conn) : (s.updConn c f).pwr = s.pwr := rfl
@[simp] theorem State.updConn_pcie (s : State) (c : Nat) (f : Conn → Conn) : (s.updConn c f).pcie = s.pcie := rfl
@[simp] theorem State.updConn_mbx (s : State) (c : Nat) (f : Conn → Conn) : (s.updConn c f).mbx = s.mbx := rfl
@[simp] theorem State.updConn_doms (s : State) (c : Nat) (f : Conn → Conn) : (s.updConn c f).doms = s.doms := rfl
@[simp] theorem State.updConn_i2c (s : State) (c : Nat) (f : Conn → Conn) : (s.updConn c f).i2c = s.i2c := rfl
@[simp] theorem State.updConn_freeCtr (s : State) (c : Nat) (f : Conn → Conn) : (s.updConn c f).freeCtr = s.freeCtr := rfl
@[simp] theorem State.updConn_out (s : State) (c : Nat) (f : Conn → Conn) : (s.updConn c f).out = s.out := rfl
@[simp] theorem State.updConn_pending (s : State) (c : Nat) (f : Conn → Conn) : (s.updConn c f).pending = s.pending := rfl

/-! State.setQp -/

@[simp] theorem State.setQp_fuse (s : State) (q : Nat) (x : Qp) : (s.setQp q x).fuse = s.fuse := rfl
@[simp] theorem State.setQp_now (s : State) (q : Nat) (x : Qp) : (s.setQp q x).now = s.now := rfl
@[simp] theorem State.setQp_headId (s : State) (q : Nat) (x : Qp) : (s.setQp q x).headId = s.headId := rfl
@[simp] theorem State.setQp_life (s : State) (q : Nat) (x : Qp) : (s.setQp q x).life = s.life := rfl
@[simp] theorem State.setQp_regs (s : State) (q : Nat) (x : Qp) : (s.setQp q x).regs = s.regs := rfl
@[simp] theorem State.setQp_locked (s : State) (q : Nat) (x : Qp) : (s.setQp q x).locked = s.locked := rfl
@[simp] theorem State.setQp_latches (s : State) (q : Nat) (x : Qp) : (s.setQp q x).latches = s.latches := rfl
@[simp] theorem State.setQp_threads (s : State) (q : Nat) (x : Qp) : (s.setQp q x).threads = s.threads := rfl
@[simp] theorem State.setQp_items (s : State) (q : Nat) (x : Qp) : (s.setQp q x).items = s.items := rfl
@[simp] theorem State.setQp_queues (s : State) (q : Nat) (x : Qp) : (s.setQp q x).queues = s.queues := rfl
@[simp] theorem State.setQp_bufs (s : State) (q : Nat) (x : Qp) : (s.setQp q x).bufs = s.bufs := rfl
@[simp] theorem State.setQp_gens (s : State) (q : Nat) (x : Qp) : (s.setQp q x).gens = s.gens := rfl
@[simp] theorem State.setQp_mem (s : State) (q : Nat) (x : Qp) : (s.setQp q x).mem = s.mem := rfl
@[simp] theorem State.setQp_eccFix (s : State) (q : Nat) (x : Qp) : (s.setQp q x).eccFix = s.eccFix := rfl
@[simp] theorem State.setQp_eccBad (s : State) (q : Nat) (x : Qp) : (s.setQp q x).eccBad = s.eccBad := rfl
@[simp] theorem State.setQp_dcache (s : State) (q : Nat) (x : Qp) : (s.setQp q x).dcache = s.dcache := rfl
@[simp] theorem State.setQp_rings (s : State) (q : Nat) (x : Qp) : (s.setQp q x).rings = s.rings := rfl
@[simp] theorem State.setQp_comps (s : State) (q : Nat) (x : Qp) : (s.setQp q x).comps = s.comps := rfl
@[simp] theorem State.setQp_arbs (s : State) (q : Nat) (x : Qp) : (s.setQp q x).arbs = s.arbs := rfl
@[simp] theorem State.setQp_srch (s : State) (q : Nat) (x : Qp) : (s.setQp q x).srch = s.srch := rfl
@[simp] theorem State.setQp_srchBusy (s : State) (q : Nat) (x : Qp) : (s.setQp q x).srchBusy = s.srchBusy := rfl
@[simp] theorem State.setQp_prms (s : State) (q : Nat) (x : Qp) : (s.setQp q x).prms = s.prms := rfl
@[simp] theorem State.setQp_wktBuckets (s : State) (q : Nat) (x : Qp) : (s.setQp q x).wktBuckets = s.wktBuckets := rfl
@[simp] theorem State.setQp_braceAt (s : State) (q : Nat) (x : Qp) : (s.setQp q x).braceAt = s.braceAt := rfl
@[simp] theorem State.setQp_tookOver (s : State) (q : Nat) (x : Qp) : (s.setQp q x).tookOver = s.tookOver := rfl
@[simp] theorem State.setQp_rxRing (s : State) (q : Nat) (x : Qp) : (s.setQp q x).rxRing = s.rxRing := rfl
@[simp] theorem State.setQp_fe (s : State) (q : Nat) (x : Qp) : (s.setQp q x).fe = s.fe := rfl
@[simp] theorem State.setQp_slotRsv (s : State) (q : Nat) (x : Qp) : (s.setQp q x).slotRsv = s.slotRsv := rfl
@[simp] theorem State.setQp_dg (s : State) (q : Nat) (x : Qp) : (s.setQp q x).dg = s.dg := rfl
@[simp] theorem State.setQp_ddx (s : State) (q : Nat) (x : Qp) : (s.setQp q x).ddx = s.ddx := rfl
@[simp] theorem State.setQp_xtsKeys (s : State) (q : Nat) (x : Qp) : (s.setQp q x).xtsKeys = s.xtsKeys := rfl
@[simp] theorem State.setQp_sleds (s : State) (q : Nat) (x : Qp) : (s.setQp q x).sleds = s.sleds := rfl
@[simp] theorem State.setQp_lanes (s : State) (q : Nat) (x : Qp) : (s.setQp q x).lanes = s.lanes := rfl
@[simp] theorem State.setQp_seg (s : State) (q : Nat) (x : Qp) : (s.setQp q x).seg = s.seg := rfl
@[simp] theorem State.setQp_map (s : State) (q : Nat) (x : Qp) : (s.setQp q x).map = s.map := rfl
@[simp] theorem State.setQp_vlt (s : State) (q : Nat) (x : Qp) : (s.setQp q x).vlt = s.vlt := rfl
@[simp] theorem State.setQp_evt (s : State) (q : Nat) (x : Qp) : (s.setQp q x).evt = s.evt := rfl
@[simp] theorem State.setQp_log (s : State) (q : Nat) (x : Qp) : (s.setQp q x).log = s.log := rfl
@[simp] theorem State.setQp_pins (s : State) (q : Nat) (x : Qp) : (s.setQp q x).pins = s.pins := rfl
@[simp] theorem State.setQp_pwr (s : State) (q : Nat) (x : Qp) : (s.setQp q x).pwr = s.pwr := rfl
@[simp] theorem State.setQp_pcie (s : State) (q : Nat) (x : Qp) : (s.setQp q x).pcie = s.pcie := rfl
@[simp] theorem State.setQp_mbx (s : State) (q : Nat) (x : Qp) : (s.setQp q x).mbx = s.mbx := rfl
@[simp] theorem State.setQp_doms (s : State) (q : Nat) (x : Qp) : (s.setQp q x).doms = s.doms := rfl
@[simp] theorem State.setQp_i2c (s : State) (q : Nat) (x : Qp) : (s.setQp q x).i2c = s.i2c := rfl
@[simp] theorem State.setQp_freeCtr (s : State) (q : Nat) (x : Qp) : (s.setQp q x).freeCtr = s.freeCtr := rfl
@[simp] theorem State.setQp_out (s : State) (q : Nat) (x : Qp) : (s.setQp q x).out = s.out := rfl
@[simp] theorem State.setQp_pending (s : State) (q : Nat) (x : Qp) : (s.setQp q x).pending = s.pending := rfl

/-! State.liveKick -/

@[simp] theorem State.liveKick_fuse (s : State) : (s.liveKick).fuse = s.fuse := rfl
@[simp] theorem State.liveKick_now (s : State) : (s.liveKick).now = s.now := rfl
@[simp] theorem State.liveKick_headId (s : State) : (s.liveKick).headId = s.headId := rfl
@[simp] theorem State.liveKick_life (s : State) : (s.liveKick).life = s.life := rfl
@[simp] theorem State.liveKick_regs (s : State) : (s.liveKick).regs = s.regs := rfl
@[simp] theorem State.liveKick_locked (s : State) : (s.liveKick).locked = s.locked := rfl
@[simp] theorem State.liveKick_latches (s : State) : (s.liveKick).latches = s.latches := rfl
@[simp] theorem State.liveKick_threads (s : State) : (s.liveKick).threads = s.threads := rfl
@[simp] theorem State.liveKick_items (s : State) : (s.liveKick).items = s.items := rfl
@[simp] theorem State.liveKick_queues (s : State) : (s.liveKick).queues = s.queues := rfl
@[simp] theorem State.liveKick_bufs (s : State) : (s.liveKick).bufs = s.bufs := rfl
@[simp] theorem State.liveKick_gens (s : State) : (s.liveKick).gens = s.gens := rfl
@[simp] theorem State.liveKick_mem (s : State) : (s.liveKick).mem = s.mem := rfl
@[simp] theorem State.liveKick_eccFix (s : State) : (s.liveKick).eccFix = s.eccFix := rfl
@[simp] theorem State.liveKick_eccBad (s : State) : (s.liveKick).eccBad = s.eccBad := rfl
@[simp] theorem State.liveKick_dcache (s : State) : (s.liveKick).dcache = s.dcache := rfl
@[simp] theorem State.liveKick_rings (s : State) : (s.liveKick).rings = s.rings := rfl
@[simp] theorem State.liveKick_comps (s : State) : (s.liveKick).comps = s.comps := rfl
@[simp] theorem State.liveKick_arbs (s : State) : (s.liveKick).arbs = s.arbs := rfl
@[simp] theorem State.liveKick_srch (s : State) : (s.liveKick).srch = s.srch := rfl
@[simp] theorem State.liveKick_srchBusy (s : State) : (s.liveKick).srchBusy = s.srchBusy := rfl
@[simp] theorem State.liveKick_prms (s : State) : (s.liveKick).prms = s.prms := rfl
@[simp] theorem State.liveKick_wktBuckets (s : State) : (s.liveKick).wktBuckets = s.wktBuckets := rfl
@[simp] theorem State.liveKick_braceAt (s : State) : (s.liveKick).braceAt = s.braceAt := rfl
@[simp] theorem State.liveKick_tookOver (s : State) : (s.liveKick).tookOver = s.tookOver := rfl
@[simp] theorem State.liveKick_rxRing (s : State) : (s.liveKick).rxRing = s.rxRing := rfl
@[simp] theorem State.liveKick_fe (s : State) : (s.liveKick).fe = s.fe := rfl
@[simp] theorem State.liveKick_slotRsv (s : State) : (s.liveKick).slotRsv = s.slotRsv := rfl
@[simp] theorem State.liveKick_dg (s : State) : (s.liveKick).dg = s.dg := rfl
@[simp] theorem State.liveKick_ddx (s : State) : (s.liveKick).ddx = s.ddx := rfl
@[simp] theorem State.liveKick_xtsKeys (s : State) : (s.liveKick).xtsKeys = s.xtsKeys := rfl
@[simp] theorem State.liveKick_sleds (s : State) : (s.liveKick).sleds = s.sleds := rfl
@[simp] theorem State.liveKick_lanes (s : State) : (s.liveKick).lanes = s.lanes := rfl
@[simp] theorem State.liveKick_seg (s : State) : (s.liveKick).seg = s.seg := rfl
@[simp] theorem State.liveKick_map (s : State) : (s.liveKick).map = s.map := rfl
@[simp] theorem State.liveKick_vlt (s : State) : (s.liveKick).vlt = s.vlt := rfl
@[simp] theorem State.liveKick_evt (s : State) : (s.liveKick).evt = s.evt := rfl
@[simp] theorem State.liveKick_log (s : State) : (s.liveKick).log = s.log := rfl
@[simp] theorem State.liveKick_pins (s : State) : (s.liveKick).pins = s.pins := rfl
@[simp] theorem State.liveKick_pwr (s : State) : (s.liveKick).pwr = s.pwr := rfl
@[simp] theorem State.liveKick_pcie (s : State) : (s.liveKick).pcie = s.pcie := rfl
@[simp] theorem State.liveKick_mbx (s : State) : (s.liveKick).mbx = s.mbx := rfl
@[simp] theorem State.liveKick_doms (s : State) : (s.liveKick).doms = s.doms := rfl
@[simp] theorem State.liveKick_i2c (s : State) : (s.liveKick).i2c = s.i2c := rfl
@[simp] theorem State.liveKick_freeCtr (s : State) : (s.liveKick).freeCtr = s.freeCtr := rfl
@[simp] theorem State.liveKick_out (s : State) : (s.liveKick).out = s.out := rfl
@[simp] theorem State.liveKick_pending (s : State) : (s.liveKick).pending = s.pending := rfl

/-! State.keySet -/

@[simp] theorem State.keySet_fuse (s : State) (slot attr : Nat) (key : List Byte) : (s.keySet slot attr key).fuse = s.fuse := rfl
@[simp] theorem State.keySet_now (s : State) (slot attr : Nat) (key : List Byte) : (s.keySet slot attr key).now = s.now := rfl
@[simp] theorem State.keySet_headId (s : State) (slot attr : Nat) (key : List Byte) : (s.keySet slot attr key).headId = s.headId := rfl
@[simp] theorem State.keySet_life (s : State) (slot attr : Nat) (key : List Byte) : (s.keySet slot attr key).life = s.life := rfl
@[simp] theorem State.keySet_regs (s : State) (slot attr : Nat) (key : List Byte) : (s.keySet slot attr key).regs = s.regs := rfl
@[simp] theorem State.keySet_locked (s : State) (slot attr : Nat) (key : List Byte) : (s.keySet slot attr key).locked = s.locked := rfl
@[simp] theorem State.keySet_latches (s : State) (slot attr : Nat) (key : List Byte) : (s.keySet slot attr key).latches = s.latches := rfl
@[simp] theorem State.keySet_threads (s : State) (slot attr : Nat) (key : List Byte) : (s.keySet slot attr key).threads = s.threads := rfl
@[simp] theorem State.keySet_items (s : State) (slot attr : Nat) (key : List Byte) : (s.keySet slot attr key).items = s.items := rfl
@[simp] theorem State.keySet_queues (s : State) (slot attr : Nat) (key : List Byte) : (s.keySet slot attr key).queues = s.queues := rfl
@[simp] theorem State.keySet_bufs (s : State) (slot attr : Nat) (key : List Byte) : (s.keySet slot attr key).bufs = s.bufs := rfl
@[simp] theorem State.keySet_gens (s : State) (slot attr : Nat) (key : List Byte) : (s.keySet slot attr key).gens = s.gens := rfl
@[simp] theorem State.keySet_mem (s : State) (slot attr : Nat) (key : List Byte) : (s.keySet slot attr key).mem = s.mem := rfl
@[simp] theorem State.keySet_eccFix (s : State) (slot attr : Nat) (key : List Byte) : (s.keySet slot attr key).eccFix = s.eccFix := rfl
@[simp] theorem State.keySet_eccBad (s : State) (slot attr : Nat) (key : List Byte) : (s.keySet slot attr key).eccBad = s.eccBad := rfl
@[simp] theorem State.keySet_dcache (s : State) (slot attr : Nat) (key : List Byte) : (s.keySet slot attr key).dcache = s.dcache := rfl
@[simp] theorem State.keySet_rings (s : State) (slot attr : Nat) (key : List Byte) : (s.keySet slot attr key).rings = s.rings := rfl
@[simp] theorem State.keySet_comps (s : State) (slot attr : Nat) (key : List Byte) : (s.keySet slot attr key).comps = s.comps := rfl
@[simp] theorem State.keySet_arbs (s : State) (slot attr : Nat) (key : List Byte) : (s.keySet slot attr key).arbs = s.arbs := rfl
@[simp] theorem State.keySet_srch (s : State) (slot attr : Nat) (key : List Byte) : (s.keySet slot attr key).srch = s.srch := rfl
@[simp] theorem State.keySet_srchBusy (s : State) (slot attr : Nat) (key : List Byte) : (s.keySet slot attr key).srchBusy = s.srchBusy := rfl
@[simp] theorem State.keySet_prms (s : State) (slot attr : Nat) (key : List Byte) : (s.keySet slot attr key).prms = s.prms := rfl
@[simp] theorem State.keySet_wktBuckets (s : State) (slot attr : Nat) (key : List Byte) : (s.keySet slot attr key).wktBuckets = s.wktBuckets := rfl
@[simp] theorem State.keySet_braceAt (s : State) (slot attr : Nat) (key : List Byte) : (s.keySet slot attr key).braceAt = s.braceAt := rfl
@[simp] theorem State.keySet_tookOver (s : State) (slot attr : Nat) (key : List Byte) : (s.keySet slot attr key).tookOver = s.tookOver := rfl
@[simp] theorem State.keySet_rxRing (s : State) (slot attr : Nat) (key : List Byte) : (s.keySet slot attr key).rxRing = s.rxRing := rfl
@[simp] theorem State.keySet_fe (s : State) (slot attr : Nat) (key : List Byte) : (s.keySet slot attr key).fe = s.fe := rfl
@[simp] theorem State.keySet_trn (s : State) (slot attr : Nat) (key : List Byte) : (s.keySet slot attr key).trn = s.trn := rfl
@[simp] theorem State.keySet_slotRsv (s : State) (slot attr : Nat) (key : List Byte) : (s.keySet slot attr key).slotRsv = s.slotRsv := rfl
@[simp] theorem State.keySet_dg (s : State) (slot attr : Nat) (key : List Byte) : (s.keySet slot attr key).dg = s.dg := rfl
@[simp] theorem State.keySet_ddx (s : State) (slot attr : Nat) (key : List Byte) : (s.keySet slot attr key).ddx = s.ddx := rfl
@[simp] theorem State.keySet_xtsKeys (s : State) (slot attr : Nat) (key : List Byte) : (s.keySet slot attr key).xtsKeys = s.xtsKeys := rfl
@[simp] theorem State.keySet_sleds (s : State) (slot attr : Nat) (key : List Byte) : (s.keySet slot attr key).sleds = s.sleds := rfl
@[simp] theorem State.keySet_lanes (s : State) (slot attr : Nat) (key : List Byte) : (s.keySet slot attr key).lanes = s.lanes := rfl
@[simp] theorem State.keySet_seg (s : State) (slot attr : Nat) (key : List Byte) : (s.keySet slot attr key).seg = s.seg := rfl
@[simp] theorem State.keySet_map (s : State) (slot attr : Nat) (key : List Byte) : (s.keySet slot attr key).map = s.map := rfl
@[simp] theorem State.keySet_evt (s : State) (slot attr : Nat) (key : List Byte) : (s.keySet slot attr key).evt = s.evt := rfl
@[simp] theorem State.keySet_log (s : State) (slot attr : Nat) (key : List Byte) : (s.keySet slot attr key).log = s.log := rfl
@[simp] theorem State.keySet_pins (s : State) (slot attr : Nat) (key : List Byte) : (s.keySet slot attr key).pins = s.pins := rfl
@[simp] theorem State.keySet_pwr (s : State) (slot attr : Nat) (key : List Byte) : (s.keySet slot attr key).pwr = s.pwr := rfl
@[simp] theorem State.keySet_pcie (s : State) (slot attr : Nat) (key : List Byte) : (s.keySet slot attr key).pcie = s.pcie := rfl
@[simp] theorem State.keySet_mbx (s : State) (slot attr : Nat) (key : List Byte) : (s.keySet slot attr key).mbx = s.mbx := rfl
@[simp] theorem State.keySet_doms (s : State) (slot attr : Nat) (key : List Byte) : (s.keySet slot attr key).doms = s.doms := rfl
@[simp] theorem State.keySet_i2c (s : State) (slot attr : Nat) (key : List Byte) : (s.keySet slot attr key).i2c = s.i2c := rfl
@[simp] theorem State.keySet_freeCtr (s : State) (slot attr : Nat) (key : List Byte) : (s.keySet slot attr key).freeCtr = s.freeCtr := rfl
@[simp] theorem State.keySet_out (s : State) (slot attr : Nat) (key : List Byte) : (s.keySet slot attr key).out = s.out := rfl
@[simp] theorem State.keySet_pending (s : State) (slot attr : Nat) (key : List Byte) : (s.keySet slot attr key).pending = s.pending := rfl

/-! State.keyDel -/

@[simp] theorem State.keyDel_fuse (s : State) (slot : Nat) : (s.keyDel slot).fuse = s.fuse := rfl
@[simp] theorem State.keyDel_now (s : State) (slot : Nat) : (s.keyDel slot).now = s.now := rfl
@[simp] theorem State.keyDel_headId (s : State) (slot : Nat) : (s.keyDel slot).headId = s.headId := rfl
@[simp] theorem State.keyDel_life (s : State) (slot : Nat) : (s.keyDel slot).life = s.life := rfl
@[simp] theorem State.keyDel_regs (s : State) (slot : Nat) : (s.keyDel slot).regs = s.regs := rfl
@[simp] theorem State.keyDel_locked (s : State) (slot : Nat) : (s.keyDel slot).locked = s.locked := rfl
@[simp] theorem State.keyDel_latches (s : State) (slot : Nat) : (s.keyDel slot).latches = s.latches := rfl
@[simp] theorem State.keyDel_threads (s : State) (slot : Nat) : (s.keyDel slot).threads = s.threads := rfl
@[simp] theorem State.keyDel_items (s : State) (slot : Nat) : (s.keyDel slot).items = s.items := rfl
@[simp] theorem State.keyDel_queues (s : State) (slot : Nat) : (s.keyDel slot).queues = s.queues := rfl
@[simp] theorem State.keyDel_bufs (s : State) (slot : Nat) : (s.keyDel slot).bufs = s.bufs := rfl
@[simp] theorem State.keyDel_gens (s : State) (slot : Nat) : (s.keyDel slot).gens = s.gens := rfl
@[simp] theorem State.keyDel_mem (s : State) (slot : Nat) : (s.keyDel slot).mem = s.mem := rfl
@[simp] theorem State.keyDel_eccFix (s : State) (slot : Nat) : (s.keyDel slot).eccFix = s.eccFix := rfl
@[simp] theorem State.keyDel_eccBad (s : State) (slot : Nat) : (s.keyDel slot).eccBad = s.eccBad := rfl
@[simp] theorem State.keyDel_dcache (s : State) (slot : Nat) : (s.keyDel slot).dcache = s.dcache := rfl
@[simp] theorem State.keyDel_rings (s : State) (slot : Nat) : (s.keyDel slot).rings = s.rings := rfl
@[simp] theorem State.keyDel_comps (s : State) (slot : Nat) : (s.keyDel slot).comps = s.comps := rfl
@[simp] theorem State.keyDel_arbs (s : State) (slot : Nat) : (s.keyDel slot).arbs = s.arbs := rfl
@[simp] theorem State.keyDel_srch (s : State) (slot : Nat) : (s.keyDel slot).srch = s.srch := rfl
@[simp] theorem State.keyDel_srchBusy (s : State) (slot : Nat) : (s.keyDel slot).srchBusy = s.srchBusy := rfl
@[simp] theorem State.keyDel_prms (s : State) (slot : Nat) : (s.keyDel slot).prms = s.prms := rfl
@[simp] theorem State.keyDel_wktBuckets (s : State) (slot : Nat) : (s.keyDel slot).wktBuckets = s.wktBuckets := rfl
@[simp] theorem State.keyDel_braceAt (s : State) (slot : Nat) : (s.keyDel slot).braceAt = s.braceAt := rfl
@[simp] theorem State.keyDel_tookOver (s : State) (slot : Nat) : (s.keyDel slot).tookOver = s.tookOver := rfl
@[simp] theorem State.keyDel_rxRing (s : State) (slot : Nat) : (s.keyDel slot).rxRing = s.rxRing := rfl
@[simp] theorem State.keyDel_fe (s : State) (slot : Nat) : (s.keyDel slot).fe = s.fe := rfl
@[simp] theorem State.keyDel_trn (s : State) (slot : Nat) : (s.keyDel slot).trn = s.trn := rfl
@[simp] theorem State.keyDel_slotRsv (s : State) (slot : Nat) : (s.keyDel slot).slotRsv = s.slotRsv := rfl
@[simp] theorem State.keyDel_dg (s : State) (slot : Nat) : (s.keyDel slot).dg = s.dg := rfl
@[simp] theorem State.keyDel_ddx (s : State) (slot : Nat) : (s.keyDel slot).ddx = s.ddx := rfl
@[simp] theorem State.keyDel_xtsKeys (s : State) (slot : Nat) : (s.keyDel slot).xtsKeys = s.xtsKeys := rfl
@[simp] theorem State.keyDel_sleds (s : State) (slot : Nat) : (s.keyDel slot).sleds = s.sleds := rfl
@[simp] theorem State.keyDel_lanes (s : State) (slot : Nat) : (s.keyDel slot).lanes = s.lanes := rfl
@[simp] theorem State.keyDel_seg (s : State) (slot : Nat) : (s.keyDel slot).seg = s.seg := rfl
@[simp] theorem State.keyDel_map (s : State) (slot : Nat) : (s.keyDel slot).map = s.map := rfl
@[simp] theorem State.keyDel_evt (s : State) (slot : Nat) : (s.keyDel slot).evt = s.evt := rfl
@[simp] theorem State.keyDel_log (s : State) (slot : Nat) : (s.keyDel slot).log = s.log := rfl
@[simp] theorem State.keyDel_pins (s : State) (slot : Nat) : (s.keyDel slot).pins = s.pins := rfl
@[simp] theorem State.keyDel_pwr (s : State) (slot : Nat) : (s.keyDel slot).pwr = s.pwr := rfl
@[simp] theorem State.keyDel_pcie (s : State) (slot : Nat) : (s.keyDel slot).pcie = s.pcie := rfl
@[simp] theorem State.keyDel_mbx (s : State) (slot : Nat) : (s.keyDel slot).mbx = s.mbx := rfl
@[simp] theorem State.keyDel_doms (s : State) (slot : Nat) : (s.keyDel slot).doms = s.doms := rfl
@[simp] theorem State.keyDel_i2c (s : State) (slot : Nat) : (s.keyDel slot).i2c = s.i2c := rfl
@[simp] theorem State.keyDel_freeCtr (s : State) (slot : Nat) : (s.keyDel slot).freeCtr = s.freeCtr := rfl
@[simp] theorem State.keyDel_out (s : State) (slot : Nat) : (s.keyDel slot).out = s.out := rfl
@[simp] theorem State.keyDel_pending (s : State) (slot : Nat) : (s.keyDel slot).pending = s.pending := rfl

/-! State.updOtp -/

@[simp] theorem State.updOtp_fuse (s : State) (f : Otp → Otp) : (s.updOtp f).fuse = s.fuse := rfl
@[simp] theorem State.updOtp_now (s : State) (f : Otp → Otp) : (s.updOtp f).now = s.now := rfl
@[simp] theorem State.updOtp_headId (s : State) (f : Otp → Otp) : (s.updOtp f).headId = s.headId := rfl
@[simp] theorem State.updOtp_life (s : State) (f : Otp → Otp) : (s.updOtp f).life = s.life := rfl
@[simp] theorem State.updOtp_regs (s : State) (f : Otp → Otp) : (s.updOtp f).regs = s.regs := rfl
@[simp] theorem State.updOtp_locked (s : State) (f : Otp → Otp) : (s.updOtp f).locked = s.locked := rfl
@[simp] theorem State.updOtp_latches (s : State) (f : Otp → Otp) : (s.updOtp f).latches = s.latches := rfl
@[simp] theorem State.updOtp_threads (s : State) (f : Otp → Otp) : (s.updOtp f).threads = s.threads := rfl
@[simp] theorem State.updOtp_items (s : State) (f : Otp → Otp) : (s.updOtp f).items = s.items := rfl
@[simp] theorem State.updOtp_queues (s : State) (f : Otp → Otp) : (s.updOtp f).queues = s.queues := rfl
@[simp] theorem State.updOtp_bufs (s : State) (f : Otp → Otp) : (s.updOtp f).bufs = s.bufs := rfl
@[simp] theorem State.updOtp_gens (s : State) (f : Otp → Otp) : (s.updOtp f).gens = s.gens := rfl
@[simp] theorem State.updOtp_mem (s : State) (f : Otp → Otp) : (s.updOtp f).mem = s.mem := rfl
@[simp] theorem State.updOtp_eccFix (s : State) (f : Otp → Otp) : (s.updOtp f).eccFix = s.eccFix := rfl
@[simp] theorem State.updOtp_eccBad (s : State) (f : Otp → Otp) : (s.updOtp f).eccBad = s.eccBad := rfl
@[simp] theorem State.updOtp_dcache (s : State) (f : Otp → Otp) : (s.updOtp f).dcache = s.dcache := rfl
@[simp] theorem State.updOtp_rings (s : State) (f : Otp → Otp) : (s.updOtp f).rings = s.rings := rfl
@[simp] theorem State.updOtp_comps (s : State) (f : Otp → Otp) : (s.updOtp f).comps = s.comps := rfl
@[simp] theorem State.updOtp_arbs (s : State) (f : Otp → Otp) : (s.updOtp f).arbs = s.arbs := rfl
@[simp] theorem State.updOtp_srch (s : State) (f : Otp → Otp) : (s.updOtp f).srch = s.srch := rfl
@[simp] theorem State.updOtp_srchBusy (s : State) (f : Otp → Otp) : (s.updOtp f).srchBusy = s.srchBusy := rfl
@[simp] theorem State.updOtp_prms (s : State) (f : Otp → Otp) : (s.updOtp f).prms = s.prms := rfl
@[simp] theorem State.updOtp_wktBuckets (s : State) (f : Otp → Otp) : (s.updOtp f).wktBuckets = s.wktBuckets := rfl
@[simp] theorem State.updOtp_braceAt (s : State) (f : Otp → Otp) : (s.updOtp f).braceAt = s.braceAt := rfl
@[simp] theorem State.updOtp_tookOver (s : State) (f : Otp → Otp) : (s.updOtp f).tookOver = s.tookOver := rfl
@[simp] theorem State.updOtp_rxRing (s : State) (f : Otp → Otp) : (s.updOtp f).rxRing = s.rxRing := rfl
@[simp] theorem State.updOtp_fe (s : State) (f : Otp → Otp) : (s.updOtp f).fe = s.fe := rfl
@[simp] theorem State.updOtp_trn (s : State) (f : Otp → Otp) : (s.updOtp f).trn = s.trn := rfl
@[simp] theorem State.updOtp_slotRsv (s : State) (f : Otp → Otp) : (s.updOtp f).slotRsv = s.slotRsv := rfl
@[simp] theorem State.updOtp_dg (s : State) (f : Otp → Otp) : (s.updOtp f).dg = s.dg := rfl
@[simp] theorem State.updOtp_ddx (s : State) (f : Otp → Otp) : (s.updOtp f).ddx = s.ddx := rfl
@[simp] theorem State.updOtp_xtsKeys (s : State) (f : Otp → Otp) : (s.updOtp f).xtsKeys = s.xtsKeys := rfl
@[simp] theorem State.updOtp_sleds (s : State) (f : Otp → Otp) : (s.updOtp f).sleds = s.sleds := rfl
@[simp] theorem State.updOtp_lanes (s : State) (f : Otp → Otp) : (s.updOtp f).lanes = s.lanes := rfl
@[simp] theorem State.updOtp_seg (s : State) (f : Otp → Otp) : (s.updOtp f).seg = s.seg := rfl
@[simp] theorem State.updOtp_map (s : State) (f : Otp → Otp) : (s.updOtp f).map = s.map := rfl
@[simp] theorem State.updOtp_evt (s : State) (f : Otp → Otp) : (s.updOtp f).evt = s.evt := rfl
@[simp] theorem State.updOtp_log (s : State) (f : Otp → Otp) : (s.updOtp f).log = s.log := rfl
@[simp] theorem State.updOtp_pins (s : State) (f : Otp → Otp) : (s.updOtp f).pins = s.pins := rfl
@[simp] theorem State.updOtp_pwr (s : State) (f : Otp → Otp) : (s.updOtp f).pwr = s.pwr := rfl
@[simp] theorem State.updOtp_pcie (s : State) (f : Otp → Otp) : (s.updOtp f).pcie = s.pcie := rfl
@[simp] theorem State.updOtp_mbx (s : State) (f : Otp → Otp) : (s.updOtp f).mbx = s.mbx := rfl
@[simp] theorem State.updOtp_doms (s : State) (f : Otp → Otp) : (s.updOtp f).doms = s.doms := rfl
@[simp] theorem State.updOtp_i2c (s : State) (f : Otp → Otp) : (s.updOtp f).i2c = s.i2c := rfl
@[simp] theorem State.updOtp_freeCtr (s : State) (f : Otp → Otp) : (s.updOtp f).freeCtr = s.freeCtr := rfl
@[simp] theorem State.updOtp_out (s : State) (f : Otp → Otp) : (s.updOtp f).out = s.out := rfl
@[simp] theorem State.updOtp_pending (s : State) (f : Otp → Otp) : (s.updOtp f).pending = s.pending := rfl

/-! State.wr -/

@[simp] theorem State.wr_fuse (s : State) (f : Fld) (v i : Nat) : (s.wr f v i).fuse = s.fuse := rfl
@[simp] theorem State.wr_now (s : State) (f : Fld) (v i : Nat) : (s.wr f v i).now = s.now := rfl
@[simp] theorem State.wr_headId (s : State) (f : Fld) (v i : Nat) : (s.wr f v i).headId = s.headId := rfl
@[simp] theorem State.wr_life (s : State) (f : Fld) (v i : Nat) : (s.wr f v i).life = s.life := rfl
@[simp] theorem State.wr_locked (s : State) (f : Fld) (v i : Nat) : (s.wr f v i).locked = s.locked := rfl
@[simp] theorem State.wr_latches (s : State) (f : Fld) (v i : Nat) : (s.wr f v i).latches = s.latches := rfl
@[simp] theorem State.wr_threads (s : State) (f : Fld) (v i : Nat) : (s.wr f v i).threads = s.threads := rfl
@[simp] theorem State.wr_items (s : State) (f : Fld) (v i : Nat) : (s.wr f v i).items = s.items := rfl
@[simp] theorem State.wr_queues (s : State) (f : Fld) (v i : Nat) : (s.wr f v i).queues = s.queues := rfl
@[simp] theorem State.wr_bufs (s : State) (f : Fld) (v i : Nat) : (s.wr f v i).bufs = s.bufs := rfl
@[simp] theorem State.wr_gens (s : State) (f : Fld) (v i : Nat) : (s.wr f v i).gens = s.gens := rfl
@[simp] theorem State.wr_mem (s : State) (f : Fld) (v i : Nat) : (s.wr f v i).mem = s.mem := rfl
@[simp] theorem State.wr_eccFix (s : State) (f : Fld) (v i : Nat) : (s.wr f v i).eccFix = s.eccFix := rfl
@[simp] theorem State.wr_eccBad (s : State) (f : Fld) (v i : Nat) : (s.wr f v i).eccBad = s.eccBad := rfl
@[simp] theorem State.wr_dcache (s : State) (f : Fld) (v i : Nat) : (s.wr f v i).dcache = s.dcache := rfl
@[simp] theorem State.wr_rings (s : State) (f : Fld) (v i : Nat) : (s.wr f v i).rings = s.rings := rfl
@[simp] theorem State.wr_comps (s : State) (f : Fld) (v i : Nat) : (s.wr f v i).comps = s.comps := rfl
@[simp] theorem State.wr_arbs (s : State) (f : Fld) (v i : Nat) : (s.wr f v i).arbs = s.arbs := rfl
@[simp] theorem State.wr_srch (s : State) (f : Fld) (v i : Nat) : (s.wr f v i).srch = s.srch := rfl
@[simp] theorem State.wr_srchBusy (s : State) (f : Fld) (v i : Nat) : (s.wr f v i).srchBusy = s.srchBusy := rfl
@[simp] theorem State.wr_prms (s : State) (f : Fld) (v i : Nat) : (s.wr f v i).prms = s.prms := rfl
@[simp] theorem State.wr_wktBuckets (s : State) (f : Fld) (v i : Nat) : (s.wr f v i).wktBuckets = s.wktBuckets := rfl
@[simp] theorem State.wr_braceAt (s : State) (f : Fld) (v i : Nat) : (s.wr f v i).braceAt = s.braceAt := rfl
@[simp] theorem State.wr_tookOver (s : State) (f : Fld) (v i : Nat) : (s.wr f v i).tookOver = s.tookOver := rfl
@[simp] theorem State.wr_rxRing (s : State) (f : Fld) (v i : Nat) : (s.wr f v i).rxRing = s.rxRing := rfl
@[simp] theorem State.wr_fe (s : State) (f : Fld) (v i : Nat) : (s.wr f v i).fe = s.fe := rfl
@[simp] theorem State.wr_trn (s : State) (f : Fld) (v i : Nat) : (s.wr f v i).trn = s.trn := rfl
@[simp] theorem State.wr_slotRsv (s : State) (f : Fld) (v i : Nat) : (s.wr f v i).slotRsv = s.slotRsv := rfl
@[simp] theorem State.wr_dg (s : State) (f : Fld) (v i : Nat) : (s.wr f v i).dg = s.dg := rfl
@[simp] theorem State.wr_ddx (s : State) (f : Fld) (v i : Nat) : (s.wr f v i).ddx = s.ddx := rfl
@[simp] theorem State.wr_xtsKeys (s : State) (f : Fld) (v i : Nat) : (s.wr f v i).xtsKeys = s.xtsKeys := rfl
@[simp] theorem State.wr_sleds (s : State) (f : Fld) (v i : Nat) : (s.wr f v i).sleds = s.sleds := rfl
@[simp] theorem State.wr_lanes (s : State) (f : Fld) (v i : Nat) : (s.wr f v i).lanes = s.lanes := rfl
@[simp] theorem State.wr_seg (s : State) (f : Fld) (v i : Nat) : (s.wr f v i).seg = s.seg := rfl
@[simp] theorem State.wr_map (s : State) (f : Fld) (v i : Nat) : (s.wr f v i).map = s.map := rfl
@[simp] theorem State.wr_vlt (s : State) (f : Fld) (v i : Nat) : (s.wr f v i).vlt = s.vlt := rfl
@[simp] theorem State.wr_evt (s : State) (f : Fld) (v i : Nat) : (s.wr f v i).evt = s.evt := rfl
@[simp] theorem State.wr_log (s : State) (f : Fld) (v i : Nat) : (s.wr f v i).log = s.log := rfl
@[simp] theorem State.wr_pins (s : State) (f : Fld) (v i : Nat) : (s.wr f v i).pins = s.pins := rfl
@[simp] theorem State.wr_pwr (s : State) (f : Fld) (v i : Nat) : (s.wr f v i).pwr = s.pwr := rfl
@[simp] theorem State.wr_pcie (s : State) (f : Fld) (v i : Nat) : (s.wr f v i).pcie = s.pcie := rfl
@[simp] theorem State.wr_mbx (s : State) (f : Fld) (v i : Nat) : (s.wr f v i).mbx = s.mbx := rfl
@[simp] theorem State.wr_doms (s : State) (f : Fld) (v i : Nat) : (s.wr f v i).doms = s.doms := rfl
@[simp] theorem State.wr_i2c (s : State) (f : Fld) (v i : Nat) : (s.wr f v i).i2c = s.i2c := rfl
@[simp] theorem State.wr_freeCtr (s : State) (f : Fld) (v i : Nat) : (s.wr f v i).freeCtr = s.freeCtr := rfl
@[simp] theorem State.wr_out (s : State) (f : Fld) (v i : Nat) : (s.wr f v i).out = s.out := rfl
@[simp] theorem State.wr_pending (s : State) (f : Fld) (v i : Nat) : (s.wr f v i).pending = s.pending := rfl

/-! State.setFlag -/

@[simp] theorem State.setFlag_fuse (s : State) (f : Fld) (i : Nat) : (s.setFlag f i).fuse = s.fuse := rfl
@[simp] theorem State.setFlag_now (s : State) (f : Fld) (i : Nat) : (s.setFlag f i).now = s.now := rfl
@[simp] theorem State.setFlag_headId (s : State) (f : Fld) (i : Nat) : (s.setFlag f i).headId = s.headId := rfl
@[simp] theorem State.setFlag_life (s : State) (f : Fld) (i : Nat) : (s.setFlag f i).life = s.life := rfl
@[simp] theorem State.setFlag_locked (s : State) (f : Fld) (i : Nat) : (s.setFlag f i).locked = s.locked := rfl
@[simp] theorem State.setFlag_latches (s : State) (f : Fld) (i : Nat) : (s.setFlag f i).latches = s.latches := rfl
@[simp] theorem State.setFlag_threads (s : State) (f : Fld) (i : Nat) : (s.setFlag f i).threads = s.threads := rfl
@[simp] theorem State.setFlag_items (s : State) (f : Fld) (i : Nat) : (s.setFlag f i).items = s.items := rfl
@[simp] theorem State.setFlag_queues (s : State) (f : Fld) (i : Nat) : (s.setFlag f i).queues = s.queues := rfl
@[simp] theorem State.setFlag_bufs (s : State) (f : Fld) (i : Nat) : (s.setFlag f i).bufs = s.bufs := rfl
@[simp] theorem State.setFlag_gens (s : State) (f : Fld) (i : Nat) : (s.setFlag f i).gens = s.gens := rfl
@[simp] theorem State.setFlag_mem (s : State) (f : Fld) (i : Nat) : (s.setFlag f i).mem = s.mem := rfl
@[simp] theorem State.setFlag_eccFix (s : State) (f : Fld) (i : Nat) : (s.setFlag f i).eccFix = s.eccFix := rfl
@[simp] theorem State.setFlag_eccBad (s : State) (f : Fld) (i : Nat) : (s.setFlag f i).eccBad = s.eccBad := rfl
@[simp] theorem State.setFlag_dcache (s : State) (f : Fld) (i : Nat) : (s.setFlag f i).dcache = s.dcache := rfl
@[simp] theorem State.setFlag_rings (s : State) (f : Fld) (i : Nat) : (s.setFlag f i).rings = s.rings := rfl
@[simp] theorem State.setFlag_comps (s : State) (f : Fld) (i : Nat) : (s.setFlag f i).comps = s.comps := rfl
@[simp] theorem State.setFlag_arbs (s : State) (f : Fld) (i : Nat) : (s.setFlag f i).arbs = s.arbs := rfl
@[simp] theorem State.setFlag_srch (s : State) (f : Fld) (i : Nat) : (s.setFlag f i).srch = s.srch := rfl
@[simp] theorem State.setFlag_srchBusy (s : State) (f : Fld) (i : Nat) : (s.setFlag f i).srchBusy = s.srchBusy := rfl
@[simp] theorem State.setFlag_prms (s : State) (f : Fld) (i : Nat) : (s.setFlag f i).prms = s.prms := rfl
@[simp] theorem State.setFlag_wktBuckets (s : State) (f : Fld) (i : Nat) : (s.setFlag f i).wktBuckets = s.wktBuckets := rfl
@[simp] theorem State.setFlag_braceAt (s : State) (f : Fld) (i : Nat) : (s.setFlag f i).braceAt = s.braceAt := rfl
@[simp] theorem State.setFlag_tookOver (s : State) (f : Fld) (i : Nat) : (s.setFlag f i).tookOver = s.tookOver := rfl
@[simp] theorem State.setFlag_rxRing (s : State) (f : Fld) (i : Nat) : (s.setFlag f i).rxRing = s.rxRing := rfl
@[simp] theorem State.setFlag_fe (s : State) (f : Fld) (i : Nat) : (s.setFlag f i).fe = s.fe := rfl
@[simp] theorem State.setFlag_trn (s : State) (f : Fld) (i : Nat) : (s.setFlag f i).trn = s.trn := rfl
@[simp] theorem State.setFlag_slotRsv (s : State) (f : Fld) (i : Nat) : (s.setFlag f i).slotRsv = s.slotRsv := rfl
@[simp] theorem State.setFlag_dg (s : State) (f : Fld) (i : Nat) : (s.setFlag f i).dg = s.dg := rfl
@[simp] theorem State.setFlag_ddx (s : State) (f : Fld) (i : Nat) : (s.setFlag f i).ddx = s.ddx := rfl
@[simp] theorem State.setFlag_xtsKeys (s : State) (f : Fld) (i : Nat) : (s.setFlag f i).xtsKeys = s.xtsKeys := rfl
@[simp] theorem State.setFlag_sleds (s : State) (f : Fld) (i : Nat) : (s.setFlag f i).sleds = s.sleds := rfl
@[simp] theorem State.setFlag_lanes (s : State) (f : Fld) (i : Nat) : (s.setFlag f i).lanes = s.lanes := rfl
@[simp] theorem State.setFlag_seg (s : State) (f : Fld) (i : Nat) : (s.setFlag f i).seg = s.seg := rfl
@[simp] theorem State.setFlag_map (s : State) (f : Fld) (i : Nat) : (s.setFlag f i).map = s.map := rfl
@[simp] theorem State.setFlag_vlt (s : State) (f : Fld) (i : Nat) : (s.setFlag f i).vlt = s.vlt := rfl
@[simp] theorem State.setFlag_evt (s : State) (f : Fld) (i : Nat) : (s.setFlag f i).evt = s.evt := rfl
@[simp] theorem State.setFlag_log (s : State) (f : Fld) (i : Nat) : (s.setFlag f i).log = s.log := rfl
@[simp] theorem State.setFlag_pins (s : State) (f : Fld) (i : Nat) : (s.setFlag f i).pins = s.pins := rfl
@[simp] theorem State.setFlag_pwr (s : State) (f : Fld) (i : Nat) : (s.setFlag f i).pwr = s.pwr := rfl
@[simp] theorem State.setFlag_pcie (s : State) (f : Fld) (i : Nat) : (s.setFlag f i).pcie = s.pcie := rfl
@[simp] theorem State.setFlag_mbx (s : State) (f : Fld) (i : Nat) : (s.setFlag f i).mbx = s.mbx := rfl
@[simp] theorem State.setFlag_doms (s : State) (f : Fld) (i : Nat) : (s.setFlag f i).doms = s.doms := rfl
@[simp] theorem State.setFlag_i2c (s : State) (f : Fld) (i : Nat) : (s.setFlag f i).i2c = s.i2c := rfl
@[simp] theorem State.setFlag_freeCtr (s : State) (f : Fld) (i : Nat) : (s.setFlag f i).freeCtr = s.freeCtr := rfl
@[simp] theorem State.setFlag_out (s : State) (f : Fld) (i : Nat) : (s.setFlag f i).out = s.out := rfl
@[simp] theorem State.setFlag_pending (s : State) (f : Fld) (i : Nat) : (s.setFlag f i).pending = s.pending := rfl

/-! State.clrFlag -/

@[simp] theorem State.clrFlag_fuse (s : State) (f : Fld) (i : Nat) : (s.clrFlag f i).fuse = s.fuse := rfl
@[simp] theorem State.clrFlag_now (s : State) (f : Fld) (i : Nat) : (s.clrFlag f i).now = s.now := rfl
@[simp] theorem State.clrFlag_headId (s : State) (f : Fld) (i : Nat) : (s.clrFlag f i).headId = s.headId := rfl
@[simp] theorem State.clrFlag_life (s : State) (f : Fld) (i : Nat) : (s.clrFlag f i).life = s.life := rfl
@[simp] theorem State.clrFlag_locked (s : State) (f : Fld) (i : Nat) : (s.clrFlag f i).locked = s.locked := rfl
@[simp] theorem State.clrFlag_latches (s : State) (f : Fld) (i : Nat) : (s.clrFlag f i).latches = s.latches := rfl
@[simp] theorem State.clrFlag_threads (s : State) (f : Fld) (i : Nat) : (s.clrFlag f i).threads = s.threads := rfl
@[simp] theorem State.clrFlag_items (s : State) (f : Fld) (i : Nat) : (s.clrFlag f i).items = s.items := rfl
@[simp] theorem State.clrFlag_queues (s : State) (f : Fld) (i : Nat) : (s.clrFlag f i).queues = s.queues := rfl
@[simp] theorem State.clrFlag_bufs (s : State) (f : Fld) (i : Nat) : (s.clrFlag f i).bufs = s.bufs := rfl
@[simp] theorem State.clrFlag_gens (s : State) (f : Fld) (i : Nat) : (s.clrFlag f i).gens = s.gens := rfl
@[simp] theorem State.clrFlag_mem (s : State) (f : Fld) (i : Nat) : (s.clrFlag f i).mem = s.mem := rfl
@[simp] theorem State.clrFlag_eccFix (s : State) (f : Fld) (i : Nat) : (s.clrFlag f i).eccFix = s.eccFix := rfl
@[simp] theorem State.clrFlag_eccBad (s : State) (f : Fld) (i : Nat) : (s.clrFlag f i).eccBad = s.eccBad := rfl
@[simp] theorem State.clrFlag_dcache (s : State) (f : Fld) (i : Nat) : (s.clrFlag f i).dcache = s.dcache := rfl
@[simp] theorem State.clrFlag_rings (s : State) (f : Fld) (i : Nat) : (s.clrFlag f i).rings = s.rings := rfl
@[simp] theorem State.clrFlag_comps (s : State) (f : Fld) (i : Nat) : (s.clrFlag f i).comps = s.comps := rfl
@[simp] theorem State.clrFlag_arbs (s : State) (f : Fld) (i : Nat) : (s.clrFlag f i).arbs = s.arbs := rfl
@[simp] theorem State.clrFlag_srch (s : State) (f : Fld) (i : Nat) : (s.clrFlag f i).srch = s.srch := rfl
@[simp] theorem State.clrFlag_srchBusy (s : State) (f : Fld) (i : Nat) : (s.clrFlag f i).srchBusy = s.srchBusy := rfl
@[simp] theorem State.clrFlag_prms (s : State) (f : Fld) (i : Nat) : (s.clrFlag f i).prms = s.prms := rfl
@[simp] theorem State.clrFlag_wktBuckets (s : State) (f : Fld) (i : Nat) : (s.clrFlag f i).wktBuckets = s.wktBuckets := rfl
@[simp] theorem State.clrFlag_braceAt (s : State) (f : Fld) (i : Nat) : (s.clrFlag f i).braceAt = s.braceAt := rfl
@[simp] theorem State.clrFlag_tookOver (s : State) (f : Fld) (i : Nat) : (s.clrFlag f i).tookOver = s.tookOver := rfl
@[simp] theorem State.clrFlag_rxRing (s : State) (f : Fld) (i : Nat) : (s.clrFlag f i).rxRing = s.rxRing := rfl
@[simp] theorem State.clrFlag_fe (s : State) (f : Fld) (i : Nat) : (s.clrFlag f i).fe = s.fe := rfl
@[simp] theorem State.clrFlag_trn (s : State) (f : Fld) (i : Nat) : (s.clrFlag f i).trn = s.trn := rfl
@[simp] theorem State.clrFlag_slotRsv (s : State) (f : Fld) (i : Nat) : (s.clrFlag f i).slotRsv = s.slotRsv := rfl
@[simp] theorem State.clrFlag_dg (s : State) (f : Fld) (i : Nat) : (s.clrFlag f i).dg = s.dg := rfl
@[simp] theorem State.clrFlag_ddx (s : State) (f : Fld) (i : Nat) : (s.clrFlag f i).ddx = s.ddx := rfl
@[simp] theorem State.clrFlag_xtsKeys (s : State) (f : Fld) (i : Nat) : (s.clrFlag f i).xtsKeys = s.xtsKeys := rfl
@[simp] theorem State.clrFlag_sleds (s : State) (f : Fld) (i : Nat) : (s.clrFlag f i).sleds = s.sleds := rfl
@[simp] theorem State.clrFlag_lanes (s : State) (f : Fld) (i : Nat) : (s.clrFlag f i).lanes = s.lanes := rfl
@[simp] theorem State.clrFlag_seg (s : State) (f : Fld) (i : Nat) : (s.clrFlag f i).seg = s.seg := rfl
@[simp] theorem State.clrFlag_map (s : State) (f : Fld) (i : Nat) : (s.clrFlag f i).map = s.map := rfl
@[simp] theorem State.clrFlag_vlt (s : State) (f : Fld) (i : Nat) : (s.clrFlag f i).vlt = s.vlt := rfl
@[simp] theorem State.clrFlag_evt (s : State) (f : Fld) (i : Nat) : (s.clrFlag f i).evt = s.evt := rfl
@[simp] theorem State.clrFlag_log (s : State) (f : Fld) (i : Nat) : (s.clrFlag f i).log = s.log := rfl
@[simp] theorem State.clrFlag_pins (s : State) (f : Fld) (i : Nat) : (s.clrFlag f i).pins = s.pins := rfl
@[simp] theorem State.clrFlag_pwr (s : State) (f : Fld) (i : Nat) : (s.clrFlag f i).pwr = s.pwr := rfl
@[simp] theorem State.clrFlag_pcie (s : State) (f : Fld) (i : Nat) : (s.clrFlag f i).pcie = s.pcie := rfl
@[simp] theorem State.clrFlag_mbx (s : State) (f : Fld) (i : Nat) : (s.clrFlag f i).mbx = s.mbx := rfl
@[simp] theorem State.clrFlag_doms (s : State) (f : Fld) (i : Nat) : (s.clrFlag f i).doms = s.doms := rfl
@[simp] theorem State.clrFlag_i2c (s : State) (f : Fld) (i : Nat) : (s.clrFlag f i).i2c = s.i2c := rfl
@[simp] theorem State.clrFlag_freeCtr (s : State) (f : Fld) (i : Nat) : (s.clrFlag f i).freeCtr = s.freeCtr := rfl
@[simp] theorem State.clrFlag_out (s : State) (f : Fld) (i : Nat) : (s.clrFlag f i).out = s.out := rfl
@[simp] theorem State.clrFlag_pending (s : State) (f : Fld) (i : Nat) : (s.clrFlag f i).pending = s.pending := rfl

/-! State.setG -/

@[simp] theorem State.setG_fuse (s : State) (t r : Nat) (v : Word) : (s.setG t r v).fuse = s.fuse := rfl
@[simp] theorem State.setG_now (s : State) (t r : Nat) (v : Word) : (s.setG t r v).now = s.now := rfl
@[simp] theorem State.setG_headId (s : State) (t r : Nat) (v : Word) : (s.setG t r v).headId = s.headId := rfl
@[simp] theorem State.setG_life (s : State) (t r : Nat) (v : Word) : (s.setG t r v).life = s.life := rfl
@[simp] theorem State.setG_regs (s : State) (t r : Nat) (v : Word) : (s.setG t r v).regs = s.regs := rfl
@[simp] theorem State.setG_locked (s : State) (t r : Nat) (v : Word) : (s.setG t r v).locked = s.locked := rfl
@[simp] theorem State.setG_latches (s : State) (t r : Nat) (v : Word) : (s.setG t r v).latches = s.latches := rfl
@[simp] theorem State.setG_items (s : State) (t r : Nat) (v : Word) : (s.setG t r v).items = s.items := rfl
@[simp] theorem State.setG_queues (s : State) (t r : Nat) (v : Word) : (s.setG t r v).queues = s.queues := rfl
@[simp] theorem State.setG_bufs (s : State) (t r : Nat) (v : Word) : (s.setG t r v).bufs = s.bufs := rfl
@[simp] theorem State.setG_gens (s : State) (t r : Nat) (v : Word) : (s.setG t r v).gens = s.gens := rfl
@[simp] theorem State.setG_mem (s : State) (t r : Nat) (v : Word) : (s.setG t r v).mem = s.mem := rfl
@[simp] theorem State.setG_eccFix (s : State) (t r : Nat) (v : Word) : (s.setG t r v).eccFix = s.eccFix := rfl
@[simp] theorem State.setG_eccBad (s : State) (t r : Nat) (v : Word) : (s.setG t r v).eccBad = s.eccBad := rfl
@[simp] theorem State.setG_dcache (s : State) (t r : Nat) (v : Word) : (s.setG t r v).dcache = s.dcache := rfl
@[simp] theorem State.setG_rings (s : State) (t r : Nat) (v : Word) : (s.setG t r v).rings = s.rings := rfl
@[simp] theorem State.setG_comps (s : State) (t r : Nat) (v : Word) : (s.setG t r v).comps = s.comps := rfl
@[simp] theorem State.setG_arbs (s : State) (t r : Nat) (v : Word) : (s.setG t r v).arbs = s.arbs := rfl
@[simp] theorem State.setG_srch (s : State) (t r : Nat) (v : Word) : (s.setG t r v).srch = s.srch := rfl
@[simp] theorem State.setG_srchBusy (s : State) (t r : Nat) (v : Word) : (s.setG t r v).srchBusy = s.srchBusy := rfl
@[simp] theorem State.setG_prms (s : State) (t r : Nat) (v : Word) : (s.setG t r v).prms = s.prms := rfl
@[simp] theorem State.setG_wktBuckets (s : State) (t r : Nat) (v : Word) : (s.setG t r v).wktBuckets = s.wktBuckets := rfl
@[simp] theorem State.setG_braceAt (s : State) (t r : Nat) (v : Word) : (s.setG t r v).braceAt = s.braceAt := rfl
@[simp] theorem State.setG_tookOver (s : State) (t r : Nat) (v : Word) : (s.setG t r v).tookOver = s.tookOver := rfl
@[simp] theorem State.setG_rxRing (s : State) (t r : Nat) (v : Word) : (s.setG t r v).rxRing = s.rxRing := rfl
@[simp] theorem State.setG_fe (s : State) (t r : Nat) (v : Word) : (s.setG t r v).fe = s.fe := rfl
@[simp] theorem State.setG_trn (s : State) (t r : Nat) (v : Word) : (s.setG t r v).trn = s.trn := rfl
@[simp] theorem State.setG_slotRsv (s : State) (t r : Nat) (v : Word) : (s.setG t r v).slotRsv = s.slotRsv := rfl
@[simp] theorem State.setG_dg (s : State) (t r : Nat) (v : Word) : (s.setG t r v).dg = s.dg := rfl
@[simp] theorem State.setG_ddx (s : State) (t r : Nat) (v : Word) : (s.setG t r v).ddx = s.ddx := rfl
@[simp] theorem State.setG_xtsKeys (s : State) (t r : Nat) (v : Word) : (s.setG t r v).xtsKeys = s.xtsKeys := rfl
@[simp] theorem State.setG_sleds (s : State) (t r : Nat) (v : Word) : (s.setG t r v).sleds = s.sleds := rfl
@[simp] theorem State.setG_lanes (s : State) (t r : Nat) (v : Word) : (s.setG t r v).lanes = s.lanes := rfl
@[simp] theorem State.setG_seg (s : State) (t r : Nat) (v : Word) : (s.setG t r v).seg = s.seg := rfl
@[simp] theorem State.setG_map (s : State) (t r : Nat) (v : Word) : (s.setG t r v).map = s.map := rfl
@[simp] theorem State.setG_vlt (s : State) (t r : Nat) (v : Word) : (s.setG t r v).vlt = s.vlt := rfl
@[simp] theorem State.setG_evt (s : State) (t r : Nat) (v : Word) : (s.setG t r v).evt = s.evt := rfl
@[simp] theorem State.setG_log (s : State) (t r : Nat) (v : Word) : (s.setG t r v).log = s.log := rfl
@[simp] theorem State.setG_pins (s : State) (t r : Nat) (v : Word) : (s.setG t r v).pins = s.pins := rfl
@[simp] theorem State.setG_pwr (s : State) (t r : Nat) (v : Word) : (s.setG t r v).pwr = s.pwr := rfl
@[simp] theorem State.setG_pcie (s : State) (t r : Nat) (v : Word) : (s.setG t r v).pcie = s.pcie := rfl
@[simp] theorem State.setG_mbx (s : State) (t r : Nat) (v : Word) : (s.setG t r v).mbx = s.mbx := rfl
@[simp] theorem State.setG_doms (s : State) (t r : Nat) (v : Word) : (s.setG t r v).doms = s.doms := rfl
@[simp] theorem State.setG_i2c (s : State) (t r : Nat) (v : Word) : (s.setG t r v).i2c = s.i2c := rfl
@[simp] theorem State.setG_freeCtr (s : State) (t r : Nat) (v : Word) : (s.setG t r v).freeCtr = s.freeCtr := rfl
@[simp] theorem State.setG_out (s : State) (t r : Nat) (v : Word) : (s.setG t r v).out = s.out := rfl
@[simp] theorem State.setG_pending (s : State) (t r : Nat) (v : Word) : (s.setG t r v).pending = s.pending := rfl

/-! State.advance -/

@[simp] theorem State.advance_fuse (s : State) (t : Nat) : (s.advance t).fuse = s.fuse := rfl
@[simp] theorem State.advance_now (s : State) (t : Nat) : (s.advance t).now = s.now := rfl
@[simp] theorem State.advance_headId (s : State) (t : Nat) : (s.advance t).headId = s.headId := rfl
@[simp] theorem State.advance_life (s : State) (t : Nat) : (s.advance t).life = s.life := rfl
@[simp] theorem State.advance_regs (s : State) (t : Nat) : (s.advance t).regs = s.regs := rfl
@[simp] theorem State.advance_locked (s : State) (t : Nat) : (s.advance t).locked = s.locked := rfl
@[simp] theorem State.advance_latches (s : State) (t : Nat) : (s.advance t).latches = s.latches := rfl
@[simp] theorem State.advance_items (s : State) (t : Nat) : (s.advance t).items = s.items := rfl
@[simp] theorem State.advance_queues (s : State) (t : Nat) : (s.advance t).queues = s.queues := rfl
@[simp] theorem State.advance_bufs (s : State) (t : Nat) : (s.advance t).bufs = s.bufs := rfl
@[simp] theorem State.advance_gens (s : State) (t : Nat) : (s.advance t).gens = s.gens := rfl
@[simp] theorem State.advance_mem (s : State) (t : Nat) : (s.advance t).mem = s.mem := rfl
@[simp] theorem State.advance_eccFix (s : State) (t : Nat) : (s.advance t).eccFix = s.eccFix := rfl
@[simp] theorem State.advance_eccBad (s : State) (t : Nat) : (s.advance t).eccBad = s.eccBad := rfl
@[simp] theorem State.advance_dcache (s : State) (t : Nat) : (s.advance t).dcache = s.dcache := rfl
@[simp] theorem State.advance_rings (s : State) (t : Nat) : (s.advance t).rings = s.rings := rfl
@[simp] theorem State.advance_comps (s : State) (t : Nat) : (s.advance t).comps = s.comps := rfl
@[simp] theorem State.advance_arbs (s : State) (t : Nat) : (s.advance t).arbs = s.arbs := rfl
@[simp] theorem State.advance_srch (s : State) (t : Nat) : (s.advance t).srch = s.srch := rfl
@[simp] theorem State.advance_srchBusy (s : State) (t : Nat) : (s.advance t).srchBusy = s.srchBusy := rfl
@[simp] theorem State.advance_prms (s : State) (t : Nat) : (s.advance t).prms = s.prms := rfl
@[simp] theorem State.advance_wktBuckets (s : State) (t : Nat) : (s.advance t).wktBuckets = s.wktBuckets := rfl
@[simp] theorem State.advance_braceAt (s : State) (t : Nat) : (s.advance t).braceAt = s.braceAt := rfl
@[simp] theorem State.advance_tookOver (s : State) (t : Nat) : (s.advance t).tookOver = s.tookOver := rfl
@[simp] theorem State.advance_rxRing (s : State) (t : Nat) : (s.advance t).rxRing = s.rxRing := rfl
@[simp] theorem State.advance_fe (s : State) (t : Nat) : (s.advance t).fe = s.fe := rfl
@[simp] theorem State.advance_trn (s : State) (t : Nat) : (s.advance t).trn = s.trn := rfl
@[simp] theorem State.advance_slotRsv (s : State) (t : Nat) : (s.advance t).slotRsv = s.slotRsv := rfl
@[simp] theorem State.advance_dg (s : State) (t : Nat) : (s.advance t).dg = s.dg := rfl
@[simp] theorem State.advance_ddx (s : State) (t : Nat) : (s.advance t).ddx = s.ddx := rfl
@[simp] theorem State.advance_xtsKeys (s : State) (t : Nat) : (s.advance t).xtsKeys = s.xtsKeys := rfl
@[simp] theorem State.advance_sleds (s : State) (t : Nat) : (s.advance t).sleds = s.sleds := rfl
@[simp] theorem State.advance_lanes (s : State) (t : Nat) : (s.advance t).lanes = s.lanes := rfl
@[simp] theorem State.advance_seg (s : State) (t : Nat) : (s.advance t).seg = s.seg := rfl
@[simp] theorem State.advance_map (s : State) (t : Nat) : (s.advance t).map = s.map := rfl
@[simp] theorem State.advance_vlt (s : State) (t : Nat) : (s.advance t).vlt = s.vlt := rfl
@[simp] theorem State.advance_evt (s : State) (t : Nat) : (s.advance t).evt = s.evt := rfl
@[simp] theorem State.advance_log (s : State) (t : Nat) : (s.advance t).log = s.log := rfl
@[simp] theorem State.advance_pins (s : State) (t : Nat) : (s.advance t).pins = s.pins := rfl
@[simp] theorem State.advance_pwr (s : State) (t : Nat) : (s.advance t).pwr = s.pwr := rfl
@[simp] theorem State.advance_pcie (s : State) (t : Nat) : (s.advance t).pcie = s.pcie := rfl
@[simp] theorem State.advance_mbx (s : State) (t : Nat) : (s.advance t).mbx = s.mbx := rfl
@[simp] theorem State.advance_doms (s : State) (t : Nat) : (s.advance t).doms = s.doms := rfl
@[simp] theorem State.advance_i2c (s : State) (t : Nat) : (s.advance t).i2c = s.i2c := rfl
@[simp] theorem State.advance_freeCtr (s : State) (t : Nat) : (s.advance t).freeCtr = s.freeCtr := rfl
@[simp] theorem State.advance_out (s : State) (t : Nat) : (s.advance t).out = s.out := rfl
@[simp] theorem State.advance_pending (s : State) (t : Nat) : (s.advance t).pending = s.pending := rfl

end Sys2Proof.Machine
end

