-- ==== Sys2Proof/Laws/Events.lean ====
section
/-! SUPPORT. Raising an event and counting: which parts of the state they can change at all, and which registers. -/

namespace Sys2Proof.Machine

/-- `t` differs from `s` at most in registers, event fabric, logbook, item pool, queues, sequences of the power domains, free values
and outputs. -/
def EvtOnly (s t : State) : Prop :=
  t = { s with regs := t.regs, evt := t.evt, log := t.log, items := t.items, queues := t.queues, doms := t.doms, freeCtr := t.freeCtr,
               out := t.out }

/-- The registers that raising an event can write: `EVT_PEND`, the fabric's and the logbook's counters, `MQ_POOL_FREE`, and `PWR_DOM` of
the clusters that an item wakes. -/
def evtReg (off : Nat) : Bool :=
  decide (0x400200 ≤ off ∧ off < 0x400240) || decide (0x301010 ≤ off ∧ off < 0x301050) ||
    [F.EVT_MSI_CTR.off, F.EVT_ITEMS_CTR.off, F.EVT_FOLDED_CTR.off, F.EVT_OCCURRED_CTR.off, F.LOG_OVERFLOW_CTR.off,
      F.LOG_EVICTED_CTR.off, F.MQ_POOL_FREE_MIN.off].contains off

/-- Every register that raising an event cannot write reads the same. -/
def EvtRegs (s t : State) : Prop := ∀ off, evtReg off = false → t.regGet off = s.regGet off

/-- Both together. -/
def EvtStep (s t : State) : Prop := EvtOnly s t ∧ EvtRegs s t

theorem EvtStep.refl (s : State) : EvtStep s s := ⟨rfl, fun _ _ => rfl⟩

theorem EvtStep.trans {s t u : State} (h : EvtStep s t) (g : EvtStep t u) : EvtStep s u := by
  refine ⟨?_, fun off ho => (g.2 off ho).trans (h.2 off ho)⟩
  have h1 := h.1
  have g1 := g.1
  unfold EvtOnly at *
  rw [g1, h1]

/-- A change of the named parts that writes no register. -/
theorem EvtStep.of_regs {s t : State} (h : EvtOnly s t) (hr : t.regs = s.regs) : EvtStep s t :=
  ⟨h, fun off _ => by simp [State.regGet, hr]⟩

theorem EvtStep.regSet (s : State) {off : Nat} (v : Word) (h : evtReg off = true) : EvtStep s (s.regSet off v) :=
  ⟨rfl, fun o ho => regGet_regSet_other _ _ (fun e => by rw [e, h] at ho; cases ho)⟩

theorem ctrRaw_evtStep (s : State) {off : Nat} (n : Nat) (h : evtReg off = true) : EvtStep s (s.ctrRaw off n).1 :=
  EvtStep.regSet s _ h

theorem emit_evtStep (s : State) (o : Out) : EvtStep s (s.emit o) := by
  unfold State.emit
  split
  · exact .refl s
  · exact .of_regs rfl rfl

theorem notePool_evtStep (s : State) : EvtStep s s.notePool := by
  simp only [State.notePool]
  split
  · exact EvtStep.regSet s _ rfl
  · exact .refl s

theorem setDom_evtStep (s : State) (d : Nat) (x : Dom) : EvtStep s (s.setDom d x) := .of_regs rfl rfl

theorem wr_evtStep (s : State) (f : Fld) (v i : Nat) (h : evtReg (f.at i) = true) : EvtStep s (s.wr f v i) :=
  EvtStep.regSet s _ h

theorem domWake_evtStep (s : State) {d : Nat} (h : 2 ≤ d ∧ d < 10) : EvtStep s (s.domWake d) := by
  have hr : evtReg (F.PWR_DOM_STATE.at d) = true := by
    have he : F.PWR_DOM_STATE.at d = 0x301000 + d * 8 := rfl
    simp only [evtReg, he, Bool.or_eq_true, decide_eq_true_eq]
    exact .inl (.inr (by omega))
  simp only [State.domWake]
  repeat' split
  all_goals first
    | exact (wr_evtStep s _ _ _ hr).trans (setDom_evtStep _ _ _)
    | exact setDom_evtStep _ _ _

theorem wakeFor_evtStep (s : State) (q : Nat) : EvtStep s (s.wakeFor q) := by
  have key : ∀ (l : List Nat) (u : State), (∀ x ∈ l, x < 8) → EvtStep u (foldSt (fun cl (s : State) =>
      if (s.queue q).candidate cl && decide (s.domState (2 + cl) = 1 ∨ s.domState (2 + cl) = 2) then s.domWake (2 + cl) else s) l u) := by
    intro l
    induction l with
    | nil => intro u _; exact .refl u
    | cons x l ih =>
      intro u hl
      have hx := hl x (by simp)
      refine EvtStep.trans ?_ (ih _ (fun y hy => hl y (by simp [hy])))
      dsimp only
      split
      · exact domWake_evtStep _ (by omega)
      · exact .refl _
  exact key _ s (fun x hx => by simpa using hx)

theorem nextFree_evtStep (s : State) : EvtStep s s.nextFree := .of_regs rfl rfl

theorem enqueue_evtStep {s t : State} {it : Item} {k : Nat} (h : s.enqueue it = some (k, t)) : EvtStep s t := by
  simp only [State.enqueue] at h
  split at h
  · cases h
  · cases h
    refine EvtStep.trans ?_ (notePool_evtStep _)
    refine EvtStep.trans (EvtStep.trans ?_ (wakeFor_evtStep _ it.queue)) (nextFree_evtStep _)
    exact .of_regs rfl rfl

theorem signal_evtStep (s : State) (v : Nat) : EvtStep s (s.signal v).1 := by
  simp only [State.signal]
  split
  · refine EvtStep.trans ?_ (ctrRaw_evtStep _ _ rfl)
    refine EvtStep.trans ?_ (emit_evtStep _ _)
    exact .of_regs rfl rfl
  · exact .of_regs rfl rfl

theorem evtMsi_evtStep (s : State) (src : Nat) (b : Bool) (h : src < 512) : EvtStep s (s.evtMsi src b).1 := by
  have hr : evtReg (0x400200 + 8 * (src / 64)) = true := by
    have : src / 64 < 8 := by omega
    simp only [evtReg, Bool.or_eq_true, decide_eq_true_eq]
    exact .inl (by omega)
  simp only [State.evtMsi]
  split
  · exact (EvtStep.regSet s _ hr).trans (signal_evtStep _ _)
  · exact (EvtStep.regSet s _ hr).trans (.of_regs rfl rfl)

theorem evtTryItem_evtStep (s : State) (src : Nat) : EvtStep s (s.evtTryItem src).1 := by
  unfold State.evtTryItem
  split
  · simp only
    split
    · exact .refl s
    · split
      · split
        · rename_i k t h
          refine EvtStep.trans ?_ (ctrRaw_evtStep _ _ rfl)
          refine (enqueue_evtStep h).trans ?_
          exact .of_regs rfl rfl
        · exact .refl s
      · exact .refl s
  · exact .refl s

theorem evtQueue_evtStep (s : State) (src v n first : Nat) : EvtStep s (s.evtQueue src v n first).1 := by
  unfold State.evtQueue
  split
  · refine EvtStep.trans ?_ (ctrRaw_evtStep _ _ rfl)
    split
    · exact .of_regs rfl rfl
    · exact .of_regs rfl rfl
  · dsimp only
    split
    · refine EvtStep.trans ?_ (ctrRaw_evtStep _ _ rfl)
      refine EvtStep.trans ?_ (evtTryItem_evtStep _ _)
      exact .of_regs rfl rfl
    · refine EvtStep.trans ?_ (evtTryItem_evtStep _ _)
      exact .of_regs rfl rfl

theorem evtDeliver_evtStep (s : State) (src v n first : Nat) (b : Bool) (h : src < 512) :
    EvtStep s (s.evtDeliver src v n first b).1 := by
  simp only [State.evtDeliver]
  generalize ha : (if s.flag F.EVT_SRC_MSI_EN src = true then s.evtMsi src b else (s, [])) = a
  have h1 : EvtStep s a.1 := by
    rw [← ha]
    split
    · exact evtMsi_evtStep s src b h
    · exact .refl s
  split
  · exact h1.trans (evtQueue_evtStep _ _ _ _ _)
  · exact h1

theorem logStart_evtStep (s : State) : EvtStep s s.logStart := by
  unfold State.logStart
  repeat' split
  all_goals first | exact .refl s | exact .of_regs rfl rfl

theorem logDirty_evtStep (s : State) (i : Nat) (b : Bool) : EvtStep s (s.logDirty i b) := by
  refine EvtStep.trans ?_ (logStart_evtStep _)
  exact .of_regs rfl rfl

theorem takeLogToken_evtStep (s : State) (e : Nat) : EvtStep s (s.takeLogToken e).1 := .of_regs rfl rfl

theorem logOccur_evtStep (s : State) (code sev v : Nat) : EvtStep s (s.logOccur code sev v).1 := by
  simp only [State.logOccur]
  generalize htk : (if sev = 3 then (s, true) else s.takeLogToken _ : State × Bool) = tk
  have ht : EvtStep s tk.1 := by
    rw [← htk]
    split
    · exact .refl s
    · exact takeLogToken_evtStep s _
  split
  · exact ht.trans (ctrRaw_evtStep _ _ rfl)
  · rename_i i ev _
    generalize hu : (if ev = true then (tk.1.ctrRaw F.LOG_EVICTED_CTR.off 1).1 else tk.1) = u
    have hu1 : EvtStep s u := by
      rw [← hu]
      split
      · exact ht.trans (ctrRaw_evtStep _ _ rfl)
      · exact ht
    refine EvtStep.trans ?_ (logDirty_evtStep _ _ _)
    refine hu1.trans ?_
    split
    · exact .of_regs rfl rfl
    · exact .of_regs rfl rfl

theorem evtCore_evtStep (s : State) (src v : Nat) (h : src < 512) : EvtStep s (s.evtCore src v).1 := by
  have hc := ctrRaw_evtStep s (off := F.EVT_OCCURRED_CTR.off) 1 rfl
  simp only [State.evtCore]
  generalize s.ctrRaw F.EVT_OCCURRED_CTR.off 1 = c at hc ⊢
  generalize hd : (if (c.1.srcMasked src && !decide (sevOf src = 3)) = true then _ else _ : State × List Nat) = d
  have hd1 : EvtStep s d.1 := by
    rw [← hd]
    split
    · exact hc.trans (.of_regs rfl rfl)
    · exact hc.trans (evtDeliver_evtStep _ _ _ _ _ _ h)
  split
  · exact hd1
  · exact hd1.trans (logOccur_evtStep _ _ _ _)

theorem srcListed_lt {src : Nat} (h : srcListed src = true) : src < 512 := by
  simp only [srcListed, decide_eq_true_eq] at h
  omega

/-- Raising an event that is not FATAL. -/
theorem evtRaiseN_evtStep (n src v : Nat) (s : State) : EvtStep s (State.evtRaiseN n src v s) := by
  induction n generalizing src v s with
  | zero => exact .refl s
  | succ n ih =>
    simp only [State.evtRaiseN]
    split
    · rename_i h
      have hs := srcListed_lt (Bool.and_eq_true_iff.mp h).1
      refine EvtStep.trans (evtCore_evtStep s src v hs) ?_
      generalize (s.evtCore src v).2 = l
      generalize (s.evtCore src v).1 = u
      induction l generalizing u with
      | nil => exact .refl u
      | cons x l ihl => exact (ih 0x020 x u).trans (ihl _)
    · exact .refl s

theorem note_evtStep (s : State) (src v : Nat) : EvtStep s (s.note src v) := evtRaiseN_evtStep 8 src v s

/-- Counting: the counter's own register, and what raising CTR_SAT changes. -/
theorem ctr_evtOnly (s : State) (f : Fld) (i n : Nat) : EvtOnly s (s.ctr f i n) := by
  simp only [State.ctr]
  split
  · have h1 : EvtOnly s (s.ctrRaw (f.off + i * f.stride) n).1 := rfl
    have h2 := (note_evtStep (s.ctrRaw (f.off + i * f.stride) n).1 0x020 (f.off + i * f.stride)).1
    unfold EvtOnly at *
    rw [h2, h1]
  · rfl

theorem ctr_regGet (s : State) (f : Fld) (i n : Nat) {off : Nat} (h : off ≠ f.at i) (ho : evtReg off = false) :
    (s.ctr f i n).regGet off = s.regGet off := by
  have h1 : (s.ctrRaw (f.off + i * f.stride) n).1.regGet off = s.regGet off := regGet_regSet_other _ _ h
  simp only [State.ctr]
  split
  · exact ((note_evtStep _ _ _).2 off ho).trans h1
  · exact h1

/-! Fields that neither touches. -/

@[simp] theorem note_fuse (s : State) (src v : Nat) : (s.note src v).fuse = s.fuse := by rw [(note_evtStep s src v).1]
@[simp] theorem note_now (s : State) (src v : Nat) : (s.note src v).now = s.now := by rw [(note_evtStep s src v).1]
@[simp] theorem note_headId (s : State) (src v : Nat) : (s.note src v).headId = s.headId := by rw [(note_evtStep s src v).1]
@[simp] theorem note_life (s : State) (src v : Nat) : (s.note src v).life = s.life := by rw [(note_evtStep s src v).1]
@[simp] theorem note_locked (s : State) (src v : Nat) : (s.note src v).locked = s.locked := by rw [(note_evtStep s src v).1]
@[simp] theorem note_latches (s : State) (src v : Nat) : (s.note src v).latches = s.latches := by rw [(note_evtStep s src v).1]
@[simp] theorem note_threads (s : State) (src v : Nat) : (s.note src v).threads = s.threads := by rw [(note_evtStep s src v).1]
@[simp] theorem note_bufs (s : State) (src v : Nat) : (s.note src v).bufs = s.bufs := by rw [(note_evtStep s src v).1]
@[simp] theorem note_gens (s : State) (src v : Nat) : (s.note src v).gens = s.gens := by rw [(note_evtStep s src v).1]
@[simp] theorem note_mem (s : State) (src v : Nat) : (s.note src v).mem = s.mem := by rw [(note_evtStep s src v).1]
@[simp] theorem note_eccFix (s : State) (src v : Nat) : (s.note src v).eccFix = s.eccFix := by rw [(note_evtStep s src v).1]
@[simp] theorem note_eccBad (s : State) (src v : Nat) : (s.note src v).eccBad = s.eccBad := by rw [(note_evtStep s src v).1]
@[simp] theorem note_dcache (s : State) (src v : Nat) : (s.note src v).dcache = s.dcache := by rw [(note_evtStep s src v).1]
@[simp] theorem note_rings (s : State) (src v : Nat) : (s.note src v).rings = s.rings := by rw [(note_evtStep s src v).1]
@[simp] theorem note_comps (s : State) (src v : Nat) : (s.note src v).comps = s.comps := by rw [(note_evtStep s src v).1]
@[simp] theorem note_arbs (s : State) (src v : Nat) : (s.note src v).arbs = s.arbs := by rw [(note_evtStep s src v).1]
@[simp] theorem note_srch (s : State) (src v : Nat) : (s.note src v).srch = s.srch := by rw [(note_evtStep s src v).1]
@[simp] theorem note_srchBusy (s : State) (src v : Nat) : (s.note src v).srchBusy = s.srchBusy := by rw [(note_evtStep s src v).1]
@[simp] theorem note_prms (s : State) (src v : Nat) : (s.note src v).prms = s.prms := by rw [(note_evtStep s src v).1]
@[simp] theorem note_wktBuckets (s : State) (src v : Nat) : (s.note src v).wktBuckets = s.wktBuckets := by rw [(note_evtStep s src v).1]
@[simp] theorem note_braceAt (s : State) (src v : Nat) : (s.note src v).braceAt = s.braceAt := by rw [(note_evtStep s src v).1]
@[simp] theorem note_tookOver (s : State) (src v : Nat) : (s.note src v).tookOver = s.tookOver := by rw [(note_evtStep s src v).1]
@[simp] theorem note_rxRing (s : State) (src v : Nat) : (s.note src v).rxRing = s.rxRing := by rw [(note_evtStep s src v).1]
@[simp] theorem note_fe (s : State) (src v : Nat) : (s.note src v).fe = s.fe := by rw [(note_evtStep s src v).1]
@[simp] theorem note_trn (s : State) (src v : Nat) : (s.note src v).trn = s.trn := by rw [(note_evtStep s src v).1]
@[simp] theorem note_slotRsv (s : State) (src v : Nat) : (s.note src v).slotRsv = s.slotRsv := by rw [(note_evtStep s src v).1]
@[simp] theorem note_dg (s : State) (src v : Nat) : (s.note src v).dg = s.dg := by rw [(note_evtStep s src v).1]
@[simp] theorem note_ddx (s : State) (src v : Nat) : (s.note src v).ddx = s.ddx := by rw [(note_evtStep s src v).1]
@[simp] theorem note_xtsKeys (s : State) (src v : Nat) : (s.note src v).xtsKeys = s.xtsKeys := by rw [(note_evtStep s src v).1]
@[simp] theorem note_sleds (s : State) (src v : Nat) : (s.note src v).sleds = s.sleds := by rw [(note_evtStep s src v).1]
@[simp] theorem note_lanes (s : State) (src v : Nat) : (s.note src v).lanes = s.lanes := by rw [(note_evtStep s src v).1]
@[simp] theorem note_seg (s : State) (src v : Nat) : (s.note src v).seg = s.seg := by rw [(note_evtStep s src v).1]
@[simp] theorem note_map (s : State) (src v : Nat) : (s.note src v).map = s.map := by rw [(note_evtStep s src v).1]
@[simp] theorem note_vlt (s : State) (src v : Nat) : (s.note src v).vlt = s.vlt := by rw [(note_evtStep s src v).1]
@[simp] theorem note_pins (s : State) (src v : Nat) : (s.note src v).pins = s.pins := by rw [(note_evtStep s src v).1]
@[simp] theorem note_pwr (s : State) (src v : Nat) : (s.note src v).pwr = s.pwr := by rw [(note_evtStep s src v).1]
@[simp] theorem note_pcie (s : State) (src v : Nat) : (s.note src v).pcie = s.pcie := by rw [(note_evtStep s src v).1]
@[simp] theorem note_mbx (s : State) (src v : Nat) : (s.note src v).mbx = s.mbx := by rw [(note_evtStep s src v).1]
@[simp] theorem note_i2c (s : State) (src v : Nat) : (s.note src v).i2c = s.i2c := by rw [(note_evtStep s src v).1]
@[simp] theorem note_pending (s : State) (src v : Nat) : (s.note src v).pending = s.pending := by rw [(note_evtStep s src v).1]
@[simp] theorem ctr_fuse (s : State) (f : Fld) (i n : Nat) : (s.ctr f i n).fuse = s.fuse := by rw [ctr_evtOnly s f i n]
@[simp] theorem ctr_now (s : State) (f : Fld) (i n : Nat) : (s.ctr f i n).now = s.now := by rw [ctr_evtOnly s f i n]
@[simp] theorem ctr_headId (s : State) (f : Fld) (i n : Nat) : (s.ctr f i n).headId = s.headId := by rw [ctr_evtOnly s f i n]
@[simp] theorem ctr_life (s : State) (f : Fld) (i n : Nat) : (s.ctr f i n).life = s.life := by rw [ctr_evtOnly s f i n]
@[simp] theorem ctr_locked (s : State) (f : Fld) (i n : Nat) : (s.ctr f i n).locked = s.locked := by rw [ctr_evtOnly s f i n]
@[simp] theorem ctr_latches (s : State) (f : Fld) (i n : Nat) : (s.ctr f i n).latches = s.latches := by rw [ctr_evtOnly s f i n]
@[simp] theorem ctr_threads (s : State) (f : Fld) (i n : Nat) : (s.ctr f i n).threads = s.threads := by rw [ctr_evtOnly s f i n]
@[simp] theorem ctr_bufs (s : State) (f : Fld) (i n : Nat) : (s.ctr f i n).bufs = s.bufs := by rw [ctr_evtOnly s f i n]
@[simp] theorem ctr_gens (s : State) (f : Fld) (i n : Nat) : (s.ctr f i n).gens = s.gens := by rw [ctr_evtOnly s f i n]
@[simp] theorem ctr_mem (s : State) (f : Fld) (i n : Nat) : (s.ctr f i n).mem = s.mem := by rw [ctr_evtOnly s f i n]
@[simp] theorem ctr_eccFix (s : State) (f : Fld) (i n : Nat) : (s.ctr f i n).eccFix = s.eccFix := by rw [ctr_evtOnly s f i n]
@[simp] theorem ctr_eccBad (s : State) (f : Fld) (i n : Nat) : (s.ctr f i n).eccBad = s.eccBad := by rw [ctr_evtOnly s f i n]
@[simp] theorem ctr_dcache (s : State) (f : Fld) (i n : Nat) : (s.ctr f i n).dcache = s.dcache := by rw [ctr_evtOnly s f i n]
@[simp] theorem ctr_rings (s : State) (f : Fld) (i n : Nat) : (s.ctr f i n).rings = s.rings := by rw [ctr_evtOnly s f i n]
@[simp] theorem ctr_comps (s : State) (f : Fld) (i n : Nat) : (s.ctr f i n).comps = s.comps := by rw [ctr_evtOnly s f i n]
@[simp] theorem ctr_arbs (s : State) (f : Fld) (i n : Nat) : (s.ctr f i n).arbs = s.arbs := by rw [ctr_evtOnly s f i n]
@[simp] theorem ctr_srch (s : State) (f : Fld) (i n : Nat) : (s.ctr f i n).srch = s.srch := by rw [ctr_evtOnly s f i n]
@[simp] theorem ctr_srchBusy (s : State) (f : Fld) (i n : Nat) : (s.ctr f i n).srchBusy = s.srchBusy := by rw [ctr_evtOnly s f i n]
@[simp] theorem ctr_prms (s : State) (f : Fld) (i n : Nat) : (s.ctr f i n).prms = s.prms := by rw [ctr_evtOnly s f i n]
@[simp] theorem ctr_wktBuckets (s : State) (f : Fld) (i n : Nat) : (s.ctr f i n).wktBuckets = s.wktBuckets := by rw [ctr_evtOnly s f i n]
@[simp] theorem ctr_braceAt (s : State) (f : Fld) (i n : Nat) : (s.ctr f i n).braceAt = s.braceAt := by rw [ctr_evtOnly s f i n]
@[simp] theorem ctr_tookOver (s : State) (f : Fld) (i n : Nat) : (s.ctr f i n).tookOver = s.tookOver := by rw [ctr_evtOnly s f i n]
@[simp] theorem ctr_rxRing (s : State) (f : Fld) (i n : Nat) : (s.ctr f i n).rxRing = s.rxRing := by rw [ctr_evtOnly s f i n]
@[simp] theorem ctr_fe (s : State) (f : Fld) (i n : Nat) : (s.ctr f i n).fe = s.fe := by rw [ctr_evtOnly s f i n]
@[simp] theorem ctr_trn (s : State) (f : Fld) (i n : Nat) : (s.ctr f i n).trn = s.trn := by rw [ctr_evtOnly s f i n]
@[simp] theorem ctr_slotRsv (s : State) (f : Fld) (i n : Nat) : (s.ctr f i n).slotRsv = s.slotRsv := by rw [ctr_evtOnly s f i n]
@[simp] theorem ctr_dg (s : State) (f : Fld) (i n : Nat) : (s.ctr f i n).dg = s.dg := by rw [ctr_evtOnly s f i n]
@[simp] theorem ctr_ddx (s : State) (f : Fld) (i n : Nat) : (s.ctr f i n).ddx = s.ddx := by rw [ctr_evtOnly s f i n]
@[simp] theorem ctr_xtsKeys (s : State) (f : Fld) (i n : Nat) : (s.ctr f i n).xtsKeys = s.xtsKeys := by rw [ctr_evtOnly s f i n]
@[simp] theorem ctr_sleds (s : State) (f : Fld) (i n : Nat) : (s.ctr f i n).sleds = s.sleds := by rw [ctr_evtOnly s f i n]
@[simp] theorem ctr_lanes (s : State) (f : Fld) (i n : Nat) : (s.ctr f i n).lanes = s.lanes := by rw [ctr_evtOnly s f i n]
@[simp] theorem ctr_seg (s : State) (f : Fld) (i n : Nat) : (s.ctr f i n).seg = s.seg := by rw [ctr_evtOnly s f i n]
@[simp] theorem ctr_map (s : State) (f : Fld) (i n : Nat) : (s.ctr f i n).map = s.map := by rw [ctr_evtOnly s f i n]
@[simp] theorem ctr_vlt (s : State) (f : Fld) (i n : Nat) : (s.ctr f i n).vlt = s.vlt := by rw [ctr_evtOnly s f i n]
@[simp] theorem ctr_pins (s : State) (f : Fld) (i n : Nat) : (s.ctr f i n).pins = s.pins := by rw [ctr_evtOnly s f i n]
@[simp] theorem ctr_pwr (s : State) (f : Fld) (i n : Nat) : (s.ctr f i n).pwr = s.pwr := by rw [ctr_evtOnly s f i n]
@[simp] theorem ctr_pcie (s : State) (f : Fld) (i n : Nat) : (s.ctr f i n).pcie = s.pcie := by rw [ctr_evtOnly s f i n]
@[simp] theorem ctr_mbx (s : State) (f : Fld) (i n : Nat) : (s.ctr f i n).mbx = s.mbx := by rw [ctr_evtOnly s f i n]
@[simp] theorem ctr_i2c (s : State) (f : Fld) (i n : Nat) : (s.ctr f i n).i2c = s.i2c := by rw [ctr_evtOnly s f i n]
@[simp] theorem ctr_pending (s : State) (f : Fld) (i n : Nat) : (s.ctr f i n).pending = s.pending := by rw [ctr_evtOnly s f i n]

@[simp] theorem note_thread (s : State) (src v t : Nat) : (s.note src v).thread t = s.thread t := by simp [State.thread]
@[simp] theorem ctr_thread (s : State) (f : Fld) (i n t : Nat) : (s.ctr f i n).thread t = s.thread t := by simp [State.thread]

/-- A field whose register no event writes reads the same after one. -/
theorem note_rd (s : State) (src v : Nat) (f : Fld) (i : Nat) (h : evtReg (f.at i) = false) : (s.note src v).rd f i = s.rd f i := by
  show bitsOf ((s.note src v).regGet (f.at i)).toNat f.lo f.width = _
  rw [(note_evtStep s src v).2 _ h]
  rfl

theorem ctr_rd (s : State) (f : Fld) (i n : Nat) (g : Fld) (j : Nat) (h : g.at j ≠ f.at i) (ho : evtReg (g.at j) = false) :
    (s.ctr f i n).rd g j = s.rd g j := by
  show bitsOf ((s.ctr f i n).regGet (g.at j)).toNat g.lo g.width = _
  rw [ctr_regGet _ _ _ _ h ho]
  rfl

end Sys2Proof.Machine
end

