-- ==== Sys2Proof/Laws/Jobs.lean ====
section
/-! SUPPORT. What running the job at the head of a ring can do (R62, R66, R95). -/

namespace Sys2Proof.Machine

/-- The completion record of a job that ends. -/
def JobEnd.comp (j : Job) (inst : Nat) (e : JobEnd) : Comp :=
  { gid := j.gid, status := e.status, unit := inst, ticket := j.ticket, aux := e.aux % 2 ^ 32, result := e.result % 2 ^ 64 }

/-- The states a job leaves behind, by what its unit did with it; a front-end or segment job may end late (R96). -/
def jobAfter (cls inst cl : Nat) (j : Job) : JobDo → State
  | .done s' h e => (s'.popRing cls inst cl).complete j inst h (if cls = 0x01 ∨ cls = 0x08 then s'.lateEnd j e else e)
  | .taken s' => s'.popRing cls inst cl
  | .held s' => s'

variable (s : State) (cls inst cl : Nat) (mine : Job → Bool) (check : Job → State → Bool) (body : Job → State → JobDo)

/-- Dropping a buffer leaves the completions as they are. -/
@[simp] theorem stgDrop_comps (h : Nat) : (s.stgDrop h).comps = s.comps := by
  unfold State.stgDrop State.stgFree; split <;> rfl

/-- Completing a job adds its record behind those in flight. -/
theorem complete_comps (j : Job) (h : Nat) (e : JobEnd) :
    (s.complete j inst h e).comps = s.comps ++ [e.comp j inst] := by
  unfold State.complete
  dsimp only
  split
  · rw [stgDrop_comps]; rfl
  · rfl

/-- An empty ring: nothing happens. -/
theorem runJob_empty (h : s.ring cls inst cl = []) : s.runJob cls inst cl mine check body = s := by
  unfold State.runJob; rw [h]

/-- The job that heads a ring, ready, of the row's kind and passing its checks: the unit does its work. -/
theorem runJob_ready {j : Job} (h : s.JobReady cls inst cl j) (hm : mine j = true) (hc : check j s = true) :
    s.runJob cls inst cl mine check body = jobAfter cls inst cl j (body j s) := by
  obtain ⟨hr, hp, hd, hg, ho, hf⟩ := h
  obtain ⟨rest, hr⟩ : ∃ rest, s.ring cls inst cl = j :: rest := by
    cases h : s.ring cls inst cl with
    | nil => rw [h] at hr; cases hr
    | cons k l => rw [h] at hr; cases hr; exact ⟨l, rfl⟩
  unfold State.runJob jobAfter
  rw [hr]
  simp only [hp, hd, hg, ho, hf, hm, hc, Bool.not_true, Bool.or_self, Bool.false_eq_true, if_false] <;> cases body j s <;> rfl

/-- A ready job of the row's kind that fails its checks ends BAD_JOB. -/
theorem runJob_bad {j : Job} (h : s.JobReady cls inst cl j) (hm : mine j = true) (hc : check j s = false) :
    s.runJob cls inst cl mine check body = (s.popRing cls inst cl).complete j inst 0 .bad := by
  obtain ⟨hr, hp, hd, hg, ho, hf⟩ := h
  obtain ⟨rest, hr⟩ : ∃ rest, s.ring cls inst cl = j :: rest := by
    cases h : s.ring cls inst cl with
    | nil => rw [h] at hr; cases hr
    | cons k l => rw [h] at hr; cases hr; exact ⟨l, rfl⟩
  unfold State.runJob
  rw [hr]
  simp [hp, hd, hg, ho, hf, hm, hc]

/-- Everything running a row's job can do: nothing, a BAD_JOB ending of the head job, or the work of the unit on it. -/
theorem runJob_cases :
    s.runJob cls inst cl mine check body = s ∨
      ∃ j rest, s.ring cls inst cl = j :: rest ∧ s.unitPresent cls inst = true ∧ s.domRuns (unitDomain cls inst) = true ∧
        s.granted cls inst cl = true ∧
        (s.runJob cls inst cl mine check body = (s.popRing cls inst cl).complete j inst 0 .bad ∨
          mine j = true ∧ check j s = true ∧ s.runJob cls inst cl mine check body = jobAfter cls inst cl j (body j s)) := by
  cases hr : s.ring cls inst cl with
  | nil => exact .inl (runJob_empty s cls inst cl mine check body hr)
  | cons j rest =>
    by_cases hu : (!s.unitPresent cls inst || !s.domRuns (unitDomain cls inst) || !s.granted cls inst cl) = true
    · left; unfold State.runJob; rw [hr]; simp only [hu, if_true]
    · have hu' := hu
      simp only [Bool.or_eq_true, Bool.not_eq_true', not_or, Bool.not_eq_false] at hu'
      by_cases ho : opDefined cls j.op = true
      · by_cases hm : mine j = true
        · right
          refine ⟨j, rest, rfl, hu'.1.1, hu'.1.2, hu'.2, ?_⟩
          by_cases hc : (!j.flagsOk || !check j s) = true
          · left; unfold State.runJob; rw [hr]; simp only [hu, ho, hm, hc, Bool.not_true, Bool.false_eq_true, if_false, if_true]
          · right
            have hc' := hc
            simp only [Bool.or_eq_true, Bool.not_eq_true', not_or, Bool.not_eq_false] at hc'
            exact ⟨hm, hc'.2, runJob_ready s cls inst cl mine check body
              ⟨by rw [hr]; rfl, hu'.1.1, hu'.1.2, hu'.2, ho, hc'.1⟩ hm hc'.2⟩
        · left; unfold State.runJob; rw [hr]
          simp only [hu, ho, hm, Bool.not_true, Bool.not_false, Bool.false_eq_true, if_false, if_true]
      · right
        refine ⟨j, rest, rfl, hu'.1.1, hu'.1.2, hu'.2, .inl ?_⟩
        unfold State.runJob; rw [hr]
        simp only [hu, ho, Bool.not_false, Bool.false_eq_true, if_false, if_true]

end Sys2Proof.Machine
end

