-- ==== Sys2Proof/Laws/Memory.lean ====
section
/-! SUPPORT. Memory: a read after a write, and that every memory operation keeps the canonical form. -/

namespace Sys2Proof.Machine

/-! Reads and writes. -/

@[simp] theorem memGet_memPut_same (m : List Host.Cell) (a : Nat) (b : Byte) : memGet (memPut m a b) a = b :=
  SMap.findD_putD_same m a b 0

theorem memGet_memPut_other (m : List Host.Cell) {a a' : Nat} (b : Byte) (h : a' ≠ a) :
    memGet (memPut m a b) a' = memGet m a' :=
  SMap.findD_putD_other m b 0 0 h

/-- A byte outside the bytes stored reads as before. -/
theorem memGet_memWrite_outside (bs : List Byte) (m : List Host.Cell) (a a' : Nat)
    (h : a' < a ∨ a + bs.length ≤ a') : memGet (memWrite m a bs) a' = memGet m a' := by
  induction bs generalizing m a with
  | nil => rfl
  | cons b bs ih =>
    simp only [List.length_cons] at h
    rw [memWrite, ih _ _ (by omega), memGet_memPut_other _ _ (by omega)]

/-- A byte inside reads what was stored. -/
theorem memGet_memWrite_inside (bs : List Byte) (m : List Host.Cell) (a i : Nat) (h : i < bs.length) :
    memGet (memWrite m a bs) (a + i) = bs[i] := by
  induction bs generalizing m a i with
  | nil => simp at h
  | cons b bs ih =>
    rw [memWrite]
    cases i with
    | zero =>
      rw [memGet_memWrite_outside _ _ _ _ (by omega)]
      simp
    | succ i =>
      have := ih (memPut m a b) (a + 1) i (by simpa using h)
      rw [show a + (i + 1) = a + 1 + i by omega, this]
      rfl

theorem memRead_length (m : List Host.Cell) (a n : Nat) : (memRead m a n).length = n := by
  induction n generalizing a with
  | zero => rfl
  | succ n ih => simp [memRead, ih]

/-- A range read after it was stored. -/
theorem memRead_memWrite (bs : List Byte) (m : List Host.Cell) (a : Nat) : memRead (memWrite m a bs) a bs.length = bs := by
  induction bs generalizing m a with
  | nil => rfl
  | cons b bs ih =>
    simp only [memWrite, List.length_cons, memRead, ih]
    rw [memGet_memWrite_outside _ _ _ _ (by omega), memGet_memPut_same]

/-! The canonical form. -/

/-- Addresses rise strictly, and no entry holds the value an unlisted address reads as. -/
theorem wf_iff (m : List Host.Cell) : Memory.wf m = true ↔ SMap.sorted m ∧ ∀ p ∈ m, p.2 ≠ 0 := by
  induction m with
  | nil => simp [Memory.wf, SMap.sorted]
  | cons p m ih =>
    obtain ⟨a, b⟩ := p
    cases m with
    | nil => simp [Memory.wf, SMap.sorted, SMap.above]
    | cons q m =>
      obtain ⟨a', b'⟩ := q
      simp only [Memory.wf, Bool.and_eq_true, decide_eq_true_eq, ih]
      constructor
      · rintro ⟨⟨h1, h2⟩, h3, h4⟩
        refine ⟨⟨fun r hr => ?_, h3⟩, fun r hr => ?_⟩
        · rcases List.mem_cons.mp hr with rfl | hr
          · exact h1
          · exact Nat.lt_trans h1 (h3.1 r hr)
        · rcases List.mem_cons.mp hr with rfl | hr
          · exact h2
          · exact h4 r hr
      · rintro ⟨⟨h1, h2⟩, h3⟩
        exact ⟨⟨h1 (a', b') (by simp), h3 (a, b) (by simp)⟩, h2, fun r hr => h3 r (List.mem_cons_of_mem _ hr)⟩

theorem SMap.mem_put {α : Type} {m : SMap α} {k : Nat} {v : α} {p : Nat × α} (h : p ∈ SMap.put m k v) : p = (k, v) ∨ p ∈ m := by
  induction m with
  | nil => simpa [SMap.put] using h
  | cons q m ih =>
    simp only [SMap.put] at h
    split at h
    · rcases List.mem_cons.mp h with h | h
      · exact .inl h
      · exact .inr (List.mem_cons_of_mem _ h)
    · split at h
      · rcases List.mem_cons.mp h with h | h
        · exact .inl h
        · exact .inr h
      · rcases List.mem_cons.mp h with h | h
        · exact .inr (h ▸ List.mem_cons_self)
        · exact (ih h).imp_right (List.mem_cons_of_mem _)

theorem SMap.mem_del {α : Type} {m : SMap α} {k : Nat} {p : Nat × α} (h : p ∈ SMap.del m k) : p ∈ m := by
  induction m with
  | nil => exact h
  | cons q m ih =>
    simp only [SMap.del] at h
    split at h
    · exact List.mem_cons_of_mem _ (ih h)
    · rcases List.mem_cons.mp h with h | h
      · exact h ▸ List.mem_cons_self
      · exact List.mem_cons_of_mem _ (ih h)

/-- A stored byte keeps the canonical form. -/
theorem memPut_wf (m : List Host.Cell) (a : Nat) (b : Byte) (h : Memory.wf m = true) : Memory.wf (memPut m a b) = true := by
  obtain ⟨h1, h2⟩ := (wf_iff m).mp h
  refine (wf_iff _).mpr ⟨SMap.sorted_putD h1, fun p hp => ?_⟩
  unfold memPut SMap.putD at hp
  split at hp
  · exact h2 p (SMap.mem_del hp)
  · rename_i hb
    rcases SMap.mem_put hp with rfl | hp
    · exact hb
    · exact h2 p hp

/-- Stored bytes keep the canonical form. -/
theorem memWrite_wf (bs : List Byte) (m : List Host.Cell) (a : Nat) (h : Memory.wf m = true) : Memory.wf (memWrite m a bs) = true := by
  induction bs generalizing m a with
  | nil => exact h
  | cons b bs ih => exact ih _ _ (memPut_wf m a b h)

/-- Dropping bytes keeps the canonical form. -/
theorem filter_wf (m : List Host.Cell) (f : Host.Cell → Bool) (h : Memory.wf m = true) : Memory.wf (m.filter f) = true := by
  obtain ⟨h1, h2⟩ := (wf_iff m).mp h
  refine (wf_iff _).mpr ⟨?_, fun p hp => h2 p (List.mem_filter.mp hp).1⟩
  clear h h2
  induction m with
  | nil => exact h1
  | cons q m ih =>
    obtain ⟨hq, hm⟩ := h1
    rw [List.filter_cons]
    split
    · exact ⟨fun p hp => hq p (List.mem_filter.mp hp).1, ih hm⟩
    · exact ih hm

theorem stMem_wf (s : State) (a n v : Nat) (h : Memory.wf s.mem = true) : Memory.wf (s.stMem a n v).mem = true :=
  memWrite_wf _ _ _ h

theorem setBytes_wf (s : State) (a : Nat) (bs : List Byte) (h : Memory.wf s.mem = true) : Memory.wf (s.setBytes a bs).mem = true :=
  memWrite_wf _ _ _ h

theorem memDrop_wf (s : State) (lo hi : Nat) (h : Memory.wf s.mem = true) : Memory.wf (s.memDrop lo hi).mem = true :=
  filter_wf _ _ h

theorem zeroMem_wf (s : State) (a n : Nat) (h : Memory.wf s.mem = true) : Memory.wf (s.zeroMem a n).mem = true :=
  filter_wf _ _ h

theorem reset_wf : Memory.wf State.reset.mem = true := rfl

end Sys2Proof.Machine
end

