-- ==== Sys2Proof/Laws/Threads.lean ====
section
/-! SUPPORT. Threads: what a changed thread reads, what issuing an instruction can do, and what exception entry leaves. -/

namespace Sys2Proof.Machine

@[simp] theorem thread_updThread_same (s : State) (t : Nat) (f : Thread → Thread) :
    (s.updThread t f).thread t = f (s.thread t) :=
  SMap.findD_upd_same s.threads t Thread.init f

theorem thread_updThread_other (s : State) {t u : Nat} (f : Thread → Thread) (h : u ≠ t) :
    (s.updThread t f).thread u = s.thread u :=
  SMap.findD_upd_other s.threads Thread.init f h

@[simp] theorem thread_regSet (s : State) (off : Nat) (v : Word) (t : Nat) : (s.regSet off v).thread t = s.thread t := rfl
@[simp] theorem thread_wr (s : State) (f : Fld) (v i t : Nat) : (s.wr f v i).thread t = s.thread t := rfl

/-! General registers. -/

@[simp] theorem getG_zero (th : Thread) : th.getG 0 = 0 := rfl

theorem getG_setG_same (th : Thread) {r : Nat} (v : Word) (h : r ≠ 0) : (th.setG r v).getG r = v := by
  simp [Thread.getG, Thread.setG, h]

theorem getG_setG_other (th : Thread) {r q : Nat} (v : Word) (h : q ≠ r) : (th.setG r v).getG q = th.getG q := by
  unfold Thread.setG
  split
  · rfl
  · simp only [Thread.getG]
    split
    · rfl
    · exact SMap.findD_putD_other _ _ _ _ h

@[simp] theorem setG_zero (th : Thread) (v : Word) : th.setG 0 v = th := rfl

@[simp] theorem setG_pc (th : Thread) (r : Nat) (v : Word) : (th.setG r v).pc = th.pc := by unfold Thread.setG; split <;> rfl
@[simp] theorem setG_st (th : Thread) (r : Nat) (v : Word) : (th.setG r v).st = th.st := by unfold Thread.setG; split <;> rfl
@[simp] theorem setG_keeper (th : Thread) (r : Nat) (v : Word) : (th.setG r v).keeper = th.keeper := by
  unfold Thread.setG; split <;> rfl
@[simp] theorem setG_item (th : Thread) (r : Nat) (v : Word) : (th.setG r v).item = th.item := by
  unfold Thread.setG; split <;> rfl
@[simp] theorem setG_tickets (th : Thread) (r : Nat) (v : Word) : (th.setG r v).tickets = th.tickets := by
  unfold Thread.setG; split <;> rfl

/-- The thread after an instruction that writes one register. -/
theorem thread_retire (s : State) (t rd : Nat) (v : Word) :
    (s.retire t rd v).thread t = { (s.thread t).setG rd v with pc := (s.thread t).pc + 4 } := by
  simp [State.retire, State.advance, State.setG]

theorem thread_retire_other (s : State) {t u : Nat} (rd : Nat) (v : Word) (h : u ≠ t) :
    (s.retire t rd v).thread u = s.thread u := by
  simp [State.retire, State.advance, State.setG, thread_updThread_other _ _ h]

/-! Issue. -/

/-- A thread that is ready carries out the body of its instruction. -/
theorem issue_ready {s : State} {t : Nat} (h : s.Ready t) (body : State → Body) :
    s.issue t body = (body s).apply t (s.thread t).pc := by
  obtain ⟨h1, h2, h3, h4, h5, h6⟩ := h
  simp [State.issue, State.eccCorrect, h1, h2, h3, h4, h5, h6]

/-- All that issuing an instruction can do: nothing, an exception before the instruction, or the instruction, once its word is
correct. -/
theorem issue_cases (s : State) (t : Nat) (body : State → Body) :
    s.issue t body = s ∨
    s.issue t body = (s.updThread t (fun th => { th with wdog := false })).trap t vecWatchdog 0 (s.thread t).pc ∨
    s.issue t body = s.trap t vecBreak (s.thread t).pc ((s.thread t).pc + 4) ∨
    s.issue t body = s.trap t vecAccess (s.thread t).pc (s.thread t).pc ∨
    s.issue t body = s.trap t vecFetch (s.thread t).pc (s.thread t).pc ∨
    s.issue t body = (body (s.eccCorrect (clusterOf t) (s.thread t).pc.toNat 4)).apply t (s.thread t).pc := by
  unfold State.issue
  dsimp only
  by_cases h1 : s.canIssue t = true
  · rw [if_pos h1]
    by_cases h2 : (s.thread t).wdog = true
    · rw [if_pos h2]; exact .inr (.inl rfl)
    · rw [if_neg h2]
      by_cases h3 : s.atBreak t = true
      · rw [if_pos h3]; exact .inr (.inr (.inl rfl))
      · rw [if_neg h3]
        by_cases h4 : s.fetchBarred t (s.thread t).pc.toNat = true
        · rw [if_pos h4]; exact .inr (.inr (.inr (.inl rfl)))
        · rw [if_neg h4]
          by_cases h5 : s.canFetch t (s.thread t).pc.toNat = true
          · rw [if_pos h5]; exact .inr (.inr (.inr (.inr (.inr rfl))))
          · rw [if_neg h5]; exact .inr (.inr (.inr (.inr (.inl rfl))))
  · rw [if_neg h1]; exact .inl rfl

theorem apply_put (s : State) (t rd : Nat) (v pc : Word) : (s.put t rd v).apply t pc = s.retire t rd v := rfl

/-- Exception entry of a thread that is in no exception (R41). -/
theorem trap_thread {s : State} {t : Nat} (vec : Nat) (eval epc : Word) (h : (s.thread t).exc = false) :
    (s.trap t vec eval epc).thread t =
      { s.thread t with epc := epc, ecause := vec, eval := eval, pkeeper := (s.thread t).keeper, keeper := true, exc := true,
                        st := .run, wait := none, pc := (s.thread t).evec + BitVec.ofNat 64 (64 * vec) } := by
  simp [State.trap, h]

theorem trap_mem {s : State} {t : Nat} (vec : Nat) (eval epc : Word) (h : (s.thread t).exc = false) :
    (s.trap t vec eval epc).mem = s.mem := by
  simp [State.trap, h]

end Sys2Proof.Machine
end

