-- ==== Sys2Proof/WellFormed.lean ====
section
/-! DEFINITION. Which commands are well formed: every operand names something the head has and fits the field it stands in. The
instruction fields of a Mequesko instruction are bit vectors of their width (R72) and need no check. `exec` is total: what an
ill-formed command does is said there, and is almost always nothing. -/

namespace Sys2Proof

/-- One of the 8 core clusters (R35). -/
def clusterOk (cl : Nat) : Bool := decide (cl < 8)
/-- One of the 4 quads of the front end or the Transom (R1). -/
def quadOk (q : Nat) : Bool := decide (q < 4)
/-- One of the 16 Ox units, digest lanes or XTS lanes (R1). -/
def engineOk (n : Nat) : Bool := decide (n < 16)
/-- One of the 64 media lanes (R1). -/
def laneOk (n : Nat) : Bool := decide (n < 64)
/-- One of the 64 entries of `PWR_DOM` (R415). -/
def domainOk (d : Nat) : Bool := decide (d < 64)
/-- One of the 512 event sources or vectors (R432). -/
def sourceOk (n : Nat) : Bool := decide (n < 512)
/-- A value that fits a register (R11). -/
def wordOk (v : Nat) : Bool := decide (v < 2 ^ 64)
/-- An offset within BAR0 (R451). -/
def bar0Ok (off : Nat) : Bool := decide (off < 0x4000000)
/-- The service host, or one of the 64 cores (R438). -/
def portOk : Port → Bool
  | .host => true
  | .core n => decide (n < 64)
/-- The destination address of a frame has 48 bits, its VLAN 12 and its priorities 8 (R131). -/
def frameOk (f : RxFrame) : Bool := decide (f.dst < 2 ^ 48 ∧ f.vlan < 4096) && f.pfc.all (fun p => decide (p.1 < 256 ∧ p.2.length = 8))
/-- A connection index and the digests of a PDU (R141, R142). -/
def pduOk (c hd dd : Nat) : Bool := decide (c < 2 ^ 20 ∧ hd < 2 ^ 32 ∧ dd < 2 ^ 32)
/-- The fields of an acknowledgement (R136). -/
def ackOk (a : TcpAck) : Bool :=
  decide (a.wnd < 2 ^ 16 ∧ a.sack.length ≤ 4) && a.ts.all (fun p => decide (p.1 < 2 ^ 32 ∧ p.2 < 2 ^ 32))
/-- The timer field of an RNR NAK has 5 bits. -/
def rnrOk (k : AckKind) : Bool :=
  match k with
  | .rnr t => decide (t < 32)
  | _ => true

/-- The fields of a RoCEv2 packet (R333, R340). -/
def roceOk (p : RocePkt) : Bool :=
  decide (p.opc < 256 ∧ p.psn < 2 ^ 24 ∧ p.vaddr < 2 ^ 64 ∧ p.rkey < 2 ^ 32 ∧ p.dmaLen < 2 ^ 32 ∧ p.imm < 2 ^ 32 ∧
    p.data.length ≤ 4096)
/-- The fields of a frame from a sled (R292, R294). -/
def nmlRxOk (f : NmlRx) : Bool := decide (f.fseq < 4096 ∧ f.tag < 2 ^ 16)
/-- The fields of an NML command (R297). -/
def nmlCmdOk (c : NmlCmd) : Bool := decide (c.opc < 256 ∧ c.die < 256 ∧ c.epoch < 2 ^ 16)

/-- Is a command well formed? -/
def Instr.wellFormed : Instr → Bool
  | .add _ _ _ _ | .sub _ _ _ _ | .and _ _ _ _ | .or _ _ _ _ | .xor _ _ _ _ | .andn _ _ _ _ | .sll _ _ _ _
  | .srl _ _ _ _ | .sra _ _ _ _ | .rotr _ _ _ _ | .slt _ _ _ _ | .sltu _ _ _ _ | .min _ _ _ _ | .max _ _ _ _
  | .minu _ _ _ _ | .maxu _ _ _ _ | .serB _ _ _ _ | .serH _ _ _ _ | .serP _ _ _ _ | .serW _ _ _ _ | .mul _ _ _ _
  | .mulh _ _ _ _ | .mulhu _ _ _ _ | .div _ _ _ _ | .divu _ _ _ _ | .rem _ _ _ _ | .remu _ _ _ _ | .clz _ _ _
  | .ctz _ _ _ | .popc _ _ _ | .bswap _ _ _ | .addi _ _ _ _ | .andi _ _ _ _ | .ori _ _ _ _ | .xori _ _ _ _
  | .slti _ _ _ _ | .sltiu _ _ _ _ | .slli _ _ _ _ | .srli _ _ _ _ | .srai _ _ _ _ | .lui _ _ _ | .shi _ _ _ _
  | .ldB _ _ _ _ | .ldBu _ _ _ _ | .ldH _ _ _ _ | .ldHu _ _ _ _ | .ldW _ _ _ _ | .ldWu _ _ _ _ | .ldD _ _ _ _
  | .stB _ _ _ _ | .stH _ _ _ _ | .stW _ _ _ _ | .stD _ _ _ _ | .amoAdd _ _ _ _ _ | .amoSwap _ _ _ _ _
  | .amoCas _ _ _ _ _ | .amoAnd _ _ _ _ _ | .amoOr _ _ _ _ _ | .amoMaxu _ _ _ _ _ | .amoMinu _ _ _ _ _
  | .beq _ _ _ _ | .bne _ _ _ _ | .blt _ _ _ _ | .bge _ _ _ _ | .bltu _ _ _ _ | .bgeu _ _ _ _ | .jal _ _ _
  | .jalr _ _ _ _ | .j _ _ _ _ _ | .qPush _ _ _ _ _ | .qTake _ _ _ | .qFree _ _ _ | .qFwd _ _ _ | .qBind _ _ _ _
  | .qStat _ _ _ | .stgAlloc _ _ _ | .stgFree _ _ _ | .srchFind _ _ _ _ | .srchNext _ _ | .srchWr _ _ _ _ _
  | .srchClr _ _ _ | .srchRd _ _ _ | .wktAdm _ _ _ _ | .wktSlk _ _ | .wktFin _ _ _ | .wktHzn _ _ _ _ | .csrR _ _ _
  | .csrW _ _ _ | .eret _ | .sysc _ _ | .brk _ _ | .fence _ | .dinv _ _ | .dinvAll _ | .iinvAll _ | .start _ _ _ _
  | .wait _ _ _ | .waitT _ _ _ | .pollT _ _ _ | .done _ | .jRingResume _ | .jobCompletion _ | .waitTimeout _
  | .watchdog _ | .mqPoolRearm | .loadStart | .capsuleAdmission | .horizonRefresh | .pfailFall
  | .vaultAppendTimeout | .vaultFlushComplete _ | .ddxInit | .ddxInitDone | .ddxAgeTick | .ddxSweepVisit
  | .mapNodeReadComplete _ _ | .mapCommitPeriod | .mapCommitComplete | .mapWmTimeout | .mapInvall | .mapInvallDone
  | .mapMount | .mapFormat | .mapMountDone | .mapCommitRequest | .mapCleanall | .mapCtlEnWrite _ | .segReportRetry
  | .segCensus | .segCensusDone | .rebuildPositionStart | .rebuildPositionDone _ | .reshapeStart | .reshapeAbort
  | .reshapeMoveDone _ | .mulLoad | .mulLoadDone | .goatPatrolStep _ _ | .trnMrRegister | .trnMrRevoke
  | .trnRevokeTimeout _ | .latchExpiry _ | .trnLatchCancelWrite _ | .heartbeatSend | .livenessKick
  | .livenessExpiry | .partnerLate | .partnerLoss | .srchScrubVisit | .srchInit0 | .srchInit1 | .srchRestore1
  | .srchInitDone | .vltRngRead | .rootPllLock | .bootEntry | .refClockLoss | .pcieRefLoss | .pcieRefRestore
  | .rtcStop | .rtcTick | .vidStep | .headRstPin | .warmResetComplete | .pwrVminRearm | .mbxWrap | .mbxPing
  | .mbxStatus | .mbxDownload | .mbxLogRead | .mbxAttest | .mbxCert | .mbxActivate | .mbxRelease | .mbxUpdate
  | .mbxFw | .mbxExtentTimeout | .mbxHoldRetry | .mbxResetWrite | .i2cReadByte | .i2cSclTimeout
  | .undefinedEncoding _ _ | .lifecycleCommand _ | .vddAonPowerOn _ | .vddAonLoss _ | .supplyGoodHigh
  | .refPpmWindow _ | .avsSettle | .logCommitDone _ | .rebuildStripe _ _ _ | .msixUnmask _ => true
  | .dispatch cl thr => clusterOk cl && decide (thr < 32)
  | .mqWakeWrite cl value | .mqRunWrite cl value | .mqCacheCtlWrite cl value => clusterOk cl && wordOk value
  | .promiseExpiry k => decide (k < 2 ^ 19)
  | .ledgerReport h time => decide (h < 2 ^ 16) && wordOk time
  | .wktCtlWrite v | .fePortmodeWrite v | .feCtlWrite v | .jrnCtlWrite v | .jrnStartWrite v | .mapVqKeyWrite v
  | .segLaneWrite v | .segRbldAddWrite v | .nmlCtlWrite v | .trnCfgWrite v | .hchNextWrite v | .pwrAvsWrite v
  | .evtRaiseWrite v | .evtCtrClrWrite v | .logPostWrite v | .logCalSetWrite v | .mbxD2hHeadWrite v => wordOk v
  | .wktClassStore c w v => decide (c < 16) && decide (w < 8) && wordOk v
  | .wktTenantStore n w v => decide (n < 4096) && decide (w < 8) && wordOk v
  | .feMsaKeyWrite e w v => decide (e < 1024) && decide (w < 16) && wordOk v
  | .feLinkChange port _ => decide (port < 16)
  | .feFrameRx port f => decide (port < 16) && frameOk f
  | .ctxFetchComplete c | .synackAckRx c _ | .synackRetryTimeout c | .icreqRx c _ _ _ _ _ _ | .icTimeout c
  | .h2ctermreqRx c _ _ | .rstRx c _ | .tcpRtoExpiry c | .closingDone c => decide (c < 2 ^ 20)
  | .connectCapsuleRx c _ _ _ _ hd dd | .capsuleCmdRx c _ _ _ _ hd dd => pduOk c hd dd
  | .tcpAckRx c _ a => decide (c < 2 ^ 20) && ackOk a
  | .trnQuadLinkChange quad _ => quadOk quad
  | .synRx quad ipif lport y => quadOk quad && decide (ipif < 64 ∧ lport < 2 ^ 16 ∧ y.opts.mss < 2 ^ 16 ∧ y.opts.wnd < 2 ^ 16)
  | .h2cdataRx c _ t _ _ hd dd => pduOk c hd dd && decide (t.cid < 2 ^ 16 ∧ t.tag < 2 ^ 16)
  | .xferTimeout c tag => decide (c < 2 ^ 20 ∧ tag < 2 ^ 16)
  | .feRespond inst cl | .feSolicit inst cl | .feRefuse inst cl | .feAen inst cl | .feBind inst cl
  | .feSetMss inst cl | .feTerminate inst cl | .feRawTx inst cl | .feRawRx inst cl => quadOk inst && clusterOk cl
  | .journalAppend cl | .journalRetireMark cl | .ddxLookup cl | .ddxLookupRef cl | .ddxRef cl | .ddxInsert cl
  | .ddxUnref cl | .ddxRepoint cl | .mapGet cl | .mapSet cl | .mapSetif cl | .mapClean cl | .mapInval cl
  | .mapCleanSw cl | .mapInvalSw cl | .mapRangeClean cl | .mapRangeInval cl | .mapSnap cl | .mapClone cl
  | .mapSnapDel cl | .segOpen cl | .segAppend cl | .segSeal cl | .segSync cl | .segRead cl _ | .segRelease cl
  | .muleMove cl _ | .muleJload cl | .goatScan cl _ | .goatCheck cl _ _ | .trnWrite cl | .trnWriteImm cl
  | .trnSend cl | .trnLatch cl | .mbxSend cl => clusterOk cl
  | .dgStartJob inst cl | .dgUpdate inst cl | .dgFinal inst cl | .dgOneshot inst cl | .dgKeyload inst cl
  | .oxCompress inst cl | .oxDecompress inst cl | .xtsEncrypt inst cl | .xtsDecrypt inst cl => engineOk inst && clusterOk cl
  | .dgCtlWrite lane v | .dgDataWrite lane v => engineOk lane && wordOk v
  | .dgPortStart lane | .dgPortFin0 lane => engineOk lane
  | .dgLastWrite lane n v => engineOk lane && decide (1 ≤ n ∧ n ≤ 8) && wordOk v
  | .dgResultRead lane k => engineOk lane && decide (k < 8)
  | .rdnEncode inst cl | .rdnDecode inst cl | .rdnVerify inst cl => decide (inst < 4) && clusterOk cl
  | .stripeProgramComplete stream _ => decide (stream < 5)
  | .nmlTrainExit lane | .nmlTrainTimeout lane | .nmlHelloTimer lane | .nmlRetrainTimeout lane
  | .nmlFecLockLoss lane | .nmlIdleTimeout lane | .nmlReplayTimer lane | .nmlAckRx lane _ | .nmlNakRx lane _
  | .nmlAckTimer lane | .nmlCreditRx lane _ _ _ | .nmlSignalDetect lane => laneOk lane
  | .nmlHelloRx lane port _ => laneOk lane && decide (port < 2)
  | .nmlRdataRx lane f | .nmlRspRx lane f => laneOk lane && nmlRxOk f
  | .nmlCmdTimeout lane tag => laneOk lane && decide (tag < 2 ^ 16)
  | .nmlJobRead inst cl | .nmlJobProgram inst cl | .nmlJobErase inst cl | .nmlJobSuspend inst cl
  | .nmlJobResume inst cl | .nmlJobHdrRead inst cl | .nmlJobGeometry inst cl | .nmlJobHealth inst cl
  | .nmlJobLeaseStatus inst cl | .nmlJobLeaseAcquire inst cl | .nmlJobLeaseTakeover inst cl
  | .nmlJobLeaseGrant inst cl | .nmlJobLeaseRelease inst cl => laneOk inst && clusterOk cl
  | .sledRead lane port tag c | .sledProgram lane port tag c | .sledErase lane port tag c
  | .sledSuspend lane port tag c | .sledResume lane port tag c | .sledHdrRead lane port tag c
  | .sledGeometry lane port tag c | .sledHealth lane port tag c | .sledLeaseStatus lane port tag c
  | .sledLeaseAcquire lane port tag c | .sledLeaseTakeover lane port tag c | .sledLeaseGrant lane port tag c
  | .sledLeaseRelease lane port tag c => laneOk lane && decide (port < 2) && decide (tag < 2 ^ 16) && nmlCmdOk c
  | .sledWdataRx lane port tag _ _ => laneOk lane && decide (port < 2) && decide (tag < 2 ^ 16)
  | .sledOpComplete lane die _ _ | .sledAutoResume lane die | .sledSuspReadResume lane die
  | .muleEraseStart lane die _ _ => laneOk lane && decide (die < 256)
  | .trnQpInit qp | .trnQpRtr qp | .trnQpRts qp | .trnQpErrorWrite qp | .trnQpReset qp | .trnAckTimeout qp
  | .trnRnrWaitExpiry qp | .trnRespAckTimer qp | .trnStallRetry qp => decide (qp < 4096)
  | .trnRxAck qp psn k => decide (qp < 4096) && decide (psn < 2 ^ 24) && rnrOk k.kind
  | .trnRxWritePkt qp p | .trnRxSendPkt qp p => decide (qp < 4096) && roceOk p
  | .heartbeatRx seq _ => wordOk seq
  | .bandRx n rec => decide (n < 2 ^ 20) && decide (rec.length = 128)
  | .trnLinkDownTimeout path => decide (path < 4)
  | .arbDecision ac inst | .arbForce ac inst => decide (ac < 10) && decide (inst < 2 ^ 14)
  | .arbBackoffExpiry ac inst num => decide (ac < 10) && decide (inst < 2 ^ 14) && decide (num < 2 ^ 16)
  | .vltAesEnc p | .vltAesDec p | .vltKeyGen p | .vltUnwrap p | .vltWrap p | .vltImport p | .vltSeal p
  | .vltUnseal p | .vltXtsLoad p | .vltXtsClear p | .vltKeyClear p | .vltVerifySig p | .vltAttest p | .vltGetCert p
  | .vltDebugChal p | .vltDebugOpen p | .vltSvnCommit p _ | .vltMediaCommit p _ | .vltOtpProgram p _
  | .vltZeroize p | .vltCmdComplete p | .vltDoneClear p => decide (p < 2)
  | .hchOpen b | .hchClose b | .hchDiscard b | .hchVerifyStart b | .hchVerifyDone b => decide (b < 2)
  | .bar2Write off data => decide (off + data.length ≤ 2 ^ 28)
  | .coldResetRelease id _ => decide (id < 2)
  | .pwrModeRun d | .pwrModeDoze d | .pwrModeRetain d | .pwrModeOff d | .domainDozeIdle d | .domainRetainIdle d
  | .domainWakeComplete d => domainOk d
  | .pgLow k => decide (k < 5)
  | .coreWarnAssert _ mv | .coreResetLevel _ mv => decide (mv < 1024)
  | .coreWarnRelease _ mv low => decide (mv < 1024) && decide (low < 1024)
  | .thermSample tj _ | .thermShutdown tj => decide (-1024 ≤ tj ∧ tj < 1024)
  | .pwrRstCold key | .pwrRstWarm key => decide (key < 256)
  | .evtCoalesceTimeout vec => sourceOk vec
  | .eventItemRetry src => sourceOk src
  | .evtSrcWrite src v => sourceOk src && wordOk v
  | .counterLowRead req off => portOk req && bar0Ok off
  | .logCommitTimer k => decide (k < 4096)
  | .logSelWrite req v => portOk req && wordOk v
  | .logRateWrite e v => decide (e < 528) && wordOk v
  | .mbxH2dTailWrite v data => wordOk v && decide (data.length ≤ 0xC0000)
  | .pcieReset speed width => decide (speed ≤ 5) && decide (width ≤ 16)
  | .pcieTlpError _ bar _ => decide (bar = 0 ∨ bar = 2 ∨ bar = 4)
  | .i2cWrite data => decide (1 ≤ data.length)
  | .registerWrite req off size v => portOk req && bar0Ok off && decide (1 ≤ size ∧ size ≤ 512) && wordOk v

/-- A command every operand of which is in its range. -/
def WellFormed (i : Instr) : Prop := i.wellFormed = true

end Sys2Proof
end

