-- ==== Sys2Proof/Tests/Slice0.lean ====
section
/-! SUPPORT. Tests of the model: ill-formed commands that WellFormed refuses, single steps with results worked out from the spec,
and for every statement with hypotheses concrete states and operands that meet them. -/

namespace Sys2Proof.Tests

set_option Elab.async false

open Sys2Proof.Machine

/-! States to test on. -/

/-- An ACTIVE head with power, in which every transmitter is on. -/
def live : State :=
  { State.reset with life := .active, now := 1000000, pins := { State.reset.pins with aon := true },
                     pwr := { State.reset.pwr with released := true } }

/-- A keeper thread in RUN at the start of the Code region, with some registers. -/
def thr (g : SMap Word) : Thread := { Thread.init with st := .run, keeper := true, pc := 0x10000000000, evec := 0x10000002000, g := g }

/-- The same at HANDLER. -/
def hnd (g : SMap Word) : Thread := { thr g with keeper := false }

/-- Core 0 of a state enabled, 64 KiB of code from the start of HBM, and thread 0 as given. -/
def cored (s : State) (th : Thread) : State :=
  State.wr (State.wr (State.wr { s with threads := [(0, th)] } F.MQ_RUN_CORE_EN 1) F.MQ_CODE_BASE_ADDR 0x10000000000) F.MQ_CODE_LIMIT_ADDR
    0x1000000FFFF

/-- `live` with core 0 enabled and thread 0 as given. -/
def core (th : Thread) : State := cored live th

/-- What a command leaves. -/
def after (i : Instr) (s : State) : State :=
  match exec i s with
  | .next t => t
  | _ => State.reset

/-- A descriptor from its first bytes and values. -/
def descOf (l : List (Nat × Nat)) : Desc := BitVec.ofNat 512 (l.foldl (fun a p => a + p.2 * 2 ^ (8 * p.1)) 0)

/-- A job of thread 0 with ticket 1 and no item. -/
def jobOf (op : Nat) (l : List (Nat × Nat)) : Job := { gid := 0, ticket := 1, desc := descOf ((0, op) :: l), item := none, stamp := 0, dark := false }

/-- A job on the ring of a unit instance for cluster 0, which holds the grant where the class is arbitrated. -/
def onRing (s : State) (cls inst : Nat) (j : Job) : State :=
  let s := s.setRing cls inst 0 [j]
  match s.ringArb cls inst 0 with
  | some p => s.setArb p.1 p.2 { Arb.init with holder := some (newReq 0 0 false 0) }
  | none => s

/-- A comparison that a state reaches, as a Boolean: the command answers a next state with a property. -/
def leaves (i : Instr) (s : State) (p : State → Bool) : Bool :=
  match exec i s with
  | .next t => p t
  | _ => false

/-! Ill-formed commands. -/

theorem test_wellFormed_refuses_cluster : (Instr.dispatch 8 0).wellFormed = false := by decide
theorem test_wellFormed_refuses_thread : (Instr.dispatch 0 32).wellFormed = false := by decide
theorem test_wellFormed_refuses_quad : (Instr.feRespond 4 0).wellFormed = false := by decide
theorem test_wellFormed_refuses_engine : (Instr.oxCompress 16 0).wellFormed = false := by decide
theorem test_wellFormed_refuses_parity_engine : (Instr.rdnEncode 4 0).wellFormed = false := by decide
theorem test_wellFormed_refuses_lane : (Instr.nmlHelloTimer 64).wellFormed = false := by decide
theorem test_wellFormed_refuses_domain : (Instr.pwrModeRun 64).wellFormed = false := by decide
theorem test_wellFormed_refuses_source : (Instr.evtSrcWrite 512 0).wellFormed = false := by decide
theorem test_wellFormed_refuses_word : (Instr.logCalSetWrite (2 ^ 64)).wellFormed = false := by decide
theorem test_wellFormed_refuses_offset : (Instr.registerWrite .host 0x4000000 8 0).wellFormed = false := by decide
theorem test_wellFormed_refuses_size : (Instr.registerWrite .host 0 0 0).wellFormed = false := by decide
theorem test_wellFormed_refuses_requester : (Instr.logSelWrite (.core 64) 0).wellFormed = false := by decide
theorem test_wellFormed_refuses_port : (Instr.feLinkChange 16 true).wellFormed = false := by decide
theorem test_wellFormed_refuses_sled_port : (Instr.nmlHelloRx 0 2 true).wellFormed = false := by decide
theorem test_wellFormed_refuses_bar : (Instr.pcieTlpError .poisoned 1 0).wellFormed = false := by decide
theorem test_wellFormed_refuses_key : (Instr.pwrRstCold 256).wellFormed = false := by decide
theorem test_wellFormed_refuses_supply : (Instr.pgLow 5).wellFormed = false := by decide
theorem test_wellFormed_refuses_class : (Instr.wktClassStore 16 0 0).wellFormed = false := by decide
theorem test_wellFormed_refuses_tenant : (Instr.wktTenantStore 4096 0 0).wellFormed = false := by decide
theorem test_wellFormed_refuses_connection : (Instr.icTimeout (2 ^ 20)).wellFormed = false := by decide
theorem test_wellFormed_refuses_queue_pair : (Instr.trnQpInit 4096).wellFormed = false := by decide
theorem test_wellFormed_refuses_packet :
    (Instr.trnRxSendPkt 0
      { opc := 256, psn := 0, ackReq := false, icrcOk := true, vaddr := 0, rkey := 0, dmaLen := 0, imm := 0, data := [] }).wellFormed =
      false := by decide
theorem test_wellFormed_refuses_bank : (Instr.hchOpen 2).wellFormed = false := by decide
theorem test_wellFormed_refuses_vault_port : (Instr.vltZeroize 2).wellFormed = false := by decide
theorem test_wellFormed_refuses_empty_i2c_write : (Instr.i2cWrite []).wellFormed = false := by decide
theorem test_wellFormed_refuses_rate_entry : (Instr.logRateWrite 528 0).wellFormed = false := by decide
theorem test_wellFormed_refuses_arbiter : (Instr.arbForce 10 0).wellFormed = false := by decide
theorem test_wellFormed_accepts_add : WellFormed (.add 0 31 31 31) := by unfold WellFormed; decide
theorem test_wellFormed_accepts_last_cluster : WellFormed (.dispatch 7 31) := by unfold WellFormed; decide

/-! The Mequesko machine. -/

theorem witness_StepRunsFrontCommand : live.pending = [] := by decide

theorem witness_DecodeOfEncodeIsTheInstruction :
    encodeMeq (.j 0 20 10 3 0x7F) = some 0xA28A1FF0 ∧ decodeMeq 0 0xA28A1FF0 = some (.j 0 20 10 3 0x7F) := by decide +kernel

theorem witness_RegisterOperationsWriteTheirResult : (core (thr [(1, 5), (2, 7)])).Ready 0 := by
  unfold State.Ready; decide +kernel

/-- Serial comparison at the edge of R12: 127 is later than 0, 128 is neither. -/
theorem witness_SerialComparison :
    (let s := core (thr [(1, 127), (3, 128)])
     (after (.serB 0 4 1 2) s).g 0 4 = 1 ∧ (after (.serB 0 4 2 1) s).g 0 4 = 0xFFFFFFFFFFFFFFFF ∧ (after (.serB 0 4 3 2) s).g 0 4 = 0) ∧
    (let s := core (thr [(1, 0x7FFFFFFF), (3, 0x80000000)])
     (after (.serW 0 4 1 2) s).g 0 4 = 1 ∧ (after (.serW 0 4 3 2) s).g 0 4 = 0) := by decide +kernel

theorem test_add_wraps : (after (.add 0 3 1 2) (core (thr [(1, 0xFFFFFFFFFFFFFFFF), (2, 2)]))).g 0 3 = 1 := by decide +kernel
theorem test_sra_keeps_sign : (after (.sra 0 3 1 2) (core (thr [(1, 0x8000000000000000), (2, 0x7F)]))).g 0 3 = 0xFFFFFFFFFFFFFFFF := by
  decide +kernel
theorem test_div_by_zero : (after (.div 0 3 1 2) (core (thr [(1, 5)]))).g 0 3 = 0xFFFFFFFFFFFFFFFF := by decide +kernel
theorem test_rem_of_min_by_minus_one :
    (after (.rem 0 3 1 2) (core (thr [(1, 0x8000000000000000), (2, 0xFFFFFFFFFFFFFFFF)]))).g 0 3 = 0 := by decide +kernel
theorem test_mulh_signed : (after (.mulh 0 3 1 1) (core (thr [(1, 0xFFFFFFFFFFFFFFFF)]))).g 0 3 = 0 := by decide +kernel
theorem test_mulhu_top : (after (.mulhu 0 3 1 1) (core (thr [(1, 0xFFFFFFFFFFFFFFFF)]))).g 0 3 = 0xFFFFFFFFFFFFFFFE := by decide +kernel
theorem test_clz_of_zero : (after (.clz 0 3 1) (core (thr []))).g 0 3 = 64 := by decide +kernel
theorem test_bswap : (after (.bswap 0 3 1) (core (thr [(1, 0x0102030405060708)]))).g 0 3 = 0x0807060504030201 := by decide +kernel
theorem test_g0_discards : (after (.add 0 0 1 1) (core (thr [(1, 5)]))).g 0 0 = 0 := by decide +kernel
theorem test_lui_sign_extends : (after (.lui 0 3 0x8000) (core (thr []))).g 0 3 = 0xFFFFFFFF80000000 := by decide +kernel

theorem witness_ImmediateOperationsWriteTheirResult : (core (thr [(1, 5)])).Ready 0 := by
  unfold State.Ready; decide +kernel

theorem witness_ExceptionEntryAndReturn :
    ((core (thr [])).thread 0).exc = false ∧ decodeMeq 0 0 = none ∧
    (let s := core { thr [] with exc := true }
     s.canIssue 0 = true ∧ (s.thread 0).wdog = false ∧ s.fetchBarred 0 (s.thread 0).pc.toNat = false ∧
       s.canFetch 0 (s.thread 0).pc.toNat = true ∧ (s.thread 0).keeper = true ∧ (s.thread 0).exc = true ∧ s.life = .active) := by
  decide +kernel

/-- SYSC enters vector 0x0A: EVEC + 0x280, EPC after the instruction (R40, R41). -/
theorem test_sysc :
    (let th := (after (.sysc 0 0x123) (core (hnd []))).thread 0
     (th.pc, th.epc, th.ecause, th.eval, th.keeper, th.pkeeper, th.exc)) =
      (0x10000002280, 0x10000000004, 0x0A, 0x123, true, false, true) := by decide +kernel

/-- Scratch, device register, misaligned, and absent addresses. -/
theorem witness_LoadsReturnMemoryOrTrap :
    (let s := core (thr [(1, 0x10), (2, 0x40000028), (3, 0x50000000), (4, 0x11)])
     s.canIssue 0 = true ∧ (s.thread 0).wdog = false ∧ s.fetchBarred 0 (s.thread 0).pc.toNat = false ∧
       s.canFetch 0 (s.thread 0).pc.toNat = true ∧
       s.placeOf 0 0x10 8 .load = .mem 0x20000010 ∧ s.badIn 0x20000010 8 = false ∧ s.fixIn (0x20000010 / 64 * 64) 64 = [] ∧
       s.placeOf 0 0x40000028 4 .load = .reg 0x28 ∧ s.placeOf 0 0x50000000 1 .load = .bad 5 ∧ s.placeOf 0 0x11 2 .load = .bad 3) ∧
    (let s := { core (thr [(1, 0x10)]) with eccBad := [0x20000010 / 8] }
     s.placeOf 0 0x10 8 .load = .mem 0x20000010 ∧ s.badIn 0x20000010 8 = true ∧
       (if s.dcOn 0 0x20000010 then s.dline (coreOf 0) 0x20000010 else none) = none) := by decide +kernel

theorem test_ldH_sign_extends :
    (after (.ldH 0 3 1 2) { core (thr [(1, 0x10)]) with mem := [(0x20000012, 0xFE), (0x20000013, 0xFF)] }).g 0 3 = 0xFFFFFFFFFFFFFFFE := by
  decide +kernel

theorem witness_StoresWriteMemoryOrTrap :
    (let s := core (thr [(1, 0x10), (2, 0x40000028), (3, 0x50000000)])
     s.placeOf 0 0x10 8 .store = .mem 0x20000010 ∧ s.badIn 0x20000010 8 = false ∧ s.fixIn 0x20000010 8 = [] ∧
       s.placeOf 0 0x40000028 8 .store = .reg 0x28 ∧ (s.busWrite (.core 0) 0x28 8 7).life ≠ .cold ∧ s.placeOf 0 0x50000000 1 .store = .bad 5) ∧
    (let s := { core (thr [(1, 0x10)]) with eccBad := [0x20000010 / 8] }
     s.canIssue 0 = true ∧ s.placeOf 0 0x10 4 .store = .mem 0x20000010 ∧ s.badIn 0x20000010 4 = true) := by decide +kernel

theorem test_stH_little_endian :
    (after (.stH 0 2 1 0) (core (thr [(1, 0x10), (2, 0x1234)]))).mem = [(0x20000010, 0x34), (0x20000011, 0x12)] := by decide +kernel
/-- A store through the keeper's window to GLB_SCRATCH0 (R44). -/
theorem test_store_to_register :
    (after (.stD 0 2 1 0) (core (thr [(1, 0x40000028), (2, 7)]))).regGet 0x28 = 7 := by decide +kernel

theorem witness_LoadReturnsOwnLatestStore : State.reset.badIn 0x20000038 8 = false ∧ 0x20000038 % 8 = 0 := by decide +kernel

theorem witness_AtomicsReadModifyWrite :
    (let s := core (thr [(1, 0x10), (2, 1), (3, 0x50000000)])
     s.placeOf 0 0x10 8 .amo = .mem 0x20000010 ∧ s.badIn 0x20000010 8 = false ∧ s.placeOf 0 0x50000000 4 .amo = .bad 5) := by
  decide +kernel

theorem test_amoCas_takes_rd_as_expected :
    (let s := after (.amoCas 0 true 4 1 2) { core (thr [(1, 0x10), (2, 9), (4, 7)]) with mem := [(0x20000010, 7)] }
     (s.mem, s.g 0 4)) = ([(0x20000010, 9)], 7) := by decide +kernel

theorem witness_AccessMapOfTheCores :
    (let s := core (hnd [])
     let k := core (thr [])
     s.placeOf 32 0x3FFF8 8 .load = .mem (0x20000000 + 0x40000 * coreOf 32 + 0x3FFF8) ∧ s.placeOf 0 0x147FFFFF 1 .load = .mem 0x147FFFFF ∧
       s.placeOf 0 0x14800000 1 .load = .bad 4 ∧ s.placeOf 0 0x20FFFFFF 1 .load = .bad 4 ∧ k.placeOf 0 0x20FFFFFF 1 .load = .mem 0x20FFFFFF ∧
       s.placeOf 0 0x40000000 4 .load = .bad 4 ∧ k.placeOf 0 0x43FFFFF8 8 .store = .reg 0x3FFFFF8 ∧ k.placeOf 0 0x43FFFFFE 2 .store = .bad 4 ∧
       k.placeOf 0 0x44000000 8 .load = .bad 5 ∧ k.placeOf 0 (0x10000000000 + s.hbmSize) 8 .load = .bad 5) := by decide +kernel

/-- The Hatch at the top of HBM, the Code region, the keeper range, the queue table. -/
theorem witness_HbmAccessLimits :
    (let s := State.wr (core (hnd [])) F.MQ_KPR_LIMIT_ADDR 1
     let q := { State.wr s F.MQ_QTAB_BASE_ADDR 0x8001 with locked := [F.MQ_QTAB_BASE_ADDR.off] }
     s.placeOf 0 (0x10000000000 + s.hbmSize - 2 ^ 28) 8 .load = .bad 4 ∧
       s.placeOf 0 0x10000000000 4 .store = .bad 4 ∧ s.placeOf 0 0x10000000000 4 .load = .mem 0x10000000000 ∧
       q.placeOf 0 (2 ^ 25 * 0x8001) 8 .load = .bad 4 ∧ q.rd F.MQ_QTAB_BASE_ADDR = 0x8001 ∧ 2 ^ 25 * 0x8001 < 0x10000000000 + q.hbmSize) ∧
    (let s := State.wr (State.wr (core (hnd [])) F.MQ_KPR_BASE_ADDR 0x80001) F.MQ_KPR_LIMIT_ADDR 0x80001
     s.placeOf 0 (2 ^ 21 * 0x80001) 8 .load = .bad 4 ∧ s.placeOf 0 (2 ^ 21 * 0x80002) 8 .load = .mem (2 ^ 21 * 0x80002)) ∧
    (let s := core { hnd [] with pc := 0x10000010000 }
     s.canIssue 0 = true ∧ (s.thread 0).wdog = false ∧ s.inCode 0 (s.thread 0).pc.toNat = false) := by decide +kernel

theorem witness_BranchesAndJumpsMoveThePc :
    (let s := core (hnd [(1, 5)])
     s.canIssue 0 = true ∧ s.canFetch 0 (s.thread 0).pc.toNat = true ∧ s.inCode 0 0x20 = false ∧
       (s.updThread 0 (fun th => { th with pc := 0x20 })).canIssue 0 = true) := by decide +kernel

/-- A backward branch: PC + 4 × −2; JALR clears bits [1:0] and reads rs1 before writing rd (R82). -/
theorem test_branch_backward :
    ((after (.bne 0 1 2 0xFFFE) (core { thr [(1, 5)] with pc := 0x10000000100 })).thread 0).pc = 0x100000000F8 := by decide +kernel
theorem test_jalr_same_register :
    (let th := (after (.jalr 0 1 1 3) (core (thr [(1, 0x10000000040)]))).thread 0
     (th.pc, th.getG 1)) = (0x10000000040, 0x10000000004) := by decide +kernel

/-! Threads, rings and tickets. -/

/-- Sixty-four live tickets. -/
def fullTable : SMap Ticket := (List.range 64).map (fun i => (i, { val := i, comp := none, arrived := 0 }))

/-- A completion for thread 0. -/
def compOf (ticket : Nat) : Comp := { gid := 0, status := 0x10, unit := 2, ticket := ticket, aux := 5, result := 77 }

theorem witness_JobIssuePlacesOrPosts :
    (let s := core (hnd [])
     (s.canIssue 0 = true ∧ (s.thread 0).wdog = false ∧ s.fetchBarred 0 (s.thread 0).pc.toNat = false ∧
       s.canFetch 0 (s.thread 0).pc.toNat = true) ∧
     (s.thread 0).tickets.length < 64 ∧ classMax 3 < 16 ∧ classMax 1 < 4 ∧
       s.unitPresent 3 15 = true ∧ s.unitOff 3 15 = false ∧ (s.ring 3 15 (clusterOf 0)).length < 256 ∧
       leaves (.j 0 9 1 0 0) s (fun t => decide ((t.thread 0).ecause = 1)) = true ∧
       leaves (.j 0 9 1 3 15) s (fun t => decide ((t.ring 3 15 0).length = 1 ∧ t.g 0 9 = 1)) = true) ∧
    (let s := core { hnd [] with tickets := fullTable }
     s.canIssue 0 = true ∧ s.canFetch 0 (s.thread 0).pc.toNat = true ∧ (s.thread 0).tickets.length = 64 ∧
       leaves (.j 0 9 24 13 0) s (fun t => decide ((t.thread 0).ecause = 8)) = true) ∧
    (let s := { core (hnd []) with fuse := { State.reset.fuse with variant := .dfn7124 } }
     s.canIssue 0 = true ∧ s.canFetch 0 (s.thread 0).pc.toNat = true ∧ 15 ≤ classMax 3 ∧ s.unitPresent 3 15 = false) ∧
    (let s := State.wr (core (hnd [])) F.PWR_DOM_MODE 3 10
     s.canIssue 0 = true ∧ s.canFetch 0 (s.thread 0).pc.toNat = true ∧ s.unitPresent 3 0 = true ∧ s.unitOff 3 0 = true) ∧
    (let s := (core (hnd [])).setRing 0x0D 0 0 (List.replicate 256 (jobOf 1 []))
     s.canIssue 0 = true ∧ s.unitPresent 0x0D 0 = true ∧ s.unitOff 0x0D 0 = false ∧ 256 ≤ (s.ring 0x0D 0 (clusterOf 0)).length ∧
       leaves (.j 0 9 1 13 0) s (fun t => decide ((t.thread 0).st = .wait)) = true) ∧
    (let s := (core (hnd [])).setRing 6 0 0 [jobOf 1 []]
     s.canIssue 0 = true ∧ anyAllowed 6 (s.descAt 0 1) = true ∧ (∀ m ∈ [0, 1, 2, 3], (s.ring 6 1 0).length < (s.ring 6 m 0).length ∨
       ((s.ring 6 1 0).length = (s.ring 6 m 0).length ∧ 1 ≤ m)) ∧
       leaves (.j 0 9 1 6 0x7F) s (fun t => decide ((t.ring 6 1 0).length = 1)) = true) ∧
    (let s := core { hnd [] with st := .wait, wait := some (.ring 9 1 3 15) }
     (s.thread 0).st = .wait ∧ (s.thread 0).wait = some (.ring 9 1 3 15) ∧ (s.ring 3 15 (clusterOf 0)).length < 256 ∧
       (s.thread 0).tickets.length < 64) := by decide +kernel

theorem witness_TicketsAndWaits :
    (let s := { core { hnd [] with tickets := [(1, { val := 1, comp := none, arrived := 0 })] } with comps := [compOf 1] }
     s.comps[0]? = some (compOf 1) ∧ (s.thread 0).ticket 1 = some { val := 1, comp := none, arrived := 0 } ∧ (s.thread 0).st = .run ∧
       (s.thread 0).firstArrived = none ∧ s.canIssue 0 = true ∧ s.canFetch 0 (s.thread 0).pc.toNat = true ∧ (s.thread 0).ticket 2 = none) ∧
    (let s := { core { hnd [] with tickets := [(1, { val := 1, comp := none, arrived := 0 })], st := .wait, wait := some (.waitT 4 1) } with
                comps := [compOf 1] }
     s.comps[0]? = some (compOf 1) ∧ (s.thread 0).st = .wait ∧ (s.thread 0).wait = some (.waitT 4 1) ∧
       leaves (.jobCompletion 0) s (fun t => decide (t.g 0 4 = 77)) = true) ∧
    (let s := { core { hnd [] with tickets := [(1, { val := 1, comp := none, arrived := 0 })], st := .wait, wait := some (.wait 4 0 5) } with
                comps := [compOf 1] }
     (s.thread 0).st = .wait ∧ (s.thread 0).wait = some (.wait 4 0 5) ∧ (∀ p ∈ (s.thread 0).tickets, p.2.comp = none) ∧ 0 + 5 ≤ s.now ∧
       leaves (.jobCompletion 0) s (fun t => decide (t.g 0 4 = 1)) = true ∧
       leaves (.waitTimeout 0) s (fun t => decide ((t.thread 0).st = .run ∧ t.g 0 4 = 0)) = true) ∧
    (let tk : Ticket := { val := 1, comp := some (compOf 1), arrived := 1 }
     let s := core { hnd [(1, 1)] with tickets := [(1, tk)] }
     s.canIssue 0 = true ∧ (s.thread 0).firstArrived = some tk ∧ (s.thread 0).ticket 1 = some tk ∧
       leaves (.waitT 0 4 1) s (fun t => decide (t.g 0 4 = 77 ∧ (t.thread 0).lastjob = 0x500010210)) = true) := by decide +kernel

/-- An item with a header in its first word. -/
def itemOf (q stamp : Nat) : Item :=
  { hdr := [11, 12, 13, 14, 15, 16, 17, 18], handle := 19, queue := q, deadline := 0, stamp := stamp, hasDl := false, source := 0, cls := 0, tenant := 0 }

/-- An OPEN queue of every cluster with priority `p`. -/
def openQ (p : Nat) (items : List Nat) : HwQueue := { bind := 0xFF00 + p * 2 ^ 16 + 2 ^ 19, items := items, running := 0 }

theorem witness_DispatchStartsTheBestCandidate :
    (let s := { core (hnd []) with items := [(4, itemOf 1 9), (7, itemOf 2 5)], queues := [(1, openQ 1 [4]), (2, openQ 1 [7])] }
     s.dispatchable 0 1 = true ∧ (∃ p ∈ s.queues, p.2.candidate 0 = true) ∧
       (∀ p ∈ s.queues, s.queue p.1 = p.2 ∧ ∀ k ∈ p.2.items, (SMap.find s.items k).isSome = true) ∧
       leaves (.dispatch 0 1) s (fun t => decide ((t.thread 1).item = some 7 ∧ t.g 1 1 = 11 ∧ t.g 1 9 = 19)) = true) := by decide +kernel

theorem witness_HandlersStartAndEnd :
    (let s := State.wr (core (thr [(1, 5), (2, 0x10000000100), (3, 42)])) F.MQ_KEEPER_KMASK 0x20
     s.canIssue 0 = true ∧ (s.thread 0).keeper = true ∧ (s.thread 5).st = .free ∧ (s.rd F.MQ_KEEPER_KMASK 0).testBit 5 = true ∧
       leaves (.start 0 4 1 1) s (fun t => decide ((t.thread 5).pc = 0x10000000100 ∧ t.g 5 1 = 42 ∧ t.g 0 4 = 1)) = true) ∧
    (let s := core (thr [(1, 5)])
     s.canIssue 0 = true ∧ (s.thread 0).keeper = true ∧
       ¬((s.thread 5).st = .free ∧ (s.rd F.MQ_KEEPER_KMASK 0).testBit 5 = true)) ∧
    (let s := { core { hnd [(1, 2)] with item := some 4 } with items := [(4, itemOf 1 9)], queues := [(2, openQ 0 [])] }
     s.canIssue 0 = true ∧ (∀ p ∈ (s.thread 0).tickets, p.2.comp ≠ none) ∧ (s.thread 0).tickets = [] ∧ (s.thread 0).item = some 4 ∧
       SMap.find s.items 4 = some (itemOf 1 9) ∧ (s.queue 2).accepts = true ∧ (s.queue 3).accepts = false ∧
       leaves (.done 0) s (fun t => decide ((t.thread 0).st = .free ∧ t.items = [])) = true ∧
       leaves (.qFwd 0 3 1) s (fun t => decide ((t.queue 2).items = [4] ∧ (t.thread 0).st = .free)) = true) ∧
    (let s := core { hnd [] with tickets := [(1, { val := 1, comp := none, arrived := 0 })] }
     s.canIssue 0 = true ∧ (∃ p ∈ (s.thread 0).tickets, p.2.comp = none)) ∧
    (let s := core { hnd [] with wdog := true }
     (s.thread 0).wdog = true ∧ (s.thread 0).exc = false ∧ (s.thread 0).st = .run ∧
       leaves (.watchdog 0) s (fun t => decide ((t.thread 0).pc = 0x10000002240)) = true) ∧
    (let s := core { hnd [(3, 7)] with wdog := true, st := .wait, wait := some (.wait 3 0 0) }
     (s.thread 0).wdog = true ∧ (s.thread 0).exc = false ∧ (s.thread 0).st = .wait ∧
       leaves (.watchdog 0) s (fun t => decide (t.g 0 3 = 0 ∧ (t.thread 0).epc = (s.thread 0).pc + 4)) = true) := by decide +kernel

theorem witness_KeeperInstructionsTakePriv :
    (let s := core (hnd [(1, 2)])
     s.canIssue 0 = true ∧ (s.thread 0).wdog = false ∧ s.canFetch 0 (s.thread 0).pc.toNat = true ∧ (s.thread 0).keeper = false ∧
       (s.g 0 1).toNat % 4 = 2 ∧ (s.g 0 1).toNat.testBit 15 = false ∧ s.flag F.SRCH_CTL_HWR1 = false ∧
       leaves (.csrW 0 1 0x020) s (fun t => decide ((t.thread 0).ecause = 2)) = true ∧
       leaves (.qTake 0 3 1) s (fun t => decide ((t.thread 0).ecause = 2)) = true) := by decide +kernel

theorem witness_QueueOperations :
    (let s := { core (hnd [(2, 9)]) with queues := [(9, { bind := 2 ^ 19 + 2 ^ 24, items := [], running := 0 })] }
     s.canIssue 0 = true ∧ ((s.queue 9).bind >>> 19) % 4 = 1 ∧ (s.queue 9).items.length < ((s.queue 9).bind >>> 24) % 2 ^ 18 ∧
       s.items.length + s.slotRsv < 262144) ∧
    (let s := { core (hnd [(2, 9)]) with queues := [(9, { bind := 2 ^ 19 + 2 ^ 24, items := [0], running := 0 })] }
     s.canIssue 0 = true ∧ ¬((s.queue 9).items.length < ((s.queue 9).bind >>> 24) % 2 ^ 18) ∧
       leaves (.qPush 0 true 3 1 2) s (fun t => decide (t.g 0 3 = 0 ∧ t.items = [])) = true) ∧
    (let s := { core (thr [(1, 9), (2, 3), (4, 2 ^ 19)]) with
                queues := [(3, openQ 0 []), (9, { bind := 2 ^ 19, items := [5], running := 0 })], items := [(5, itemOf 9 1)]
                locked := [F.MQ_QTAB_BASE_ADDR.off] }
     s.canIssue 0 = true ∧ (s.thread 0).keeper = true ∧ (s.thread 0).item = none ∧ (s.queue 3).cmask ≠ 0 ∧ (s.queue 9).cmask = 0 ∧
       (s.queue 9).state ≠ 2 ∧ (s.queue 9).serial = false ∧ (s.queue 9).items = [5] ∧ SMap.find s.items 5 = some (itemOf 9 1) ∧
       (s.queue 0).cmask = 0 ∧ (s.queue 0).items = [] ∧ (s.thread 0).item ≠ some 9 ∧ (∀ p ∈ s.threads, p.2.item = some 9 → p.2.st ≠ .halt) ∧
       ((s.g 0 4).toNat >>> 19) % 4 ≠ 3 ∧ ((s.g 0 4).toNat >>> 21) % 8 = 0 ∧ (s.g 0 4).toNat >>> 42 = 0 ∧
       leaves (.qTake 0 8 1) s (fun t => decide (t.g 0 1 = 11 ∧ t.g 0 8 = 1)) = true ∧
       leaves (.qBind 0 8 1 4) s (fun t => decide ((t.queue 9).bind = 2 ^ 19)) = true) ∧
    (let s := { core { thr [(1, 5), (4, 3 * 2 ^ 19)] with item := some 5 } with items := [(5, itemOf 9 1)] }
     s.canIssue 0 = true ∧ (s.thread 0).item = some 5 ∧ ((s.g 0 4).toNat >>> 19) % 4 = 3 ∧
       leaves (.qFree 0 3 1) s (fun t => decide (t.items = [] ∧ t.g 0 3 = 1)) = true) := by decide +kernel

theorem witness_StagingBuffersAllocateFirstFit :
    (let s := { core (hnd [(1, 65)]) with bufs := [(0, { len := 64 }), (4, { len := 1 })] }
     s.canIssue 0 = true ∧ (0 ≤ 0 ∧ 1 ≤ 64 ∧ 0 + (64 + 63) / 64 ≤ 4 ∧ 1 ≤ 1) ∧ (s.g 0 1).toNat % 2 ^ 21 ≠ 0 ∧
       leaves (.stgAlloc 0 3 1) s (fun t => decide (SMap.find t.bufs 1 = some { len := 65 })) = true) ∧
    (let s := { core (hnd [(1, 64 * 2 ^ 24)]) with bufs := [(0, { len := 64 })] }
     s.canIssue 0 = true ∧ s.current (64 * 2 ^ 24) = true ∧ s.current 65 = false ∧ (s.g 0 2).toNat % 2 ^ 21 = 0 ∧
       leaves (.stgFree 0 3 1) s (fun t => decide (t.bufs = [] ∧ t.gen 0 = 1)) = true) := by decide +kernel

/-- The buffers of the witness above lie in order. -/
theorem witness_staging_in_order : ({ core (hnd [(1, 65)]) with bufs := [(0, { len := 64 }), (4, { len := 1 })] } : State).StagingOk := by
  simp [State.StagingOk, stagingOk, stgGranules]

/-- A valid search entry. -/
def entryOf (v m : BitVec 160) : SEntry := { value := v, mask := m, valid := true, wcount := 0, badParity := false }

theorem witness_SearchFindsTheLowestMatch :
    (let s := State.setFlag { core { hnd [(1, 0x12)] with iter := some { bank := 1, key := 0x12, last := some 3 } } with
                srch := [(bankSize + 3, entryOf 0x10 0xF0), (bankSize + 9, entryOf 0x12 0xFF)] } F.SRCH_STATUS_INIT_DONE1
     s.canIssue 0 = true ∧ (∀ p ∈ s.srch, p.2.badParity = false) ∧ (s.srch.map Prod.fst).Pairwise (· < ·) ∧ s.bankReady 1 = true ∧
       s.domState 62 ≠ 2 ∧ s.bankReady 0 = false ∧ s.domState 61 ≠ 2 ∧ (s.thread 0).iter = some { bank := 1, key := 0x12, last := some 3 } ∧
       leaves (.srchFind 0 1 4 1) s (fun t => decide (t.g 0 4 = BitVec.ofNat 64 (3 + 2 ^ 15 + 2 ^ 62 + 2 ^ 63))) = true ∧
       leaves (.srchNext 0 4) s (fun t => decide (t.g 0 4 = BitVec.ofNat 64 (9 + 2 ^ 15 + 2 ^ 63))) = true) ∧
    (let s := core (hnd [])
     s.canIssue 0 = true ∧ (s.thread 0).iter = none) := by decide +kernel

theorem witness_SearchEntriesAreWrittenReadAndRestored :
    (let s := State.setFlag { core (thr [(1, 1), (8, 2 ^ 15 + 3), (9, 3)]) with locked := [F.SRCH_SHADOW_BASE_ADDR.off] } F.SRCH_STATUS_INIT_DONE1
     s.canIssue 0 = true ∧ (s.thread 0).keeper = true ∧ s.domState 61 ≠ 2 ∧ s.domState 62 ≠ 2 ∧ s.bankReady 1 = true ∧
       (s.g 0 8).toNat.testBit 15 = true ∧ (s.g 0 9).toNat.testBit 15 = false ∧
       leaves (.srchWr 0 1 7 1 9) s (fun t => (t.sent 1 3).valid) = true) ∧
    (let s := { live with locked := [F.SRCH_SHADOW_BASE_ADDR.off] }
     s.srchBased = true ∧ s.srchBusy = [] ∧ leaves .srchInit1 s (fun u => u.flag F.SRCH_STATUS_BUSY) = true) ∧
    (let s := State.putShadow (State.setFlag (State.setFlag (State.wr (State.wr { live with locked := [F.SRCH_SHADOW_BASE_ADDR.off] }
        F.SRCH_SHADOW_BASE_ADDR 0x40000) F.SRCH_SCRUB_AT 32767) F.SRCH_CTL_SCRUB_EN) F.SRCH_STATUS_INIT_DONE0) 0 32767
     s.rd F.SRCH_SCRUB_AT = 32767 ∧ s.rd F.SRCH_SCRUB_AT_BANK = 0 ∧ s.flag F.SRCH_CTL_SCRUB_EN = true ∧ s.srchBased = true ∧
       s.bankReady 0 = true ∧ (s.getShadow 0 32767).map (fun e => (e.value, e.mask, e.valid)) = some (0, 0, false) ∧
       ((s.sent 0 32767).value, (s.sent 0 32767).mask, (s.sent 0 32767).valid) = (0, 0, false) ∧ (s.sent 0 32767).badParity = false ∧
       leaves .srchScrubVisit s (fun t => decide (t.rd F.SRCH_SCRUB_AT = 0 ∧ t.rd F.SRCH_SCRUB_AT_BANK = 1)) = true) := by decide +kernel

/-! The Wicket, control registers, caches, cluster registers. -/

/-- A class, a tenant and a group that admit: bound 1 ms, fixed cost 1 µs. -/
def admits (s : State) : State :=
  let s := State.wr (State.wr (State.setFlag (State.setFlag s F.WKT_CTL_ADMIT_EN) F.SRCH_STATUS_INIT_DONE0) F.WKT_CLASS_BOUND_NS 1000000) F.WKT_CLASS_FIXED_NS 1000
  State.wr (State.setFlag (State.setFlag s F.WKT_CLASS_VALID) F.WKT_TENANT_ENABLE) F.WKT_GRP_STATE 0

/-- A LIVE promise until `time`. -/
def prmOf (time : Nat) : Promise :=
  { st := .live, time := time, cause := 0, cls := 0, tenant := 0, start := 0, write := true, attach := true, fwd := false, supply := false,
    therm := false, partner := false, late := none, ifw := [] }

/-- Is a check's outcome a grant with this deadline? -/
def granted? (x : Refuse ⊕ Grant) (d : Nat) : Bool :=
  match x with
  | .inr g => decide (g.d = d)
  | .inl _ => false

/-- Is a check's outcome a refusal with this reason? -/
def refused? (x : Refuse ⊕ Grant) (r : Nat) : Bool :=
  match x with
  | .inl x => decide (x.reason = r)
  | .inr _ => false

theorem witness_AdmissionOnlyWhileEveryCheckPasses :
    granted? ((admits live).admCheck (admReqOf 0 0)) 1000000 = true ∧ refused? (live.admCheck (admReqOf 0 0)) 1 = true ∧
      granted? ((admits live).admCheck (admReqOf 0x10000 61000)) 61000 = true ∧
      refused? ((admits live).admCheck (admReqOf 0x10000 60999)) 12 = true := by decide +kernel

theorem witness_AdmissionResultsAndFrames :
    (let s := { admits (core { hnd [(1, 2 ^ 25)] with item := some 4 }) with items := [(4, itemOf 1 9)] }
     let w : BitVec 256 := s.g 0 4 ++ s.g 0 3 ++ s.g 0 2 ++ s.g 0 1
     s.canIssue 0 = true ∧ s.canFetch 0 (s.thread 0).pc.toNat = true ∧ reqOk w = true ∧ reqFlag w 0 = false ∧ reqFlag w 1 = true ∧
       (s.thread 0).item = some 4 ∧ SMap.find s.items 4 = some (itemOf 1 9) ∧ (itemOf 1 9).hasDl = false ∧
       granted? (s.admCheck (admReqOf w 0).sound) 1000000 = true ∧
       leaves (.wktAdm 0 7 1 9) s (fun t => decide ((t.prm 4).map (·.time) = some 2000000 ∧
         t.g 0 7 = BitVec.ofNat 64 (2000000 + 2 ^ 32 + 939 * 2 ^ 44))) = true) ∧
    (let s := admits (core (hnd [(1, 3 * 2 ^ 16)]))
     s.canIssue 0 = true ∧ reqOk (BitVec.ofNat 256 (3 * 2 ^ 16)) = false ∧ granted? (s.admCheck (admReqOf (3 * 2 ^ 16) 0).sound) 1000000 = true ∧
       leaves (.wktAdm 0 7 1 9) s (fun t => decide (t.g 0 7 = BitVec.ofNat 64 (17 * 2 ^ 33))) = true) ∧
    (let s := core (hnd [(1, 2 ^ 24)])
     s.canIssue 0 = true ∧ reqFlag (BitVec.ofNat 256 (2 ^ 24)) 0 = true ∧ (s.thread 0).item = none ∧
       leaves (.wktAdm 0 7 1 9) s (fun t => decide (t.g 0 7 = BitVec.ofNat 64 (17 * 2 ^ 33))) = true) ∧
    (let s := core (hnd [])
     s.canIssue 0 = true ∧ reqOk 0 = true ∧ reqFlag 0 1 = false ∧ refused? (s.admCheck (admReqOf 0 0).sound) 1 = true ∧
       leaves (.wktAdm 0 7 1 9) s (fun t => decide ((t.g 0 7).toNat / 2 ^ 33 % 32 = 1)) = true) ∧
    (let s := { core { hnd [(1, 2 ^ 24)] with item := some 4 } with items := [(4, itemOf 1 9)], prms := [(4, prmOf 1060000)] }
     reqOk (BitVec.ofNat 256 (2 ^ 24)) = true ∧ reqFlag (BitVec.ofNat 256 (2 ^ 24)) 0 = true ∧ SMap.find s.prms 4 = some (prmOf 1060000) ∧ (prmOf 1060000).st = .live ∧
       s.life ≠ .brace ∧ latest (([] : List (Nat × Nat)).map (s.finish 0)) + 60000 ≤ 1060000 - s.now ∧
       leaves (.wktAdm 0 7 1 9) s (fun t => decide (t.g 0 7 = BitVec.ofNat 64 (1060000 + 2 ^ 32))) = true) ∧
    (let s := { core { hnd [(1, 2 ^ 24)] with item := some 4 } with items := [(4, itemOf 1 9)], prms := [(4, prmOf 1059999)] }
     (prmOf 1059999).time - s.now < latest (([] : List (Nat × Nat)).map (s.finish 0)) + 60000 ∧
       leaves (.wktAdm 0 7 1 9) s (fun t => decide ((t.g 0 7).toNat / 2 ^ 33 % 32 = 13)) = true) ∧
    (let s := { core { hnd [(1, 2 ^ 24)] with item := some 4 } with
                life := .brace, items := [(4, itemOf 1 9)], prms := [(4, prmOf 1059999)] }
     s.life = .brace ∧ leaves (.wktAdm 0 7 1 9) s (fun t => decide ((t.thread 0).wait = some (.child 7 (2 ^ 24) 0 0))) = true) := by decide +kernel

theorem witness_PromisesReadEndAndExpire :
    (let s := { core { hnd [(1, 0)] with item := some 4 } with
                items := [(4, { itemOf 1 9 with hasDl := true })], prms := [(4, prmOf 1000005)] }
     s.canIssue 0 = true ∧ (s.thread 0).item = some 4 ∧ SMap.find s.items 4 = some { itemOf 1 9 with hasDl := true } ∧
       SMap.find s.prms 4 = some (prmOf 1000005) ∧ (prmOf 1000005).st = .live ∧ s.now ≤ 1000005 ∧ (prmOf 1000005).ifw = [] ∧
       (ctrAdd (s.regGet F.WKT_KEPT_CTR.off) 1).2 = false ∧
       leaves (.wktSlk 0 3) s (fun t => decide (t.g 0 3 = 5)) = true ∧
       leaves (.wktFin 0 3 1) s (fun t => decide (t.g 0 3 = 5 ∧ t.regGet F.WKT_KEPT_CTR.off = 1)) = true) ∧
    (let s := { core { thr [(1, 8263), (2, 2000000)] with item := some 4 } with
                items := [(4, itemOf 1 9)], prms := [(4, { prmOf 5 with st := .ended })] }
     s.canIssue 0 = true ∧ (itemOf 1 9).hasDl = false ∧ (s.thread 0).keeper = true ∧ s.hznPresent 8263 = true ∧ 
       leaves (.wktFin 0 3 1) s (fun t => decide (t.g 0 3 = 0)) = true ∧
       leaves (.wktHzn 0 3 1 2) s (fun t => decide (t.hzn 8263 = 1000000)) = true ∧
       leaves (.ledgerReport 8192 2000000) s (fun t => decide (t.rd F.WKT_HZN_REPORTED 8192 = 2000000)) = true) ∧
    (let s := { live with seg := { live.seg with dieOps := [(5, { until_ := 1000700, susps := 0, since := none })] } }
     let a := { live with fuse := { live.fuse with variant := .dfn7124 } }
     s.hznPresent 5 = true ∧ leaves (.ledgerReport 5 0) s (fun t => decide (t.rd F.WKT_HZN_REPORTED 5 = 1000700)) = true ∧
       s.hznPresent 8208 = true ∧ s.hznPresent 8224 = true ∧ a.hznPresent 8191 = false ∧
       leaves (.ledgerReport 8191 2000000) a (fun t => decide (t.rd F.WKT_HZN_REPORTED 8191 = 0)) = true) ∧
    (let s := core (thr [(1, 8264)])
     s.canIssue 0 = true ∧ (s.thread 0).item = none ∧ leaves (.wktHzn 0 3 1 2) s (fun t => decide (t.g 0 3 = 0)) = true) ∧
    (let s := { live with prms := [(4, { prmOf 1000000 with partner := true })] }
     SMap.find s.prms 4 = some { prmOf 1000000 with partner := true } ∧ (1000000 : Nat) ≤ s.now ∧
       leaves (.promiseExpiry 4) s (fun t => decide ((t.prm 4).map (fun p => (p.st, p.cause)) = some (.expired, 3))) = true) := by decide +kernel

/-- BOUND_NS at its lower limit with FIXED_NS just below BOUND_NS − 60,000 is VALID; one more is not (R120). -/
theorem test_class_valid :
    leaves (.wktClassStore 3 0 (100000 + 39999 * 2 ^ 32)) live (fun t => t.flag F.WKT_CLASS_VALID 3) = true ∧
      leaves (.wktClassStore 3 0 (100000 + 40000 * 2 ^ 32)) live (fun t => !t.flag F.WKT_CLASS_VALID 3) = true ∧
      leaves (.wktClassStore 3 0 (99999 + 2 ^ 32)) live (fun t => !t.flag F.WKT_CLASS_VALID 3) = true := by decide +kernel

theorem witness_WicketTablesFollowTheirWrites :
    live.flag F.SRCH_STATUS_INIT_DONE0 = false ∧ live.flag F.WKT_CTL_ADMIT_EN = false ∧
      (State.setFlag live F.SRCH_STATUS_INIT_DONE0).flag F.SRCH_STATUS_INIT_DONE0 = true := by decide +kernel

theorem witness_ControlRegistersReadAndWrite :
    (let s := core (thr [(1, 2), (2, 3), (3, 1)])
     s.canIssue 0 = true ∧ s.canFetch 0 (s.thread 0).pc.toNat = true ∧ (s.thread 0).keeper = true ∧ (s.g 0 1).toNat % 4 = 2 ∧
       (s.g 0 2).toNat % 4 = 3 ∧ (s.g 0 3).toNat % 4 < 2 ∧ ¬((8 : Nat) ≤ 7 ∨ (0x10 ≤ 8 ∧ 8 ≤ 0x12)) ∧
       leaves (.csrR 0 4 8) s (fun t => decide ((t.thread 0).ecause = 1)) = true ∧
       leaves (.csrR 0 4 2) { s with threads := [(0, hnd [])] } (fun t => decide ((t.thread 0).ecause = 2)) = true ∧
       leaves (.csrR 0 4 0x01A) { s with items := [(4, { itemOf 1 9 with deadline := 77, hasDl := true })], threads := [(0, { thr [] with item := some 4 })] }
         (fun t => decide (t.g 0 4 = BitVec.ofNat 64 (77 + 2 ^ 32))) = true ∧
       leaves (.csrR 0 4 0x010) s (fun t => decide (t.g 0 4 = 1000000)) = true) := by decide +kernel

/-- A line of core 0's data cache. -/
def lineOf (a : Nat) : DLine := { addr := a, data := 7, parity := false }

theorem witness_FencesAndCacheMaintenance :
    (let s := { core (thr [(1, 0x14000043)]) with dcache := [(0, [lineOf 0x14000040, lineOf 0x14000080])] }
     s.canIssue 0 = true ∧ (s.thread 0).keeper = true ∧
       leaves (.dinv 0 1) s (fun t => decide (t.dlines 0 = [lineOf 0x14000080])) = true ∧
       leaves (.dinvAll 0) s (fun t => decide (t.dlines 0 = [])) = true) ∧
    (let s := State.wr live F.MQ_CACHE_CTL_D_EN 1 0
     (s.rd F.MQ_CACHE_CTL_D_EN 0).testBit 0 = true ∧ (s.rd F.MQ_CACHE_CTL_D_EN 0).testBit 7 = false ∧
       (s.rd F.MQ_CACHE_CTL_D_INVD 0).testBit 7 = false ∧ (0x8000 : Nat).testBit (8 + 7) = true ∧ (0x8000 : Nat).testBit 8 = false ∧
       leaves (.mqCacheCtlWrite 0 0x8000) s (fun t => t.flag F.MQ_CACHE_CTL_EN_ERR 0 && decide (t.rd F.MQ_CACHE_CTL_D_EN 0 = 0)) = true) := by
  decide +kernel

theorem witness_ClusterRegisterWrites :
    F.MQ_QTAB_BASE_ADDR.off ∉ live.locked ∧ ¬((2 = 4 ∨ 2 = 8) ∧ 0 % 2 = 0) ∧
    (let s := core (hnd [])
     (s.rd F.MQ_RUN_CORE_EN 0).testBit 0 = true ∧ (2 : Nat).testBit 0 = false ∧ (s.thread 0).st ≠ .stop ∧
       leaves (.mqRunWrite 0 2) s (fun t => decide ((t.thread 0).st = .stop ∧ (t.thread 0).held = .run)) = true) ∧
    (let s := { live with threads := [(3, { hnd [] with st := .stop, held := .run })] }
     (s.rd F.MQ_RUN_CORE_EN 0).testBit 0 = false ∧ (s.thread 3).st = .stop ∧ (s.thread 3).wait = none ∧
       leaves (.mqRunWrite 0 1) s (fun t => decide ((t.thread 3).st = .run)) = true) ∧
    (let s := core { hnd [(4, 9)] with st := .wait, wait := some (.wait 4 0 0) }
     (s.thread 0).st = .wait ∧ (s.thread 0).wait = some (.wait 4 0 0) ∧ (1 : Nat).testBit 0 = true ∧
       leaves (.mqWakeWrite 0 1) s (fun t => decide ((t.thread 0).st = .run ∧ t.g 0 4 = 0)) = true) := by decide +kernel

/-! The front end. -/

/-- What `State.JobReady` says, as a Boolean. -/
def jobReady (s : State) (cls inst cl : Nat) (j : Job) : Bool :=
  decide ((s.ring cls inst cl).head? = some j ∧ s.unitPresent cls inst = true ∧ s.domRuns (unitDomain cls inst) = true ∧
    s.granted cls inst cl = true ∧ opDefined cls j.op = true ∧ j.flagsOk = true)

theorem jobReady_iff (s : State) (cls inst cl : Nat) (j : Job) : jobReady s cls inst cl j = true ↔ s.JobReady cls inst cl j := by
  unfold jobReady State.JobReady; exact decide_eq_true_iff

/-- The last completion posted for thread 0. -/
def ended (t : State) (status aux result : Nat) : Bool :=
  decide ((t.comps.getLast?).map (fun c => (c.gid, c.status, c.ticket, c.aux, c.result)) = some (0, status, 1, aux, result))

/-- A connection of quad 0 in a state, with its context on chip. -/
def connOf (st : CState) : Conn :=
  { gen := 0, quad := 0, ipif := 0, tuple := 7, st := st, since := 0, tries := 0, hdgst := false, ddgst := false, hpda := 0, tenant := 0,
    queue := 1, qid := 1, sqsize := 64, cntlid := 0, noFlow := false, admin := false, dctcp := false, mss := 1460, sqhd := 0, cmds := [],
    aers := [], wins := [], nextTag := 0, sent := 100, acked := 0, resps := [], retries := 0, cached := true, used := 0, adv := 0,
    tcp := { Tcp.start { mss := 1460, wnd := 65535, wscale := none, ts := false, sack := false, ecn := false } 1460 1000 with nxt := 100, top := 100 } }

/-- A state with quad 0 enabled and connection 0 as given. -/
def heard (s : State) (x : Conn) : State :=
  State.wr { s with fe := { s.fe with conns := [(0, x)], gens := [(0, x.gen)] } } F.FE_CTL_QUAD_EN 1

/-- What `State.Hears` says of connection 0, as a Boolean. -/
def hears (s : State) (x : Conn) : Bool :=
  decide (s.conn 0 = some x ∧ bitOf (s.rd F.FE_CTL_QUAD_EN) x.quad = true ∧ s.fe.paused = false ∧ x.cached = true ∧ s.segHeld 0 = false)

theorem hears_iff (s : State) (x : Conn) : hears s x = true ↔ s.Hears 0 x := by
  unfold hears State.Hears; exact decide_eq_true_iff

/-- The state of connection 0. -/
def cst (t : State) : Option CState := (t.conn 0).map (·.st)

/-- A frame for firmware, to the port's own address 0. -/
def frameOf (len : Nat) : RxFrame :=
  { len := len, fcsOk := true, tags := 0, vlan := 0, pause := false, pfc := none, dst := 0, group := false, sec := none, kind := .firmware, data := [1, 2, 3] }

theorem witness_FrontEndRegistersAndFrames :
    (let s := State.wr live F.FE_CTL_QUAD_EN 1
     (s.rd F.FE_CTL_QUAD_EN).testBit 0 = true ∧ s.fe.paused = false ∧ (s.portSpeed 0 = 0) ∧ (frameOf 64).dst = s.rd F.FE_MAC_ADDR 0 ∧
       (frameOf 63).len < 64 ∧ (s.flag F.FE_IPIF_VALID 0 = false) ∧ (∀ r ∈ s.fe.raw, r.port ≠ 0) ∧
       leaves (.feFrameRx 0 (frameOf 63)) s (fun t => decide (t.regGet F.FE_FRAME_DROP_CTR.off = 1)) = true ∧
       leaves (.feFrameRx 0 (frameOf 9216)) s (fun t => decide (t.regGet F.FE_FRAME_DROP_CTR.off = 0 ∧ t.regGet F.FE_IP_DROP_CTR.off = 1)) =
         true ∧
       leaves (.feFrameRx 0 (frameOf 9217)) s (fun t => decide (t.regGet F.FE_FRAME_DROP_CTR.off = 1)) = true) ∧
    (let s := State.setFlag (State.setFlag (State.wr live F.FE_CTL_QUAD_EN 1) F.FE_IPIF_MACSEC_REQ 0) F.FE_IPIF_VALID 0
     s.flag F.FE_IPIF_VALID 0 = true ∧ s.rd F.FE_IPIF_PORT 0 = 0 ∧ s.flag F.FE_IPIF_MACSEC_REQ 0 = true ∧
       leaves (.feFrameRx 0 (frameOf 64)) s (fun t => decide (t.regGet F.FE_MACSEC_DROP_CTR.off = 1)) = true) ∧
    (let r : RawRx := { job := jobOf 7 [(2, 0), (8, 65 * 2 ^ 24)], inst := 0, port := 0 }
     let s := State.wr { live with bufs := [(0, { len := 65 })], fe := { live.fe with raw := [r] } } F.FE_CTL_QUAD_EN 1
     s.fe.raw = [r] ∧ r.port = 0 ∧ r.job.item = none ∧ s.current (r.job.fld 8 8) = true ∧ s.badIn (hAddr (r.job.fld 8 8) (r.job.fld 16 4)) 3 = false ∧
       r.job.fld 16 4 + 3 ≤ hLen (r.job.fld 8 8) ∧
       leaves (.feFrameRx 0 (frameOf 64)) s (fun t => ended t 0 3 0 && decide (t.fe.raw = [])) = true) ∧
    (let s := State.wr (State.wr (State.wr live F.FE_CTL_QUAD_EN 1) F.FE_PORTMODE_MODE 1) F.FE_MAC_PFC_EN 2 0
     (s.rd F.FE_MAC_PFC_EN 0).testBit 1 = true ∧
       leaves (.feFrameRx 0 { frameOf 64 with pfc := some (3, [5, 100]) }) s (fun t => decide (t.fe.pfcUntil = [(1, s.now + s.pauseNs 0 100)])) = true) ∧
    (let s := State.wr live F.FE_PORTMODE_MODE 0x1
     s.portSpeed 0 ≠ 0 ∧ (s.rd F.FE_LINK_PORT >>> (4 * 0)) % 16 ≠ 1 + 2 * s.portSpeed 0 ∧
       leaves (.feLinkChange 0 true) s (fun t => decide (t.rd F.FE_LINK_PORT = 1 + 2 * s.portSpeed 0)) = true) ∧
    (let s := heard live (connOf .ready)
     s.conn 0 = some (connOf .ready) ∧ (connOf .ready).quad < 4 ∧ (s.rd F.FE_CTL_QUAD_EN).testBit 0 = true ∧ (0 : Nat).testBit 0 = false ∧
       leaves (.feCtlWrite 0) s (fun t => decide (cst t = some .closing)) = true) := by decide +kernel

/-- An OPEN queue that is its interface's destination for a Connect. -/
def toConnect (s : State) : State := { s with queues := [(0, openQ 0 [])] }

theorem witness_ConnectionsOpenAndClose :
    (let s := State.setFlag (State.setFlag (State.setFlag (State.wr live F.FE_CTL_QUAD_EN 1) F.FE_CTL_ACCEPT_EN) F.FE_IPIF_VALID 0) F.FE_LISTEN_VALID 0
     (s.rd F.FE_CTL_QUAD_EN).testBit 0 = true ∧ s.fe.paused = false ∧ (∀ p ∈ s.fe.conns, p.2.tuple ≠ 7) ∧ s.listener 0 1 = false ∧
       s.listener 0 0 = true ∧ s.flag F.FE_CTL_ACCEPT_EN = true ∧ s.fe.conns.length < 1048576 ∧
       leaves (.synRx 0 0 0 { tuple := 7, opts := { mss := 0, wnd := 100, wscale := none, ts := false, sack := false, ecn := false } }) s (fun t => decide (cst t = some .synRcvd)) = true) ∧
    (let s := heard live (connOf .synRcvd)
     hears s (connOf .synRcvd) = true ∧ leaves (.synackAckRx 0 60) s (fun t => decide (cst t = some .awaitIc)) = true) ∧
    (let s := heard live (connOf .awaitIc)
     hears s (connOf .awaitIc) = true ∧ leaves (.icreqRx 0 128 0 0 31 false true) s (fun t => decide (cst t = some .awaitConnect)) = true ∧
       leaves (.icreqRx 0 128 0 0 32 false true) s (fun t => decide (cst t = some .closing)) = true) ∧
    (let s := toConnect (heard live (connOf .awaitConnect))
     let sqe : BitVec 512 := BitVec.ofNat 512 (0x7F + 5 * 2 ^ 16 + 2 ^ 32)
     hears s (connOf .awaitConnect) = true ∧ isConnect sqe = true ∧ (firstFit ((64 + 1024 + 63) / 64) 0 s.bufs).isSome = true ∧
       0 < s.poolFree ∧ (s.queue (s.rd F.FE_NVME_CONNECT_Q)).accepts = true ∧
       leaves (.connectCapsuleRx 0 1096 1096 sqe (List.replicate 1024 0) 0 0) s (fun t => decide (cst t = some .awaitBind ∧
         (t.queue 0).items.length = 1)) = true ∧
       leaves (.h2ctermreqRx 0 152 152) s (fun t => decide (cst t = some .closing)) = true ∧
       leaves (.rstRx 0 60) s (fun t => decide (cst t = some .closing)) = true) ∧
    (let x := { connOf .synRcvd with tries := 3 }
     let s := heard live x
     s.conn 0 = some x ∧ 3 ≤ x.tries ∧ leaves (.synackRetryTimeout 0) s (fun t => decide (t.conn 0 = none)) = true) ∧
    (let x := { connOf .synRcvd with tries := 2 }
     (heard live x).conn 0 = some x ∧ x.tries < 3) ∧
    (let x := connOf .awaitIc
     let s := heard { live with now := 10000000000 } x
     x.since + 1000000 * s.rd F.FE_TIMERS_IC_MS ≤ s.now) ∧
    (let s := heard live (connOf .closing)
     s.conn 0 = some (connOf .closing) ∧ leaves (.closingDone 0) s (fun t => decide (t.conn 0 = none)) = true) ∧
    (let x := { connOf .ready with tcp := { (connOf .ready).tcp with timerAt := some 0 } }
     let s := heard { live with now := 10000000000 } x
     s.conn 0 = some x ∧ x.cached = true ∧ 0 + 1000 * x.tcp.rto ≤ s.now ∧ x.retries < s.rd F.FE_TCP_RETRIES ∧
       s.rd F.FE_TCP_RETRIES ≤ 255 ∧ leaves (.tcpRtoExpiry 0) s (fun t => decide ((t.conn 0).map (·.retries) = some 1)) = true ∧
       leaves (.tcpRtoExpiry 0) (heard { live with now := 10000000000 } { x with retries := 255 }) (fun t => decide (cst t = some .closing)) = true ∧
       leaves (.tcpRtoExpiry 0) (heard { live with now := 10000000000 } { x with retries := 255, st := .closing })
         (fun t => decide (t.conn 0 = none)) = true) ∧
    (let x := { connOf .ready with cached := false }
     let s0 := heard live x
     let m : MissSeg := { quad := 0, conn := 0, bytes := 60, seg := .ack { upTo := 0, wnd := 0, ts := none, sack := [], ece := false } }
     let s := { s0 with fe := { s0.fe with miss := [m] } }
     s.conn 0 = some x ∧ s.fe.miss = [m] ∧ m.conn = 0 ∧ s.fetching.contains 0 = true ∧ s.cachedCount < 4096 ∧
       leaves (.ctxFetchComplete 0) s (fun t => decide (t.fe.miss = [] ∧ (t.conn 0).map (·.cached) = some true)) = true) := by decide +kernel

/-- A capsule's submission queue entry: command 5 of namespace 1 without data. -/
def sqeOf (opc : Nat) : BitVec 512 := BitVec.ofNat 512 (opc + 2 ^ 14 + 5 * 2 ^ 16 + 2 ^ 32)

/-- An acknowledgement of a position. -/
def ackOf (upTo : Nat) : TcpAck := { upTo := upTo, wnd := 65535, ts := none, sack := [], ece := false }

/-- A capsule on the receive ring. -/
def capOf (kind : Nat) (admin : Bool) : RxCap :=
  { hdr := sqeOf 2, handle := 65 * 2 ^ 24, conn := 0, quad := 0, cid := 5, tenant := 0, kind := kind, admin := admin, fabrics := false, allns := false,
    vol := 0, first := 0, ngrains := 1, length := 4096, queue := 1 }

theorem witness_CapsulesAndDataReachTheDevice :
    (let x := { connOf .ready with admin := true }
     let s := heard live x
     let x₁ := Conn.sqTake { x with used := s.now, adv := x.adv - 72 }
     let s₁ := s.setConn 0 x₁
     hears s x = true ∧ (match s₁.ingress x₁ (sqeOf 0x0C) [] with | .ok => true | _ => false) = true ∧
       (s₁.capsuleBuf 0 x₁ (sqeOf 0x0C) []).isSome = true ∧
       leaves (.capsuleCmdRx 0 72 72 (sqeOf 0x0C) [] 0 0) s (fun t => decide (t.rxRing.length = 1)) = true) ∧
    (let x := connOf .ready
     let s := heard live x
     let x₁ := Conn.sqTake { x with used := s.now, adv := x.adv - 72 }
     let s₁ := s.setConn 0 x₁
     (match s₁.ingress x₁ (sqeOf 2) [] with | .status .. => true | _ => false) = true ∧
       leaves (.capsuleCmdRx 0 72 72 (sqeOf 2) [] 0 0) s (fun t => decide (t.rxRing = [] ∧ cst t = some .ready)) = true ∧
       leaves (.capsuleCmdRx 0 72 72 (sqeOf 2) [] 5 0) (heard live { x with hdgst := true }) (fun t => decide (cst t = some .closing)) = true ∧
       leaves (.capsuleCmdRx 0 72 72 (sqeOf 2) [7] 5 0) (heard live { x with ddgst := true }) (fun t => decide (cst t = some .ready)) = true) ∧
    (let w : Win := { tag := 3, job := jobOf 2 [], inst := 0, off := 4096, wire := 8, raw := [1], start := 0, digestErr := false }
     let x := { connOf .ready with wins := [w] }
     let s := heard { live with now := 2 ^ 62 } x
     hears s x = true ∧ 4097 + 6 < w.off + w.wire ∧ w.off + w.wire < 4097 + 8 ∧ w.start + 1000000 * s.rd F.FE_TIMERS_XFER_MS ≤ s.now ∧ w.raw.length < 2 ^ 32 ∧
       leaves (.h2cdataRx 0 30 { cid := 0, tag := 3, last := false } 4097 [7, 7, 7, 7, 7, 7] 0 0) s (fun t => decide ((t.conn 0).map (fun x => x.wins.map (·.raw.length)) =
         some [7])) = true ∧
       leaves (.h2cdataRx 0 30 { cid := 0, tag := 3, last := false } 1 [7] 0 0) s (fun t => decide (cst t = some .closing)) = true ∧
       leaves (.xferTimeout 0 3) s (fun t => ended t 0 1 1) = true) ∧
    (let r : Resp := { job := jobOf 1 [], inst := 0, endAt := 90 }
     let x := { connOf .ready with resps := [r] }
     let s := heard live x
     hears s x = true ∧ x.acked < 90 ∧ 90 ≤ x.tcp.top ∧ x.tcp.paws (ackOf 90) = true ∧ (89 : Nat) < r.endAt ∧
       leaves (.tcpAckRx 0 60 (ackOf 90)) s (fun t => ended t 0 0 0) = true ∧
       leaves (.tcpAckRx 0 60 (ackOf 89)) s (fun t => decide (t.comps = [])) = true) ∧
    (let s := { admits live with rxRing := [capOf 0 true], queues := [(1, openQ 0 [])] }
     0 < s.poolFree ∧ (s.queue 1).accepts = true ∧ leaves .capsuleAdmission s (fun t => decide ((t.queue 1).items.length = 1)) = true) ∧
    (let s := { admits live with rxRing := [capOf 0 false], queues := [(1, openQ 0 [])] }
     granted? (State.admCheck { s with rxRing := [] } (capReq (capOf 0 false))) 1000000 = true ∧
       s.flag F.EVT_CTL_EN = false ∧ leaves .capsuleAdmission s (fun t => decide (t.prms.length = 1)) = true) ∧
    (let s := { live with rxRing := [capOf 0 false], queues := [(1, openQ 0 [])], bufs := [(0, { len := 65 })] }
     refused? (State.admCheck { s with rxRing := [] } (capReq (capOf 0 false))) 1 = true ∧ s.current (65 * 2 ^ 24) = true ∧
       leaves .capsuleAdmission s (fun t => decide (t.prms = [] ∧ t.bufs = [])) = true) := by decide +kernel

theorem witness_JobsThatFailTheirChecksEndBadJob :
    (let j := jobOf 0x77 []
     let s := onRing live 0x0C 0 j
     (s.ring 0x0C 0 0).head? = some j ∧ opDefined 0x0C j.op = false ∧ s.unitPresent 0x0C 0 = true ∧
       s.domRuns (unitDomain 0x0C 0) = true ∧ s.granted 0x0C 0 0 = true ∧ s.ring 0x0C 0 1 = [] ∧
       leaves (.goatScan 0 []) s (fun t => ended t 0x3E 0 0 && decide (t.ring 0x0C 0 0 = [])) = true) ∧
    (let j := jobOf 0x77 []
     let s := live.setRing 0x03 0 0 [j]
     s.granted 0x03 0 0 = false ∧ opDefined 0x03 j.op = false) ∧
    (let j := jobOf 1 [(1, 0x80)]
     let s := onRing live 0x03 0 j
     opDefined 0x03 j.op = true ∧ j.op = 1 ∧ j.flagsOk = false ∧ s.unitPresent 0x03 0 = true ∧ s.domRuns (unitDomain 0x03 0) = true ∧
       s.granted 0x03 0 0 = true ∧ leaves (.oxCompress 0 0) s (fun t => ended t 0x3E 0 0) = true) := by decide +kernel

/-- What `State.SendsNow` says, as a Boolean. -/
def sendsNow (s : State) (x : Conn) (n : Nat) : Bool :=
  decide (x.tcp.queue = [] ∧ x.tcp.recover = none ∧ x.tcp.highRxt = 0 ∧ x.tcp.nxt = x.sent ∧ x.sent + n ≤ x.acked + x.tcp.rwnd ∧
    n ≤ x.tcp.cwnd ∧ s.squelched = false ∧ s.portSpeed (s.rd F.FE_IPIF_PORT x.ipif) ≠ 0 ∧ s.fe.pfc = [] ∧ s.fe.pfcUntil = [] ∧
    s.flag F.FE_IPIF_MACSEC_REQ x.ipif = false)

theorem sendsNow_iff (s : State) (x : Conn) (n : Nat) : sendsNow s x n = true ↔ s.SendsNow x n := by
  simp only [sendsNow, State.SendsNow, decide_eq_true_eq]

/-- Connection 0 with a job of quad 0 on its ring, port 0 at 100 Gb/s. -/
def feRun (x : Conn) (j : Job) : State :=
  onRing { State.wr (heard live x) F.FE_PORTMODE_MODE 1 with bufs := [(0, { len := 65 })], pins := { live.pins with headRstN := true } } 0x01 0 j

theorem witness_FrontEndJobsRun :
    (let j := jobOf 3 [(4, 1 * 2 ^ 24)]
     let s := feRun (connOf .ready) j
     jobReady s 0x01 0 0 j = true ∧ connOk j = true ∧ s.connAt (j.fld 4 4) = none ∧
       leaves (.feRefuse 0 0) s (fun t => ended t 0 1 0) = true) ∧
    (let j := jobOf 1 [(34, 1)]
     let s := feRun (connOf .ready) j
     jobReady s 0x01 0 0 j = true ∧ connOk j = true ∧ s.connAt (j.fld 4 4) = some (0, connOf .ready) ∧ sendsNow s (connOf .ready) 24 = true ∧ j.item = none ∧ j.zero 2 3 = true ∧ j.zero 36 63 = true ∧ bitOf (j.fld 34 2) 15 = false ∧
       leaves (.feRespond 0 0) s (fun t => decide (t.out.length = s.out.length + 1 ∧ t.ring 0x01 0 0 = [])) = true) ∧
    (let j := jobOf 1 [(8, 65 * 2 ^ 24), (20, 65)]
     let s := feRun (connOf .ready) j
     jobReady s 0x01 0 0 j = true ∧ s.connAt (j.fld 4 4) = some (0, connOf .ready) ∧ 0 < j.fld 20 4 ∧ sendsNow s (connOf .ready) 113 = true ∧
       s.inHandle (j.fld 8 8) (j.fld 16 4) (j.fld 20 4) = true ∧ s.badIn (hAddr (j.fld 8 8) (j.fld 16 4)) 65 = false ∧
       s.fixIn (hAddr (j.fld 8 8) (j.fld 16 4)) 65 = [] ∧
       leaves (.feRespond 0 0) s (fun t => decide (t.out.length = s.out.length + 2)) = true) ∧
    (let j := { jobOf 2 [(8, 65 * 2 ^ 24), (20, 65), (32, 5)] with item := some 4 }
     let s := { feRun (connOf .ready) j with prms := [(4, prmOf 1000100)] }
     jobReady s 0x01 0 0 j = true ∧ j.zero 2 3 = true ∧ j.zero 24 31 = true ∧ j.zero 34 35 = true ∧ j.zero 40 63 = true ∧
       s.inHandle (j.fld 8 8) (j.fld 16 4) (j.fld 20 4) = true ∧ s.prm 4 = some (prmOf 1000100) ∧
       leaves (.feSolicit 0 0) s (fun t => decide ((t.prm 4).map (fun p => (p.st, p.time)) = some (.paused, 100) ∧
         (t.conn 0).map (fun x => x.wins.length) = some 1)) = true) ∧
    (let j := jobOf 3 [(32, 5), (40, 2 * 16 * 2 ^ 32)]
     let s := feRun (connOf .ready) j
     jobReady s 0x01 0 0 j = true ∧ j.zero 34 39 = true ∧ bitsOf (j.fld 40 8) 33 5 = 16 ∧
       leaves (.feRefuse 0 0) s (fun t => ended t 0 0 0) = true) ∧
    (let j := jobOf 4 []
     let x := { connOf .ready with aers := [9] }
     jobReady (feRun x j) 0x01 0 0 j = true ∧ j.zero 8 23 = true ∧ j.zero 32 63 = true ∧
       leaves (.feAen 0 0) (feRun x j) (fun t => ended t 0 0 0) = true ∧
       leaves (.feAen 0 0) (feRun (connOf .ready) j) (fun t => ended t 0 2 0) = true) := by decide +kernel

theorem witness_ConnectionControlAndRawJobs :
    (let j := jobOf 5 [(2, 1), (40, 3), (44, 4), (46, 1), (47, 127), (48, 9)]
     let s := feRun (connOf .awaitBind) j
     jobReady s 0x01 0 0 j = true ∧ connOk j = true ∧ s.connAt (j.fld 4 4) = some (0, connOf .awaitBind) ∧ j.zero 3 3 = true ∧
       j.zero 8 39 = true ∧ j.zero 51 63 = true ∧ (if bitOf (j.fld 50 1) 2 then j.fld 47 1 = 3 else j.fld 47 1 ≤ 127) ∧
       leaves (.feBind 0 0) s (fun t => decide (cst t = some .ready ∧ (t.conn 0).map (·.sqsize) = some 1024)) = true ∧
       leaves (.feBind 0 0) (feRun (connOf .ready) j) (fun t => ended t 0x3E 0 0) = true) ∧
    (let j := jobOf 5 [(2, 2), (48, 536)]
     let s := feRun (connOf .ready) j
     jobReady s 0x01 0 0 j = true ∧ j.zero 8 47 = true ∧ j.zero 50 63 = true ∧
       leaves (.feSetMss 0 0) s (fun t => decide ((t.conn 0).map (·.mss) = some 536)) = true) ∧
    (let j := jobOf 5 [(2, 3)]
     let s := feRun (connOf .ready) j
     jobReady s 0x01 0 0 j = true ∧ j.zero 8 63 = true ∧ leaves (.feTerminate 0 0) s (fun t => decide (cst t = some .closing)) = true) ∧
    (let j := jobOf 6 [(8, 65 * 2 ^ 24), (20, 60)]
     let s := feRun (connOf .ready) j
     jobReady s 0x01 0 0 j = true ∧ j.zero 3 7 = true ∧ j.fld 2 1 / 4 = 0 ∧ j.zero 24 63 = true ∧
       s.inHandle (j.fld 8 8) (j.fld 16 4) 60 = true ∧ (∀ i, i < 64 → s.flag F.FE_IPIF_VALID i = true →
         s.flag F.FE_IPIF_MACSEC_REQ i = true → s.rd F.FE_IPIF_PORT i ≠ j.fld 2 1) ∧ s.portSpeed (j.fld 2 1) ≠ 0 ∧
       leaves (.feRawTx 0 0) s (fun t => ended t 0 0 0) = true) ∧
    (let j := jobOf 7 [(8, 65 * 2 ^ 24)]
     let s := feRun (connOf .ready) j
     let full := { s with fe := { s.fe with raw := List.replicate 64 { job := j, inst := 0, port := 0 } } }
     jobReady s 0x01 0 0 j = true ∧ j.zero 20 63 = true ∧ s.inHandle (j.fld 8 8) (j.fld 16 4) 0 = true ∧
       leaves (.feRawRx 0 0) s (fun t => decide (t.fe.raw.length = 1)) = true ∧
       (full.fe.raw.filter (fun r => decide (r.inst = 0))).length = 64) := by decide +kernel

/-! The journal, the vault flush, the reduction units. -/

/-- Memory that holds bytes from an address on. -/
def holding (s : State) (a : Nat) (l : List Byte) : State := { s with mem := memWrite s.mem a l }

/-- A journal record of TYPE 1 and 64 bytes. -/
def recOf : List Byte := [1, 0, 0, 0, 64] ++ List.replicate 59 0

/-- An enabled journal on queue pairs 2 and 3 (RTS), its ring at the sixteenth gibibyte, and a record in a buffer. -/
def journal (s : State) : State :=
  let s := State.wr (State.wr (State.wr (State.wr s F.JRN_CTL_QP0 2) F.JRN_CTL_QP1 3) F.JRN_BASE_ADDR 16) F.TRN_QP_STATE 3 2
  let s := State.setFlag (State.setFlag s F.JRN_CTL_EN) F.TRN_CTL_EN
  { holding s (hAddr (64 * 2 ^ 24) 0) recOf with bufs := [(0, { len := 64 })] }

/-- An append of that record. -/
def appendJob : Job := jobOf 1 [(2, 2), (4, 64), (8, 64 * 2 ^ 24)]

/-- A retire mark for the record at JOFF 0. -/
def retireJob : Job := jobOf 2 [(2, 2)]

theorem witness_JournalAppendsAndRetires :
    (let s := { onRing (journal live) 0x0A 0 appendJob with life := .vaulting }
     jobReady s 0x0A 0 0 appendJob = true ∧ s.isJrnQp (appendJob.fld 2 2) = true ∧ trnCheck appendJob s = true ∧ s.life = .vaulting ∧
       leaves (.journalAppend 0) s (fun t => ended t 0x32 0 0) = true) ∧
    (let s := onRing (State.setFlag (journal live) F.JRN_CTL_SINGLE) 0x0A 0 appendJob
     let d := s.bytes (hAddr (64 * 2 ^ 24) 0) 64
     jobReady s 0x0A 0 0 appendJob = true ∧ trnCheck appendJob s = true ∧ s.flag F.JRN_CTL_EN = true ∧ s.rd F.JRN_HEAD_JOFF < 2 ^ 63 ∧
       s.badIn (hAddr (64 * 2 ^ 24) 0) 64 = false ∧ s.fixIn (hAddr (64 * 2 ^ 24) 0) 64 = [] ∧ lfld d 0 1 = 1 ∧ lfld d 4 4 = 64 ∧
       padNeed 0 64 = 0 ∧ s.flag F.JRN_CTL_SINGLE = true ∧
       leaves (.journalAppend 0) s (fun t => ended t 0 0 0 && decide (t.rd F.JRN_HEAD_JOFF = 64 ∧ t.ldMem s.jrnBase 2 = 0x201)) = true) ∧
    (let s := onRing (journal live) 0x0A 0 appendJob
     s.flag F.JRN_CTL_SINGLE = false ∧ s.qpGate s.jrnQp = none ∧
       leaves (.journalAppend 0) s (fun t => decide ((t.qp 2).msgs.length = 1 ∧ t.comps = [])) = true) ∧
    (let s := onRing (State.wr (holding (State.setFlag (journal live) F.JRN_CTL_SINGLE) 0x400000000 recOf) F.JRN_HEAD_JOFF 64) 0x0A 0
        retireJob
     jobReady s 0x0A 0 0 retireJob = true ∧ trnCheck retireJob s = true ∧ s.jrnBase = 0x400000000 ∧ retireJob.fld 24 8 ∈ s.jrnRecs ∧
       s.recRetired s.jrnBase 0 = false ∧ s.rd F.JRN_TAIL_JOFF = 0 ∧
       leaves (.journalRetireMark 0) s (fun t => ended t 0 0 0 && decide (t.rd F.JRN_TAIL_JOFF = 64)) = true) ∧
    live.flag F.JRN_CTL_EN = false ∧ (journal live).flag F.JRN_CTL_EN = true := by decide +kernel

theorem witness_VaultFlushRuns :
    (let s := State.setFlag { live with pins := { live.pins with headRstN := true } } F.JRN_VAULT_ARMED 1
     s.pins.aon = true ∧ s.flag F.PWR_VMON_PFAIL_SEEN = false ∧ s.pins.headRstN = true ∧ s.life = .active ∧
       leaves .pfailFall s (fun t => decide (t.life = .vaulting ∧ t.rd F.JRN_VAULT_STATE 1 = 1)) = true ∧
       live.pins.headRstN = false ∧ State.reset.pins.headRstN = false) ∧
    (let m : TxMsg := { src := .append appendJob 0, bg := false, op := 1, raddr := 0, rkey := 0, imm := 0, data := [], lo := 0, n := 1 }
     let s := { live with life := .vaulting, pwr := { live.pwr with flush := some (900000, 0, false) }
                          trn := { live.trn with qps := [(2, { Qp.init with msgs := [m] })] } }
     s.life = .vaulting ∧ s.pwr.flush = some (900000, 0, false) ∧ 900000 + 100000 ≤ s.now ∧
       leaves .vaultAppendTimeout s (fun t => ended t 0x21 0 0) = true ∧
       leaves .vaultAppendTimeout { s with now := 999999 } (fun t => decide (t.comps = [])) = true) ∧
    (let s := { live with life := .vaulting, pwr := { live.pwr with flush := some (900000, 0, true) } }
     let u := State.setFlag s F.JRN_VAULT_ARMED 1
     s.pwr.pinWait = false ∧ s.vaultOpen = [] ∧ leaves (.vaultFlushComplete []) s (fun t => decide (t.life = .down)) = true ∧
       u.vaultOpen = [1] ∧ (u.vaultRound 0 [] [1]).2 = true ∧
       leaves (.vaultFlushComplete []) u (fun t => decide (t.life = .vaulting ∧ t.rd F.JRN_VAULT_STATE 1 = 5)) = true) := by decide +kernel

/-- A job of lane 0 on its ring over a buffer that holds `d`, the slot's state as given. -/
def dgRunOn (x : DgSlot) (d : List Byte) (j : Job) : State :=
  onRing { State.setDgSlot (holding live (hAddr (64 * 2 ^ 24) 0) d) 3 x with bufs := [(0, { len := 64 }), (2, { len := 64 })] } 0x02 0 j

/-- The handle of the output buffer. -/
def outH : Nat := 2 + 64 * 2 ^ 24

/-- `abc` as bytes. -/
def abc : List Byte := [0x61, 0x62, 0x63]

/-- SHA-256 of `abc` begins ba7816bf 8f01cfea (FIPS 180-4, the published example). -/
theorem test_sha256_abc : leNat ((sha 1 abc).take 8) = 0xEACF018FBF1678BA := by decide +kernel

/-- A message fed in two pieces. -/
theorem test_digest_pieces : (((DgSlot.init.start 1 false).feed [0x61]).feed [0x62, 0x63]).digest = sha 1 abc := by decide +kernel

theorem witness_DigestJobsWriteTheirDigests :
    (let j := jobOf 1 [(2, 3), (4, 1), (8, 64 * 2 ^ 24), (20, 64)]
     let s := dgRunOn DgSlot.init abc j
     jobReady s 0x02 0 0 j = true ∧ dgCheck 0 j s = true ∧ s.badIn (hAddr (64 * 2 ^ 24) 0) 64 = false ∧
       s.fixIn (hAddr (64 * 2 ^ 24) 0) 64 = [] ∧ leaves (.dgStartJob 0 0) s (fun t => ended t 0 64 0) = true) ∧
    (let j := jobOf 2 [(2, 3), (8, 64 * 2 ^ 24), (20, 64)]
     let s := dgRunOn (DgSlot.init.start 1 false) abc j
     jobReady s 0x02 0 0 j = true ∧ dgCheck 0 j s = true ∧ leaves (.dgUpdate 0 0) s (fun t => ended t 0 64 0) = true) ∧
    (let j := jobOf 3 [(2, 3), (8, 64 * 2 ^ 24), (20, 3), (24, outH)]
     let s := dgRunOn (DgSlot.init.start 1 false) abc j
     jobReady s 0x02 0 0 j = true ∧ dgCheck 0 j s = true ∧ s.badIn (hAddr outH 0) (shaLen 1) = false ∧
       leaves (.dgFinal 0 0) s (fun t => ended t 0 3 0xEACF018FBF1678BA && decide (t.ldMem (hAddr outH 0) 8 = 0xEACF018FBF1678BA)) = true) ∧
    (let j := jobOf 4 [(2, 0xFFFF), (4, 1), (8, 64 * 2 ^ 24), (20, 3), (24, outH)]
     let s := dgRunOn DgSlot.init abc j
     jobReady s 0x02 0 0 j = true ∧ dgCheck 0 j s = true ∧ j.transient = true ∧
       leaves (.dgOneshot 0 0) s (fun t => ended t 0 3 0xEACF018FBF1678BA && decide (t.dg = s.dg)) = true) ∧
    (let j := jobOf 4 [(2, 3), (4, 1), (5, 1), (8, 64 * 2 ^ 24), (20, 3), (24, outH)]
     let s := dgRunOn { DgSlot.init with key := some (dgKey 1 [7]) } abc j
     jobReady s 0x02 0 0 j = true ∧ dgCheck 0 j s = true ∧ (s.dgSlot (j.fld 2 2)).key = some (dgKey 1 [7])) ∧
    (let j := jobOf 5 [(2, 3), (4, 1)]
     let s := dgRunOn DgSlot.init abc j
     jobReady s 0x02 0 0 j = true ∧ dgCheck 0 j s = true ∧ leaves (.dgKeyload 0 0) s (fun t => ended t 0 0 0) = true) := by decide +kernel

theorem witness_DigestOfPiecesIsDigestOfTheMessage : ({ DgSlot.init with key := some (dgKey 1 [7]) } : DgSlot).key = some (dgKey 1 [7]) := rfl

theorem witness_DigestPortsFollowTheirWrites :
    live.portOn 0 = false ∧
    (let s := State.setFlag (State.wr live F.DG_CTL_ALG 1) F.DG_CTL_PORT_EN
     let u := s.setDgSlot (portSlot 0) ((s.dgSlot (portSlot 0)).start 1 false)
     s.portOn 0 = true ∧ s.flag F.DG_CTL_KEYED 0 = false ∧ (s.dgSlot (portSlot 0)).st ≠ 1 ∧ s.flag F.DG_CTL_COMPAT 0 = false ∧
       u.portOn 0 = true ∧ (u.dgSlot (portSlot 0)).st = 1 ∧ 0 < s.fuse.variant.engines ∧ s.flag F.DG_CTL_PORT_EN 0 = true ∧
       leaves (.dgLastWrite 0 3 0x636261) u (fun t => leaves (.dgResultRead 0 0) t (fun t =>
         decide (t.out.getLast? = some (.readData 0xEACF018FBF1678BA)))) = true) ∧
    (let s := State.setFlag (State.setFlag (State.setFlag live F.DG_CTL_PORT_EN) F.DG_CTL_COMPAT) F.DG_CTL_KEYED
     s.portOn 0 = true ∧ s.flag F.DG_CTL_KEYED 0 = true ∧ (s.dgSlot (portSlot 0)).keyFor (s.portAlg 0) = false ∧
       s.flag F.DG_CTL_COMPAT 0 = true ∧ leaves (.dgPortStart 0) s (fun t => t.flag F.DG_STATUS_ORDER_ERR 0) = true) := by decide +kernel

/-- A job of the index, which is on, with entries in bucket 0. -/
def ddxOn (es : List DdxEntry) (j : Job) : State :=
  onRing (State.setFlag (State.wr (holding live 0x400000000 (es.map DdxEntry.bytes).flatten) F.DDX_BASE_ADDR 16) F.DDX_CTL_EN) 0x04 0 j

/-- A valid entry of tag `tag` for map entry 77. -/
def ddxE (tag refcnt : Nat) : DdxEntry := { tag := tag, hi := 0, valid := true, age := 0, refcnt := refcnt, entry := 77 * 2 ^ 14 }

/-- An index job for the fingerprint whose tag is `tag` in bucket 0. -/
def ddxJ (op tag : Nat) : Job := jobOf op [(12, tag), (32, 78 * 2 ^ 14 + 2 ^ 40), (40, 77 * 2 ^ 14)]

theorem witness_DdxOperationsOnABucket :
    (let s := fun op es => ddxOn es (ddxJ op 5)
     (∀ op ∈ [1, 2, 3, 4, 5, 6], jobReady (s op []) 0x04 0 0 (ddxJ op 5) = true ∧ ddxCheck (ddxJ op 5) (s op []) = true) ∧
       ddxBucket ((ddxJ 1 5).fld 8 20) = 0 ∧ (s 1 []).ddxBase = 0x400000000 ∧ (s 1 []).badIn 0x400000000 256 = false ∧
       (s 1 []).fixIn 0x400000000 256 = [] ∧
       (((List.range 8).zip (ddxWays ((s 1 []).bytes 0x400000000 256))).find? (fun p => p.2.isFp ((ddxJ 1 5).fld 8 20))) = none ∧
       (((List.range 8).zip (ddxWays ((s 1 [ddxE 4 9, ddxE 5 1]).bytes 0x400000000 256))).find?
         (fun p => p.2.isFp ((ddxJ 1 5).fld 8 20))) = some (1, ddxE 5 1) ∧
       ddxVictim 0 (List.replicate 8 (ddxE 4 1)) = some 0 ∧ ddxVictim 0 (List.replicate 8 (ddxE 4 2)) = none ∧
       leaves (.ddxLookup 0) (s 1 [ddxE 5 1]) (fun t => ended t 0 1 (77 * 2 ^ 14)) = true ∧
       leaves (.ddxLookupRef 0) (s 2 [ddxE 5 0xFFFFFFFF]) (fun t => ended t 0 3 (77 * 2 ^ 14)) = true ∧
       leaves (.ddxRef 0) (s 3 [ddxE 5 1]) (fun t => ended t 0 5 (77 * 2 ^ 14) && decide (t.ldMem 0x400000014 4 = 2)) = true ∧
       leaves (.ddxInsert 0) (s 4 [ddxE 4 1]) (fun t => ended t 0 4 0 && decide (t.ldMem 0x400000020 1 = 5)) = true ∧
       leaves (.ddxInsert 0) (s 4 (List.replicate 8 (ddxE 4 1))) (fun t => ended t 0 20 (77 * 2 ^ 14)) = true ∧
       leaves (.ddxInsert 0) (s 4 (List.replicate 8 (ddxE 4 2))) (fun t => ended t 0x31 0 0) = true ∧
       leaves (.ddxUnref 0) (s 5 [ddxE 5 1]) (fun t => ended t 0 13 0 && decide (t.ldMem 0x400000010 1 = 0)) = true ∧
       leaves (.ddxRepoint 0) (s 6 [ddxE 5 1]) (fun t => ended t 0 5 0 && decide (t.ldMem 0x400000018 8 = 78 * 2 ^ 14 + 2 ^ 40)) = true) := by
  decide +kernel

theorem witness_DdxUpkeepRuns :
    live.flag F.DDX_CTL_EN = false ∧ live.fuse.variant.ddx = true ∧ (State.setFlag live F.DDX_CTL_EN).flag F.DDX_CTL_EN = true ∧
      leaves .ddxInit live (fun t => t.ddx.clearing) = true ∧
    (let s := { holding (State.wr live F.DDX_BASE_ADDR 16) 0x400000000 (ddxE 5 1).bytes with ddx := { clearing := true, nowAt := 0 } }
     s.ddx.clearing = true ∧ leaves .ddxInitDone s (fun t => decide (t.mem = [])) = true) ∧
    (let s := { live with now := 2 ^ 60 }
     s.ddx.nowAt + 1000000 * s.ddxPeriod ≤ s.now ∧ live.now < live.ddx.nowAt + 1000000 * live.ddxPeriod ∧
       leaves .ddxAgeTick s (fun t => decide (t.rd F.DDX_AGE_NOW = 1)) = true) ∧
    (let s := State.wr (State.setFlag (State.setFlag (holding (State.wr live F.DDX_BASE_ADDR 16) 0x400000000
        ((ddxE 4 1).bytes ++ DdxEntry.bytes { ddxE 5 1 with age := 1 })) F.DDX_CTL_SWEEP_EN) F.DDX_CTL_INIT_DONE) F.DDX_AGE_NOW 32769
     let s := s.setArb 5 0 { Arb.init with holder := some (newReq 8 0 true 0) }
     s.holds 5 0 8 = true ∧ s.flag F.DDX_CTL_SWEEP_EN = true ∧ s.flag F.DDX_CTL_INIT_DONE = true ∧ s.badIn 0x400000000 256 = false ∧
       leaves .ddxSweepVisit s (fun t => decide (t.ldMem 0x400000012 2 = 1 ∧ t.ldMem 0x400000032 2 = 1)) = true) := by decide +kernel

/-- A job of an engine over a buffer of 4,096 bytes that begins with `d`, and one for its output. -/
def grainOn (cls : Nat) (d : List Byte) (j : Job) : State :=
  onRing { holding live (hAddr (4096 * 2 ^ 24) 0) d with bufs := [(0, { len := 4096 }), (64, { len := 4096 })] } cls 0 j

/-- Empty memory reads as zeros. -/
theorem test_unlisted_memory_reads_zero (n a : Nat) : ∀ b ∈ memRead [] a n, b = 0 := by
  induction n generalizing a with
  | zero => simp [memRead]
  | succ n ih => simpa [memRead, memGet, SMap.findD, SMap.find] using ih (a + 1)

theorem witness_OxXtsAndParityJobsTransformTheirData :
    (let j := jobOf 1 [(2, 1), (8, 4096 * 2 ^ 24), (16, 64 + 4096 * 2 ^ 24)]
     let s := grainOn 0x03 [] j
     let u := grainOn 0x03 [1] j
     jobReady s 0x03 0 0 j = true ∧ oxCheck j s = true ∧ s.badIn (hAddr (64 + 4096 * 2 ^ 24) 0) 4096 = false ∧
       s.badIn (hAddr (4096 * 2 ^ 24) 0) 4096 = false ∧ s.fixIn (hAddr (4096 * 2 ^ 24) 0) 4096 = [] ∧
       jobReady u 0x03 0 0 j = true ∧ oxCheck j u = true ∧ u.bytes (hAddr (4096 * 2 ^ 24) 0) 1 = [1]) ∧
    (let j := jobOf 2 [(8, 4096 * 2 ^ 24), (16, 64 + 4096 * 2 ^ 24)]
     let s := grainOn 0x03 [] j
     jobReady s 0x03 0 0 j = true ∧ oxCheck j s = true ∧ j.fld 29 1 = 0 ∧
       s.badIn (hAddr (4096 * 2 ^ 24) 0) 64 = false ∧ s.fixIn (hAddr (4096 * 2 ^ 24) 0) 64 = []) ∧
    (let j := jobOf 1 [(2, 9), (12, 64), (16, 4096 * 2 ^ 24), (32, 64 + 4096 * 2 ^ 24)]
     let s := grainOn 0x05 [1, 2, 3] j
     let u := { s with xtsKeys := [(9, List.replicate 64 1)] }
     jobReady s 0x05 0 0 j = true ∧ xtsCheck j s = true ∧ SMap.find s.xtsKeys 9 = none ∧
       leaves (.xtsEncrypt 0 0) s (fun t => ended t 0x3E 0 0) = true ∧
       SMap.find u.xtsKeys (j.fld 2 1) = some (List.replicate 64 1) ∧ u.badIn (hAddr (4096 * 2 ^ 24) 0) 64 = false ∧
       u.fixIn (hAddr (4096 * 2 ^ 24) 0) 64 = [] ∧ u.badIn (hAddr (64 + 4096 * 2 ^ 24) 0) 64 = false ∧
       leaves (.xtsEncrypt 0 0) u (fun t => ended t 0 0 0) = true) ∧
    (let h := fun i => leBytes 8 (64 + 64 * i + 64 * 2 ^ 24)
     let s := fun j => onRing { holding (holding live (hAddr (4096 * 2 ^ 24) 0) (h 0 ++ h 1 ++ h 2 ++ h 3 ++ h 4)) (hAddr (64 + 64 * 2 ^ 24) 0)
         [9] with
       bufs := [(0, { len := 4096 }), (64, { len := 64 }), (128, { len := 64 }), (192, { len := 64 }), (256, { len := 64 }), (320, { len := 64 })] }
       0x06 0 j
     let ej := jobOf 1 [(2, 4), (3, 1), (4, 64), (8, 4096 * 2 ^ 24), (16, 16)]
     let dj := jobOf 2 [(2, 4), (3, 1), (4, 64), (8, 4096 * 2 ^ 24), (16, 1)]
     let vj := jobOf 3 [(2, 4), (3, 1), (4, 64), (8, 4096 * 2 ^ 24)]
     (∀ j ∈ [ej, dj, vj], jobReady (s j) 0x06 0 0 j = true ∧ rdnCheck j (s j) = true ∧ j.fld 20 4 = 0 ∧ (s j).eccBad = [] ∧
       (s j).eccFix = [] ∧
       ∀ i, i < 5 → (s j).inHandle (leNat ((((s j).bytes (hAddr (j.fld 8 8) 0) 40).drop (8 * i)).take 8)) 0 64 = true) ∧
       leaves (.rdnEncode 0 0) (s ej) (fun t => ended t 0 0 0 && decide (t.ldMem (hAddr (320 + 64 * 2 ^ 24) 0) 1 = 0x45)) = true ∧
       leaves (.rdnDecode 0 0) (s dj) (fun t => ended t 0 0 0 && decide (t.ldMem (hAddr (64 + 64 * 2 ^ 24) 0) 1 = 0)) = true ∧
       leaves (.rdnVerify 0 0) (s vj) (fun t => ended t 0x10 0 16) = true) := by decide +kernel

/-! The map cache. -/

/-- What `State.MapQuiet` says, as a Boolean. -/
def mapQuiet (s : State) : Bool :=
  decide (s.map.commit = none ∧ s.map.next = none ∧ s.map.bg = [] ∧ s.map.maint = [] ∧ s.vbDirty ≤ s.rd F.MAP_COMMIT_CFG_VB_HI)

theorem mapQuiet_iff (s : State) : mapQuiet s = true ↔ s.MapQuiet := by
  unfold mapQuiet State.MapQuiet; exact decide_eq_true_iff

/-- What `State.CommitWaits` says, as a Boolean. -/
def commitWaits (s : State) : Bool :=
  decide (s.flag F.MAP_STATUS_COMMIT_ERR = false ∧
    s.ldMem (s.rd F.MAP_WM_ADDR_ADDR * 8) 8 ≤ (s.ldMem (s.rd F.MAP_SEQ_ADDR_ADDR * 8) 8 + 2 ^ 64 - 1) % 2 ^ 64)

theorem commitWaits_iff (s : State) : commitWaits s = true ↔ s.CommitWaits := by
  unfold commitWaits State.CommitWaits; exact decide_eq_true_iff

/-- The bases of the map cache, its cache at 1 GiB, its headers at 2 GiB, its view records at 4 GiB, and EN. -/
def mapBase : State :=
  State.wr (State.wr (State.wr { live with locked := [F.MAP_BASE_ADDR.off, F.MAP_HDR_BASE_ADDR.off, F.MAP_VIEW_BASE_ADDR.off] } F.MAP_BASE_ADDR 1)
    F.MAP_HDR_BASE_ADDR 32) F.MAP_VIEW_BASE_ADDR 64

/-- EN set and a memory. -/
def mapMemOn (mem : List Host.Cell) (j : Job) : State := onRing { State.setFlag mapBase F.MAP_CTL_EN with mem := mem } 0x07 0 j

/-- EN set, set 0 with an empty header and its HCHECK, the live record of volume 0 as never written. -/
def mapOn (j : Job) : State :=
  mapMemOn [(0x800000F0, 249), (0x800000F1, 114), (0x800000F2, 51), (0x800000F3, 169), (0x100000000, 40), (0x100000008, 1),
    (0x10000000C, 1)] j

/-- An entry of segment 5, cell 9. -/
def anEntry : Nat := mkEntry 5 9 0 false

/-- Line 0 holding the level 0 node of volume 0, PGEN 1, clean or dirty, with an entry that begins with `e0` and `e1` at position 0,
and `anEntry` at position 1; the header with its HCHECK. -/
def cachedLine (j : Job) (dirty : Bool) (e0 e1 : Byte) : State :=
  mapMemOn ([(0x40000000, e0), (0x40000001, e1), (0x40000002, 2), (0x40000004, 5), (0x40000008, 9), (0x40000009, 64), (0x4000000A, 2),
    (0x4000000C, 5)] ++
    (if dirty then [(0x80000010, 3), (0x80000017, 4), (0x800000F0, 42), (0x800000F1, 236), (0x800000F2, 24), (0x800000F3, 112)]
      else [(0x80000010, 1), (0x80000017, 4), (0x800000F0, 122), (0x800000F1, 207), (0x800000F2, 186), (0x800000F3, 147)]) ++
    [(0x100000000, 40), (0x100000008, 1), (0x10000000C, 1)]) j

/-- What `State.Cached` says, as a Boolean. -/
def isCached (s : State) (k : MKey) (n : Nat) : Bool :=
  decide (s.hdrOk (s.mapSet k) = true ∧ s.lineOf k = some n ∧ s.badIn (s.lineAddr n) 4096 = false ∧
    (s.hdrAddr (s.mapSet k) + 256 ≤ s.lineAddr n ∨ s.lineAddr n + 4096 ≤ s.hdrAddr (s.mapSet k)))

theorem isCached_iff (s : State) (k : MKey) (n : Nat) : isCached s k n = true ↔ s.Cached k n := by
  unfold isCached State.Cached; exact decide_eq_true_iff

theorem witness_MapRequestsReadAndWriteEntries :
    (let j := jobOf 1 [(6, 1)]
     let s := cachedLine j false 9 64
     jobReady s 0x07 0 0 j = true ∧ mapQuiet s = true ∧ s.viewsOk 0 0 = true ∧ mapGetCheck j s = true ∧ isCached s (liveKey 0 0 0) 0 = true ∧
       s.lineWord 0 0 = anEntry ∧ entryOk anEntry = true ∧ leaves (.mapGet 0) s (fun t => ended t 0 0 anEntry) = true) ∧
    (let j := jobOf 1 [(6, 2), (32, 64 * 2 ^ 24)]
     let s := { cachedLine j false 9 64 with bufs := [(0, { len := 64 })] }
     jobReady s 0x07 0 0 j = true ∧ mapGetCheck j s = true ∧ isCached s (liveKey 0 0 0) 0 = true ∧ s.badIn (hAddr (64 * 2 ^ 24) 0) 16 = false ∧
       leaves (.mapGet 0) s (fun t => ended t 0 0 0) = true) ∧
    (let j := jobOf 1 [(6, 1)]
     let s := mapOn j
     jobReady s 0x07 0 0 j = true ∧ mapQuiet s = true ∧ mapGetCheck j s = true ∧ s.map.fills = [] ∧ s.map.vb = [] ∧ s.vRoot 0 = zeroEntry ∧
       (∀ l, l < 4 → s.hdrOk (s.mapSet (liveKey 0 l 0)) = true ∧ s.lineOf (liveKey 0 l 0) = none) ∧
       leaves (.mapGet 0) s (fun t => ended t 0 0 zeroEntry) = true) ∧
    (let j := jobOf 1 [(4, 7), (6, 1)]
     let s := mapOn j
     jobReady s 0x07 0 0 j = true ∧ mapGetCheck j s = true ∧ s.viewsOk 0 7 = true ∧ s.frozenRec 0 7 = none ∧
       leaves (.mapGet 0) s (fun t => ended t 0x32 2 0) = true) ∧
    (let j := jobOf 2 [(4, 7), (16, zeroEntry), (24, zeroEntry)]
     let s := mapOn j
     jobReady s 0x07 0 0 j = true ∧ mapSetCheck j s = true ∧ leaves (.mapSet 0) s (fun t => ended t 0x32 1 0) = true) ∧
    (let j := jobOf 2 [(16, zeroEntry), (24, zeroEntry)]
     let s := cachedLine j false 9 64
     jobReady s 0x07 0 0 j = true ∧ mapSetCheck j s = true ∧ isCached s (liveKey 0 0 0) 0 = true ∧ s.map.holdVol ≠ some 0 ∧
       s.needCow 0 0 = false ∧ s.flag F.MAP_STATUS_COMMIT_ERR = false ∧
       leaves (.mapSet 0) s (fun t => ended t 0 0 anEntry) = true) ∧
    (let j := jobOf 3 [(16, zeroEntry), (24, anEntry)]
     let sh := setShared anEntry true
     jobReady (cachedLine j false 9 64) 0x07 0 0 j = true ∧ mapSetCheck j (cachedLine j false 9 64) = true ∧
       eMasked (j.fld 24 8) = eMasked anEntry ∧ eShared anEntry = false ∧ entryOk sh = true ∧ eMasked sh = eMasked anEntry ∧ eShared sh = true ∧
       eMasked (j.fld 24 8) ≠ eMasked (mkEntry 5 10 0 false) ∧
       leaves (.mapSetif 0) (cachedLine j false 9 64) (fun t => ended t 0 1 anEntry) = true ∧
       leaves (.mapSetif 0) (cachedLine j false 5 128) (fun t => ended t 0 0 (mkEntry 5 10 0 false)) = true ∧
       leaves (.mapSetif 0) (cachedLine j false 77 64) (fun t => ended t 0 2 sh) = true) ∧
    (let f : MFill := { key := liveKey 0 0 0, ptr := anEntry, level := 0, poison := false, waiters := [jobOf 1 [(6, 1)]] }
     let s0 := mapOn (jobOf 1 [])
     let s := { s0 with map := { s0.map with fills := [(0, f)] } }
     mapQuiet s = true ∧ SMap.find s.map.fills 0 = some f ∧ f.poison = false ∧
       leaves (.mapNodeReadComplete 0 0) s (fun t => ended t 0x12 0 0) = true) := by decide +kernel

/-- The map unit with its engine's operations and a commit. -/
def mapWith (s : State) (bg : List BgOp) (phase : Nat) (c : Option MCommit) : State :=
  { s with map := { s.map with bg := bg, phase := phase, commit := c } }

theorem witness_MapMaintenanceAndEngineStart :
    (let j := jobOf 4 []
     let s := cachedLine j false 9 64
     let u := cachedLine j true 9 64
     jobReady s 0x07 0 0 j = true ∧ mapQuiet s = true ∧ mapMaintCheck j s = true ∧ s.hdrOk (s.mapSet (liveKey 0 0 0)) = true ∧ liveKey 0 0 0 ∉ s.dirtyKeys ∧
       mapMaintCheck j u = true ∧ liveKey 0 0 0 ∈ u.dirtyKeys ∧
       leaves (.mapClean 0) s (fun t => ended t 0 0 0) = true ∧ leaves (.mapClean 0) u (fun t => decide (t.map.cleans.length = 1)) = true) ∧
    (let j := jobOf 5 []
     let s := cachedLine j true 9 64
     jobReady s 0x07 0 0 j = true ∧ mapMaintCheck j s = true ∧ s.lineOf (liveKey 0 0 0) = some 0 ∧ SMap.find s.map.fills 0 = none ∧
       leaves (.mapInval 0) s (fun t => ended t 0 2 0) = true) ∧
    (let j := jobOf 6 []
     let s := cachedLine j false 9 64
     jobReady s 0x07 0 0 j = true ∧ mapSwCheck j s = true ∧ s.hdrOk (swLine j / 16) = true ∧ SMap.find s.map.fills (swLine j) = none ∧
       (s.mtag (swLine j)).valid = true ∧ s.hdrOk (s.mapSet (s.mtag (swLine j)).mkey) = true ∧ (s.mtag (swLine j)).mkey ∉ s.dirtyKeys ∧
       leaves (.mapCleanSw 0) s (fun t => ended t 0 0 0) = true) ∧
    (let j := jobOf 7 []
     let s := cachedLine j false 9 64
     jobReady s 0x07 0 0 j = true ∧ mapSwCheck j s = true ∧ leaves (.mapInvalSw 0) s (fun t => ended t 0 0 0) = true) ∧
    (let j := jobOf 8 [(40, 511)]
     let s := mapOn j
     jobReady s 0x07 0 0 j = true ∧ mapQuiet s = true ∧ commitWaits s = true ∧ mapBgCheck j s = true ∧ s.map.phase = 0 ∧ s.map.held = [] ∧
       leaves (.mapRangeClean 0) s (fun t => decide (t.map.phase = 1 ∧ t.map.commit.isSome)) = true) ∧
    (let j := jobOf 9 [(40, 511)]
     let s := mapOn j
     let u := State.setArb (mapWith { s with rings := [] } [.job j] 0 none) 4 0 { Arb.init with holder := some (newReq 9 0 true 0) }
     mapBgCheck j s = true ∧ jobReady s 0x07 0 0 j = true ∧ s.knownKeys = [] ∧ s.hdrSets = [0] ∧ s.hdrOk 0 = true ∧
       leaves (.mapRangeInval 0) s (fun t => ended t 0 0 0 || (t.arb 4 0).requests 9) = true ∧
       u.ring 0x07 0 0 = [] ∧ u.map.bg = [.job j] ∧ u.holds 4 0 9 = true ∧ u.viewsOk 0 0 = true ∧
       leaves (.mapRangeInval 0) u (fun t => ended t 0 0 0) = true) ∧
    (let j := jobOf 0x0A []
     let s := mapOn j
     let u := s.stMem (s.recAddr 0 + 8) 4 (2 ^ 31)
     jobReady s 0x07 0 0 j = true ∧ mapBgCheck j s = true ∧ s.viewGate 0 true = none ∧ u.viewGate 0 true = some 3 ∧
       leaves (.mapSnap 0) s (fun t => decide (t.map.phase = 1)) = true ∧ leaves (.mapSnap 0) u (fun t => ended t 0x32 3 0) = true) ∧
    (let j := jobOf 0x0B [(40, 9)]
     let s := (mapOn j).setBytes ((mapOn j).recAddr 9) (emptyRec 9)
     let k := jobOf 0x0B [(4, 3), (40, 9)]
     let u := (mapOn k).setBytes ((mapOn k).recAddr 9) (emptyRec 9)
     jobReady s 0x07 0 0 j = true ∧ mapBgCheck j s = true ∧ (mapOn j).volEmpty 9 = false ∧ s.volEmpty 9 = true ∧ s.viewGate 0 true = none ∧
       u.frozenRec 0 3 = none ∧ u.volEmpty 9 = true ∧ leaves (.mapClone 0) (mapOn j) (fun t => ended t 0x32 6 0) = true ∧
       leaves (.mapClone 0) u (fun t => ended t 0x32 2 0) = true ∧ leaves (.mapClone 0) s (fun t => decide (t.map.phase = 1)) = true) ∧
    (let j := jobOf 0x0C []
     let s := mapOn j
     let u := s.stMem (s.recAddr 0 + 26) 2 1
     jobReady s 0x07 0 0 j = true ∧ mapBgCheck j s = true ∧ s.nviews 0 = 0 ∧ u.nviews 0 ≠ 0 ∧
       leaves (.mapSnapDel 0) u (fun t => ended t 0x32 4 0) = true) ∧
    (let j := jobOf 0x0A []
     let s := State.setFlag (mapWith (mapOn j) (List.replicate 17 .cleanAll) 1 none) F.MAP_STATUS_COMMIT_ERR
     jobReady s 0x07 0 0 j = true ∧ mapBgCheck j s = true ∧ 17 ≤ s.map.bg.length ∧ s.map.phase = 1 ∧
       s.vbDirty ≤ s.rd F.MAP_COMMIT_CFG_VB_HI ∧ s.flag F.MAP_STATUS_COMMIT_ERR = true ∧
       leaves (.mapSnap 0) s (fun t => ended t 0x31 0 0) = true) := by
  refine ⟨?_, ?_, ?_, ?_, ?_, ?_, ?_, ?_, ?_, ?_⟩ <;> decide +kernel

/-- A commit in a step. -/
def commitIn (step : Nat) (bg : Bool) : MCommit :=
  { step := step, c := 8, since := 0, warned := false, nodes := [], again := [], drops := [], wants := [], bg := bg,
    cleans := [(liveKey 0 0 0, jobOf 4 [])], views := [], pages := [], tables := [], ptr := anEntry }

theorem witness_MapCommitsRun :
    (let s := mapOn (jobOf 1 [])
     mapQuiet s = true ∧ commitWaits s = true ∧ s.map.phase = 0 ∧ (s.vbDirty = 0 ∧ s.map.cleans = []) ∧
       leaves .mapCommitRequest s (fun t => decide (t.map.commit.map (fun c => (c.step, c.c)) = some (2, 2 ^ 64 - 1))) = true ∧
       leaves .mapCleanall s (fun t => decide (t.map.bg = [.cleanAll])) = true) ∧
    (let s0 := mapOn (jobOf 1 [])
     let s := { s0 with now := 2 ^ 62, map := { s0.map with cleans := [(liveKey 0 0 0, jobOf 4 [])] } }
     mapQuiet s = true ∧ commitWaits s = true ∧ 1000 * s.rd F.MAP_COMMIT_CFG_PERIOD_US ≤ s.now - s.map.lastEnd ∧ s.map.cleans ≠ [] ∧
       leaves .mapCommitPeriod s (fun t => t.map.commit.isSome) = true) ∧
    (let s := State.setFlag (mapOn (jobOf 1 [])) F.MAP_STATUS_COMMIT_ERR
     mapQuiet s = true ∧ s.flag F.MAP_STATUS_COMMIT_ERR = true ∧
       leaves .mapCommitRequest s (fun t => decide (t.map.next = some ([], false))) = true) ∧
    (let s := { mapWith (mapOn (jobOf 1 [])) [] 0 (some (commitIn 2 false)) with now := 2 ^ 62 }
     s.map.commit = some (commitIn 2 false) ∧ (commitIn 2 false).warned = false ∧
       1000000 * s.rd F.MAP_COMMIT_CFG_WM_MS < s.now - (commitIn 2 false).since ∧
       leaves .mapWmTimeout s (fun t => decide (t.map.commit.map (·.warned) = some true)) = true) ∧
    (let s := mapWith (mapOn (jobOf 1 [])) [] 0 (some (commitIn 7 false))
     s.mapSyncs 3 = false ∧ s.map.syncBad = false ∧ (commitIn 7 false).nodes = [] ∧ s.map.next = none ∧ s.map.stalled = [] ∧
       leaves .mapCommitComplete s (fun t => ended t 0 1 0 && decide (t.rd F.MAP_COMMIT_SEQ_C = 8)) = true) ∧
    (let j := jobOf 0x0A []
     let s := mapWith (mapOn (jobOf 1 [])) [.job j] 2 (some (commitIn 7 true))
     s.mapSyncs 3 = false ∧ s.map.held = [] ∧ s.lgen 0 = 1 ∧
       leaves .mapCommitComplete s (fun t => ended t 0 0 (1 + 2 ^ 32) && decide (t.lgen 0 = 2 ∧ t.newest 0 = 1)) = true) := by decide +kernel

theorem witness_MapEnablesInvalidatesAndMounts :
    mapBase.flag F.MAP_CTL_EN = false ∧ mapBase.mapBases = true ∧ live.mapBases = false ∧
      (State.setFlag mapBase F.MAP_CTL_EN).flag F.MAP_CTL_EN = true ∧
      leaves .mapInvall mapBase (fun t => t.map.invall) = true ∧
      leaves (.mapCtlEnWrite true) mapBase (fun t => t.flag F.MAP_STATUS_EN_ERR && !t.flag F.MAP_CTL_EN) = true ∧
      leaves (.mapCtlEnWrite true) (State.setFlag (State.setFlag mapBase F.MAP_CTL_INVD) F.MAP_CTL_MOUNTED)
        (fun t => t.flag F.MAP_CTL_EN) = true ∧
    (let s := { mapBase with map := { mapBase.map with mounting := some false } }
     s.map.mounting = some false ∧ leaves .mapMountDone s (fun t => t.flag F.MAP_STATUS_MOUNT_ERR) = true) ∧
    ({ mapBase with map := { mapBase.map with mounting := some true, invall := true } } : State).map.invall = true ∧
      mapBase.eccBad = [] ∧ bitsOf (0x10000 * 3) 16 16 ≠ 0 ∧ mapBase.frozenRec 0 3 = none ∧
      leaves (.mapVqKeyWrite (0x10000 * 3)) mapBase (fun t => !t.flag F.MAP_VQ_KEY_FOUND) = true ∧
      leaves (.mapVqKeyWrite 0) (mapOn (jobOf 1 [])) (fun t => t.flag F.MAP_VQ_KEY_FOUND && decide (t.rd F.MAP_VQ_DATA0_BYTES 0 = zeroEntry)) =
        true := by decide +kernel

/-! Segments, rebuild, reshape, the Mule and the Goat. -/

/-- Pool 0 VALID with five lanes, and the record of band 1 with four data positions and one of parity, on lanes 0 to 4, die 0, unit 10:
its STATE, the low bytes of its slots and of its position states. -/
def bandMem (state slots pst : Byte) : List Host.Cell :=
  [(0x800000, 1), (0x800001, 5), (0x100000080, state), (0x100000082, 36), (0x100000083, 63)] ++
    (if pst = 0 then [] else [(0x10000008B, pst)]) ++ (if slots = 0 then [] else [(0x100000090, slots)]) ++
    [(0x1000000B1, 128), (0x1000000B2, 2), (0x1000000B4, 1), (0x1000000B5, 128), (0x1000000B6, 2), (0x1000000B8, 2), (0x1000000B9, 128),
      (0x1000000BA, 2), (0x1000000BC, 3), (0x1000000BD, 128), (0x1000000BE, 2), (0x1000000C0, 4), (0x1000000C1, 128), (0x1000000C2, 2)]

/-- The bases of the segment manager, of the erase-unit table and the Mule's geometry; memory as given. -/
def segBase (mem : List Host.Cell) : State :=
  let s := { live with locked := [F.SEG_BAND_BASE_ADDR.off, F.SEG_LAYOUT_BASE_ADDR.off, F.SEG_LOST_BASE_ADDR.off, F.SEG_BUF_BASE_ADDR.off,
                                  F.MUL_EUT_BASE_ADDR.off] }
  let s := State.wr (State.wr (State.wr (State.wr (State.wr s F.SEG_BAND_BASE_ADDR 2) F.SEG_LAYOUT_BASE_ADDR 1) F.SEG_LOST_BASE_ADDR 2)
    F.SEG_BUF_BASE_ADDR 16) F.MUL_EUT_BASE_ADDR 4
  let s := State.wr (State.wr s F.MUL_GEOM_STRIDE 16) F.NML_LINK_STATE 3
  { s with mem := mem }

/-- Stream 0 with band 1. -/
def strm (seg : Option Nat) (page cell : Nat) (begun : Bool) (closed ended : Nat) (flight : List Flight) : SegStream :=
  { SegStream.init with band := 1, slotNext := 1, w := 4, p := 1, seg := seg, page := page, cell := cell, ndesc := 1, begun := begun,
                        closed := closed, ended := ended, flight := flight }

/-- A segment job over a stream; buffer 0 of 64 bytes. -/
def segRun (mem : List Host.Cell) (y : SegStream) (j : Job) : State :=
  let s := State.setFlag (State.setFlag (segBase mem) F.SEG_CTL_EN) F.JRN_CTL_SINGLE
  onRing { s with bufs := [(0, { len := 64 })], seg := { s.seg with streams := [(0, y)] } } 0x08 0 j

/-- Bytes 16 to 499 of a page with one descriptor of zeros. -/
def pageBody : List Byte := List.replicate 121 0 ++ (List.replicate 121 0 ++ (List.replicate 120 0 ++ (List.replicate 120 0 ++ [1, 0])))

/-- A data page of segment 256, stripe 0, position 0 of the band above: one grain of one cell, of zeros. -/
def aPage : List Byte :=
  [0, 1, 0, 0, 0, 0, 0, 0, 0, 0, 0, 0, 36, 0, 74, 141] ++ pageBody ++ [0x45, 0xA9, 0xD5, 0xDF] ++ List.replicate 15880 0

theorem crc32c_of (l : List Byte) (c : Nat) (h : l.foldl (crcByte 0x82F63B78) (2 ^ 32 - 1) = c) : crc32c l = c ^^^ (2 ^ 32 - 1) := by
  subst h; rfl

theorem page_crc : crc32c pageBody = 3755321669 := by
  have h (n c d : Nat) (h : (List.replicate n (0 : Byte)).foldl (crcByte 0x82F63B78) c = d) (l : List Byte) :
      (List.replicate n 0 ++ l).foldl (crcByte 0x82F63B78) c = l.foldl (crcByte 0x82F63B78) d := by rw [List.foldl_append, h]
  have e : pageBody.foldl (crcByte 0x82F63B78) (2 ^ 32 - 1) = ([1, 0] : List Byte).foldl (crcByte 0x82F63B78) 1657117348 :=
    (h 121 (2 ^ 32 - 1) 1561619889 (by decide +kernel) _).trans ((h 121 1561619889 1410429013 (by decide +kernel) _).trans
      ((h 120 1410429013 1394567192 (by decide +kernel) _).trans (h 120 1394567192 1657117348 (by decide +kernel) _)))
  exact (crc32c_of _ _ e).trans (by decide +kernel)

/-- The page passes HCHECK. -/
theorem page_hcheck : hcheckOk aPage = true := by
  have h : (aPage.drop 16).take 484 = pageBody := by decide +kernel
  have h' : lfld aPage 500 4 = 3755321669 := by decide +kernel
  simp only [hcheckOk, h, h', page_crc, decide_true]

/-- Lane 0's sled holding that page at the place of position 0. -/
def withPage (s : State) : State := { s with sleds := [(0, { Sled.init with pages := [(pageKey 0 10 0, aPage)] })] }

/-- The segment manager's jobs whose outcome is looked at. -/
theorem witness_SegmentJobsRun :
    (let j := jobOf 1 [(4, 4), (5, 1)]
     let s := segRun (bandMem 1 1 0) (strm none 0 0 false 0 0 []) j
     jobReady s 0x08 0 0 j = true ∧ segOpenCheck j s = true ∧ s.bandFits 0 0 4 1 = true ∧
       leaves (.segOpen 0) s (fun t => ended t 0 0 257) = true) ∧
    (let j := jobOf 1 [(4, 4), (5, 1)]
     let s := segRun (bandMem 1 1 0) { strm none 0 0 false 0 0 [] with band := 0 } j
     jobReady s 0x08 0 0 j = true ∧ segOpenCheck j s = true ∧ (s.stream 0).band = 0 ∧ s.flag F.MUL_CTL_LOADED = false ∧
       leaves (.segOpen 0) s (fun t => ended t 0x31 0 0) = true) ∧
    (let j := jobOf 2 [(8, 64 * 2 ^ 24)]
     let s := fun y => segRun (bandMem 1 1 0) y j
     let y0 := strm none 0 0 false 0 0 []
     let y1 := strm (some 256) 0 3 false 0 0 []
     let y2 := strm (some 256) 255 248 false 0 0 []
     jobReady (s y0) 0x08 0 0 j = true ∧ segAppendCheck j (s y0) = true ∧ (s y0).badIn (hAddr (64 * 2 ^ 24) 0) 64 = false ∧
       (s y0).fixIn (hAddr (64 * 2 ^ 24) 0) 64 = [] ∧ y1.place 1 = some (0, 3, false) ∧ y2.place 1 = none ∧
       leaves (.segAppend 0) (s y0) (fun t => ended t 0x31 2 0) = true ∧
       leaves (.segAppend 0) (s y1) (fun t => ended t 0 0 (mkEntry 256 3 0 false) && decide ((t.stream 0).cell = 4)) = true ∧
       leaves (.segAppend 0) (s y2) (fun t => ended t 0x31 1 0) = true) ∧
    (let j := jobOf 3 []
     let s := segRun (bandMem 1 1 0) (strm (some 256) 0 1 true 0 0 []) j
     jobReady s 0x08 0 0 j = true ∧ segStreamCheck j s = true ∧ s.bufReadable 0 0 4 = true ∧ (s.stream 0).begun = true) ∧
    (let j := jobOf 4 []
     let s := fun y => segRun (bandMem 1 1 0) y j
     segStreamCheck j (s (strm none 0 0 false 1 1 [])) = true ∧
       leaves (.segSync 0) (s { strm none 0 0 false 1 1 [] with lost := true }) (fun t => ended t 0x20 0 0) = true ∧
       leaves (.segSync 0) (s (strm none 0 0 false 1 0 [])) (fun t => decide (t.comps = [] ∧ (t.stream 0).syncs.length = 1)) = true) ∧
    (let j := jobOf 6 [(4, 256)]
     let s := segRun (bandMem 1 1 0) (strm none 0 0 false 0 0 []) j
     jobReady s 0x08 0 0 j = true ∧ segReleaseCheck j s = true ∧ (∀ p ∈ s.seg.streams, ∀ f ∈ p.2.flight, f.seg ≠ 256) ∧
       State.lostOf (s.setBand 1 { s.band 1 with slots := 0 }) 256 = [] ∧ (s.band 1).state = 1 ∧
       leaves (.segRelease 0) s (fun t => ended t 0 0 0) = true) := by
  refine ⟨?_, ?_, ?_, ?_, ?_, ?_⟩ <;> decide +kernel

/-- A READ of the first grain of segment 256. -/
def readJob : Job := jobOf 5 [(2, 1), (4, 256), (16, 64 * 2 ^ 24)]

theorem witness_SegmentReads :
    (let s := segRun (bandMem 2 2 0) (strm none 0 0 false 0 0 []) readJob
     jobReady s 0x08 0 0 readJob = true ∧ segReadCheck readJob s = true ∧ (s.band 1).liveSlot 0 = false ∧
       leaves (.segRead 0 0) s (fun t => ended t 0x32 1 0) = true) ∧
    (let s := holding (segRun (bandMem 2 1 0) (strm none 0 0 false 0 0 []) readJob) (0x200000 + 256 * 256) [0, 1, 0, 0, 0, 1, 1]
     segReadCheck readJob s = true ∧ (s.band 1).liveSlot 0 = true ∧ s.isLost 256 0 0 = true ∧
       leaves (.segRead 0 0) s (fun t => ended t 0x12 0 0) = true) ∧
    (let s := segRun (bandMem 1 1 0) (strm (some 256) 0 1 true 0 0 []) readJob
     let u := holding s (0x20000000 + 498) [1]
     segReadCheck readJob s = true ∧ s.isLost 256 0 0 = false ∧ s.inBuffer 256 0 = some (0, 0) ∧ s.badIn (s.bufPage 0 0 0) 16384 = false ∧
       s.fixIn (s.bufPage 0 0 0) 16384 = [] ∧ findDesc (s.bytes (s.bufPage 0 0 0) 16384) 0 0 = none ∧
       (findDesc (u.bytes (u.bufPage 0 0 0) 16384) 0 0).isSome = true ∧ u.inBuffer 256 0 = some (0, 0) ∧
       leaves (.segRead 0 0) s (fun t => ended t 0x11 0 0) = true ∧ leaves (.segRead 0 0) u (fun t => ended t 0 0 0) = true) ∧
    (let s := withPage (segRun (bandMem 2 1 0) (strm none 0 0 false 0 0 []) readJob)
     jobReady s 0x08 0 0 readJob = true ∧ segReadCheck readJob s = true ∧ (s.band 1).liveSlot 0 = true ∧ s.isLost 256 0 0 = false ∧
       s.inBuffer 256 0 = none ∧ (s.band 1).pstate 0 = 0 ∧ s.tagOk 256 0 0 aPage = true ∧ lfld aPage 496 2 = (s.band 1).epoch ∧
       (findDesc aPage 0 0).isSome = true ∧ s.badIn (hAddr (64 * 2 ^ 24) 0) (pageCells aPage 0 1).length = false) := by
  refine ⟨?_, ?_, ?_, ?_⟩ <;> decide +kernel

theorem witness_SegmentReads_media :
    let s := withPage (segRun (bandMem 2 1 0) (strm none 0 0 false 0 0 []) readJob)
    s.readPos 256 0 0 0 = .page aPage ∧ s.dataPageOk 256 0 0 aPage = true := by
  intro s
  have h1 : s.tagOk 256 0 0 aPage = true := by decide +kernel
  have h2 : lfld aPage 496 2 = (s.band (segBand 256)).epoch := by decide +kernel
  have h3 : s.laneUp 0 = true := by decide +kernel
  have h4 : s.readPos 256 0 0 0 = s.mediaRead 0 0 10 0 false := by
    have e : (s.band (segBand 256)).at_ 0 = (0, 0, 10) := by decide +kernel
    simp only [State.readPos, e]
    rfl
  refine ⟨?_, by simp only [State.dataPageOk, h1, page_hcheck, h2, decide_true, Bool.and_self]⟩
  have h5 : (s.sled 0).fenced s.headId = false := by decide +kernel
  rw [h4]
  simp only [State.mediaRead, State.mediaHeader, h3, h5, and_false, Bool.false_eq_true, if_false]
  rfl

theorem witness_SegmentStripesAndReports :
    (let f : Flight := { seg := 256, stripe := 0, num := 0, w := 4, p := 1, dead := true, sent := true }
     let s0 := segRun (bandMem 2 1 0) (strm none 0 0 false 1 0 [f]) (jobOf 1 [])
     let s := holding s0 (0x200000 + 256 * 256) [0, 1, 0, 0, 0, 1, 1]
     let u := holding s0 (0x200000 + 256 * 256) ((List.range 16).flatMap (fun _ => [1, 0, 0, 0, 0, 1, 1, 0, 0, 0, 0, 0, 0, 0, 0, 0]))
     mapQuiet s = true ∧ (s.stream 0).flight = [f] ∧ (s.lostFind 256 0).isSome = true ∧
       leaves (.stripeProgramComplete 0 0) s (fun t => decide ((t.stream 0).ended = 1)) = true ∧
       mapQuiet u = true ∧ (u.stream 0).flight = [f] ∧ (u.declareLost 256 0 31).isNone = true ∧
       leaves (.stripeProgramComplete 0 0) u (fun t => decide ((t.stream 0).flight = [f] ∧ t.seg.heldBy = [256])) = true) ∧
    (let f : Flight := { seg := 256, stripe := 0, num := 0, w := 4, p := 1, dead := false, sent := true }
     let w : SyncWait := { job := some (jobOf 4 []), status := 0, aux := 0, result := 0, upTo := 1, bad := false }
     let y := { strm none 0 0 false 1 0 [f] with syncs := [w] }
     let s := State.wr (State.wr (State.wr (State.wr (segRun (bandMem 2 1 0) y (jobOf 1 [])) F.NML_LINK_STATE 3 1) F.NML_LINK_STATE 3 2)
       F.NML_LINK_STATE 3 3) F.NML_LINK_STATE 3 4
     let s := { s with sleds := (List.range 5).map (fun l => (l, { Sled.init with owner0 := 0, epoch0 := s.rd F.NML_EPOCH_EPOCH })) }
     let r := s.programAll 0 f 0 (List.range 5)
     s.mediaHold = false ∧ s.seg.opens = [] ∧ r.2 = (0, false) ∧ mapQuiet r.1 = true ∧ countBits 0 5 ≤ 1 ∧ w.job = some (jobOf 4 []) ∧ (jobOf 4 []).item = none ∧
       leaves (.stripeProgramComplete 0 0) s (fun t => ended t 0 0 0) = true ∧
       (s.programAll 0 f 3 (List.range 5)).2 = (3, false) ∧ mapQuiet (s.programAll 0 f 3 (List.range 5)).1 = true ∧
       ((s.programAll 0 f 3 (List.range 5)).1.declareLost 256 0 3).isSome = true) ∧
    (let s := State.setFlag { live with seg := { live.seg with reports := [[1, 256, 0]] }, queues := [(0, openQ 0 [])] } F.SEG_RPTQ_VALID
     s.seg.reports = [[1, 256, 0]] ∧ live.seg.reports = [] ∧
       (State.enqueue { s with seg := { s.seg with reports := [] } } (plainItem (s.rd F.SEG_RPTQ_QUEUE) [1, 256, 0] 0)).isSome = true ∧
       leaves .segReportRetry s (fun t => decide (t.items.length = 1)) = true) := by
  refine ⟨?_, ?_, ?_⟩ <;> decide +kernel

theorem witness_CensusRebuildAndReshapeRun :
    (let s := segBase []
     s.flag F.SEG_CTL_EN = false ∧ s.segBases = true ∧ live.segBases = false ∧ s.seg.census = false ∧
       leaves .segCensus s (fun t => t.seg.census) = true) ∧
    (let s := { segBase [] with seg := { live.seg with census := true } }
     (List.range s.fuse.variant.lanes).flatMap s.headsOn = [] ∧
       leaves .segCensusDone s (fun t => t.flag F.SEG_CTL_CENSUS_DONE) = true) ∧
    (let s := withPage { segBase [] with seg := { live.seg with census := true } }
     ((List.range s.fuse.variant.lanes).flatMap s.headsOn).map (fun f => (f.lane, f.die, f.eu, f.tag.seg, f.tag.pos)) = [(0, 0, 10, 256, 0)]) ∧
    (let s := segBase []
     (∀ n ∈ s.bandsListed, ∀ q, q < (s.band n).n → bitOf 5 ((s.band n).at_ q).1 = false) ∧
       leaves (.segLaneWrite 5) s (fun t => decide (t.rd F.SEG_LANE_FAILED = 5)) = true) ∧
    (let s := segBase (bandMem 2 1 0)
     s.bandsListed = [1] ∧ s.ownBand 1 = true ∧ (s.band 1).state = 2 ∧ s.seg.rebuild = [] ∧ s.seg.reshape = none ∧ (s.band 1).pstate 3 = 0 ∧
       s.seg.failed = [] ∧ s.rd F.SEG_LANE_FAILED = 0 ∧ (∀ p, p < (s.band 1).n → (bitOf 8 ((s.band 1).at_ p).1 = true ↔ p = 3)) ∧
       leaves (.segLaneWrite 8) s (fun t => decide (t.seg.failed = [(1, 3)])) = true) ∧
    (let s := segBase (bandMem 2 1 64)
     (s.band 1).state = 2 ∧ (s.band 1).pstate 3 = 1 ∧ s.answersFor 1 = true ∧ s.seg.failed = [] ∧
       leaves (.segRbldAddWrite (1 + 3 * 2 ^ 24)) s (fun t => decide (t.seg.failed = [(1, 3)])) = true) ∧
    (let s := segBase (bandMem 1 1 0)
     (s.band 1).state = 1 ∧ s.bandOpenSeg 1 = false ∧ (s.band 1).slots ≠ 0 ∧
       leaves (.segRbldAddWrite (1 + 3 * 2 ^ 24)) s (fun t => decide (t.seg.failed = [(1, 3)] ∧ (t.band 1).state = 2)) = true) ∧
    (let s := segBase (bandMem 2 1 0)
     let v := 1 + 3 * 2 ^ 24
     (s.band 2).state = 0 ∧ (s.band 1).state = 2 ∧ (3 : Nat) < (s.band 1).n ∧ (s.band 1).pstate 3 ≠ 1 ∧ s.answersFor 1 = true ∧
       s.seg.rebuild = [] ∧ s.seg.reshape = none ∧
       leaves (.segRbldAddWrite v) s (fun t => decide (t.seg.failed = [(1, 3)] ∧ (t.band 1).pstate 3 = 1)) = true) ∧
    (let s0 := State.wr (State.setFlag (segBase (bandMem 2 1 64)) F.SEG_RBLD_CTL_EN) F.SEG_RBLD_CTL_DEPTH 4
     let s := { s0 with seg := { s0.seg with failed := [(1, 3)] } }
     let u := State.wr (holding s 0x800008 [32]) F.MUL_LANE_FREE 1 5
     s.rbldRuns = true ∧ live.seg.failed = [] ∧ s.bandInFlight 1 = false ∧ s.replacement 1 3 = none ∧ u.replacement 1 3 = some (5, 0, 0) ∧
       leaves .rebuildPositionStart s (fun t => decide (t.seg.noRepl = [(1, 3)])) = true ∧
       leaves .rebuildPositionStart u (fun t => decide (t.seg.rebuild.length = 1)) = true) := by
  refine ⟨?_, ?_, ?_, ?_, ?_, ?_, ?_, ?_, ?_⟩ <;> decide +kernel

/-- Position 3 of band 1 in rebuild on lane 5. -/
def moved : PosMove := { band := 1, pos := 3, lane := 5, die := 0, eu := 7, slot := 0, stripe := 0, old := (3, 128, 10) }

/-- The rebuild engine with that position, in a state whose sleds hold page 0 of positions in `qs`. -/
def rebuilding (mem : List Host.Cell) (qs : List Nat) : State :=
  let s := State.setFlag (State.wr (segBase mem) F.NML_LINK_STATE 3 5) F.SEG_RBLD_CTL_EN
  { s with seg := { s.seg with rebuild := [moved] }, sleds := qs.map (fun q => (q, { Sled.init with pages := [(pageKey 0 10 0, [])] })) }

/-- A grant of an arbiter. -/
def granting (s : State) (ac inst num : Nat) : State := s.setArb ac inst { Arb.init with holder := some (newReq num 0 true 0) }

/-- The LOST table's bucket of segment 256 with some entries. -/
def lostWith (s : State) (l : List Byte) : State := holding s (0x200000 + 256 * 256) l

theorem witness_RebuildAndReshape :
    (let s := granting (rebuilding (bandMem 2 1 128) [0]) 3 1 9
     let g := s.gatherFor 256 0 0 32 true
     let u := lostWith s [0, 1, 0, 0, 0, 1, 8]
     s.seg.rebuild = [moved] ∧ s.mediaHold = false ∧ s.seg.heldBy = [] ∧ s.flag F.SEG_RBLD_CTL_EN = true ∧
       s.rbldNext moved = some (0, 0) ∧ s.holds 3 (rbldEngine 1) 9 = true ∧ s.bgBusy 1 ((s.okPositions 1 32).take (s.band 1).w) = false ∧
       g.stale = none ∧ g.good.length < (s.band 1).w ∧ s.isLost 256 0 3 = false ∧ u.isLost 256 0 3 = true ∧
       (u.gatherFor 256 0 0 32 true).stale = none ∧ u.rbldNext moved = some (0, 0) ∧ s.seg.rebuild[0]? = some moved) ∧
    (let s := rebuilding (bandMem 2 0 128) []
     s.rbldNext moved = none ∧ s.ownDie moved.old.2.1 = false ∧
       leaves (.rebuildPositionDone 0) s (fun t => decide (t.seg.rebuild = [])) = true) ∧
    (let s := segBase []
     let r : Reshape := { pool := 0, since := 0, moving := [], again := [] }
     let u := { s with seg := { s.seg with reshape := some r } }
     s.seg.reshape = none ∧ (∀ n ∈ s.bandsListed, s.ownBand n = false) ∧ u.seg.reshape = some r ∧
       leaves .reshapeStart s (fun t => decide ((t.pool 0).cur = 1 ∧ t.seg.reshape = none)) = true ∧
       leaves .reshapeAbort u (fun t => decide ((t.pool 0).cur = 1 ∧ t.seg.reshape = none)) = true) ∧
    (let s := segBase (bandMem 2 1 192)
     let r : Reshape := { pool := 0, since := 0, moving := [moved, { moved with pos := 2 }], again := [] }
     let u := { s with seg := { s.seg with reshape := some r } }
     u.seg.reshape = some r ∧ u.mediaHold = false ∧ u.ownDie moved.old.2.1 = false ∧
       ((rangeFrom 0 (((u.sled 3).eu 128 10).top)).filter (fun i => ((u.sled 3).page 128 10 i).isSome)) = [] ∧
       leaves (.reshapeMoveDone .none) u (fun t => decide (t.seg.reshape.map (fun r => r.moving.length) = some 1)) = true) ∧
    (let s := State.wr (State.wr (segBase (bandMem 2 1 192)) F.NML_LINK_STATE 3 5) F.NML_LINK_STATE 3 3
     let r : Reshape := { pool := 0, since := 0, moving := [moved, { moved with pos := 2 }], again := [] }
     let x : Sled := { Sled.init with pages := [(pageKey 128 10 0, aPage)], eus := SMap.put [] (euKey 128 10) { ((Sled.init).eu 128 10) with top := 1 } }
     let u := { s with seg := { s.seg with reshape := some r },
                       sleds := [(3, x), (5, { Sled.init with owner0 := 0, epoch0 := s.rd F.NML_EPOCH_EPOCH })] }
     ((rangeFrom 0 (((u.sled 3).eu 128 10).top)).filter (fun i => ((u.sled 3).page 128 10 i).isSome)) = [0] ∧ u.mediaHold = false ∧
       u.bgWaits 3 128 = false ∧ (match u.mediaRead 3 128 10 0 false with | .page d => headOk d | _ => false) = true ∧
       u.mediaRead 3 128 10 0 true = .bad ∧ u.mediaGate 5 (u.engCmd 2 0 7 0 false false) = .open_ ∧ (u.band 1).state = 2 ∧ (u.band 1).pstate 3 = 3 ∧
       u.answersFor 1 = true ∧
       leaves (.reshapeMoveDone .none) u (fun t => decide (t.seg.reshape.map (fun r => r.moving.map (·.stripe)) = some [1, 0])) = true ∧
       leaves (.reshapeMoveDone .read) u (fun t => decide (t.seg.failed = [(1, 3)])) = true) := by
  refine ⟨?_, ?_, ?_, ?_, ?_⟩ <;> decide +kernel

/-- The LOST bucket of segment 256 full of entries of other segments: LOST_FULL (R282). -/
theorem witness_RebuildHeldByAFullBucket :
    let s := lostWith (granting (rebuilding (bandMem 2 1 128) [0]) 3 1 9)
      ((List.range 16).map (fun i => [BitVec.ofNat 8 i, 2, 0, 0, 0, 1] ++ List.replicate 10 0)).flatten
    s.rbldNext moved = some (0, 0) ∧ s.isLost 256 0 3 = false ∧ (s.declareLost 256 0 ((s.band 1).missMask (s.gatherFor 256 0 0 32 true).good)).isNone = true ∧
      leaves (.rebuildStripe 0 0 false) s (fun t => t.flag F.SEG_STATUS_LOST_FULL) = true := by decide +kernel

theorem witness_MuleAndGoatRun :
    (let s := segBase []
     live.locked.contains F.MUL_EUT_BASE_ADDR.off = false ∧ s.locked.contains F.MUL_EUT_BASE_ADDR.off = true ∧ s.rd F.MUL_GEOM_STRIDE ≠ 0 ∧
       s.seg.load = false ∧ leaves .mulLoad s (fun t => t.seg.load) = true) ∧
    (let s := State.setFlag (State.setFlag (holding (segBase []) 0x200000000 [0, 0, 0, 0, 3]) F.MUL_CTL_ERASE_EN) F.MUL_CTL_LOADED
     let r : RelBand := { fence := 64, units := [(0, 0, 0)] }
     let m : TxMsg := { src := .append appendJob 0, op := 1, raddr := 0, rkey := 0, imm := 0, data := [], lo := 0, n := 1, bg := false }
     let u := { s with seg := { s.seg with released := [(1, r)] }, trn := { s.trn with qps := [(2, { Qp.init with msgs := [m] })] } }
     let ok := { s with sleds := [(0, { Sled.init with owner0 := 0, epoch0 := s.rd F.NML_EPOCH_EPOCH })] }
     eutState (s.eut 0 0 1) ≠ 3 ∧ s.mediaHold = false ∧ s.flag F.MUL_CTL_ERASE_EN = true ∧ eutState (s.eut 0 0 0) = 3 ∧
       s.flag F.MUL_LANE_READONLY 0 = false ∧ s.laneUp 0 = true ∧ ok.releasedBy (0, 0, 0) = none ∧ ok.mediaGate 0 (ok.engCmd 3 (ok.physDie 0) 0 0 false false) = .open_ ∧
       u.releasedBy (0, 0, 0) = some (1, r) ∧ u.fenceMet r.fence = false ∧
       leaves (.muleEraseStart 0 0 0 false) ok (fun t => decide (eutState (t.eut 0 0 0) = 0)) = true ∧
       leaves (.muleEraseStart 0 0 0 true) ok (fun t => decide (eutState (t.eut 0 0 0) = 5)) = true ∧
       leaves (.muleEraseStart 0 0 0 false) u (fun t => t.flag F.MUL_STATUS_FENCE_WAIT) = true) ∧
    (let j := jobOf 1 [(4, 256), (8, 819200 * 2 ^ 24)]
     let s := fun mem => granting (onRing { State.setFlag (State.setFlag (segBase mem) F.MUL_CTL_EN) F.JRN_CTL_SINGLE with
       bufs := [(0, { len := 819200 })] } 0x0B 0 j) 2 1 9
     let a := s (bandMem 2 0 0)
     let b := s ((bandMem 2 1 0).map (fun c => if c.1 = 0x100000082 then (c.1, 33) else c))
     let r := State.movePages j 256 0 (64 * (b.band 1).w) { job := j, page := 0, desc := 0, moved := 0, cells := 0, held := 0, lost := 0 } b
     jobReady a 0x0B 0 0 j = true ∧ moveCheck j a = true ∧ mapQuiet a = true ∧ a.seg.move = none ∧ (a.band 1).liveSlot 0 = false ∧
       leaves (.muleMove 0 0) a (fun t => ended t 0x32 1 0) = true ∧
       jobReady b 0x0B 0 0 j = true ∧ moveCheck j b = true ∧ (b.band 1).liveSlot 0 = true ∧ (b.band 1).w = 1 ∧ (b.band 1).stream ≤ 2 ∧ (∀ a ∈ b.muleArbs j, b.holds a.1 a.2.1 a.2.2 = true) ∧
       r.2.2 = .done ∧ mapQuiet r.1 = true ∧ (r.1.stream 2).begun = false ∧ (r.1.stream 2).syncs = [] ∧ (r.1.stream 2).lost = false ∧
       leaves (.muleMove 0 0) b (fun t => ended t 0 0 0) = true) ∧
    (let j := jobOf 1 [(4, 256), (8, 819200 * 2 ^ 24)]
     let s := onRing { State.setFlag (segBase ((0x100000081, 3) :: (bandMem 2 1 0).drop 2)) F.MUL_CTL_EN with bufs := [(0, { len := 819200 })] }
       0x0B 0 j
     (s.band 1).stream = 3 ∧ s.rd F.SEG_BAND_BASE_ADDR = 2) ∧
    (let j := jobOf 2 [(8, 64 * 2 ^ 24)]
     let s := onRing (State.setFlag (State.wr (holding (State.setFlag (journal live) F.JRN_CTL_SINGLE) 0x400000000 recOf) F.JRN_HEAD_JOFF 64)
       F.MUL_CTL_EN) 0x0B 0 j
     let k := jobOf 2 [(8, 64 * 2 ^ 24), (24, 64)]
     let u := onRing (State.setFlag (journal live) F.MUL_CTL_EN) 0x0B 0 k
     jobReady s 0x0B 0 0 j = true ∧ jloadCheck j s = true ∧ (0 : Nat) ∈ s.ringRecs false ∧ s.inHandle (64 * 2 ^ 24) 0 64 = true ∧
       s.badIn 0x400000000 64 = false ∧ s.fixIn 0x400000000 64 = [] ∧ s.badIn (hAddr (64 * 2 ^ 24) 0) 64 = false ∧
       jobReady u 0x0B 0 0 k = true ∧ jloadCheck k u = true ∧ (64 : Nat) ∉ u.ringRecs false ∧
       leaves (.muleJload 0) s (fun t => ended t 0x10 0 0) = true ∧ leaves (.muleJload 0) u (fun t => ended t 0x32 0 0) = true) ∧
    (let s := State.setFlag (State.wr (segBase []) F.GT_POS_SLOT 9) F.GT_CTL_EN
     live.flag F.GT_CTL_EN = false ∧ s.seg.findings = [] ∧ s.flag F.GT_CTL_EN = true ∧ s.goatNext = none ∧
       leaves (.goatPatrolStep 0 []) s (fun t => decide (t.rd F.GT_POS_PASSES = 1 ∧ t.rd F.GT_POS_SLOT = 0)) = true) ∧
    (let s := State.setFlag (rebuilding (bandMem 2 1 0) [0]) F.GT_CTL_EN
     s.goatNext = some (1, 0, 0) ∧ s.bgBusy 1 (s.okPositions 1 32) = false ∧ s.goatLevel = 0 ∧
       leaves (.goatPatrolStep 0 []) s (fun t => decide (t.seg.goatStripe = 1)) = true) ∧
    (let j := jobOf 2 [(4, 256)]
     let s := onRing (segBase (bandMem 2 0 0)) 0x0C 0 j
     let u := onRing (segBase (bandMem 2 1 0)) 0x0C 0 j
     jobReady s 0x0C 0 0 j = true ∧ goatCheckOk j s = true ∧ (s.band 1).liveSlot 0 = false ∧ (u.band 1).liveSlot 0 = true ∧
       u.stripesOf 1 0 = 0 ∧ (u.checkOf j).stripe = 0 ∧
       leaves (.goatCheck 0 0 []) s (fun t => ended t 0x3E 0 0) = true ∧ leaves (.goatCheck 0 0 []) u (fun t => ended t 0 0 0) = true) ∧
    (let j := jobOf 2 [(4, 256)]
     let s := onRing (rebuilding (bandMem 2 1 0) [0]) 0x0C 0 j
     jobReady s 0x0C 0 0 j = true ∧ goatCheckOk j s = true ∧ (s.band 1).liveSlot 0 = true ∧ s.stripesOf 1 0 = 1 ∧ (s.checkOf j).stripe = 0 ∧
       s.bgBusy 1 (s.okPositions 1 32) = false ∧ j.fld 3 1 = 0 ∧ leaves (.goatCheck 0 0 []) s (fun t => decide ((t.checkOf j).stripe = 1)) = true) ∧
    (let j := jobOf 1 [(2, 63), (8, 64 * 2 ^ 24)]
     let s := onRing { segBase [] with bufs := [(0, { len := 64 })], fuse := { live.fuse with variant := .dfn7124 } } 0x0C 0 j
     jobReady s 0x0C 0 0 j = true ∧ goatScanOk j s = true ∧ s.fuse.variant.lanes ≤ 63 ∧
       leaves (.goatScan 0 []) s (fun t => ended t 0x3F 0 0) = true) ∧
    (let j := jobOf 1 [(8, 64 * 2 ^ 24), (24, 1), (28, 4094)]
     let s := onRing { segBase [] with bufs := [(0, { len := 64 })] } 0x0C 0 j
     jobReady s 0x0C 0 0 j = true ∧ goatScanOk j s = true ∧ (0 : Nat) < s.fuse.variant.lanes ∧ j.fld 20 4 < (s.sled 0).geo.eus ∧
       leaves (.goatScan 0 []) s (fun t => ended t 0 0 (2 ^ 64 - 1)) = true) := by
  refine ⟨?_, ?_, ?_, ?_, ?_, ?_, ?_, ?_, ?_, ?_, ?_⟩ <;> decide +kernel

/-! NML lanes and sleds. -/

/-- A READ of one page of die 0, unit 10. -/
def readCmd : NmlCmd := { opc := 1, slc := false, susp := false, die := 0, sub := 0, eu := 10, page := 0, count := 1, epoch := 0, half := 0 }

/-- A command outstanding with tag 0. -/
def nmlOut (op : Nat) (acked : Option Nat) : NmlOut :=
  { job := jobOf op [], cmd := { readCmd with opc := op }, fseq := 0, acked := acked, buf := hAddr (16384 * 2 ^ 24) 0, got := 0, dead := false,
    late := false, pages := 0, total := 1, idle := false }

/-- Lane 0 enabled, in a state, with a controller. -/
def laneIn (st : Nat) (x : Lane) : State := State.wr (State.wr { live with lanes := [(0, x)] } F.NML_LINK_STATE st 0) F.NML_CTL_LANE_EN 1

/-- A frame that passes its checks. -/
def rxOf (data : List Byte) : NmlRx :=
  { hchkOk := true, lenOk := true, fcrcOk := true, fseq := 0, tag := 0, off := 0, last := true, data := data }

/-- An RSP's bytes with a status. -/
def rspOf (code : Byte) : List Byte := code :: List.replicate 15 0

theorem witness_NmlLanesRun :
    (let s := laneIn 3 { Lane.init with cmds := [(0, nmlOut 1 none)] }
     bitOf (s.rd F.NML_CTL_LANE_EN) 0 = true ∧ bitOf 0 0 = false ∧ s.squelched = false ∧
       leaves (.nmlCtlWrite 0) s (fun t => ended t 0x21 0 0 && decide (t.laneState 0 = 0)) = true) ∧
    (let s := laneIn 0 Lane.init
     s.laneState 0 = 0 ∧ bitOf (s.rd F.NML_CTL_LANE_EN) 0 = true ∧
       leaves (.nmlSignalDetect 0) s (fun t => decide (t.laneState 0 = 1)) = true) ∧
    (let s := fun k => { laneIn 1 { Lane.init with tries := k } with now := 20000000 }
     (s 0).laneState 0 = 1 ∧ ((s 0).lane 0).since + 20000000 ≤ (s 0).now ∧
       ((s 0).lane 0).since + 1000000 ≤ (s 0).now ∧ leaves (.nmlTrainExit 0) (s 0) (fun t => decide (t.laneState 0 = 2)) = true ∧
       leaves (.nmlTrainTimeout 0) (s 1) (fun t => decide (t.laneState 0 = 1)) = true ∧
       leaves (.nmlTrainTimeout 0) (s 2) (fun t => decide (t.laneState 0 = 4)) = true) ∧
    (let s := laneIn 2 { Lane.init with creditOk := true, wasUp := true }
     s.laneState 0 = 2 ∧ (1 : Nat) ≠ s.headId ∧ (s.lane 0).wasUp = true ∧
       leaves (.nmlHelloRx 0 0 false) s (fun t => decide (t.laneState 0 = 3)) = true ∧
       leaves (.nmlHelloRx 0 1 false) s (fun t => decide (t.laneState 0 = 4)) = true ∧
       leaves (.nmlCreditRx 0 2000 7 true) s (fun t => decide ((t.lane 0).cmdCr = 1024)) = true ∧
       leaves (.nmlRetrainTimeout 0) { s with now := 2 ^ 60 } (fun t => decide (t.laneState 0 = 0)) = true ∧
       (s.lane 0).leftUp + State.retrainNs { s with now := 2 ^ 60 } ≤ 2 ^ 60) ∧
    (let c : NmlTx := .cmd 5 0 readCmd
     let s := { laneIn 3 { Lane.init with held := [c, c], txSeq := 7, replays := 1, ackPend := 1 } with now := 2 ^ 40 }
     let u := State.wr (State.wr s F.NML_CFG_REPLAY_US 1) F.NML_CFG_REPLAY_MAX 2
     s.laneState 0 = 3 ∧ (s.lane 0).helloAt + 100000 ≤ s.now ∧ (s.lane 0).rxAt + 1000000 ≤ s.now ∧ 0 < (s.lane 0).ackPend ∧
       (s.lane 0).ackAt + 2000 ≤ s.now ∧ (s.lane 0).progAt + 1000 * u.rd F.NML_CFG_REPLAY_US ≤ u.now ∧ c.fseq = 5 ∧
       1 ≤ (7 % 4096 + 4096 - c.fseq) % 4096 ∧ (7 % 4096 + 4096 - c.fseq) % 4096 ≤ 2 ∧ (5 % 4096 + 4096 - c.fseq) % 4096 = 0 ∧
       (u.lane 0).replays < u.rd F.NML_CFG_REPLAY_MAX ∧
       leaves (.nmlHelloTimer 0) s (fun t => decide (t.out.length = 1)) = true ∧
       leaves (.nmlFecLockLoss 0) s (fun t => decide (t.laneState 0 = 1)) = true ∧
       leaves (.nmlIdleTimeout 0) s (fun t => decide (t.laneState 0 = 1)) = true ∧
       leaves (.nmlCreditRx 0 2000 7 false) s (fun t => decide ((t.lane 0).cmdCr = 1024)) = true ∧
       leaves (.nmlAckRx 0 7) s (fun t => decide ((t.lane 0).held = [])) = true ∧
       leaves (.nmlNakRx 0 5) u (fun t => decide (t.out.length = 2 ∧ (t.lane 0).replays = 2)) = true ∧
       leaves (.nmlReplayTimer 0) u (fun t => decide ((t.lane 0).replays = 2)) = true ∧
       leaves (.nmlReplayTimer 0) (State.wr u F.NML_CFG_REPLAY_MAX 1) (fun t => decide (t.laneState 0 = 1)) = true ∧
       leaves (.nmlAckTimer 0) s (fun t => decide (t.out = [.nml 0 (.ack 0)])) = true) ∧
    (let s := { laneIn 3 { Lane.init with cmds := [(0, nmlOut 1 (some 0))] } with now := 2 ^ 60 }
     let f := rxOf [1, 2, 3]
     let o := nmlOut 1 (some 0)
     let parts := fun (late : Bool) => laneIn 3 { Lane.init with cmds := [(0, { o with total := 2, late := late, dead := late })] }
     f.fseq % 4096 = (s.lane 0).next ∧ SMap.find (s.lane 0).cmds f.tag = some o ∧ o.dead = false ∧ o.idle = false ∧ o.late = false ∧ o.total ≤ o.pages + o.cmd.count ∧ f.off = o.got ∧ o.cmd.opc ≠ 2 ∧
       o.got + f.data.length ≤ cmdBytes o.cmd ∧ s.badIn (o.buf + 16384 * o.pages + f.off) 3 = false ∧ (rspOf 4).length = 16 ∧
       0 + s.nmlTmo o.cmd.opc ≤ s.now ∧ live.now < 0 + live.nmlTmo o.cmd.opc ∧
       leaves (.nmlRdataRx 0 f) s (fun t => decide (t.mem.length = 3)) = true ∧
       leaves (.nmlRdataRx 0 { f with fcrcOk := false }) s (fun t => decide (t.mem = [] ∧ (t.lane 0).next = 0)) = true ∧
       leaves (.nmlRspRx 0 (rxOf (rspOf 0))) s (fun t => ended t 0 0 0 && decide ((t.lane 0).cmds = [])) = true ∧
       leaves (.nmlRspRx 0 (rxOf (rspOf 0))) (parts false) (fun t =>
         decide (((SMap.find (t.lane 0).cmds 0).map (·.pages)) = some 1 ∧ t.comps = [])) = true ∧
       leaves (.nmlRspRx 0 (rxOf (rspOf 0))) (parts true) (fun t => decide ((t.lane 0).cmds = [] ∧ t.comps = [])) = true ∧
       leaves (.nmlRspRx 0 (rxOf (rspOf 5))) s (fun t => ended t 0x32 1 0) = true ∧
       leaves (.nmlRspRx 0 (rxOf (rspOf 4))) s (fun t => ended t 0x22 0 0 && decide (t.life = .down)) = true ∧
       leaves (.nmlCmdTimeout 0 0) s (fun t => ended t 0x21 0 0) = true) := by
  refine ⟨?_, ?_, ?_, ?_, ?_, ?_⟩ <;> decide +kernel

/-- A job of lane 0 on its ring, the lane in a state, over a buffer of a page. -/
def nmlRun (st : Nat) (j : Job) : State :=
  onRing { laneIn st { Lane.init with cmdCr := 3, dataCr := 3 } with bufs := [(0, { len := 16384 })] } 0x09 0 j

theorem witness_NmlJobsRun :
    (let b := [(16, 16384 * 2 ^ 24)]
     let runs := fun (i : Instr) (op : Nat) (l : List (Nat × Nat)) =>
       let j := jobOf op l
       jobReady (nmlRun 3 j) 0x09 0 0 j && nmlCheck j (nmlRun 3 j) && leaves i (nmlRun 3 j) (fun t => decide ((t.lane 0).cmdCr = 2)) &&
         leaves i (nmlRun 4 j) (fun t => ended t 0x21 0 0) && leaves i (nmlRun 2 j) (fun t => decide ((t.ring 0x09 0 0).length = 1))
     runs (.nmlJobRead 0 0) 1 ((10, 1) :: b) = true ∧ runs (.nmlJobErase 0 0) 3 [] = true ∧ runs (.nmlJobSuspend 0 0) 4 [] = true ∧
       runs (.nmlJobResume 0 0) 5 [] = true ∧ runs (.nmlJobHdrRead 0 0) 6 ((10, 1) :: b) = true ∧ runs (.nmlJobGeometry 0 0) 7 b = true ∧
       runs (.nmlJobHealth 0 0) 8 b = true ∧ runs (.nmlJobLeaseStatus 0 0) 9 [(28, 0)] = true ∧
       runs (.nmlJobLeaseAcquire 0 0) 9 [(28, 1)] = true ∧ runs (.nmlJobLeaseTakeover 0 0) 9 [(28, 2)] = true ∧
       runs (.nmlJobLeaseGrant 0 0) 9 [(28, 3)] = true ∧ runs (.nmlJobLeaseRelease 0 0) 9 [(28, 4)] = true) ∧
    (let j := jobOf 2 [(10, 1), (16, 16384 * 2 ^ 24)]
     let s := nmlRun 3 j
     jobReady s 0x09 0 0 j = true ∧ nmlCheck j s = true ∧ s.laneState 0 = 3 ∧ s.nmlWaits (s.nmlCmd j) = false ∧ s.dieAlone 0 0 = true ∧
       (s.lane 0).tooFull (s.nmlCmd j) = false ∧
       freeTag (s.lane 0).cmds 1025 0 = some 0 ∧ s.badIn (hAddr (16384 * 2 ^ 24) 0) 16384 = false ∧
       s.fixIn (hAddr (16384 * 2 ^ 24) 0) 16384 = [] ∧
       leaves (.nmlJobProgram 0 0) s (fun t => decide ((t.lane 0).held.length = 2)) = true) := by
  refine ⟨?_, ?_⟩ <;> decide +kernel

/-- Sled 0, its half 0 owned by port 0, with die 0 as given. -/
def sledOn (d : SledDie) : State := { live with now := 2 ^ 40, sleds := [(0, { Sled.init with owner0 := 0, dies := [(0, d)] })] }

/-- A PROGRAM of one page, started by port 0 with tag 7. -/
def progOp (got : List (List Byte)) (susp : Option (Nat × Bool)) : SledOp :=
  { newOp 0 7 { readCmd with opc := 2 } with got := got, susp := susp }

/-- The status of the last RSP sent. -/
def rspStatus (t : State) : Option Nat :=
  match t.out.getLast? with
  | some (.sled _ _ (.rsp r)) => some r.status
  | _ => none

theorem witness_SledsCarryOutCommands :
    (let s := sledOn SledDie.init
     let x := s.sled 0
     let far := { readCmd with eu := 4096 }
     readCmd.die < x.geo.dies ∧ x.stale 1 { readCmd with opc := 2 } = true ∧ x.stale 0 readCmd = false ∧ x.inRange far = false ∧
       x.inRange readCmd = true ∧ x.ro = false ∧ (x.die 0).run = none ∧ x.fenced 0 = false ∧
       leaves (.sledProgram 0 1 7 readCmd) s (fun t => decide (rspStatus t = some 4)) = true ∧
       leaves (.sledRead 0 0 7 far) s (fun t => decide (rspStatus t = some 5)) = true ∧
       leaves (.sledErase 0 0 7 readCmd) { s with sleds := [(0, { x with ro := true })] } (fun t => decide (rspStatus t = some 6)) = true ∧
       leaves (.sledRead 0 0 7 readCmd) s (fun t => ((t.sled 0).die 0).run.isSome) = true ∧
       leaves (.sledHdrRead 0 0 7 readCmd) s (fun t => ((t.sled 0).die 0).run.isSome) = true) ∧
    (let s := sledOn { SledDie.init with run := some (progOp [] none) }
     let x := s.sled 0
     (x.die 0).run = some (progOp [] none) ∧ (progOp [] none).writes = true ∧ (progOp [] none).suspCount < x.geo.suspMax ∧
       x.stale 0 { readCmd with opc := 4 } = false ∧ x.stale 1 { readCmd with opc := 4 } = true ∧ x.stale 0 { readCmd with opc := 5 } = false ∧
       leaves (.sledErase 0 0 8 readCmd) s (fun t => decide (((t.sled 0).die 0).wait.length = 1)) = true ∧
       leaves (.sledRead 0 0 8 { readCmd with susp := true }) s (fun t => decide (((t.sled 0).die 0).reads.length = 1)) = true ∧
       leaves (.sledSuspend 0 0 8 readCmd) s (fun t => ((t.sled 0).die 0).isSusp) = true ∧
       x.dies = [(0, { SledDie.init with run := some (progOp [] none) })] ∧
       (x.dies.findSome? (fun p => (p.2.wdata 0 9 0 []).map (fun d => (p.1, d)))) = none ∧
       leaves (.sledWdataRx 0 0 9 0 []) s (fun t => decide (rspStatus t = some 5)) = true) ∧
    (let s := fun b => sledOn { SledDie.init with run := some (progOp [] (some (0, b))) }
     (((s true).sled 0).die 0).run = some (progOp [] (some (0, true))) ∧ 0 + 10000000 ≤ (s true).now ∧ (1999999 : Nat) < 0 + 2000000 ∧
       leaves (.sledAutoResume 0 0) (s false) (fun t => !((t.sled 0).die 0).isSusp) = true ∧
       leaves (.sledSuspReadResume 0 0) (s true) (fun t => !((t.sled 0).die 0).isSusp) = true ∧
       leaves (.sledResume 0 0 8 readCmd) (s false) (fun t => !((t.sled 0).die 0).isSusp) = true) ∧
    (let s := sledOn SledDie.init
     leaves (.sledGeometry 0 0 7 readCmd) s (fun t => decide (rspStatus t = some 0 ∧ t.out.length = 2)) = true ∧
       leaves (.sledHealth 0 0 7 { readCmd with sub := 1 }) s (fun t => decide (rspStatus t = some 0 ∧ t.out.length = 2)) = true) ∧
    (let x := { Sled.init with owner0 := 0, epoch0 := 5 }
     let s := { live with sleds := [(0, x)] }
     let c := fun e h => { readCmd with epoch := e, half := h }
     x.owner 1 = 3 ∧ x.owner 0 = 0 ∧ laterThan 16 6 5 = true ∧ laterThan 16 5 5 = false ∧
       leaves (.sledLeaseStatus 0 0 7 (c 0 0)) s (fun t => decide (rspStatus t = some 0)) = true ∧
       leaves (.sledLeaseAcquire 0 1 7 (c 0 1)) s (fun t => decide ((t.sled 0).owner 1 = 1)) = true ∧
       leaves (.sledLeaseAcquire 0 1 7 (c 9 0)) s (fun t => decide (rspStatus t = some 7)) = true ∧
       leaves (.sledLeaseTakeover 0 1 7 (c 6 0)) s (fun t => decide ((t.sled 0).owner 0 = 1) && (t.sled 0).fenced 0) = true ∧
       leaves (.sledLeaseTakeover 0 0 7 (c 6 0)) s (fun t => decide ((t.sled 0).epoch 0 = 6)) = true ∧
       leaves (.sledLeaseTakeover 0 1 7 (c 5 0)) s (fun t => decide (rspStatus t = some 7)) = true ∧
       leaves (.sledLeaseGrant 0 0 7 (c 6 0)) s (fun t => decide ((t.sled 0).owner 0 = 1)) = true ∧
       leaves (.sledLeaseGrant 0 1 7 (c 6 0)) s (fun t => decide (rspStatus t = some 4)) = true ∧
       leaves (.sledLeaseRelease 0 0 7 (c 0 0)) s (fun t => decide ((t.sled 0).owner 0 = 3)) = true ∧
       leaves (.sledLeaseRelease 0 1 7 (c 0 0)) s (fun t => decide (rspStatus t = some 4)) = true) ∧
    (let s := sledOn { SledDie.init with run := some (newOp 0 7 readCmd) }
     ((s.sled 0).die 0).run = some (newOp 0 7 readCmd) ∧ ((s.sled 0).die 0).reads = [] ∧
       leaves (.sledOpComplete 0 0 1 { bad := 0, bits := [] }) s (fun t => decide (rspStatus t = some 0 ∧ t.out.length = 2)) = true) ∧
    (let s := fun got => sledOn { SledDie.init with run := some (progOp got none) }
     (progOp [[1]] none).got = [[1]] ∧ (((s []).sled 0).eu 0 10).top ≤ 0 ∧ (progOp [] none).got.length < 1 ∧
       leaves (.sledOpComplete 0 0 1 { bad := 0, bits := [] }) (s [[1]]) (fun t => decide ((t.sled 0).page 0 10 0 = some [1] ∧ rspStatus t = some 0)) = true ∧
       leaves (.sledOpComplete 0 0 1 { bad := 0, bits := [] }) (s []) (fun t => decide (t.out = [])) = true) ∧
    (let s := sledOn { SledDie.init with run := some (newOp 0 7 { readCmd with opc := 3 }) }
     leaves (.sledOpComplete 0 0 1 { bad := 0, bits := [] }) s (fun t => decide (rspStatus t = some 0 ∧ ((t.sled 0).eu 0 10).erases = 1)) = true ∧
       leaves (.sledOpComplete 0 0 0 { bad := 0, bits := [] }) s (fun t => decide (rspStatus t = some 3) && ((t.sled 0).eu 0 10).bad) = true) := by
  refine ⟨?_, ?_, ?_, ?_, ?_, ?_, ?_, ?_⟩ <;> decide +kernel

theorem witness_SledsSuspend :
    (let s := sledOn { SledDie.init with run := some (progOp [] (some (0, true))), reads := [newOp 0 8 readCmd] }
     (((s.sled 0).die 0).reads).any (fun q => decide (q.cmd.opc = 1) && q.cmd.susp) = false ∧
       leaves (.sledSuspend 0 0 9 readCmd) s (fun t => decide (((t.sled 0).die 0).run = some { progOp [] (some (2 ^ 40, false)) with suspNs := 2 ^ 40 })) =
         true ∧
       leaves (.sledOpComplete 0 0 1 { bad := 0, bits := [3] }) s (fun t => !((t.sled 0).die 0).isSusp && decide (((t.sled 0).die 0).bits = 3)) = true) ∧
    (let c := { readCmd with opc := 6 }
     let s := sledOn { SledDie.init with run := some (newOp 0 7 c) }
     leaves (.sledOpComplete 0 0 0 { bad := 1, bits := [] }) s (fun t => decide (rspStatus t = some 0 ∧ t.out.length = 2)) = true) ∧
    (let s := sledOn { SledDie.init with run := some (progOp [[1]] none) }
     let x := s.sled 0
     let u := { s with sleds := [(0, { x with eus := [(10, { EuInfo.init with top := 1 })] })] }
     ((u.sled 0).eu 0 10).top = 1 ∧ leaves (.sledOpComplete 0 0 1 { bad := 0, bits := [] }) u (fun t => decide (rspStatus t = some 5)) = true) ∧
    (let s := sledOn { SledDie.init with run := some (newOp 0 7 { readCmd with opc := 3 }), wait := [progOp [] none] }
     let x := s.sled 0
     let u := { s with sleds := [(0, { x with geo := { x.geo with spare := 1 } })] }
     leaves (.sledOpComplete 0 0 0 { bad := 0, bits := [] }) u (fun t => (t.sled 0).ro && decide (((t.sled 0).die 0).unstarted = [])) = true) := by
  refine ⟨?_, ?_, ?_, ?_⟩ <;> decide +kernel

/-- A page of data as a WDATA frame carries it. -/
theorem witness_sled_page : (erasedPage).length = 16384 := List.length_replicate

/-! The Transom. -/

/-- Queue pair 100 in a state, with its engine side; receiving enabled. -/
def qpIn (st : Nat) (x : Qp) : State :=
  State.wr (State.wr { live with trn := { live.trn with qps := [(100, x)] } } F.TRN_QP_STATE st 100) F.TRN_CTL_EN 1

/-- A queue pair with the message of a job sent and not acknowledged. -/
def sentQp : Qp :=
  { Qp.init with msgs := [{ src := .job (jobOf 1 []), op := 1, bg := false, raddr := 0, rkey := 0, imm := 0, data := [1], lo := 0, n := 1 }],
                 nxt := 1, top := 1, fin := 1 }

/-- Queue pair 10, of the peer link, on quad 0 with its link up. -/
def peerIn (st : Nat) (x : Qp) : State :=
  State.wr (State.wr (State.wr { qpIn st x with trn := { live.trn with qps := [(10, x)] } } F.TRN_QP_STATE st 10) F.TRN_CTL_QUAD_EN 1)
    F.TRN_STATUS_QUAD_UP 1

/-- What a state has sent on quad 0. -/
def trnSent (t : State) : List TrnTx := t.out.filterMap (fun o => match o with
  | .trn 0 _ _ x => some x
  | _ => none)

/-- What `peerIn` has: queue pair 10 goes out on quad 0. -/
def carried (s : State) : Bool :=
  decide (10 < s.peerQps) && bitOf (s.rd F.TRN_CTL_QUAD_EN) 0 && bitOf (s.rd F.TRN_STATUS_QUAD_UP) 0 && !s.squelched &&
    decide (s.rd F.TRN_QP_PATH 10 % 16 = 0)

/-- A good acknowledgement packet. -/
def ackPkt (k : AckKind) : AckPkt := { icrcOk := true, kind := k }

/-- An Only packet with its ICRC good. -/
def roceOf (opc psn : Nat) (data : List Byte) : RocePkt :=
  { opc := opc, psn := psn, ackReq := false, icrcOk := true, vaddr := 0, rkey := 0, dmaLen := data.length, imm := 0, data := data }

/-- The payload of a SEND of 32 bytes with a TYPE of firmware's. -/
def sendData : List Byte := [0x20, 0, 0, 0, 32] ++ List.replicate 27 0

/-- `qpIn` with region 0 over the first 4 KiB of HBM, for queue pair 100. -/
def regioned (x : Qp) : State :=
  State.wr (State.wr (State.wr (State.wr (qpIn 3 x) F.TRN_MR_STATE 1 0) F.TRN_MR_BASE 0x10000000000 0) F.TRN_MR_LENGTH 4096 0)
    F.TRN_MR_SCOPE_QP 100 0

/-- A descriptor of 2 bytes for queue pair 100, and the state that carries it. -/
def trnJ (op : Nat) : Job := jobOf op [(2, 100), (4, 2), (8, 64 * 2 ^ 24)]
def trnRun (st : Nat) (j : Job) : State := onRing { qpIn st Qp.init with bufs := [(0, { len := 64 })] } 0x0A 0 j

/-- A LATCH over a buffer of 128 bytes, and its state. -/
def latchJ : Job := jobOf 4 [(2, 100), (4, 128), (8, 128 * 2 ^ 24)]
def latchRun (mem : List Host.Cell) (chains : SMap Chain) : State :=
  let s := onRing (qpIn 3 Qp.init) 0x0A 0 latchJ
  { s with mem := mem, bufs := [(0, { len := 128 })], trn := { s.trn with chains := chains } }

/-- A chain of one request that waits for a SEND. -/
def chainOf (fired : Bool) : Chain :=
  { qp := 100, consume := false, subst := false, kind := 1, type := 0, rqueue := 0, match_ := 0, mask := 0, expire := some 1000000,
    wrs := [0], buf := 128 * 2 ^ 24, fired := fired, waiting := [], order := 0 }

/-- The cells of a valid chain buffer: one request, kind 1, a WRITE. -/
def latchMem : List Host.Cell :=
  [⟨hAddr (128 * 2 ^ 24) 0, 1⟩, ⟨hAddr (128 * 2 ^ 24) 2, 1⟩, ⟨hAddr (128 * 2 ^ 24) 64, 1⟩]

/-- 1,024 armed chains. -/
def fullChains : SMap Chain := (List.range 1024).map (fun i => (i, chainOf false))

theorem fullChains_armed (s : State) (h : s.trn.chains = fullChains) : s.armed = 1024 := by
  have hf : (fullChains.filter (fun p => !p.2.fired)) = fullChains := by
    refine List.filter_eq_self.2 (fun p hp => ?_)
    obtain ⟨i, -, rfl⟩ := List.mem_map.1 hp
    rfl
  unfold State.armed
  rw [h, hf, fullChains, List.length_map, List.length_range]

theorem latchRun_chains (m : List Host.Cell) (c : SMap Chain) : (latchRun m c).trn.chains = c := rfl

/-- What a partner that is late leaves. -/
def lateHead (life : Life) : State :=
  State.setFlag (State.setFlag { live with now := 2000000, life := life, prms := [(0, prmOf 5)] } F.TRN_HB_EN) F.TRN_STATUS_PARTNER_LATE

theorem witness_latch_table_full :
    let s := latchRun latchMem fullChains
    s.JobReady 0x0A 0 0 latchJ ∧ trnCheck latchJ s = true ∧ s.qpGate 100 = none ∧ s.badIn (hAddr (128 * 2 ^ 24) 0) 128 = false ∧
      s.fixIn (hAddr (128 * 2 ^ 24) 0) 128 = [] ∧ latchOk (s.bytes (hAddr (128 * 2 ^ 24) 0) 128) 128 = true ∧ 1024 ≤ s.armed := by
  refine ⟨(jobReady_iff _ _ _ _ _).1 (by decide +kernel), by decide +kernel, by decide +kernel, by decide +kernel, by decide +kernel,
    by decide +kernel, Nat.le_of_eq (fullChains_armed _ (latchRun_chains _ _)).symm⟩

theorem witness_TransomRuns :
    ((100 : Nat) < live.fuse.variant.queuePairs ∧
      leaves (.trnQpInit 100) (qpIn 0 Qp.init) (fun t => decide (t.qpState 100 = 1)) = true ∧
      leaves (.trnQpInit 100) (qpIn 1 Qp.init) (fun t => t.flag F.TRN_STATUS_QP_ERR_W) = true ∧
      (qpIn 1 Qp.init).qpState 100 = 1 ∧ ((qpIn 1 Qp.init).wr F.TRN_QP_PATH 16 100).pathOk 100 = true ∧
      ((qpIn 1 Qp.init).wr F.TRN_QP_PATH 16 100).dqpnOk 100 = true ∧
      leaves (.trnQpRtr 100) ((qpIn 1 Qp.init).wr F.TRN_QP_PATH 16 100) (fun t => decide (t.qpState 100 = 2)) = true ∧
      leaves (.trnQpRts 100) (qpIn 2 Qp.init) (fun t => decide (t.qpState 100 = 3)) = true ∧
      leaves (.trnQpReset 100) (qpIn 4 Qp.init) (fun t => decide (t.qpState 100 = 0)) = true ∧
      leaves (.trnQpErrorWrite 100) (qpIn 4 Qp.init) (fun t => t.flag F.TRN_STATUS_QP_ERR_W) = true) ∧
    (let s := qpIn 3 sentQp
     s.qpState 100 = 3 ∧ s.isJrnQp 100 = false ∧ s.trn.chains = [] ∧ s.squelched = false ∧ sentQp.posOf 0 = some 0 ∧
       (∀ y ∈ sentQp.msgs, 0 < y.lo + y.n) ∧ sentQp.rnrTries < s.rd F.TRN_QP_RNR_RETRY 100 ∧ 0 ≤ sentQp.una ∧
       leaves (.trnQpErrorWrite 100) s (fun t => decide (t.qpState 100 = 4) && ended t 0x21 1 0) = true ∧
       leaves (.trnRxAck 100 0 (ackPkt .ack)) s (fun t => decide ((t.qp 100).msgs = []) && ended t 0 0 0) = true ∧
       leaves (.trnRxAck 100 0 (ackPkt .access)) s (fun t => decide (t.qpState 100 = 4) && ended t 0x32 1 0) = true ∧
       leaves (.trnRxAck 100 0 (ackPkt .invalid)) s (fun t => ended t 0x32 2 0) = true ∧
       leaves (.trnRxAck 100 0 (ackPkt .operational)) s (fun t => ended t 0x32 3 0) = true ∧
       leaves (.trnRxAck 100 0 (ackPkt (.rnr 1))) s (fun t => decide ((t.qp 100).rnr = some (0, s.now + 10000))) = true ∧
       leaves (.trnRxAck 100 0 (ackPkt (.rnr 1))) (State.wr s F.TRN_QP_RNR_RETRY 0 100) (fun t => ended t 0x31 0 0) = true ∧
       leaves (.trnRxAck 100 0 (ackPkt .seqErr)) s (fun t => decide ((t.qp 100).msgs.length = 1)) = true ∧
       leaves (.trnRxAck 100 0 { icrcOk := false, kind := .ack }) s (fun t => decide ((t.qp 100).msgs.length = 1)) = true ∧ (qpIn 2 sentQp).qpState 100 ≠ 3) ∧
    (let s := State.wr { qpIn 3 sentQp with now := 2 ^ 40 } F.TRN_QP_TIMEOUT 5 100
     let u := { s with now := 5 }
     s.ackTimeout 100 = some 131072 ∧ sentQp.una < sentQp.nxt ∧ sentQp.rnr = none ∧ sentQp.at_ + 131072 ≤ s.now ∧
       sentQp.retries < s.rd F.TRN_QP_RETRY 100 ∧ u.now < sentQp.at_ + 131072 ∧ (State.wr s F.TRN_QP_RETRY 0 100).rd F.TRN_QP_RETRY 100 ≤ 0 ∧
       leaves (.trnAckTimeout 100) s (fun t => decide ((t.qp 100).retries = 1 ∧ (t.qp 100).nxt = 0)) = true ∧
       (let p := State.setArb (State.wr { peerIn 3 sentQp with now := 2 ^ 40 } F.TRN_QP_TIMEOUT 5 10) 7 0 { Arb.init with parked := some 9 }
        carried p = true ∧ p.qpArb 10 = (7, 0) ∧ (p.arb 7 0).quiet = true ∧ (p.arb 7 0).holder = none ∧ p.isJrnQp 10 = false ∧
          leaves (.trnAckTimeout 10) p (fun t => decide ((trnSent t).length = 1)) = true) ∧
       leaves (.trnAckTimeout 100) (State.wr s F.TRN_QP_RETRY 0 100) (fun t => decide (t.qpState 100 = 4) && ended t 0x21 0 0) = true) ∧
    (let x := { sentQp with rnr := some (0, 7), ackPend := 1 }
     let s := qpIn 3 x
     sentQp.rnr = none ∧ x.rnr = some (0, 7) ∧ 7 ≤ s.now ∧ s.qpState 100 = 3 ∧ sentQp.ackPend = 0 ∧ 0 < x.ackPend ∧ x.ackAt + 2000 ≤ s.now ∧
       leaves (.trnRnrWaitExpiry 100) s (fun t => decide ((t.qp 100).rnr = none)) = true ∧
       leaves (.trnRespAckTimer 100) s (fun t => decide ((t.qp 100).ackPend = 0)) = true ∧ carried (peerIn 3 x) = true ∧
       leaves (.trnRespAckTimer 10) (peerIn 3 x) (fun t => decide (trnSent t = [.ack 0xFFFFFF 0])) = true) ∧
    (let p := roceOf 4 0 sendData
     let s := fun since => { qpIn 3 { Qp.init with stall := some (p, since) } with slotRsv := poolSize }
     sentQp.stall = none ∧ p.opc = 4 ∧ 32 ≤ p.data.length ∧ lfld p.data 4 4 = 32 ∧ (s 0).poolFree = 0 ∧
       (s 1000000).now < 1000000 + 1000 * (State.wr (s 1000000) F.TRN_QP_STALL_US 20 100).rd F.TRN_QP_STALL_US 100 ∧
       0 + 1000 * (s 0).rd F.TRN_QP_STALL_US 100 ≤ (s 0).now ∧ (s 0).squelched = false ∧
       leaves (.trnStallRetry 100) (s 0) (fun t => decide ((t.qp 100).stall = none)) = true ∧
       leaves (.trnStallRetry 10) { peerIn 3 { Qp.init with stall := some (p, 0) } with slotRsv := poolSize, now := 2 ^ 40 } (fun t =>
         decide ((trnSent t).length = 1)) = true) ∧
    (let s := regioned Qp.init
     opcSend 4 = true ∧ opcSend 0x0A = false ∧ s.flag F.TRN_CTL_EN = true ∧ s.qpState 100 = 3 ∧ s.epsn 100 = 0 ∧ s.squelched = false ∧
       s.isJrnQp 100 = false ∧ s.mrOf 0 = some 0 ∧ s.mrOf 1 = none ∧ s.trn.chains = [] ∧ s.rd F.TRN_MR_SCOPE_QP 0 % 4096 = 100 ∧
       s.flag F.TRN_MR_ODP 0 = false ∧ 0 + 2 ≤ s.rd F.TRN_MR_LENGTH 0 ∧ 0 < s.poolFree ∧ s.rd F.TRN_MR_INFLIGHT 0 < 2 ^ 32 - 1 ∧
       s.badIn (s.rd F.TRN_MR_BASE 0 + 0 + 0) 2 = false ∧ s.trn.verPeer = none ∧ lfld sendData 0 1 ∉ [1, 2, 3] ∧ lfld sendData 4 4 = 32 ∧
       (s.stgAlloc 32).map (fun y => y.1) = some (32 * 2 ^ 24) ∧ s.badIn (hAddr (32 * 2 ^ 24) 0) 32 = false ∧
       leaves (.trnRxWritePkt 100 (roceOf 0x0A 1 [7, 8])) s (fun t => decide (t.mem = [] ∧ (t.qp 100).nakAt = some 0)) = true ∧
       leaves (.trnRxWritePkt 10 (roceOf 0x0A 1 [7, 8])) (peerIn 3 Qp.init) (fun t => decide (trnSent t = [.nak .seqErr 0 0])) = true ∧
       leaves (.trnRxWritePkt 100 (roceOf 5 1 [7, 8])) s (fun t => decide (t.qpState 100 = 4)) = true ∧ opcOk 5 = false ∧ opcOk 0x0A = true ∧
       leaves (.trnRxWritePkt 100 (roceOf 0x0A 0xFFFFFF [7, 8])) s (fun t => decide (t.mem = [] ∧ t.epsn 100 = 0)) = true ∧
       leaves (.trnRxWritePkt 100 (roceOf 0x0A 0 [7, 8])) s (fun t => decide (t.mem.length = 2 ∧ t.epsn 100 = 1 ∧ t.msn 100 = 1)) = true ∧
       leaves (.trnRxWritePkt 100 { roceOf 0x0A 0 [7, 8] with rkey := 1 }) s (fun t => decide (t.qpState 100 = 4 ∧ t.mem = [])) = true ∧
       leaves (.trnRxSendPkt 100 (roceOf 4 0 sendData)) s (fun t => decide (t.epsn 100 = 1 ∧ t.mem.length = 2)) = true) ∧
    ((∀ op ∈ [1, 2, 3], jobReady (trnRun 3 (trnJ op)) 0x0A 0 0 (trnJ op) = true ∧ trnCheck (trnJ op) (trnRun 3 (trnJ op)) = true ∧
       (trnRun 3 (trnJ op)).qpGate 100 = none ∧ (trnRun 4 (trnJ op)).qpGate 100 = some (0x21, 1) ∧
       (trnRun 1 (trnJ op)).qpGate 100 = some (0x3E, 0) ∧
       ({ trnRun 3 (trnJ op) with fuse := { live.fuse with variant := .dfn7124 } } : State).qpGate 100 = some (0x3F, 0)) ∧
      (let s := trnRun 3 (trnJ 3)
       s.badIn (hAddr (64 * 2 ^ 24) 0) 2 = false ∧ s.fixIn (hAddr (64 * 2 ^ 24) 0) 2 = [] ∧ s.isJrnQp 100 = false ∧
         (s.bytes (hAddr (64 * 2 ^ 24) 0) 2).head? = some 0 ∧
         leaves (.trnSend 0) s (fun t => decide ((t.qp 100).msgs.length = 1)) = true ∧
         leaves (.trnWrite 0) (trnRun 3 (trnJ 1)) (fun t => decide ((t.qp 100).msgs.length = 1)) = true ∧
         leaves (.trnWriteImm 0) (trnRun 3 (trnJ 2)) (fun t => decide ((t.qp 100).msgs.length = 1)) = true ∧
         leaves (.trnWrite 0) (trnRun 4 (trnJ 1)) (fun t => ended t 0x21 1 0) = true)) ∧
    (let s := fun m => latchRun m []
     ∀ m ∈ [[], latchMem], jobReady (s m) 0x0A 0 0 latchJ = true ∧ trnCheck latchJ (s m) = true ∧ (s m).qpGate 100 = none ∧
       (s m).badIn (hAddr (128 * 2 ^ 24) 0) 128 = false ∧ (s m).fixIn (hAddr (128 * 2 ^ 24) 0) 128 = [] ∧ (s m).armed = 0 ∧
       latchOk ((s m).bytes (hAddr (128 * 2 ^ 24) 0) 128) 128 = decide (m ≠ [])) ∧
    (let s := fun f now => { latchRun [] [(7, chainOf f)] with now := now }
     SMap.find (s true 0).trn.chains 8 = none ∧ SMap.find (s true 0).trn.chains 7 = some (chainOf true) ∧
       SMap.find (s false 0).trn.chains 7 = some (chainOf false) ∧ (chainOf false).expire = some 1000000 ∧
       leaves (.trnLatchCancelWrite 7) (s false 0) (fun t => decide (t.trn.chains = [])) = true ∧
       leaves (.latchExpiry 7) (s false 1000000) (fun t => decide (t.trn.chains = [])) = true) ∧
    (let s := State.wr (State.setFlag live F.TRN_MR_ARG1_ODP) F.TRN_MR_ARG1_LENGTH (2 ^ 28 + 1)
     s.flag F.TRN_MR_ARG1_ODP = true ∧ 2 ^ 28 < s.rd F.TRN_MR_ARG1_LENGTH ∧
       leaves .trnMrRegister s (fun t => t.flag F.TRN_MR_CMD_ERR) = true) ∧
    (live.mrPick = some 0 ∧ live.flag F.TRN_MR_ARG1_ODP = false ∧ live.mrOf (live.rd F.TRN_MR_ARG0_BASE % 2 ^ 32) = none ∧
       SMap.find live.trn.revoked 0 = none ∧ leaves .trnMrRevoke live (fun t => t.flag F.TRN_MR_CMD_ERR) = true) ∧
    (let s := regioned Qp.init
     s.mrOf (s.rd F.TRN_MR_ARG0_BASE % 2 ^ 32) = some 0 ∧ s.flag F.TRN_MR_ODP 0 = false ∧ s.rd F.TRN_MR_INFLIGHT 0 = 0 ∧
       (State.wr s F.TRN_MR_INFLIGHT 1 0).rd F.TRN_MR_INFLIGHT 0 ≠ 0 ∧
       leaves .trnMrRevoke s (fun t => decide (t.rd F.TRN_MR_STATE 0 = 0)) = true ∧
       leaves .trnMrRevoke (State.wr s F.TRN_MR_INFLIGHT 1 0) (fun t => decide (t.rd F.TRN_MR_STATE 0 = 2)) = true) ∧
    (let r : RxMsg := { send := false, handle := 0, mr := 0, off := 0, len := 8, got := 4, first := 0, slot := true, mark := false }
     let x := { Qp.init with rx := some r }
     let s := { qpIn 3 x with now := 2 ^ 40, trn := { (qpIn 3 x).trn with revoked := [(0, 0)], down := [(0, 0)] } }
     SMap.find s.trn.revoked 0 = some 0 ∧ s.pathUp 0 = false ∧ SMap.findD s.trn.down 0 0 = 0 ∧ 0 + 1000000 * s.rd F.TRN_CFG_REVOKE_MS ≤ s.now ∧ s.trn.qps = [(100, x)] ∧ s.qpState 100 = 3 ∧
       s.isJrnQp 100 = false ∧ s.trn.chains = [] ∧ SMap.find live.trn.down 0 = none ∧
       0 + 1000000 * s.rd F.TRN_CFG_LINK_MS ≤ s.now ∧ s.rd F.TRN_QP_PATH 100 = 0 ∧
       leaves (.trnRevokeTimeout 0) s (fun t => decide (t.qpState 100 = 4)) = true ∧
       leaves (.trnLinkDownTimeout 0) s (fun t => decide (t.qpState 100 = 4)) = true) ∧
    (let s := State.wr live F.TRN_CTL_QUAD_EN 1
     0 < s.fuse.variant.quads ∧ bitOf (s.rd F.TRN_STATUS_QUAD_UP) 0 = false ∧ bitOf (s.rd F.TRN_CTL_QUAD_EN) 0 = true ∧
       leaves (.trnQuadLinkChange 0 true) s (fun t => bitOf (t.rd F.TRN_STATUS_QUAD_UP) 0) = true) ∧
    (let s := fun l => { live with trn := { live.trn with liveUntil := l, qps := [(0, Qp.init)] } }
     let h := State.setFlag (State.wr (s (some 2000000)) F.TRN_QP_STATE 3 0) F.TRN_HB_EN
     (s none).trn.liveUntil = none ∧ (s (some 2000000)).now < 2000000 ∧ 9 ≤ (s (some 9)).now ∧ h.trn.liveUntil = some 2000000 ∧ h.now ≤ 2000000 ∧
       h.flag F.TRN_HB_EN = true ∧ h.life = .active ∧ h.trn.hbAt = none ∧ h.qpState (h.rd F.TRN_HB_QPA) = 3 ∧
       h.rd F.TRN_HB_QPB ≠ h.rd F.TRN_HB_QPA ∧
       leaves .livenessExpiry (s (some 9)) (fun t => decide (t.trn.liveUntil = none)) = true ∧
       leaves .heartbeatSend h (fun t => decide (t.trn.hbSeq = 1 ∧ ((t.qp 0).msgs.map (·.src)) = [.heartbeat])) = true) ∧
    (let s := State.wr live F.SEG_BAND_BASE_ADDR 512
     s.badIn (s.bandAddr 3) 2 = false ∧ leaves (.bandRx 3 [7, 8]) s (fun t => decide (t.mem.length = 2)) = true) ∧
    (let s := State.setFlag { live with prms := [(0, prmOf 5)] } F.TRN_HB_EN
     s.flag F.TRN_HB_EN = true ∧ live.flag F.TRN_HB_EN = false ∧ s.flag F.TRN_STATUS_PARTNER_LATE = false ∧
       max (s.rd F.TRN_HB_RXTIME_TIME) s.trn.hbWatch + 1000000 ≤ s.now ∧ (s.prm 0).map (·.st) = some .live ∧
       leaves .partnerLate s (fun t => t.flag F.TRN_STATUS_PARTNER_LATE && decide ((t.prm 0).map (·.partner) = some true)) = true) ∧
    ((lateHead .active).flag F.TRN_HB_EN = true ∧ (lateHead .active).flag F.TRN_STATUS_PARTNER_LATE = true ∧ (lateHead .active).flag F.TRN_STATUS_PARTNER_LOSS = false ∧
       max ((lateHead .active).rd F.TRN_HB_RXTIME_TIME) (lateHead .active).trn.hbWatch + 2000000 ≤ (lateHead .active).now ∧
       leaves .partnerLoss (lateHead .handover) (fun t => decide (t.life = .active)) = true ∧
       leaves .partnerLoss (lateHead .standby) (fun t => decide (t.life = .standby)) = true) := by
  refine ⟨?_, ?_, ?_, ?_, ?_, ?_, ?_, ?_, ?_, ?_, ?_, ?_, ?_, ?_, ?_, ?_, ?_, ?_⟩ <;> decide +kernel

/-! Arbiters, the Vault and the Hatch. -/

/-- Arbiter 0 of class 0 with a holder or none and requests. -/
def arbOn (h : Option ArbReq) (w : List ArbReq) : State := live.setArb 0 0 { Arb.init with holder := h, waiting := w }

/-- A port with a command waiting: OP, SLOT_A, SLOT_B, ATTR and input words. -/
def vltOn (s : State) (p op a b attr len : Nat) (words : List (Nat × Word)) : State :=
  s.updPort p (fun q => { q with cmd := some (op + a * 2 ^ 8 + b * 2 ^ 16 + attr * 2 ^ 24 + len * 2 ^ 32), inw := words })

/-- A command waits on its port, has its turn, and has a property. -/
def waitsFor (s : State) (p : Nat) (f : VCmd → Bool) : Bool :=
  match s.vltWaiting p with
  | some c => f c && s.vltTurn p
  | none => false

/-- Slots 1 and 2 hold keys with an ATTR, slot 3 one that may encrypt and decrypt: the key of FIPS 197 C.1. -/
def keyed (attr : Nat) : State :=
  let k : List Byte := [0, 1, 2, 3, 4, 5, 6, 7, 8, 9, 10, 11, 12, 13, 14, 15]
  { live with vlt := { live.vlt with keys := [(1, { key := k, attr := attr }), (2, { key := k, attr := 0x20 }), (3, { key := k, attr := 0x0C })] } }

/-- The result held for the end of a command, and its output as a number. -/
def held (t : State) (p : Nat) : Option (Nat × Nat) := ((t.port p).fin).map (fun r => (r.1, beNat r.2))

/-- The words of an input window that hold bytes. -/
def wordsOf (l : List Byte) : List (Nat × Word) :=
  ((List.range ((l.length + 7) / 8)).map (fun k => (k, BitVec.ofNat 64 (leNat ((l.drop (8 * k)).take 8))))).filter (fun p => decide (p.2 ≠ 0))

/-- A running image. -/
def aRun : RunImage := { bank := some 1, hash := [], svn := 9, mediaRead := 0xFF }

/-- Bank 0 in a state. -/
def bankIn (st : Nat) : State := live.wr F.HCH_BSTATE_STATE st 0

/-- Bank 0 NEXT. -/
def nextBank (s : State) : State := State.setFlag s F.HCH_NEXT_VALID

/-- FIPS 197, C.1. -/
theorem test_vault_aes_enc :
    leaves (.vltAesEnc 0) (vltOn (keyed 0x30) 0 1 3 0 0 16 [(0, 0x7766554433221100), (1, 0xFFEEDDCCBBAA9988)])
      (fun t => decide (held t 0 = some (0, 0x69C4E0D86A7B0430D8CDB78070B4C55A))) = true := by decide +kernel

theorem witness_QuadGrantAndBusyKeys :
    (let x := { sentQp with nxt := 0 }
     let s := State.setArb (peerIn 3 x) 7 0 { Arb.init with waiting := [newReq 10 0 false 0] }
     carried s = true ∧ (s.arb 7 0).holder = none ∧ s.qpArb 10 = (7, 0) ∧ (s.qpNext 10).isSome = true ∧ (∀ p ∈ s.trn.qps, p.2.paceAt = 0) ∧
       leaves (.arbDecision 7 0) s (fun t => decide ((trnSent t).length = 1)) = true) ∧
    (let k := { live with xtsKeys := [(5, [])] }
     let s := vltOn (State.setArb (onRing k 0x05 0 (jobOf 1 [(2, 5)])) 2 0 { Arb.init with holder := some (newReq 0 0 false 0) }) 0 10 0 5 0 0 []
     s.keyBusy 5 = true ∧ k.keyBusy 5 = false ∧ SMap.has s.xtsKeys 5 = true ∧ waitsFor s 0 (fun c => c.op = 0x0A && c.b = 5 && c.data.isEmpty) = true ∧
       leaves (.vltXtsClear 0) s (fun t => decide (t.xtsKeys = [(5, [])] ∧ held t 0 = none)) = true ∧
       leaves (.vltXtsClear 0) (vltOn k 0 10 0 5 0 0 []) (fun t => decide (t.xtsKeys = [])) = true) := by
  refine ⟨?_, ?_⟩ <;> decide +kernel

theorem witness_ArbitersVaultAndHatchRun :
    (let r := newReq 1 0 false 0
     let f := { newReq 2 5 false 0 with forced := true }
     let b := { newReq 3 0 true 0 with until_ := some 1000000 }
     let h := some (newReq 0 0 false 0)
     ((arbOn none [r, f]).arb 0 0).holder = none ∧ ((arbOn none [r, f]).arbNow 0 0).waiting.map (fun y => (y.num, y.until_)) = [(1, none), (2, none)] ∧
       (arbOn h [r]).arbLimit 0 ≤ r.waited + ((arbOn h [r]).now - r.mark) ∧ ((arbOn h [r]).arb 0 0).holder.isSome = true ∧
       ((arbOn h [b]).arb 0 0).waiting = [b] ∧ (1000000 : Nat) ≤ (arbOn h [b]).now ∧ ({ arbOn h [b] with now := 5 } : State).now < 1000000 ∧
       leaves (.arbDecision 0 0) (arbOn none [r, f]) (fun t => decide (((t.arb 0 0).holder.map (·.num)) = some 2)) = true ∧
       leaves (.arbForce 0 0) (arbOn h [r]) (fun t => (t.arb 0 0).waiting.any (·.forced)) = true ∧
       leaves (.arbBackoffExpiry 0 0 3) (arbOn h [b]) (fun t => (t.arb 0 0).waiting.all (fun y => y.until_.isNone)) = true) ∧
    ((live.vltWaiting 0).isNone = true ∧ waitsFor (vltOn live 0 7 0 0 0 0 []) 0 (fun c => c.op = 7) = true ∧ bitOf 2 0 = false ∧
      leaves (.vltSeal 0) (vltOn live 0 7 0 0 0 0 []) (fun t => decide (held t 0 = some (6, 0))) = true ∧
      (vltOn { live with vlt := { live.vlt with last := 0 } } 0 7 0 0 0 0 []).vltTurn 0 = true ∧
      (vltOn (vltOn { live with vlt := { live.vlt with last := 0 } } 0 7 0 0 0 0 []) 1 7 0 0 0 0 []).vltTurn 0 = false) ∧
    (waitsFor (vltOn (keyed 0x30) 0 1 3 0 0 16 []) 0 (fun c => c.op = 1 && c.a < 16 && c.data.length = 16) = true ∧
      SMap.find (keyed 0x30).vlt.keys 9 = none ∧ ((SMap.find (keyed 0x30).vlt.keys 1).map (fun k => bitOf k.attr 2)) = some false ∧
      ((SMap.find (keyed 0x30).vlt.keys 3).map (fun k => bitOf k.attr 2 && bitOf k.attr 3)) = some true ∧
      waitsFor (vltOn (keyed 0x30) 0 2 3 0 0 16 []) 0 (fun c => c.op = 2 && c.a = 3 && c.data.length = 16) = true ∧
      leaves (.vltAesEnc 0) (vltOn (keyed 0x30) 0 1 9 0 0 16 []) (fun t => decide (held t 0 = some (3, 0))) = true ∧
      leaves (.vltAesEnc 0) (vltOn (keyed 0x30) 0 1 1 0 0 16 []) (fun t => decide (held t 0 = some (4, 0))) = true) ∧
    (waitsFor (vltOn live 0 3 0 0 0x0C 0 []) 0 (fun c => c.op = 3 && c.a < 16 && attrOk c.attr && c.data.isEmpty) = true ∧
      leaves (.vltKeyGen 0) (vltOn live 0 3 0 0 0x0C 0 []) (fun t => SMap.has t.vlt.keys 0) = true) ∧
    (waitsFor (vltOn (keyed 0x30) 0 4 1 4 0x0C 24 []) 0 (fun c => c.op = 4 && c.b < 16 && attrOk c.attr && decide (c.data.length = attrLen c.attr + 8)) = true ∧
      ((SMap.find (keyed 0x30).vlt.keys 1).map (fun k => bitOf k.attr 4)) = some true ∧
      waitsFor (vltOn (keyed 0x30) 0 5 1 2 0 0 []) 0 (fun c => c.op = 5 && c.a = 1 && c.b = 2 && c.data.isEmpty) = true ∧
      ((SMap.find (keyed 0x30).vlt.keys 2).map (fun k => bitOf k.attr 5)) = some true ∧
      ((SMap.find (keyed 0x30).vlt.keys 3).map (fun k => bitOf k.attr 5)) = some false ∧
      leaves (.vltWrap 0) (vltOn (keyed 0x30) 0 5 1 3 0 0 []) (fun t => decide (held t 0 = some (4, 0))) = true) ∧
    (let g := ecBytes p521G
     let d2 := live.wr F.VLT_STATUS_DEBUG 2
     waitsFor (vltOn live 0 6 0 4 0x0C 173 (wordsOf g)) 0 (fun c => c.op = 6 && c.b < 16 && attrOk c.attr && decide (c.data.length = 173) &&
         decide ((ecPoint (c.data.take 133)) = p521G)) = true ∧ live.debugLevel ≠ 2 ∧ d2.debugLevel = 2 ∧
       leaves (.vltImport 0) (vltOn d2 0 6 0 0 0 0 []) (fun t => decide (held t 0 = some (6, 0))) = true ∧
       leaves (.vltUnseal 1) (vltOn d2 1 8 0 0 0 0 []) (fun t => decide (held t 1 = some (6, 0))) = true) ∧
    (waitsFor (vltOn (keyed 0x30) 1 7 0 2 0 0 []) 1 (fun c => c.op = 7 && c.b = 2 && c.data.isEmpty) = true ∧
      waitsFor (vltOn live 1 8 0 2 0 48 []) 1 (fun c => c.op = 8 && c.b < 16 && decide (c.data.length = 48)) = true ∧
      waitsFor (vltOn (keyed 0x30) 1 9 1 5 0 72 []) 1 (fun c => c.op = 9 && c.a = 1 && c.b < 64 && decide (c.data.length = 72)) = true ∧
      SMap.has (keyed 0x30).xtsKeys 5 = false ∧ SMap.has ({ keyed 0x30 with xtsKeys := [(5, [])] } : State).xtsKeys 5 = true ∧
      leaves (.vltXtsLoad 1) (vltOn { keyed 0x30 with xtsKeys := [(5, [])] } 1 9 1 5 0 72 []) (fun t => decide (held t 1 = some (5, 0))) = true) ∧
    (waitsFor (vltOn live 0 10 0 5 0 0 []) 0 (fun c => c.op = 0x0A && c.b < 64 && c.data.isEmpty) = true ∧
      waitsFor (vltOn live 0 11 5 0 0 0 []) 0 (fun c => c.op = 0x0B && c.a < 16 && c.data.isEmpty) = true ∧
      waitsFor (vltOn live 0 12 0 0 0 8 []) 0 (fun c => c.op = 0x0C && decide (c.data.length ≠ 329)) = true ∧
      waitsFor (vltOn live 0 12 0 0 0 329 []) 0 (fun c => c.op = 0x0C && decide (c.data.length = 329)) = true ∧
      leaves (.vltVerifySig 0) (vltOn live 0 12 0 0 0 8 []) (fun t => decide (held t 0 = some (2, 0))) = true ∧
      leaves (.vltVerifySig 0) (vltOn live 0 12 0 0 0 329 []) (fun t => decide (held t 0 = some (1, 0))) = true ∧
      waitsFor (vltOn live 0 13 0 0 0 64 []) 0 (fun c => c.op = 0x0D && decide (c.data.length = 64)) = true ∧
      waitsFor (vltOn live 0 14 0 0 0 0 []) 0 (fun c => c.op = 0x0E && c.data.isEmpty) = true ∧
      waitsFor (vltOn live 0 15 0 0 0 0 []) 0 (fun c => c.op = 0x0F && c.data.isEmpty) = true ∧
      waitsFor (vltOn live 0 20 0 0 0 0 []) 0 (fun c => c.op = 0x14 && c.data.isEmpty) = true ∧
      leaves (.vltZeroize 0) (vltOn (keyed 0x30) 0 20 0 0 0 0 []) (fun t => decide (t.vlt.keys = [])) = true ∧
      waitsFor (vltOn live 0 21 0 0 0 0 []) 0 (fun c => decide (0x14 < c.op)) = true ∧
      leaves (.vltCmdComplete 0) (vltOn live 0 21 0 0 0 0 []) (fun t => decide ((t.port 0).result = 2)) = true) ∧
    (let o := { live.vlt.otp with attrs := [(1, 2)] }
     let s := fun ch => { live with vlt := { live.vlt with otp := o, chal := ch } }
     waitsFor (vltOn (s none) 0 16 0 0 0 267 [(0, 0x0101)]) 0 (fun c => c.op = 0x10 && decide (c.data.length = 267 ∧
         (c.data.head?.getD 0).toNat = 1 ∧ ((c.data.drop 1).head?.getD 0).toNat = 1)) = true ∧ live.debugLevel < 1 ∧
       bitOf (SMap.findD (s none).vlt.otp.attrs 1 0) 1 = true ∧ (s none).vlt.otp.revoked 1 = false ∧ (s none).vlt.chal = none ∧
       (s (some [])).vlt.chal = some [] ∧
       leaves (.vltDebugOpen 0) (vltOn (s none) 0 16 0 0 0 267 [(0, 0x0101)]) (fun t => decide (held t 0 = some (1, 0))) = true ∧
       leaves (.vltDebugOpen 0) (vltOn (s (some [])) 0 16 0 0 0 267 [(0, 0x0101)]) (fun t => decide (held t 0 = some (1, 0) ∧ t.vlt.chal = none)) =
         true) ∧
    (let s := { live with vlt := { live.vlt with run := some aRun } }
     s.vlt.run = some aRun ∧ waitsFor (vltOn s 1 17 0 0 0 4 [(0, 0)]) 1 (fun c => c.op = 0x11 && decide (leNat c.data ≤ s.vlt.otp.svn ∧ c.data.length = 4)) = true ∧
       waitsFor (vltOn s 1 17 0 0 0 4 [(0, 5)]) 1 (fun c => decide (s.vlt.otp.svn < min (leNat c.data) aRun.svn ∧ min (leNat c.data) aRun.svn ≤ 128)) = true ∧
       waitsFor (vltOn s 1 18 0 0 0 1 [(0, 5)]) 1 (fun c => c.op = 0x12 && decide (c.data.length = 1 ∧ leNat c.data = 5)) = true ∧
       bitOf aRun.mediaRead 5 = true ∧ s.vlt.otp.mediaGen < 5 ∧
       leaves (.vltSvnCommit 1 true) (vltOn s 1 17 0 0 0 4 [(0, 5)]) (fun t => decide (held t 1 = some (0, 0) ∧ t.vlt.otp.svn = 5)) = true ∧
       leaves (.vltSvnCommit 1 false) (vltOn s 1 17 0 0 0 4 [(0, 5)]) (fun t => decide (held t 1 = some (7, 0) ∧ t.vlt.otp.svn = 0)) = true ∧
       leaves (.vltMediaCommit 1 true) (vltOn s 1 18 0 0 0 1 [(0, 5)]) (fun t => decide (t.vlt.otp.mediaGen = 5)) = true) ∧
    (let s := { live with life := .boot }
     live.life ≠ .boot ∧ waitsFor (vltOn s 0 19 0 0 0 0 []) 0 (fun c => c.op = 0x13 && c.data.isEmpty) = true ∧
       waitsFor (vltOn s 0 19 0 0 0 2 [(0, 0x0109)]) 0 (fun c => decide (c.op = 0x13 ∧ c.data = [9, 1])) = true ∧
       leaves (.vltOtpProgram 0 true) (vltOn live 0 19 0 0 0 0 []) (fun t => decide (held t 0 = some (6, 0))) = true) ∧
    (let s := fun d f => live.updPort 0 (fun q => { q with done := d, fin := f, cmd := f.map (fun _ => 1) })
     ((s false (some (7, [1]))).port 0).fin = some (7, [1]) ∧ ((s true none).port 0).done = true ∧ (live.port 0).fin = none ∧
       leaves (.vltCmdComplete 0) (s false (some (7, [1]))) (fun t => decide ((t.port 0).result = 7 ∧ (t.port 0).outw = [1])) = true ∧
       leaves (.vltDoneClear 0) (s true none) (fun t => !(t.port 0).done) = true) ∧
    ((nextBank (bankIn 4)).isNext 0 = true ∧ (bankIn 4).isNext 0 = false ∧ (bankIn 4).bankState 0 = 4 ∧ (bankIn 1).bankState 0 = 1 ∧
      (bankIn 2).bankState 0 = 2 ∧ (bankIn 2).bankState 1 ≠ 3 ∧ (bankIn 3).bankState 0 = 3 ∧
      (bankIn 1).badIn ((bankIn 1).bankBase 0 + 5) 2 = false ∧
      leaves (.hchOpen 0) (nextBank (bankIn 4)) (fun t => t.flag F.HCH_STATUS_CMD_ERR) = true ∧
      leaves (.hchOpen 0) (bankIn 4) (fun t => decide (t.bankState 0 = 1)) = true ∧
      leaves (.hchDiscard 0) (bankIn 4) (fun t => decide (t.bankState 0 = 0)) = true ∧
      leaves (.hchClose 0) { bankIn 1 with life := .boot } (fun t => decide (t.bankState 0 = 2 ∧ t.life = .verify)) = true ∧
      leaves (.hchClose 0) (bankIn 4) (fun t => t.flag F.HCH_STATUS_CMD_ERR) = true ∧
      leaves (.hchVerifyStart 0) (bankIn 2) (fun t => decide (t.bankState 0 = 3)) = true ∧
      leaves (.hchNextWrite 0) (bankIn 4) (fun t => t.isNext 0) = true ∧
      leaves (.bar2Write 5 [7, 8]) (bankIn 1) (fun t => decide (t.mem.length = 2)) = true ∧
      leaves (.bar2Write 5 [7, 8]) (bankIn 4) (fun t => t.flag F.HCH_STATUS_WR_DROP) = true) ∧
    (let s := { bankIn 3 with life := .verify, vlt := { live.vlt with bootBank := some 0 } }
     (s.imgCheck 0).1 = 1 ∧ leaves (.hchVerifyDone 0) s (fun t => decide (t.bankState 0 = 5 ∧ t.life = .boot)) = true) ∧
    (let s := { nextBank (bankIn 4) with life := .load, vlt := { live.vlt with loadDue := true } }
     s.isNext 0 = true ∧ s.bankState 0 = 4 ∧ manNat (s.bytes (s.bankBase 0) 4096) 12 4 - 4096 = 0 ∧ manNat (s.bytes (s.bankBase 0) 4096) 16 8 = 0 ∧
       s.badIn 0 0 = false ∧ leaves .loadStart s (fun t => (t.thread 224).keeper && !t.vlt.loadDue) = true) := by
  refine ⟨?_, ?_, ?_, ?_, ?_, ?_, ?_, ?_, ?_, ?_, ?_, ?_, ?_, ?_, ?_⟩ <;> decide +kernel

/-! Power, clocks and resets. -/

/-- What a reset to COLD with a cause leaves, as far as a test compares it. -/
def coldBy (cause : Nat) (t : State) : Bool :=
  decide (t.life = .cold ∧ t.rd F.PWR_RST_CAUSE_CAUSE = cause ∧ t.pwr.released = false ∧ t.threads = [] ∧ t.mem = [] ∧ t.vlt.keys = [])

/-- COLD with VDD_AON present, and the same with head reset released. -/
def coldHead : State := { State.reset with pins := { State.reset.pins with aon := true } }
def startHead : State := { coldHead with now := 1000000, pwr := { State.reset.pwr with released := true } }

/-- A life, keys and memory to lose. -/
def full (life : Life) : State := { keyed 0x30 with life := life, mem := [⟨0x10000000000, 1⟩], threads := [(0, thr [])] }

/-- Domain 10 in a state with a MODE. -/
def domIn (mode st : Nat) : State := State.wr (State.wr live F.PWR_DOM_MODE mode 10) F.PWR_DOM_STATE st 10

theorem witness_TakeoverAndQuadOff :
    (let s := { live with life := .standby }
     s.pwr.warm = none ∧ s.flag F.TRN_STATUS_PARTNER_LOSS = false ∧ (State.setFlag s F.TRN_STATUS_PARTNER_LOSS).flag F.TRN_STATUS_PARTNER_LOSS = true ∧
       leaves (.lifecycleCommand .takeover) s (fun t => decide (t.life = .standby)) = true ∧
       leaves (.lifecycleCommand .takeover) (State.setFlag s F.TRN_STATUS_PARTNER_LOSS) (fun t => decide (t.life = .active)) = true) ∧
    (let s := (onRing live 0x01 0 (jobOf 1 [])).wr F.FE_PORTMODE_MODE 0
     s.domPresent 44 = true ∧ bitOf (s.domAllowed 44) 3 = true ∧ s.offOk 44 = true ∧
       leaves (.pwrModeOff 44) s (fun t => ended t 0x3E 0 0 && decide (t.ring 0x01 0 0 = [])) = true) := by
  refine ⟨?_, ?_⟩ <;> decide +kernel

theorem witness_StartPowerThermalAndResetsRun :
    (coldHead.life = .cold ∧ coldHead.pins.aon = true ∧ coldHead.pwr.released = false ∧ coldHead.pwr.thermHold = false ∧ live.life ≠ .cold ∧
      startHead.pwr.released = true ∧
      leaves .rootPllLock startHead (fun t => t.flag F.CLK_STATUS_ROOT_LOCK) = true ∧ leaves .refClockLoss (full .active) (coldBy 5) = true) ∧
    (let s := State.setFlag (State.wr startHead F.PWR_VMON_PG 31) F.CLK_STATUS_ROOT_LOCK
     s.life = .cold ∧ s.pwr.released = true ∧ s.flag F.CLK_STATUS_ROOT_LOCK = true ∧ s.rd F.PWR_VMON_PG = 31 ∧
       s.flag F.VLT_STATUS_OTP_ERR = false ∧ leaves .bootEntry s (fun t => decide (t.life = .boot) && t.flag F.VLT_STATUS_READY) = true ∧
       leaves (.pgLow 2) s (fun t => decide (t.rd F.PWR_VMON_PG = 27)) = true ∧ leaves (.pgLow 2) (full .active) (coldBy 4) = true) ∧
    (let s := { full .vaulting with pwr := { live.pwr with flush := some (0, 0, false), pfailAt := some 0 } }
     s.pins.aon = true ∧ s.life = .vaulting ∧ s.pwr.flush.isSome = true ∧ s.now < 0 + 35000000 ∧ (full .active).life ≠ .vaulting ∧
       leaves .headRstPin s (fun t => t.pwr.pinWait && decide (t.life = .vaulting)) = true ∧
       leaves .headRstPin (full .active) (coldBy 1) = true ∧ ({ live with pins := { live.pins with aon := false } } : State).pins.aon = false ∧
       leaves (.vddAonLoss false) (full .active) (fun t => decide (t.life = .cold ∧ t.mem = []) && !t.pins.aon) = true ∧
       (660 : Int) ≤ 700 ∧ leaves (.thermShutdown 700) (full .active) (fun t => coldBy 6 t && t.pwr.thermHold) = true ∧ (600 : Int) < 660 ∧
       leaves (.vddAonPowerOn true) State.reset (coldBy 0) = true) ∧
    ((3 : Nat) % 256 ≠ 0xA5 ∧ 0xA5 % 256 = 0xA5 ∧ live.pwr.warm = none ∧ (full .standby).life = .standby ∧ live.life ≠ .standby ∧ live.life ≠ .down ∧
      leaves (.pwrRstCold 0xA5) (full .active) (coldBy 2) = true ∧
      leaves (.pwrRstWarm 0xA5) (full .standby) (fun t => decide (t.pwr.warm = some t.now) && t.fe.paused) = true ∧
      leaves (.pwrRstWarm 0xA5) (full .active) (fun t => decide (t.pwr.warm = none ∧ t.threads.length = 1)) = true) ∧
    (let w := fun (s : State) => { s with pwr := { s.pwr with warm := some 5 } }
     let s := w { nextBank (bankIn 4) with life := .standby }
     s.pwr.warm.isSome = true ∧ s.isNext (s.rd F.HCH_NEXT_BANK) = true ∧ s.bankState (s.rd F.HCH_NEXT_BANK) = 4 ∧
       (w live).isNext ((w live).rd F.HCH_NEXT_BANK) = false ∧
       leaves .warmResetComplete s (fun t => decide (t.life = .load) && t.vlt.loadDue) = true ∧
       leaves .warmResetComplete (w (full .standby)) (fun t => decide (t.life = .boot ∧ t.threads = [])) = true) ∧
    (let s := State.setFlag live F.CLK_STATUS_RTC_OK
     s.flag F.CLK_STATUS_RTC_OK = true ∧ s.pwr.released = true ∧ (5000 : Int) < 5001 ∧ State.reset.flag F.CLK_STATUS_RTC_OK = false ∧
       leaves (.refPpmWindow 5001) s (fun t => decide (t.rd F.CLK_REF_PPM_PPM = 5001) && t.flag F.CLK_STATUS_REF_PPM_ERR) = true) ∧
    (let s := State.setFlag { live with life := .brace, pwr := { live.pwr with warnAt := some 5 } } (warnFld true)
     (95 * live.nominal true ≤ 100 * 760) ∧ 100 * 759 < 95 * live.nominal true ∧ live.flag (warnFld true) = false ∧ live.pwr.warnAt = none ∧
       s.flag (warnFld true) = true ∧ s.flag (warnFld false) = false ∧ 96 * s.nominal true < 100 * 769 ∧ 100 * 768 ≤ 96 * s.nominal true ∧
       100 * 735 < 92 * live.nominal true ∧ 92 * live.nominal true ≤ 100 * 736 ∧
       leaves (.coreWarnAssert true 759) live (fun t => decide (t.life = .brace) && t.flag (warnFld true)) = true ∧
       leaves (.coreWarnRelease true 769 700) s (fun t => decide (t.life = .active ∧ t.pwr.warnAt = none)) = true ∧
       leaves (.coreResetLevel true 735) (full .active) (coldBy 3) = true) ∧
    (let s := { State.wr (State.wr live F.PWR_AVS_SET_MV 800) F.PWR_AVS_CUR_MV 780 with
       pwr := { live.pwr with avsBusy := true, stepAt := 0 }, now := 2 ^ 40 }
     let u := { live with pwr := { live.pwr with settling := true, stepAt := 0 }, now := 2 ^ 40 }
     live.fuse.fuseMv ≤ 850 ∧ live.pwr.avsBusy = false ∧ live.pwr.settling = false ∧ s.pwr.avsBusy = true ∧
       s.pwr.stepAt + 1000 * max 1 (s.rd F.PWR_AVS_STEP_US) ≤ s.now ∧ s.rd F.PWR_AVS_CUR_MV < s.rd F.PWR_AVS_SET_MV ∧
       s.rd F.PWR_AVS_SET_MV ≤ 850 ∧ u.pwr.settling = true ∧ u.pwr.avsBusy = false ∧ u.pwr.stepAt + 1000 * u.rd F.PWR_AVS_SETTLE_US ≤ u.now ∧
       leaves (.pwrAvsWrite 803) live (fun t => decide (t.rd F.PWR_AVS_SET_MV = 800)) = true ∧
       leaves .vidStep s (fun t => decide (t.rd F.PWR_AVS_CUR_MV = 785 ∧ t.out = [.pin .vid 27])) = true ∧
       leaves .avsSettle u (fun t => !t.pwr.settling) = true) ∧
    (let s := { live with prms := [(0, prmOf 5)] }
     let g := State.setFlag s F.PWR_THERM_GUARD
     ({ live with pins := { live.pins with aon := false } } : State).pins.aon = false ∧ s.pins.aon = true ∧ s.warnQuarters ≤ 607 ∧ (-1024 : Int) < s.warnQuarters - 8 ∧ s.flag F.PWR_THERM_GUARD = false ∧
       (s.prm 0).map (·.st) = some .live ∧
       leaves (.thermSample 607 0) s (fun t => t.flag F.PWR_THERM_WARN && !t.flag F.PWR_THERM_GUARD) = true ∧
       leaves (.thermSample 608 0) s (fun t => t.flag F.PWR_THERM_GUARD && decide ((t.prm 0).map (·.therm) = some true)) = true ∧
       leaves (.thermSample 600 0) g (fun t => t.flag F.PWR_THERM_GUARD) = true ∧
       leaves (.thermSample 599 0) g (fun t => !t.flag F.PWR_THERM_GUARD) = true ∧
       leaves (.thermSample (-2000) 0) s (fun t => decide (t.rd F.PWR_THERM_TJ = 1024) && !t.flag F.PWR_THERM_WARN) = true) ∧
    (lifeNext .ready (full .load).life = some .standby ∧ (full .load).vlt.loadDue = false ∧ (full .load).pwr.warm = none ∧
      lifeNext .ready live.life = none ∧
      leaves (.lifecycleCommand .ready) (full .load) (fun t => decide (t.life = .standby)) = true ∧
      leaves (.lifecycleCommand .handover) (full .active) (fun t => decide (t.life = .handover)) = true ∧
      leaves (.lifecycleCommand .allOut) (full .handover) (fun t => decide (t.life = .standby)) = true ∧
      leaves (.lifecycleCommand .activate) (full .standby) (fun t => decide (t.life = .active)) = true ∧
      leaves (.lifecycleCommand .ready) (full .active) (fun t => decide (t.life = .active)) = true) ∧
    (let v := { live with fuse := { live.fuse with variant := .dfn7124 } }
     v.domPresent 25 = false ∧ live.domPresent 10 = true ∧ bitOf (live.domAllowed 10) 2 = true ∧ bitOf (live.domAllowed 40) 1 = false ∧
       bitOf (live.domAllowed 40) 3 = false ∧ (domIn 3 3).domState 10 = 3 ∧ live.offOk 10 = true ∧ bitOf (live.domAllowed 10) 3 = true ∧
       (let s := onRing live 3 0 (jobOf 1 [])
        s.offOk 10 = false ∧ s.domState 10 ≠ 3 ∧ leaves (.pwrModeOff 10) s (fun t => t.flag F.PWR_DOM_REQ_ERR 10) = true) ∧
       leaves (.pwrModeOff 10) live (fun t => decide (t.domState 10 = 3)) = true ∧
       leaves (.pwrModeRun 10) (domIn 3 3) (fun t => decide (t.domState 10 = 5)) = true ∧
       leaves (.pwrModeDoze 40) live (fun t => t.flag F.PWR_DOM_REQ_ERR 40) = true ∧
       leaves (.pwrModeRetain 10) live (fun t => decide (t.rd F.PWR_DOM_MODE 10 = 2)) = true) ∧
    (let s := fun m st => { domIn m st with now := 2 ^ 50, doms := [(10, { idleSince := some 1, seq := some 0 })] }
     (s 1 0).domState 10 = 0 ∧ (s 1 0).rd F.PWR_DOM_MODE 10 = 1 ∧ (s 1 0).idleFor 10 (max 1 ((s 1 0).rd F.PWR_IDLE_DOZE_NS)) = true ∧
       (s 2 1).domState 10 = 1 ∧ (s 2 1).rd F.PWR_DOM_MODE 10 = 2 ∧
       (s 2 1).idleFor 10 (1000 * max 1 ((s 2 1).rd F.PWR_IDLE_RETAIN_US)) = true ∧ (s 1 0).rd F.PWR_DOM_MODE 10 ≠ 2 ∧
       (s 1 5).domState 10 = 5 ∧ 0 + wakeNs 1 ≤ (s 1 5).now ∧
       leaves (.domainDozeIdle 10) (s 1 0) (fun t => decide (t.domState 10 = 1)) = true ∧
       leaves (.domainRetainIdle 10) (s 2 1) (fun t => decide (t.domState 10 = 2)) = true ∧
       leaves (.domainWakeComplete 10) (s 1 5) (fun t => decide (t.domState 10 = 0)) = true) := by
  refine ⟨?_, ?_, ?_, ?_, ?_, ?_, ?_, ?_, ?_, ?_, ?_, ?_⟩ <;> decide +kernel

/-! Events, counters and the logbook. -/

/-- A logbook record of a code. -/
def recFor (code : Nat) : LogRec :=
  { code := code, sev := 1, shift := 0, vmin := 3, vmax := 9, vlast := 4, count := 2, suppressed := 0, first := 5, last := 6, firstBoot := 0,
    lastBoot := 0, hist := [], upd := 0 }

/-- Event delivery enabled, source 0x1C0 with a control word, vector 0 ready, queue map 0 to queue 0. -/
def evtOn (w : Nat) (items : SMap EvtItem) (masked : SMap EvtMasked) : State :=
  let s := { live with
    pcie := { live.pcie with msixEn := true, busMaster := true, inReset := false, vecOpen := [0] }
    queues := [(0, openQ 0 [])], evt := { live.evt with items := items, masked := masked } }
  let s := State.setFlag (State.setFlag (State.setFlag s F.GLB_PCIE_LINK_UP) F.EVT_CTL_EN) F.EVT_QUEUE_VALID
  s.regSet (evtSrcOff 0x1C0) (BitVec.ofNat 64 w)

/-- A write of EVT_RAISE for source 0x1C0 with value 7. -/
def raise1C0 : Nat := 0x1C0 + 7 * 2 ^ 32

/-- A logbook with record 512 of code 0x1234, and the bucket of posts as given. -/
def logOn (recs : SMap LogRec) (tokens : Int) : State :=
  { live with log := { live.log with recs := recs, buckets := [(513, { tokens := tokens, at_ := live.now })], dirty := [512],
                                     lastCommit := [(512, 0)] } }

/-- A write of LOG_POST: code, severity and value 7. -/
def post (code sev : Nat) : Nat := code + sev * 2 ^ 16 + 7 * 2 ^ 32

/-- `n` records from one up, all used. -/
def usedFrom : Nat → Nat → SMap LogRec
  | 0, _ => []
  | n + 1, k => (k, recFor 0x2000) :: usedFrom n (k + 1)

theorem usedFrom_has (n : Nat) : ∀ a k, a ≤ k → k < a + n → SMap.has (usedFrom n a) k = true := by
  induction n with
  | zero => intro a k h1 h2; omega
  | succ n ih =>
    intro a k h1 h2
    unfold usedFrom SMap.has SMap.find
    split
    · rfl
    · exact ih (a + 1) k (by omega) (by omega)

theorem usedFrom_code (n : Nat) : ∀ a, ∀ p ∈ usedFrom n a, p.2.code = 0x2000 := by
  induction n with
  | zero => intro a p h; cases h
  | succ n ih =>
    intro a p h
    rcases List.mem_cons.1 h with h | h
    · rw [h]; rfl
    · exact ih (a + 1) p h

theorem lowestFree_none (m : SMap LogRec) (n : Nat) :
    ∀ a, (∀ k, a ≤ k → k < 4096 → SMap.has m k = true) → lowestFree m n a = none := by
  induction n with
  | zero => intro a _; rfl
  | succ n ih =>
    intro a h
    unfold lowestFree
    by_cases hk : SMap.has m a = true
    · rw [if_pos hk]; exact ih (a + 1) (fun k h1 h2 => h k (by omega) h2)
    · rw [if_neg hk, if_neg (fun hlt => hk (h a (Nat.le_refl a) hlt))]

theorem logIndex_none (m : SMap LogRec) (s : State) (hr : s.log.recs = m) (hf : s.flag F.LOG_CFG_FULL_MODE = false)
    (hc : ∀ p ∈ m, p.2.code = 0x2000) (hh : ∀ k, 512 ≤ k → k < 4096 → SMap.has m k = true) : s.logIndex 0x1234 1 = none := by
  have h1 : logFind m 0x1234 = none := by
    unfold logFind
    rw [List.find?_eq_none.2]
    · rfl
    · intro p hp
      rw [hc p hp]
      simp
  unfold State.logIndex
  rw [if_neg (by decide), hr, h1]
  dsimp only
  rw [lowestFree_none _ _ _ hh, hf]
  rfl

/-- A head whose logbook has these records. -/
def logFull (m : SMap LogRec) : State := { live with log := { live.log with recs := m } }

theorem logFull_recs (m : SMap LogRec) : (logFull m).log.recs = m := rfl

theorem logFull_mode (m : SMap LogRec) : (logFull m).flag F.LOG_CFG_FULL_MODE = live.flag F.LOG_CFG_FULL_MODE := rfl

/-- The clause of a post that finds no record: every one is used, in DROP mode. -/
theorem witness_logbook_full : (logFull (usedFrom 3584 512)).logIndex 0x1234 1 = none :=
  logIndex_none _ _ (logFull_recs _) ((logFull_mode _).trans (by decide +kernel)) (usedFrom_code _ _)
    (fun k ha hb => usedFrom_has _ _ k ha (by omega))

theorem witness_EventsCountersAndLogbookRun :
    (let s := evtOn 0 [] []
     bitsOf 0x1BF 0 9 < 0x1C0 ∧ bitsOf raise1C0 0 9 = 0x1C0 ∧ (evtOn 0x8000 [] []).srcMasked 0x1C0 = true ∧ s.srcMasked 0x1C0 = false ∧
       leaves (.evtRaiseWrite 0x1BF) s (fun t => t.flag F.EVT_STATUS_RAISE_ERR) = true ∧
       leaves (.evtRaiseWrite raise1C0) (evtOn 0x8000 [] []) (fun t => decide ((SMap.find t.evt.masked 0x1C0).map (·.count) = some 1)) = true ∧
       (evtOn 0x200 [] []).flag F.EVT_SRC_MSI_EN 0x1C0 = true ∧ (evtOn 0x200 [] []).rd F.EVT_VEC_COAL_CNT 0 ≤ 1 ∧
       (evtOn 0x200 [] []).rd F.EVT_SRC_VECTOR 0x1C0 = 0 ∧ (evtOn 0x200 [] []).msixReady 0 = true ∧
       leaves (.evtRaiseWrite raise1C0) (evtOn 0x200 [] []) (fun t => decide (t.out = [.msix 0 0 0])) = true) ∧
    (let s := evtOn 0x400 [] []
     let e : EvtItem := { slot := none, value := 7, count := 1, first := 5, last := 5 }
     s.flag F.EVT_SRC_Q_EN 0x1C0 = true ∧ s.srcMasked 0x1C0 = false ∧ SMap.find s.evt.items 0x1C0 = none ∧ s.poolFree ≠ 0 ∧
       s.flag F.EVT_QUEUE_VALID (s.rd F.EVT_SRC_QSEL 0x1C0) = true ∧
       (s.queue (s.rd F.EVT_QUEUE_QUEUE (s.rd F.EVT_SRC_QSEL 0x1C0))).accepts = true ∧
       SMap.find (evtOn 0x400 [(0x1C0, e)] []).evt.items 0x1C0 = some e ∧ e.slot = none ∧
       (evtOn 0x400 [(0x1C0, { e with slot := some 3 })] []).evt.items = [(0x1C0, { e with slot := some 3 })]) ∧
    (let s := { evtOn 0x10000 [] [] with log := (logOn [(0x1C0, recFor 0x1C0)] 0).log }
     s.flag F.EVT_SRC_LOG_NOTE 0x1C0 = true ∧ (s.takeLogToken 0x1C0).2 = true ∧ SMap.find s.log.recs 0x1C0 = some (recFor 0x1C0) ∧
       leaves (.evtRaiseWrite raise1C0) s (fun t => decide ((SMap.find t.log.recs 0x1C0).map (fun r => (r.count, r.vlast)) = some (3, 7))) = true) ∧
    (let v : EvtVec := { count := 1, since := 0, held := false }
     let s := State.wr (State.wr { evtOn 0 [] [] with evt := { live.evt with vecs := [(0, v)] } } F.EVT_VEC_COAL_CNT 2) F.EVT_VEC_COAL_NS 9
     let u := { s with pcie := live.pcie }
     0 < (s.vec 0).count ∧ (s.vec 0).held = false ∧ 1 < s.rd F.EVT_VEC_COAL_CNT 0 ∧ s.rd F.EVT_VEC_COAL_NS 0 ≠ 0 ∧
       (s.vec 0).since + s.rd F.EVT_VEC_COAL_NS 0 ≤ s.now ∧ (live.vec 0).count = 0 ∧ s.msixReady 0 = true ∧ u.msixReady 0 = false ∧
       leaves (.evtCoalesceTimeout 0) s (fun t => decide (t.out = [.msix 0 0 0])) = true ∧
       leaves (.evtCoalesceTimeout 0) u (fun t => decide (t.out = []) && (t.vec 0).held) = true) ∧
    (let m : EvtMasked := { value := 7, count := 2, first := 5, last := 6 }
     let s := evtOn 0x8000 [] [(0x1C0, m)]
     SMap.find live.evt.masked 0x1C0 = none ∧ SMap.find s.evt.masked 0x1C0 = some m ∧ bitOf 0x200 15 = false ∧ bitOf 0x200 9 = true ∧
       s.flag F.EVT_CTL_EN = true ∧
       leaves (.evtSrcWrite 0x1C0 0x200) s (fun t =>
         decide (t.evt.masked = []) && bitOf (t.regGet (0x400200 + 8 * 7)).toNat 0) = true) ∧
    (isCtr F.EVT_OCCURRED_CTR.off = true ∧ isCtr F.EVT_STATUS_CLR_ERR.off = false ∧ live.offAbsent F.EVT_OCCURRED_CTR.off = false ∧
      8 * bitsOf F.EVT_OCCURRED_CTR.off 3 23 = F.EVT_OCCURRED_CTR.off ∧ 8 * bitsOf F.EVT_STATUS_CLR_ERR.off 3 23 = F.EVT_STATUS_CLR_ERR.off ∧
      leaves (.evtCtrClrWrite F.EVT_OCCURRED_CTR.off) (live.regSet F.EVT_OCCURRED_CTR.off 77) (fun t =>
        decide (t.regGet F.EVT_CTR_OLD_COUNT.off = 77 ∧ t.regGet F.EVT_OCCURRED_CTR.off = 0)) = true ∧
      leaves (.evtCtrClrWrite F.EVT_STATUS_CLR_ERR.off) live (fun t => t.flag F.EVT_STATUS_CLR_ERR) = true ∧
      leaves (.counterLowRead .host F.EVT_OCCURRED_CTR.off) (live.regSet F.EVT_OCCURRED_CTR.off 0x100000003)
        (fun t => decide (t.out = [.readData 3])) = true) ∧
    (let full : Int := 64000000000
     let r := recFor 0x1234
     let s := fun tok => logOn [(512, r)] tok
     bitsOf (post 0xFFF 1) 0 16 < 0x1000 ∧ bitsOf (post 0x1234 1) 0 16 = 0x1234 ∧ bitsOf (post 0x1234 1) 16 2 = 1 ∧
       logFind (s 0).log.recs 0x1234 = some 512 ∧ SMap.find (s 0).log.recs 512 = some r ∧ ((s full).takeLogToken 513).2 = true ∧
       ((s 0).takeLogToken 513).2 = false ∧ bitsOf r.count 0 48 ≠ 0 ∧ bitsOf ({ r with count := 0 } : LogRec).count 0 48 = 0 ∧
       logFind (logOn [] 0).log.recs 0x1234 = none ∧ lowestFree (logOn [] 0).log.recs 1 512 = some 512 ∧
       leaves (.logPostWrite (post 0xFFF 1)) (s 0) (fun t => t.flag F.LOG_STATUS_POST_ERR) = true ∧
       leaves (.logPostWrite (post 0x1234 1)) (s full) (fun t => decide ((SMap.find t.log.recs 512).map (fun r => (r.count, r.vlast, r.vmax)) =
         some (3, 7, 9))) = true ∧
       leaves (.logPostWrite (post 0x1234 1)) (s 0) (fun t => decide ((SMap.find t.log.recs 512).map (·.suppressed) = some 1)) = true ∧
       leaves (.logPostWrite (post 0x1234 1)) (logOn [] full) (fun t => decide ((SMap.find t.log.recs 512).map (·.count) = some 1)) = true) ∧
    (let s := { logOn [(512, recFor 0x1234)] 0 with now := 1000000000 }
     let c := { s with log := { s.log with commit := some (512, 5, recFor 0x1234) } }
     live.log.dirty.contains 3 = false ∧ s.log.dirty.contains 512 = true ∧ SMap.find s.log.lastCommit 512 = some 0 ∧ live.now < 0 + 1000000000 ∧
       0 + 1000000000 ≤ s.now ∧ s.log.commit = none ∧ s.log.urgent = [] ∧ c.log.commit = some (512, 5, recFor 0x1234) ∧
       SMap.find c.log.recs 512 = some (recFor 0x1234) ∧
       leaves (.logCommitTimer 512) s (fun t => decide (t.log.commit = some (512, 1000000000, recFor 0x1234))) = true ∧
       leaves (.logCommitDone true) c (fun t => decide (SMap.find t.log.nv 512 = some (recFor 0x1234) ∧ t.log.dirty = [])) = true ∧
       leaves (.logCommitDone false) c (fun t => t.flag F.LOG_STATUS_NVM_ERR) = true) ∧
    (live.flag F.LOG_RATE_LOCK_LOCK = false ∧ (State.setFlag live F.LOG_RATE_LOCK_LOCK).flag F.LOG_RATE_LOCK_LOCK = true ∧
      leaves (.logRateWrite 527 (3 * 2 ^ 16)) live (fun t => decide ((t.logBucket 527).tokens = 3000000000)) = true) ∧
    (let s := fun set v => { live with log := { live.log with calSet := set, cal := 5, calValid := v }, pwr := { live.pwr with rtcSince := some 32 } }
     (s (some 9) false).log.calSet = some 9 ∧ (s none true).log.calSet = none ∧ (State.setFlag (s none true) F.CLK_STATUS_RTC_OK).flag F.CLK_STATUS_RTC_OK = true ∧
       (State.clrFlag (s none true) F.CLK_STATUS_RTC_OK).flag F.CLK_STATUS_RTC_OK = false ∧
       leaves .rtcTick (s (some 9) false) (fun t => decide (t.log.cal = 9) && t.log.calValid) = true ∧
       leaves .rtcTick (s none true) (fun t => decide (t.log.cal = 517)) = true ∧
       leaves .rtcTick (State.clrFlag (s none true) F.CLK_STATUS_RTC_OK) (fun t => t.flag F.CLK_STATUS_RTC_OK) = true ∧
       leaves .rtcStop (s none true) (fun t => !t.log.calValid) = true) := by
  refine ⟨?_, ?_, ?_, ?_, ?_, ?_, ?_, ?_, ?_, ?_⟩ <;> decide +kernel

/-! The service host's interface. -/

/-- A packet header with TAG 5. -/
def hostPkt (op len : Nat) (args : List Nat) : Pkt := { op := op, flags := 0, status := 0, len := len, tag := 5, args := args }

/-- The mailbox enabled with bytes at the start of the H2D ring and the tail at a multiple of 64. -/
def mbxOn (d : List Byte) (tail : Nat) : State :=
  State.wr (State.setFlag { live with mbx := { ring := memWrite [] 0 d, since := none } } F.MBX_CTL_EN) F.MBX_H2D_TAIL_POS tail

/-- The same with one packet. -/
def mbxPkt (p : Pkt) : State := mbxOn p.bytes (extent p.len / 64)

/-- Is there room in the D2H ring for an answer with this many bytes? -/
def hasRoom (s : State) (n : Nat) : Bool :=
  decide ((s.d2hTail + d2hBytes - s.d2hHead) % d2hBytes +
    (if s.d2hTail + extent n ≤ d2hBytes then extent n else d2hBytes - s.d2hTail + extent n) ≤ d2hBytes - 128)

/-- OP, STATUS and TAG of the first answer in the D2H ring. -/
def answered (t : State) : Nat × Nat × Nat :=
  let p := pktOf (t.bar4 h2dBytes 64)
  (p.op, p.status, p.tag)

/-- Firmware's queue valid and bound; and the same with the whole staging area allocated. -/
def fwQ (s : State) : State := State.setFlag { s with queues := [(0, openQ 0 [])] } F.MBX_FWQ_VALID

theorem leBytes_length (n v : Nat) : (leBytes n v).length = n := by
  induction n generalizing v with
  | zero => rfl
  | succ n ih => unfold leBytes; rw [List.length_cons, ih]

theorem beBytes_length (n v : Nat) : (beBytes n v).length = n := by unfold beBytes; rw [List.length_reverse, leBytes_length]

theorem ecBytes_length (p : EcPoint) : (ecBytes p).length = 133 := by
  match p with
  | none => exact List.length_replicate
  | some (x, y) => unfold ecBytes; rw [List.length_append, List.length_cons, beBytes_length, beBytes_length]

/-- An answer to ATTEST of 532 bytes and one to CERT of 149 bytes and the certificate find room. -/
theorem witness_mailbox_vault_room :
    (vAttest { port := 0, op := 0x0D, a := 0, b := 0, attr := 0, data := List.replicate 64 0 } live).2.2.length = 532 ∧ hasRoom live 532 = true ∧
      (vGetCert { port := 0, op := 0x0E, a := 0, b := 0, attr := 0, data := [] } live).2.2.length = 149 + live.vlt.otp.cert.length ∧
      hasRoom live (149 + live.vlt.otp.cert.length) = true := by
  refine ⟨?_, by decide +kernel, ?_, by decide +kernel⟩
  · have hr : live.vlt.run = none := rfl
    have hs : live.stagedBank = none := by decide +kernel
    simp only [vAttest, State.attReport, hr, hs, State.identityPub, ecPublic, ecdsaSign, State.serialBytes, List.length_append,
      ecBytes_length, leBytes_length, beBytes_length, List.length_replicate, bytesOf, List.length_map, List.length_cons, List.length_nil,
      ne_eq, not_true_eq_false, if_false]
  · simp only [vGetCert, State.identityPub, ecPublic, State.serialBytes, List.length_append, ecBytes_length, leBytes_length, ne_eq,
      not_true_eq_false, if_false]

theorem witness_ServiceHostInterfaceRuns :
    (let ping := mbxPkt (hostPkt 1 0 [7])
     let part := mbxOn (hostPkt 0x20 64 []).bytes 1
     let at_ := fun (t now : Nat) => { part with mbx := { part.mbx with since := some t }, now := now }
     live.h2dLive = false ∧ ping.h2dLive = true ∧ ping.judge = .pass ∧ (mbxPkt (hostPkt 0 0 [])).judge = .wrap ∧ part.judge = .wait ∧
       part.h2dLive = true ∧ (mbxOn [1] 1).judge = .reject 2 true ∧ (mbxOn [1] 1).h2dLive = true ∧ hasRoom (mbxOn [1] 1) 0 = true ∧
       (mbxPkt (hostPkt 1 64 [])).judge = .reject 1 false ∧ h2dBytes ≤ 64 * bitsOf 0xFFFFF 6 14 ∧ 64 * bitsOf 64 6 14 < h2dBytes ∧
       [(1 : Byte)].length ≤ h2dBytes - live.h2dHead ∧ (part.mbx.since = none) ∧ (at_ 0 5).now < 0 + 1000000 ∧ 0 + 1000000 ≤ (at_ 0 1000000).now ∧
       hasRoom (at_ 0 1000000) 0 = true ∧
       leaves (.mbxH2dTailWrite 64 (hostPkt 9 0 []).bytes) (mbxOn [] 0) (fun t => decide (answered t = (9, 3, 5) ∧ t.h2dHead = 64)) = true ∧
       leaves (.mbxH2dTailWrite 0xFFFFF []) live (fun t => t.flag F.MBX_STATUS_LEN_ERR) = true ∧
       leaves .mbxWrap (mbxPkt (hostPkt 0 0 [])) (fun t => decide (t.h2dHead = 0)) = true ∧
       leaves .mbxExtentTimeout (at_ 0 1000000) (fun t => decide (answered t = (0x20, 1, 5))) = true ∧
       leaves .mbxPing ping (fun t => decide (answered t = (1, 0, 5) ∧ t.h2dHead = 64)) = true ∧
       hasRoom (State.wr ping F.MBX_D2H_TAIL_POS (d2hBytes / 64 - 2)) 0 = false) ∧
    (let s := fun op len args => mbxPkt (hostPkt op len args)
     (∀ x ∈ [s 2 0 [], s 5 0 [3, 2], s 5 0 [3, 0], s 3 0 [2048], s 3 0 [2047], s 6 64 [], s 7 0 []], x.h2dLive = true ∧ x.judge = .pass ∧
         hasRoom x 512 = true ∧ hasRoom x 0 = true) ∧
       (s 2 0 []).pktAt.op = 2 ∧ (s 7 0 []).pktAt.op = 7 ∧ 2047 < bitsOf ((s 3 0 [2048]).pktAt.arg 0) 0 16 ∧
       bitsOf ((s 3 0 [2047]).pktAt.arg 0) 0 16 ≤ 2047 ∧ (s 3 0 [2047]).bankState 0 ≠ 1 ∧ ((s 3 0 [2047]).wr F.HCH_BSTATE_STATE 1 0).bankState 0 = 1 ∧
       ((s 6 64 []).port 0).cmd = none ∧ ((s 6 64 []).port 0).done = false ∧
       (((s 6 64 []).updPort 0 (fun q => { q with done := true })).port 0).done = true ∧
       leaves .mbxStatus (s 2 0 []) (fun t => decide (answered t = (2, 0, 5) ∧ t.bar4 (h2dBytes + 64) 1 = [BitVec.ofNat 8 Life.active.code])) = true ∧
       leaves .mbxLogRead (s 5 0 [3, 0]) (fun t => decide (answered t = (5, 4, 5))) = true ∧
       leaves .mbxDownload (s 3 0 [2048]) (fun t => decide (answered t = (3, 4, 5))) = true ∧
       leaves .mbxDownload (s 3 0 [2047]) (fun t => decide (answered t = (3, 5, 5))) = true ∧
       leaves .mbxAttest ((s 6 64 []).updPort 0 (fun q => { q with done := true })) (fun t => decide (answered t = (6, 9, 5))) = true) ∧
    (let s := fun op len => mbxPkt (hostPkt op len [])
     let held := State.setFlag (fwQ (s 0x20 64)) F.MBX_STATUS_HELD
     (∀ x ∈ [s 0x10 0, s 0x11 0, s 0x12 0, s 0x3F 64], x.h2dLive = true ∧ x.judge = .pass ∧ x.flag F.MBX_FWQ_VALID = false ∧ hasRoom x 0 = true) ∧
       (s 0x10 0).pktAt.op = 0x10 ∧ (s 0x3F 64).pktAt.op = 0x3F ∧ (s 0x3F 64).pktAt.len = 64 ∧ held.flag F.MBX_STATUS_HELD = true ∧
       (fwQ (s 0x3F 64)).flag F.MBX_FWQ_VALID = true ∧ ((fwQ (s 0x3F 64)).queue ((fwQ (s 0x3F 64)).rd F.MBX_FWQ_QUEUE)).accepts = true ∧
       (fwQ (s 0x3F 64)).poolFree ≠ 0 ∧ ((fwQ (s 0x3F 64)).stgAlloc 64).map Prod.fst = some (64 * 2 ^ 24) ∧
       (fwQ (s 0x3F 64)).fixIn (hAddr (64 * 2 ^ 24) 0) 64 = [] ∧ ({ fwQ (s 0x3F 64) with slotRsv := poolSize } : State).poolFree = 0 ∧
       (fwQ (s 0x3F 64)).eccFix = [] ∧ (fwQ (s 0x3F 64)).eccBad = [] ∧
       (({ fwQ (s 0x3F 64) with bufs := [(0, { len := 64 * stgGranules })] } : State).stgAlloc 64).isNone = true ∧
       leaves .mbxActivate (s 0x10 0) (fun t => decide (answered t = (0x10, 6, 5))) = true ∧
       leaves .mbxFw { fwQ (s 0x3F 64) with slotRsv := poolSize } (fun t => t.flag F.MBX_STATUS_HELD) = true ∧
       leaves .mbxHoldRetry held (fun t => decide (t.h2dHead = 128) && !t.flag F.MBX_STATUS_HELD) = true) ∧
    (let s := State.wr live F.MBX_D2H_TAIL_POS 4
     d2hBytes ≤ 64 * bitsOf 0xFFFFF 6 14 ∧ (s.d2hTail + d2hBytes - s.d2hHead) % d2hBytes < (64 * bitsOf 320 6 14 + d2hBytes - s.d2hHead) % d2hBytes ∧
       64 * bitsOf 256 6 14 < d2hBytes ∧ (64 * bitsOf 256 6 14 + d2hBytes - s.d2hHead) % d2hBytes ≤ (s.d2hTail + d2hBytes - s.d2hHead) % d2hBytes ∧
       leaves (.mbxD2hHeadWrite 320) s (fun t => t.flag F.MBX_STATUS_LEN_ERR) = true ∧
       leaves (.mbxD2hHeadWrite 256) s (fun t => decide (t.d2hHead = 256)) = true) ∧
    (let j := jobOf 1 [(2, 0x20), (8, 64 * 2 ^ 24), (20, 8), (24, 9)]
     let s := fun en => State.wr { onRing live 0x0D 0 j with bufs := [(0, { len := 64 })] } F.MBX_CTL_EN en
     let full := State.wr (s 1) F.MBX_D2H_TAIL_POS (d2hBytes / 64 - 2)
     jobReady (s 1) 0x0D 0 0 j = true ∧ j.op = 1 ∧ sendCheck j (s 1) = true ∧ (s 0).flag F.MBX_CTL_EN = false ∧ (s 1).flag F.MBX_CTL_EN = true ∧
       (s 1).badIn (hAddr (64 * 2 ^ 24) 0) 8 = false ∧ (s 1).fixIn (hAddr (64 * 2 ^ 24) 0) 8 = [] ∧ hasRoom (s 1) 8 = true ∧ hasRoom full 8 = false ∧
       leaves (.mbxSend 0) (s 0) (fun t => ended t 0 1 0) = true ∧ leaves (.mbxSend 0) full (fun t => t.flag F.MBX_STATUS_D2H_FULL) = true ∧
       leaves (.mbxSend 0) (s 1) (fun t => ended t 0 0 0 && decide (answered t = (0x20, 0, 9))) = true) ∧
    (let s := State.setFlag { live with pcie := { live.pcie with msixEn := true, busMaster := true, inReset := false, vecOpen := [] }
                                        evt := { live.evt with vecs := [(3, { count := 0, since := 0, held := true })] } } F.GLB_PCIE_LINK_UP
     (s.vec 3).held = true ∧ s.pcie.msixEn = true ∧ s.pcie.busMaster = true ∧ s.pcie.inReset = false ∧ s.flag F.GLB_PCIE_LINK_UP = true ∧
       leaves (.msixUnmask (.mask 3 false)) s (fun t => decide (t.out = [.msix 3 0 0])) = true ∧
       leaves (.pcieReset 5 16) (State.setFlag live F.CLK_STATUS_PCIE_REF_OK) (fun t => t.flag F.GLB_PCIE_LINK_UP) = true ∧
       leaves .pcieRefLoss s (fun t => !t.flag F.GLB_PCIE_LINK_UP && !t.pcie.msixEn) = true) ∧
    (let s := State.blockSet (bankIn 1) 0 0 true
     let m := mbxPkt (hostPkt 1 0 [])
     (5 : Nat) < 2 * bankBytes ∧ s.bankState (5 / bankBytes) = 1 ∧ s.blockIn 0 0 = true ∧ m.h2dLive = true ∧ m.h2dHead ≤ 5 ∧ 5 < m.h2dHead + 64 ∧
       hasRoom m 0 = true ∧ leaves (.pcieTlpError .poisoned 2 5) s (fun t => !t.blockIn 0 0) = true ∧
       leaves (.pcieTlpError .internal 4 5) m (fun t => decide (answered t = (1, 2, 5))) = true) ∧
    (let s := fun p => { live with i2c := { live.i2c with ptr := p } }
     live.pins.aon = true ∧ (s 0).i2c.ptr = 0 ∧ 0x3F < (s 0x40).i2c.ptr ∧ (s 3).i2c.ptr = 3 ∧
       leaves .i2cReadByte (s 0) (fun t => decide (t.out = [.i2c 0xD7] ∧ t.i2c.ptr = 1)) = true ∧
       leaves .i2cReadByte (s 0x40) (fun t => decide (t.out = [.i2c 0])) = true ∧
       leaves (.i2cWrite [0x40, 1]) (s 0) (fun t => decide (t.i2c.ptr = 0x40)) = true) := by
  refine ⟨?_, ?_, ?_, ?_, ?_, ?_, ?_, ?_⟩ <;> decide +kernel

/-! Reset and the invariants. -/

theorem witness_ResetState : State.reset.mem = [] ∧ State.reset.bufs = [] ∧ (State.reset.thread 255).st = .free := by decide +kernel

/-- A state with cells and buffers that keeps the invariants, and a step from it. -/
def kept : State :=
  { live with mem := [⟨3, 7⟩, ⟨hAddr (64 * 2 ^ 24) 5, 1⟩], bufs := [(0, { len := 64 }), (4, { len := 65 })]
              pending := [.add 0 1 2 3] }

theorem witness_EveryStepKeepsTheInvariants :
    kept.MemoryCanonical ∧ kept.StagingOk ∧ (∃ t, step kept = .next t) := by
  refine ⟨?_, ?_, ?_⟩
  · unfold State.MemoryCanonical; decide +kernel
  · refine ⟨?_, ?_, ?_, ?_, ?_, ?_, trivial⟩ <;> decide +kernel
  · exact ⟨_, rfl⟩
end Sys2Proof.Tests
end

section
/-! SUPPORT. Loads and stores of a core (R44 to R48, R80, R487): little-endian numbers, the reads and writes under ECC, the line of a
data cache that serves a load, and that a load returns the thread's own latest store (R46). -/

namespace Sys2Proof.Machine

/-! Fields and little-endian numbers. -/

/-- A field that fits in a word reads the same once the number is stored in the word. -/
theorem bitsOf_toNat_ofNat (v : Nat) {lo w k : Nat} (h : lo + w ≤ k) : bitsOf (BitVec.ofNat k v).toNat lo w = bitsOf v lo w := by
  apply Nat.eq_of_testBit_eq
  intro i
  rw [testBit_bitsOf, testBit_bitsOf, BitVec.toNat_ofNat, Nat.testBit_mod_two_pow]
  by_cases hi : i < w
  · simp [show lo + i < k by omega]
  · simp [hi]

@[simp] theorem length_leBytes (n v : Nat) : (leBytes n v).length = n := by
  induction n generalizing v with
  | zero => rfl
  | succ n ih => simp [leBytes, ih]

/-- One byte more is a factor of 256. -/
theorem two_pow_bytes_succ (n : Nat) : 2 ^ (8 * (n + 1)) = 256 * 2 ^ (8 * n) := by
  rw [Nat.mul_add, Nat.pow_add, Nat.mul_comm]

theorem leNat_lt (bs : List Byte) : leNat bs < 2 ^ (8 * bs.length) := by
  induction bs with
  | nil => simp [leNat]
  | cons b bs ih =>
    have hb : b.toNat < 256 := b.isLt
    simp only [leNat, List.length_cons, two_pow_bytes_succ]
    omega

theorem leNat_append (bs cs : List Byte) : leNat (bs ++ cs) = leNat bs + 2 ^ (8 * bs.length) * leNat cs := by
  induction bs with
  | nil => simp [leNat]
  | cons b bs ih =>
    simp only [leNat, List.cons_append, ih, List.length_cons, two_pow_bytes_succ, Nat.mul_add 256, Nat.mul_assoc, Nat.add_assoc]

/-- The number that the low bytes of a number hold. -/
theorem leNat_leBytes (n v : Nat) : leNat (leBytes n v) = v % 2 ^ (8 * n) := by
  induction n generalizing v with
  | zero => simp [leBytes, leNat, Nat.mod_one]
  | succ n ih =>
    simp only [leBytes, leNat, ih, BitVec.toNat_ofNat]
    rw [two_pow_bytes_succ, Nat.mod_mul]

/-! Ranges of memory. -/

theorem memRead_add (m : List Host.Cell) (a i n : Nat) : memRead m a (i + n) = memRead m a i ++ memRead m (a + i) n := by
  induction i generalizing a with
  | zero => simp [memRead]
  | succ i ih => rw [Nat.succ_add, memRead, ih, memRead, List.cons_append, Nat.add_right_comm, Nat.add_assoc]

theorem State.ldMem_lt (s : State) (a n : Nat) : s.ldMem a n < 2 ^ (8 * n) := by
  have h := leNat_lt (memRead s.mem a n)
  rwa [memRead_length] at h

theorem State.ldMem_add (s : State) (a i n : Nat) : s.ldMem a (i + n) = s.ldMem a i + 2 ^ (8 * i) * s.ldMem (a + i) n := by
  simp only [State.ldMem, memRead_add, leNat_append, memRead_length]

/-- A field of bytes of a number in memory is the number that those bytes hold. -/
theorem State.bitsOf_ldMem (s : State) (a : Nat) {i n len : Nat} (h : i + n ≤ len) :
    bitsOf (s.ldMem a len) (8 * i) (8 * n) = s.ldMem (a + i) n := by
  obtain ⟨k, rfl⟩ := Nat.exists_eq_add_of_le h
  rw [bitsOf, Nat.add_assoc, s.ldMem_add, s.ldMem_add, Nat.shiftRight_eq_div_pow, Nat.add_mul_div_left _ _ (Nat.two_pow_pos _),
    Nat.div_eq_of_lt (s.ldMem_lt a i), Nat.zero_add, Nat.add_mul_mod_self_left, Nat.mod_eq_of_lt (s.ldMem_lt _ n)]

/-- An aligned access of 1, 2, 4 or 8 bytes lies within one line of 64 bytes. -/
theorem aligned_within_line {a n : Nat} (hn : n ∈ [1, 2, 4, 8]) (ha : a % n = 0) : a % 64 + n ≤ 64 := by
  simp only [List.mem_cons, List.not_mem_nil, or_false] at hn
  obtain rfl | rfl | rfl | rfl := hn <;> omega

/-! Reads and writes under ECC (R487). -/

@[simp] theorem eccCorrect_mem (s : State) (cl a n : Nat) : (s.eccCorrect cl a n).mem = s.mem := by
  simp only [State.eccCorrect]
  split
  · rfl
  · exact ctr_mem _ _ _ _

@[simp] theorem eccCorrect_eccBad (s : State) (cl a n : Nat) : (s.eccCorrect cl a n).eccBad = s.eccBad := by
  simp only [State.eccCorrect]
  split
  · rfl
  · exact ctr_eccBad _ _ _ _

@[simp] theorem eccWriteBy_dcache (s : State) (cl a : Nat) (bs : List Byte) : (s.eccWriteBy cl a bs).1.dcache = s.dcache := by
  simp only [State.eccWriteBy]
  split
  · rfl
  · exact ctr_dcache _ _ _ _

theorem eccWriteBy_eccBad (s : State) (cl a : Nat) (bs : List Byte) :
    (s.eccWriteBy cl a bs).1.eccBad = s.eccBad.filter (fun g => !wholeGranule a bs.length g) := by
  simp only [State.eccWriteBy]
  split
  · rfl
  · exact ctr_eccBad _ _ _ _

/-- A write makes no granule bad. -/
theorem eccWriteBy_badIn {s : State} {a n : Nat} (h : s.badIn a n = false) (cl a' : Nat) (bs : List Byte) :
    (s.eccWriteBy cl a' bs).1.badIn a n = false := by
  simp only [State.badIn, List.any_eq_false, eccWriteBy_eccBad] at h ⊢
  exact fun g hg => h g (List.mem_filter.mp hg).1

/-- No granule of a range without an uncorrectable error is bad, so none is covered in part and bad. -/
theorem no_badPart {s : State} {a n : Nat} (h : s.badIn a n = false) :
    s.eccBad.filter (fun g => decide (a / 8 ≤ g ∧ n ≠ 0 ∧ g ≤ (a + n - 1) / 8) && !wholeGranule a n g) = [] := by
  simp only [State.badIn, List.any_eq_false] at h
  rw [List.filter_eq_nil_iff]
  exact fun g hg hp => h g hg (Bool.and_eq_true_iff.mp hp).1

theorem rangeFrom_succ (a n : Nat) : rangeFrom a (n + 1) = a :: rangeFrom (a + 1) n := by
  simp [rangeFrom, List.range_succ_eq_map, Function.comp_def, Nat.add_right_comm, ← Nat.add_assoc]

/-- Storing bytes each at its own address is storing them from the first address up. -/
theorem foldl_memPut_rangeFrom (bs : List Byte) (m : List Host.Cell) (a : Nat) :
    ((rangeFrom a bs.length).zip bs).foldl (fun m c => memPut m c.1 c.2) m = memWrite m a bs := by
  induction bs generalizing m a with
  | nil => simp [memWrite]
  | cons b bs ih =>
    rw [List.length_cons, rangeFrom_succ, List.zip_cons_cons, List.foldl_cons, ih, memWrite]

/-- A write to granules without an uncorrectable error stores every byte. -/
theorem eccWriteBy_of_good {s : State} {a : Nat} {bs : List Byte} (h : s.badIn a bs.length = false) (cl : Nat) :
    (s.eccWriteBy cl a bs).2 = true ∧ (s.eccWriteBy cl a bs).1.mem = memWrite s.mem a bs := by
  simp only [State.eccWriteBy, no_badPart h, List.isEmpty_nil, List.contains_nil, Bool.false_eq_true, if_false,
    foldl_memPut_rangeFrom, true_and]
  split
  · rfl
  · exact ctr_mem _ _ _ _

/-- A core's read of granules without an uncorrectable error gives the bytes in memory. -/
theorem coreRead_of_good {s : State} {a n : Nat} (h : s.badIn a n = false) (t : Nat) :
    (s.coreRead t a n).2 = some (s.ldMem a n) := by
  have hb : (s.eccCorrect (clusterOf t) a n).badIn a n = false := by simpa [State.badIn] using h
  simp [State.coreRead, hb, State.ldMem]

/-- A core's read gives nothing or the bytes in memory. -/
theorem coreRead_some {s : State} {t a n v : Nat} (h : (s.coreRead t a n).2 = some v) : v = s.ldMem a n := by
  simp only [State.coreRead, State.ldMem, eccCorrect_mem] at h
  split at h
  · cases h
  · exact (Option.some.inj h).symm

/-! Is the core's data cache on? -/

/-- No event writes `MQ_CACHE_CTL`. -/
theorem evtReg_cacheCtl (cl : Nat) : evtReg (F.MQ_CACHE_CTL_D_EN.at cl) = false := by
  have he : F.MQ_CACHE_CTL_D_EN.at cl = 0x1000030 + cl * 0x20000 := rfl
  simp only [evtReg, he, F.EVT_MSI_CTR, F.EVT_ITEMS_CTR, F.EVT_FOLDED_CTR, F.EVT_OCCURRED_CTR, F.LOG_OVERFLOW_CTR, F.LOG_EVICTED_CTR,
    F.MQ_POOL_FREE_MIN, Bool.or_eq_false_iff, decide_eq_false_iff_not, List.contains_eq_mem, List.mem_cons, List.not_mem_nil, or_false]
  omega

theorem ctr_eccFix_cacheCtl (s : State) (cl n cl' : Nat) :
    (s.ctr F.MQ_ECC_FIX_COUNT cl n).rd F.MQ_CACHE_CTL_D_EN cl' = s.rd F.MQ_CACHE_CTL_D_EN cl' := by
  refine ctr_rd s _ cl n _ cl' ?_ (evtReg_cacheCtl cl')
  show 0x1000030 + cl' * 0x20000 ≠ 0x1000088 + cl * 0x20000
  omega

@[simp] theorem eccWriteBy_dcOn (s : State) (cl a : Nat) (bs : List Byte) (t x : Nat) :
    (s.eccWriteBy cl a bs).1.dcOn t x = s.dcOn t x := by
  simp only [State.eccWriteBy, State.dcOn]
  split
  · rfl
  · rw [ctr_eccFix_cacheCtl]
    rfl

/-! A core's lines. -/

@[simp] theorem setDlines_mem (s : State) (core : Nat) (l : List DLine) : (s.setDlines core l).mem = s.mem := rfl
@[simp] theorem setDlines_eccBad (s : State) (core : Nat) (l : List DLine) : (s.setDlines core l).eccBad = s.eccBad := rfl
@[simp] theorem setDlines_dcOn (s : State) (core : Nat) (l : List DLine) (t a : Nat) : (s.setDlines core l).dcOn t a = s.dcOn t a := rfl
@[simp] theorem dlines_setDlines_same (s : State) (core : Nat) (l : List DLine) : (s.setDlines core l).dlines core = l :=
  SMap.findD_putD_same s.dcache core l []

@[simp] theorem DLine.write_addr (d : DLine) (a n v : Nat) : (d.write a n v).addr = d.addr := by unfold DLine.write; split <;> rfl
@[simp] theorem DLine.write_parity (d : DLine) (a n v : Nat) : (d.write a n v).parity = d.parity := by unfold DLine.write; split <;> rfl

/-- A line reads what was stored in it. -/
theorem DLine.read_write {d : DLine} {a n : Nat} (hd : d.addr = a / 64 * 64) (h : a % 64 + n ≤ 64) (v : Nat) :
    (d.write a n v).read a n = v % 2 ^ (8 * n) := by
  rw [DLine.read, DLine.write, if_pos hd, bitsOf_toNat_ofNat _ (by omega), bitsOf_setBitsOf_same]

/-- The line of a thread's core that serves a load at an address: present, without a parity error, with the cache on. -/
def State.goodLine (s : State) (t a : Nat) : Option DLine :=
  if s.dcOn t a then (s.dline (coreOf t) a).filter (fun d => !d.parity) else none

theorem goodLine_addr {s : State} {t a : Nat} {d : DLine} (h : s.goodLine t a = some d) : d.addr = a / 64 * 64 := by
  simp only [State.goodLine] at h
  split at h
  · have hf := (Option.filter_eq_some_iff.mp h).1
    simpa using List.find?_some hf
  · cases h

/-! Loads. -/

/-- A load that the cache does not serve reads memory, whether or not its whole line can be read. -/
theorem memMiss_of_good {s : State} {a n : Nat} (h : s.badIn a n = false) (hl : a % 64 + n ≤ 64) (t : Nat) :
    (s.memMiss t a n).2 = some (s.ldMem a n) := by
  simp only [State.memMiss]
  cases hr : s.coreRead t (a / 64 * 64) 64 with
  | mk s' o =>
    cases o with
    | some w =>
      have hw : w = s.ldMem (a / 64 * 64) 64 := coreRead_some (t := t) (by rw [hr])
      simp only [hw, s.bitsOf_ldMem _ hl, Nat.div_add_mod']
    | none =>
      have hs : s' = s.eccCorrect (clusterOf t) (a / 64 * 64) 64 := congrArg Prod.fst hr.symm
      have hb : s'.badIn a n = false := by simpa [hs, State.badIn] using h
      have hm : s'.ldMem a n = s.ldMem a n := by simp only [hs, State.ldMem, eccCorrect_mem]
      exact (coreRead_of_good hb t).trans (congrArg some hm)

/-- What a load returns where no granule of its own is bad: the good line's bytes, else memory's. -/
theorem memLoad_of_good {s : State} {a n : Nat} (h : s.badIn a n = false) (hl : a % 64 + n ≤ 64) (t : Nat) :
    (s.memLoad t a n).2 = some (((s.goodLine t a).map (fun d => d.read a n)).getD (s.ldMem a n)) := by
  unfold State.memLoad State.goodLine
  by_cases hon : s.dcOn t a = true
  · simp only [if_pos hon]
    cases s.dline (coreOf t) a with
    | none => exact memMiss_of_good h hl t
    | some d =>
      by_cases hp : d.parity = true
      · have hb : ((s.dcDrop (coreOf t) a).ctr F.MQ_ECC_FIX_COUNT (clusterOf t)).badIn a n = false := by
          simpa [State.badIn, State.dcDrop] using h
        simp only [hp, if_true, memMiss_of_good hb hl, Option.filter_some]
        simp [State.ldMem, State.dcDrop]
      · simp [hp, Option.filter_some]
  · simp only [if_neg hon]
    exact coreRead_of_good h t

/-! Stores. -/

/-- The state of a store once the core's line, if the cache is on, has been updated. -/
def State.lineStored (s : State) (t a n v : Nat) : State :=
  if s.dcOn t a then s.setDlines (coreOf t) ((s.dlines (coreOf t)).map (fun d => d.write a n v)) else s

@[simp] theorem lineStored_mem (s : State) (t a n v : Nat) : (s.lineStored t a n v).mem = s.mem := by
  unfold State.lineStored; split <;> rfl

@[simp] theorem lineStored_eccBad (s : State) (t a n v : Nat) : (s.lineStored t a n v).eccBad = s.eccBad := by
  unfold State.lineStored; split <;> rfl

@[simp] theorem lineStored_dcOn (s : State) (t a n v t' a' : Nat) : (s.lineStored t a n v).dcOn t' a' = s.dcOn t' a' := by
  unfold State.lineStored; split <;> rfl

/-- A store updates the good line of its address. -/
theorem lineStored_goodLine (s : State) (t a n v : Nat) :
    (s.lineStored t a n v).goodLine t a = (s.goodLine t a).map (fun d => d.write a n v) := by
  simp only [State.goodLine, lineStored_dcOn]
  by_cases hon : s.dcOn t a = true
  · simp [if_pos hon, State.lineStored, State.dline, List.find?_map, Option.filter_map, Function.comp_def]
  · simp [if_neg hon]

/-- A store to granules without an uncorrectable error updates the line and writes memory. -/
theorem memStore_of_good {s : State} {a n : Nat} (h : s.badIn a n = false) (t v : Nat) :
    s.memStore t a n v = ((s.lineStored t a n v).eccWriteBy (clusterOf t) a (leBytes n v)).1 := by
  have hb : (s.lineStored t a n v).badIn a (leBytes n v).length = false := by simpa [State.badIn] using h
  exact if_pos (eccWriteBy_of_good hb _).1

theorem memStore_badIn {s : State} {a n : Nat} (h : s.badIn a n = false) (t v : Nat) :
    (s.memStore t a n v).badIn a n = false := by
  rw [memStore_of_good h]
  exact eccWriteBy_badIn (by simpa [State.badIn] using h) _ _ _

/-- Memory holds what was stored. -/
theorem memStore_ldMem {s : State} {a n : Nat} (h : s.badIn a n = false) (t v : Nat) :
    (s.memStore t a n v).ldMem a n = v % 2 ^ (8 * n) := by
  have hb : (s.lineStored t a n v).badIn a (leBytes n v).length = false := by simpa [State.badIn] using h
  have hr := memRead_memWrite (leBytes n v) s.mem a
  rw [length_leBytes] at hr
  rw [memStore_of_good h, State.ldMem, (eccWriteBy_of_good hb _).2, lineStored_mem, hr, leNat_leBytes]

/-- The good line of the address after a store. -/
theorem memStore_goodLine {s : State} {a n : Nat} (h : s.badIn a n = false) (t v : Nat) :
    (s.memStore t a n v).goodLine t a = (s.goodLine t a).map (fun d => d.write a n v) := by
  rw [memStore_of_good h, ← lineStored_goodLine]
  simp only [State.goodLine, State.dline, State.dlines, eccWriteBy_dcOn, eccWriteBy_dcache]

/-- A load right after a store of the same thread at the same address returns what was stored, from the line or from memory. -/
theorem memLoad_memStore_same {s : State} {a n : Nat} (h : s.badIn a n = false) (hl : a % 64 + n ≤ 64) (t v : Nat) :
    ((s.memStore t a n v).memLoad t a n).2 = some (v % 2 ^ (8 * n)) := by
  rw [memLoad_of_good (memStore_badIn h t v) hl, memStore_goodLine h, memStore_ldMem h]
  cases hg : s.goodLine t a with
  | none => rfl
  | some d => exact congrArg some (DLine.read_write (goodLine_addr hg) hl v)

/-- Settles O10: the store updates the line that may serve the load as well as memory, and counting its corrections leaves the
cache's enable bit alone. -/
theorem loadReturnsOwnLatestStore : Obligations.LoadReturnsOwnLatestStore := by
  unfold Obligations.LoadReturnsOwnLatestStore
  intro s t a n v hn ha hb
  rw [memLoad_memStore_same hb (aligned_within_line hn ha), Nat.mod_mod]

end Sys2Proof.Machine
end

section
/-! SUPPORT. Integer operations, branches and jumps (R76 to R79, R82): that the model's values are those of the spec's tables, and what
such an instruction of a ready thread leaves. -/

namespace Sys2Proof.Machine

/-! Shifts, comparisons and products. -/

/-- A shift with sign fill divides the signed value, rounding down. -/
theorem sshiftRight_eq_ofInt_div (a : Word) (n : Nat) : a.sshiftRight n = BitVec.ofInt 64 (a.toInt / 2 ^ n) := by
  rw [BitVec.sshiftRight_eq, Int.shiftRight_eq_div_pow]
  norm_cast

/-- A rotation by less than the width; by 0 both shifts leave the word. -/
theorem rotateRight_eq_or (a : Word) {n : Nat} (h : n < 64) : a.rotateRight n = (a >>> n) ||| (a <<< ((64 - n) % 64)) := by
  rw [BitVec.rotateRight_def, Nat.mod_eq_of_lt h]
  obtain rfl | hn := Nat.eq_zero_or_pos n
  · simp
  · rw [Nat.mod_eq_of_lt (by omega : 64 - n < 64)]

theorem bw_slt (a b : Word) : bw (a.slt b) = if a.toInt < b.toInt then 1 else 0 := by
  simp [bw, BitVec.slt_eq_decide]

theorem bw_ult (a b : Word) : bw (a.ult b) = if a.toNat < b.toNat then 1 else 0 := by
  simp [bw, BitVec.ult_eq_decide]

theorem not_slt_eq_decide (a b : Word) : (!a.slt b) = decide (b.toInt ≤ a.toInt) := by
  rw [BitVec.slt_eq_decide, ← decide_not, decide_eq_decide, Int.not_lt]

theorem not_ult_eq_decide (a b : Word) : (!a.ult b) = decide (b.toNat ≤ a.toNat) := by
  rw [BitVec.ult_eq_decide, ← decide_not, decide_eq_decide, Nat.not_lt]

/-- Where equal words make no difference, choosing by a signed comparison does not depend on whether equality counts. -/
theorem ite_slt_eq_ite_toInt_le {a b x y : Word} (h : a = b → x = y) :
    (if a.slt b then x else y) = if a.toInt ≤ b.toInt then x else y := by
  simp only [BitVec.slt_eq_decide, decide_eq_true_eq]
  by_cases hlt : a.toInt < b.toInt
  · rw [if_pos hlt, if_pos (Int.le_of_lt hlt)]
  · rw [if_neg hlt]
    by_cases hle : a.toInt ≤ b.toInt
    · rw [if_pos hle, h (BitVec.eq_of_toInt_eq (by omega))]
    · rw [if_neg hle]

theorem ite_ult_eq_ite_toNat_le {a b x y : Word} (h : a = b → x = y) :
    (if a.ult b then x else y) = if a.toNat ≤ b.toNat then x else y := by
  simp only [BitVec.ult_eq_decide, decide_eq_true_eq]
  by_cases hlt : a.toNat < b.toNat
  · rw [if_pos hlt, if_pos (Nat.le_of_lt hlt)]
  · rw [if_neg hlt]
    by_cases hle : a.toNat ≤ b.toNat
    · rw [if_pos hle, h (BitVec.eq_of_toNat_eq (by omega))]
    · rw [if_neg hle]

theorem mul_eq_ofNat (a b : Word) : a * b = BitVec.ofNat 64 (a.toNat * b.toNat) := by
  simp [BitVec.ofNat_mul]

/-! Divisions (R77): the word holds the quotient modulo 2^64, so -2^63 by -1 gives -2^63. -/

theorem sdivW_eq (a b : Word) : sdivW a b = if b = 0 then BitVec.allOnes 64 else BitVec.ofInt 64 (a.toInt.tdiv b.toInt) := by
  have hq : a.sdiv b = BitVec.ofInt 64 (a.toInt.tdiv b.toInt) :=
    BitVec.eq_of_toInt_eq (by rw [BitVec.toInt_sdiv, BitVec.toInt_ofInt])
  rw [sdivW, hq]

theorem sremW_eq (a b : Word) : sremW a b = if b = 0 then a else BitVec.ofInt 64 (a.toInt.tmod b.toInt) := by
  rw [sremW, ← BitVec.toInt_srem, BitVec.ofInt_toInt]

theorem udivW_eq (a b : Word) : udivW a b = if b = 0 then BitVec.allOnes 64 else BitVec.ofNat 64 (a.toNat / b.toNat) := by
  rw [udivW, ← BitVec.toNat_udiv, BitVec.ofNat_toNat, BitVec.setWidth_eq]

theorem uremW_eq (a b : Word) : uremW a b = if b = 0 then a else BitVec.ofNat 64 (a.toNat % b.toNat) := by
  rw [uremW, ← BitVec.toNat_umod, BitVec.ofNat_toNat, BitVec.setWidth_eq]

/-! Counts of bits. -/

/-- How far a test holds from 0 up: nowhere, or at 0 and as far as it holds from 1 up. -/
theorem length_takeWhile_range_succ (p : Nat → Bool) (n : Nat) :
    ((List.range (n + 1)).takeWhile p).length =
      if p 0 then ((List.range n).takeWhile (fun i => p (i + 1))).length + 1 else 0 := by
  rw [List.range_succ_eq_map, List.takeWhile_cons]
  split
  · rw [List.takeWhile_map, List.length_cons, List.length_map]
    rfl
  · rfl

theorem bitLen_le {v n : Nat} (h : v < 2 ^ n) : bitLen v ≤ n := by
  unfold bitLen
  split
  · exact Nat.zero_le n
  · next hv => exact (Nat.log2_lt hv).mpr h

theorem bitLen_of_testBit {v n : Nat} (h : v < 2 ^ (n + 1)) (hb : v.testBit n = true) : bitLen v = n + 1 := by
  have hge : 2 ^ n ≤ v := Nat.ge_two_pow_of_testBit hb
  have hv : v ≠ 0 := by have := Nat.two_pow_pos n; omega
  rw [bitLen, if_neg hv, (Nat.log2_eq_iff hv).mpr ⟨hge, h⟩]

/-- The zero bits above the top set bit of an `n`-bit number. -/
theorem length_takeWhile_leading_zeros {v n : Nat} (h : v < 2 ^ n) :
    ((List.range n).takeWhile (fun i => !v.testBit (n - 1 - i))).length = n - bitLen v := by
  induction n with
  | zero => simp
  | succ n ih =>
    have hshift : (fun i => !v.testBit (n + 1 - 1 - (i + 1))) = fun i => !v.testBit (n - 1 - i) :=
      funext fun i => by rw [show n + 1 - 1 - (i + 1) = n - 1 - i by omega]
    rw [length_takeWhile_range_succ, hshift, Nat.sub_zero, Nat.add_sub_cancel]
    cases hb : v.testBit n with
    | true => simp [bitLen_of_testBit h hb]
    | false =>
      have hlt : v < 2 ^ n := Nat.lt_of_not_le fun hge =>
        Bool.noConfusion (hb.symm.trans (Nat.testBit_of_two_pow_le_and_two_pow_add_one_gt hge h))
      rw [Bool.not_false, if_pos rfl, ih hlt, Nat.sub_add_comm (bitLen_le hlt)]

theorem ctzFrom_eq (v n i : Nat) :
    ctzFrom v n i = i + ((List.range n).takeWhile (fun j => !v.testBit (i + j))).length := by
  induction n generalizing i with
  | zero => rfl
  | succ n ih =>
    rw [length_takeWhile_range_succ, ctzFrom, ih, bitOf]
    cases hb : v.testBit i with
    | true => simp
    | false => simp [Nat.add_assoc, Nat.add_comm 1]

theorem popc_eq_countP (v n : Nat) : popc v n = (List.range n).countP (fun i => v.testBit i) := by
  induction n with
  | zero => rfl
  | succ n ih =>
    rw [popc, ih, List.range_succ, List.countP_append, List.countP_singleton]
    rfl

theorem clzW_eq (a : Word) :
    clzW a = BitVec.ofNat 64 ((List.range 64).takeWhile (fun i => !a.getLsbD (63 - i))).length :=
  congrArg (BitVec.ofNat 64) (length_takeWhile_leading_zeros a.isLt).symm

theorem ctzW_eq (a : Word) : ctzW a = BitVec.ofNat 64 ((List.range 64).takeWhile (fun i => !a.getLsbD i)).length := by
  simp only [ctzW, ctzFrom_eq, Nat.zero_add, BitVec.testBit_toNat]

theorem popcW_eq (a : Word) : popcW a = BitVec.ofNat 64 ((List.range 64).countP (fun i => a.getLsbD i)) := by
  simp only [popcW, popc_eq_countP, BitVec.testBit_toNat]

/-! Reversal of the bytes. -/

theorem testBit_leNat_cons (b : Byte) (bs : List Byte) (i : Nat) :
    (leNat (b :: bs)).testBit i = if i < 8 then b.getLsbD i else (leNat bs).testBit (i - 8) := by
  rw [leNat, Nat.add_comm, show (256 : Nat) = 2 ^ 8 from rfl, Nat.testBit_two_pow_mul_add _ b.isLt, BitVec.testBit_toNat]

/-- Bit `i` of the number that a list of bytes holds lies in byte `i / 8`. -/
theorem testBit_leNat (bs : List Byte) (i : Nat) : (leNat bs).testBit i = (bs.getD (i / 8) 0).getLsbD (i % 8) := by
  induction bs generalizing i with
  | nil => simp [leNat]
  | cons b bs ih =>
    rw [testBit_leNat_cons]
    split
    · next h => rw [Nat.div_eq_of_lt h, Nat.mod_eq_of_lt h]; rfl
    · next h =>
      rw [ih, show i / 8 = (i - 8) / 8 + 1 by omega, show i % 8 = (i - 8) % 8 by omega, List.getD_cons_succ]

/-- Byte `k` of a number. -/
theorem getLsbD_getD_leBytes {n k j : Nat} (v : Nat) (hk : k < n) (hj : j < 8) :
    ((leBytes n v).getD k 0).getLsbD j = v.testBit (8 * k + j) := by
  induction n generalizing v k with
  | zero => omega
  | succ n ih =>
    cases k with
    | zero => simp [leBytes, BitVec.getLsbD_ofNat, hj, -BitVec.getLsbD_eq_getElem]
    | succ k =>
      rw [leBytes, List.getD_cons_succ, ih _ (by omega), show (256 : Nat) = 2 ^ 8 from rfl, Nat.testBit_div_two_pow]
      congr 1
      omega

/-- Reversed bytes: bit `j` of byte `k` is bit `j` of byte `n - 1 - k`. -/
theorem testBit_leNat_reverse_leBytes {n i : Nat} (v : Nat) (h : i < 8 * n) :
    (leNat (leBytes n v).reverse).testBit i = v.testBit (8 * (n - 1 - i / 8) + i % 8) := by
  have hk : i / 8 < (leBytes n v).length := by rw [length_leBytes]; omega
  rw [testBit_leNat, List.getD_eq_getElem?_getD, List.getElem?_reverse hk, ← List.getD_eq_getElem?_getD, length_leBytes, getLsbD_getD_leBytes v (by omega) (Nat.mod_lt _ (by decide))]

theorem getLsbD_low_mask (k i : Nat) : (BitVec.ofNat 64 (2 ^ k - 1)).getLsbD i = (decide (i < 64) && decide (i < k)) := by
  rw [BitVec.getLsbD_ofNat, Nat.testBit_two_pow_sub_one]

/-- Byte `n` of a word, moved to byte `7 - n`. -/
theorem getLsbD_byte_moved (a : Word) {n i : Nat} (hn : n < 8) (hi : i < 64) :
    (((a >>> (8 * n)) &&& 0xFF#64) <<< (56 - 8 * n)).getLsbD i = (decide (7 - i / 8 = n) && a.getLsbD (8 * n + i % 8)) := by
  have hmask (j : Nat) : (0xFF#64).getLsbD j = (decide (j < 64) && decide (j < 8)) := getLsbD_low_mask 8 j
  rw [BitVec.getLsbD_shiftLeft, BitVec.getLsbD_and, BitVec.getLsbD_ushiftRight, hmask]
  by_cases hk : 7 - i / 8 = n
  · have hbit : i - (56 - 8 * n) = i % 8 := by omega
    simp [hk, hi, hbit, show ¬ i < 56 - 8 * n by omega, show i % 8 < 64 by omega, show i % 8 < 8 by omega]
  · obtain hlow | hhigh : i < 56 - 8 * n ∨ ¬ i - (56 - 8 * n) < 8 := by omega
    · simp [hk, hlow]
    · simp [hk, hhigh]

/-- The lowest `n` bytes of a word, put from the top byte down. -/
theorem getLsbD_foldl_byte_or (a : Word) {n i : Nat} (hn : n ≤ 8) (hi : i < 64) :
    ((List.range n).foldl (fun w k => w ||| (((a >>> (8 * k)) &&& 0xFF#64) <<< (56 - 8 * k))) (0 : Word)).getLsbD i =
      (decide (7 - i / 8 < n) && a.getLsbD (8 * (7 - i / 8) + i % 8)) := by
  induction n with
  | zero => simp
  | succ n ih =>
    rw [List.range_succ, List.foldl_append, List.foldl_cons, List.foldl_nil, BitVec.getLsbD_or, ih (by omega),
      getLsbD_byte_moved a hn hi]
    by_cases hk : 7 - i / 8 = n
    · simp [hk]
    · simp [hk, show 7 - i / 8 < n + 1 ↔ 7 - i / 8 < n by omega]

theorem bswapW_eq (a : Word) :
    bswapW a = (List.range 8).foldl (fun w i => w ||| (((a >>> (8 * i)) &&& 0xFF#64) <<< (56 - 8 * i))) 0 := by
  apply BitVec.eq_of_getLsbD_eq
  intro i hi
  rw [getLsbD_foldl_byte_or a (Nat.le_refl 8) hi, bswapW, BitVec.getLsbD_ofNat, testBit_leNat_reverse_leBytes _ hi]
  simp [hi, show 7 - i / 8 < 8 by omega, BitVec.testBit_toNat]

/-! Serial comparison (R12, R78). -/

/-- The distance of R12 is the difference modulo 2^n. -/
theorem laterThan_iff (n : Nat) (a b : Nat) :
    laterThan n a b = true ↔ 1 ≤ ((a : Int) - b) % 2 ^ n ∧ ((a : Int) - b) % 2 ^ n ≤ 2 ^ (n - 1) - 1 := by
  have hb : b % 2 ^ n ≤ a % 2 ^ n + 2 ^ n := by have := Nat.mod_lt b (Nat.two_pow_pos n); omega
  have hd : (((a % 2 ^ n + 2 ^ n - b % 2 ^ n) % 2 ^ n : Nat) : Int) = ((a : Int) - b) % 2 ^ n := by
    rw [Int.natCast_emod, Int.natCast_sub hb, Int.natCast_add, Int.natCast_emod, Int.natCast_emod, Int.natCast_pow, Int.sub_emod,
      Int.add_emod_right, ← Int.sub_emod, Int.emod_sub_emod, Int.sub_emod_emod]
    rfl
  have hp : ((2 ^ (n - 1) - 1 : Nat) : Int) = 2 ^ (n - 1) - 1 := by
    rw [Int.natCast_sub Nat.one_le_two_pow, Int.natCast_pow]
    rfl
  simp only [laterThan, decide_eq_true_eq, ← hd, ← hp]
  omega

/-- Of two numbers at most one is later. -/
theorem laterThan_asymm {n a b : Nat} (hn : 1 ≤ n) (h : laterThan n a b = true) : laterThan n b a = false := by
  rw [← Bool.not_eq_true]
  intro hb
  rw [laterThan_iff] at h hb
  have hpow : (2 : Int) ^ n = 2 ^ (n - 1) * 2 := by
    rw [← Int.pow_succ, Nat.succ_eq_add_one, Nat.sub_add_cancel hn]
  have hsum : (((a : Int) - b) % 2 ^ n + ((b : Int) - a) % 2 ^ n) % 2 ^ n = 0 := by
    rw [← Int.add_emod, show (a : Int) - b + (b - a) = 0 by omega, Int.zero_emod]
  rw [Int.emod_eq_of_lt (by omega) (by omega)] at hsum
  omega

theorem serW_of_later {n : Nat} {a b : Word} (h : laterThan n a.toNat b.toNat = true) : serW n a b = 1 := if_pos h

theorem serW_of_earlier {n : Nat} {a b : Word} (hn : 1 ≤ n) (h : laterThan n b.toNat a.toNat = true) :
    serW n a b = 0xFFFFFFFFFFFFFFFF#64 := by
  simp only [serW, laterThan_asymm hn h, h, Bool.false_eq_true, if_false, if_true]
  rfl

theorem serW_of_neither {n : Nat} {a b : Word} (h : ¬ laterThan n a.toNat b.toNat = true) (h' : ¬ laterThan n b.toNat a.toNat = true) :
    serW n a b = 0 := by
  rw [serW, if_neg h, if_neg h']

/-! Targets of branches and jumps (R82). -/

/-- Four times a signed offset, as the model shifts it. -/
theorem signExtend_shiftLeft_two {w : Nat} (x : BitVec w) : x.signExtend 64 <<< 2 = BitVec.ofInt 64 (4 * x.toInt) := by
  rw [BitVec.ofInt_mul, BitVec.shiftLeft_eq_mul_twoPow, BitVec.mul_comm]
  rfl

/-- Shifting the low two bits out and zeros in clears them. -/
theorem ushiftRight_shiftLeft_two (x : Word) : x >>> 2 <<< 2 = x &&& ~~~3#64 := by
  apply BitVec.eq_of_getLsbD_eq
  intro i hi
  have hmask : (3#64).getLsbD i = (decide (i < 64) && decide (i < 2)) := getLsbD_low_mask 2 i
  rw [BitVec.getLsbD_shiftLeft, BitVec.getLsbD_ushiftRight, BitVec.getLsbD_and, BitVec.getLsbD_not, hmask]
  by_cases h2 : i < 2
  · simp [h2]
  · simp [h2, hi, show 2 + (i - 2) = i by omega]

/-! Instructions of a ready thread. -/

/-- Thread `t` at another PC, all else as it was. -/
def State.goto (s : State) (t : Nat) (x : Word) : State := s.updThread t (fun th => { th with pc := x })

@[simp] theorem goto_thread (s : State) (t : Nat) (x : Word) : (s.goto t x).thread t = { s.thread t with pc := x } :=
  thread_updThread_same s t _

@[simp] theorem goto_inCode (s : State) (t u a : Nat) (x : Word) : (s.goto t x).inCode u a = s.inCode u a := rfl

section
variable {s : State} {t : BitVec 8} {rd rs1 rs2 : BitVec 5} {i : Instr} {v : Word}

/-- An integer operation on two registers retires with its value. -/
theorem exec_alu2_ready {f : Word → Word → Word} (h : s.Ready t.toNat) (hi : exec i s = .next (s.alu2 t rd rs1 rs2 f))
    (hv : f (s.g t.toNat rs1.toNat) (s.g t.toNat rs2.toNat) = v) : exec i s = .next (s.retire t.toNat rd.toNat v) := by
  rw [hi, State.alu2, issue_ready h, hv, apply_put]

theorem exec_alu1_ready {f : Word → Word} (h : s.Ready t.toNat) (hi : exec i s = .next (s.alu1 t rd rs1 f))
    (hv : f (s.g t.toNat rs1.toNat) = v) : exec i s = .next (s.retire t.toNat rd.toNat v) := by
  rw [hi, State.alu1, issue_ready h, hv, apply_put]

theorem exec_aluI_ready {imm : BitVec 16} {f : Word → BitVec 16 → Word} (h : s.Ready t.toNat)
    (hi : exec i s = .next (s.aluI t rd rs1 imm f)) (hv : f (s.g t.toNat rs1.toNat) imm = v) :
    exec i s = .next (s.retire t.toNat rd.toNat v) := by
  rw [hi, State.aluI, issue_ready h, hv, apply_put]

/-- A serial comparison of width `n` writes 1, all ones or 0 as R78 says, by the distance of R12. -/
theorem exec_serW_ready {n : Nat} (hn : 1 ≤ n) (h : s.Ready t.toNat) (hi : exec i s = .next (s.alu2 t rd rs1 rs2 (serW n))) :
    (laterThan n (s.g t.toNat rs1.toNat).toNat (s.g t.toNat rs2.toNat).toNat = true →
      exec i s = .next (s.retire t.toNat rd.toNat 1)) ∧
    (laterThan n (s.g t.toNat rs2.toNat).toNat (s.g t.toNat rs1.toNat).toNat = true →
      exec i s = .next (s.retire t.toNat rd.toNat 0xFFFFFFFFFFFFFFFF#64)) ∧
    (¬ laterThan n (s.g t.toNat rs1.toNat).toNat (s.g t.toNat rs2.toNat).toNat = true ∧
        ¬ laterThan n (s.g t.toNat rs2.toNat).toNat (s.g t.toNat rs1.toNat).toNat = true →
      exec i s = .next (s.retire t.toNat rd.toNat 0)) :=
  ⟨fun hl => exec_alu2_ready h hi (serW_of_later hl), fun he => exec_alu2_ready h hi (serW_of_earlier hn he),
    fun hneither => exec_alu2_ready h hi (serW_of_neither hneither.1 hneither.2)⟩

/-- A branch goes to its target if its comparison holds, and else to the next word. -/
theorem exec_branch_ready {ra rb : BitVec 5} {off : BitVec 16} {f : Word → Word → Bool} {c : Bool} (h : s.Ready t.toNat)
    (hi : exec i s = .next (s.branch t ra rb off f)) (hc : f (s.g t.toNat ra.toNat) (s.g t.toNat rb.toNat) = c) :
    exec i s = .next (s.goto t.toNat (if c then (s.thread t.toNat).pc + BitVec.ofInt 64 (4 * off.toInt)
      else (s.thread t.toNat).pc + 4)) := by
  rw [hi, State.branch, issue_ready h, hc, signExtend_shiftLeft_two]
  cases c <;> rfl

end

/-- At a PC outside the Code region the next instruction takes FETCH there (R45, R82); at a Hatch or queue table address as well
(assumption log 76). -/
theorem issue_goto_outside_code {s : State} {t : Nat} {target : Word} (hissue : (s.goto t target).canIssue t = true)
    (hbreak : (s.goto t target).atBreak t = false) (hwdog : (s.thread t).wdog = false) (hcode : s.inCode t target.toNat = false)
    (body : State → Body) : (s.goto t target).issue t body = (s.goto t target).trap t 0x07 target target := by
  simp [State.issue, hissue, hbreak, hwdog, State.fetchBarred, State.canFetch, hcode, vecFetch]

/-- Settles O4: each operation retires with its function of the two registers, and that function is the table's value. -/
theorem registerOperationsWriteTheirResult : Obligations.RegisterOperationsWriteTheirResult := by
  unfold Obligations.RegisterOperationsWriteTheirResult
  intro t rd rs1 rs2 s h a b sh ones
  have hsh : sh < 64 := Nat.mod_lt _ (by decide)
  constructor
  · -- In the table's order; `rfl` stands where the model's function is the table's formula.
    simp only [List.forall_mem_cons, List.not_mem_nil, false_imp_iff, implies_true, and_true]
    exact ⟨exec_alu2_ready h rfl rfl, exec_alu2_ready h rfl rfl, exec_alu2_ready h rfl rfl, exec_alu2_ready h rfl rfl,
      exec_alu2_ready h rfl rfl, exec_alu2_ready h rfl rfl,
      exec_alu2_ready h rfl rfl, exec_alu2_ready h rfl rfl, exec_alu2_ready h rfl (sshiftRight_eq_ofInt_div a sh),
      exec_alu2_ready h rfl (rotateRight_eq_or a hsh),
      exec_alu2_ready h rfl (bw_slt a b), exec_alu2_ready h rfl (bw_ult a b),
      exec_alu2_ready h rfl (ite_slt_eq_ite_toInt_le id), exec_alu2_ready h rfl (ite_slt_eq_ite_toInt_le Eq.symm),
      exec_alu2_ready h rfl (ite_ult_eq_ite_toNat_le id), exec_alu2_ready h rfl (ite_ult_eq_ite_toNat_le Eq.symm),
      exec_alu2_ready h rfl (mul_eq_ofNat a b), exec_alu2_ready h rfl rfl, exec_alu2_ready h rfl rfl,
      exec_alu2_ready h rfl (sdivW_eq a b), exec_alu2_ready h rfl (udivW_eq a b),
      exec_alu2_ready h rfl (sremW_eq a b), exec_alu2_ready h rfl (uremW_eq a b),
      exec_alu1_ready h rfl (clzW_eq a), exec_alu1_ready h rfl (ctzW_eq a), exec_alu1_ready h rfl (popcW_eq a),
      exec_alu1_ready h rfl (bswapW_eq a)⟩
  · simp only [List.forall_mem_cons, List.not_mem_nil, false_imp_iff, implies_true, and_true, ← laterThan_iff]
    exact ⟨exec_serW_ready (by decide) h rfl, exec_serW_ready (by decide) h rfl, exec_serW_ready (by decide) h rfl,
      exec_serW_ready (by decide) h rfl⟩

/-- Settles O5: each operation retires with its function of the register and the immediate, and that function is the table's value. -/
theorem immediateOperationsWriteTheirResult : Obligations.ImmediateOperationsWriteTheirResult := by
  unfold Obligations.ImmediateOperationsWriteTheirResult
  intro t rd rs1 imm sh s h a sx zx
  simp only [List.forall_mem_cons, List.not_mem_nil, false_imp_iff, implies_true, and_true]
  exact ⟨exec_aluI_ready h rfl rfl, exec_aluI_ready h rfl rfl, exec_aluI_ready h rfl rfl, exec_aluI_ready h rfl rfl,
    exec_aluI_ready h rfl (bw_slt a sx), exec_aluI_ready h rfl (bw_ult a sx),
    exec_alu1_ready h rfl rfl, exec_alu1_ready h rfl rfl, exec_alu1_ready h rfl (sshiftRight_eq_ofInt_div a sh.toNat),
    exec_aluI_ready h rfl rfl, exec_aluI_ready h rfl rfl⟩

/-- Settles O14: a taken branch and a jump leave the thread at their target, and a thread outside its Code region takes FETCH there. -/
theorem branchesAndJumpsMoveThePc : Obligations.BranchesAndJumpsMoveThePc := by
  unfold Obligations.BranchesAndJumpsMoveThePc
  intro t ra rb off off21 s h pc a b go
  refine ⟨?branches, ?jal, ?jalr, ?fetch⟩
  case branches =>
    simp only [List.forall_mem_cons, List.not_mem_nil, false_imp_iff, implies_true, and_true]
    exact ⟨exec_branch_ready h rfl rfl, exec_branch_ready h rfl rfl, exec_branch_ready h rfl rfl,
      exec_branch_ready h rfl (not_slt_eq_decide a b), exec_branch_ready h rfl rfl, exec_branch_ready h rfl (not_ult_eq_decide a b)⟩
  case jal =>
    change Host.Outcome.next _ = _
    rw [issue_ready h, signExtend_shiftLeft_two]
    rfl
  case jalr =>
    change Host.Outcome.next _ = _
    rw [issue_ready h, ushiftRight_shiftLeft_two]
    rfl
  case fetch =>
    obtain ⟨-, hwdog, -⟩ := h
    intro target body hissue hbreak hcode
    exact issue_goto_outside_code hissue hbreak hwdog hcode body

end Sys2Proof.Machine
end
